-- ==== Sys2Proof/Word.lean ====
section
/-!
DEFINITION. Word types of the LGF48 model and their plainest arithmetic (00 R9, R11, R13).
-/
namespace Sys2Proof

/-- One byte of a wire field; multi-byte fields are most significant byte first (R13). -/
abbrev Byte := BitVec 8
/-- One shared signal, local register or 32-bit object. -/
abbrev Word := BitVec 32
/-- One table step, lane payload word or 64-bit object. -/
abbrev DWord := BitVec 64

/-- Limit an integer to `lo..hi`; `lo` wins when the bounds cross. -/
def clampInt (lo hi x : Int) : Int := max lo (min hi x)

/-- Floor division: what truncation toward minus infinity gives (R170). -/
def floorDiv (a b : Int) : Int := Int.fdiv a b

/-- Division rounded to the nearest integer, a half upward. -/
def roundDiv (a b : Int) : Int := Int.fdiv (2 * a + b) (2 * b)

/-- Bit `n` of a natural number. -/
def natBit (x n : Nat) : Bool := x.testBit n

/-- A Boolean as one bit. -/
def b2n (b : Bool) : Nat := if b then 1 else 0

/-- The `n` low bytes of a natural number, most significant byte first (R13). -/
def beBytes : Nat → Nat → List Byte
  | 0, _ => []
  | n + 1, x => BitVec.ofNat 8 (x / 256 ^ n) :: beBytes n x

/-- The natural number a list of bytes spells, most significant byte first (R13). -/
def beNat (bs : List Byte) : Nat := bs.foldl (fun a b => a * 256 + b.toNat) 0

/-- The natural number of a list of flags, bit 0 first. -/
def bitsNat : List Bool → Nat
  | [] => 0
  | b :: bs => b2n b + 2 * bitsNat bs

end Sys2Proof
end

