-- ==== Sys2Proof/Syntax.lean ====
section
/-!
DEFINITION. The commands of the LGF48: one constructor of `Instr` per row of spec/opcode_table.json, with the
row's operands. Operand structures keep the fields of the wire formats and the facts an external event carries.
-/
namespace Sys2Proof

/-- Lane L00 to L47 (R4). -/
abbrev LaneId := Fin 48
/-- Arm 0 to 5: A-up, A-lo, B-up, B-lo, C-up, C-lo (R4). -/
abbrev ArmId := Fin 6
/-- Cell index within a lane (R4). -/
abbrev CellIx := Fin 64
/-- Trip input TI00 to TI15. -/
abbrev TripIn := Fin 16
/-- Engine E0 to E15, physical or logical as the place says (R160). -/
abbrev EngineId := Fin 16

/-- Converter states (R29), coded as ESC_STATE[2:0] (R162). -/
inductive ConvState where
  | idle | precharge | ready | run | scs | pr
  deriving DecidableEq, Repr

/-- Cell states, 2-bit codes 0b00 to 0b11 (00, Names). -/
inductive CellState where
  | block | bypass | insertPos | insertNeg
  deriving DecidableEq, Repr

/-- The fast samples one tick adds to one input (R220): the converter codes of the apertures at
+140, +190 and +240 ns of the previous tick and +40 and +90 ns of this one, oldest first; and the readings of VANA (R233), VIO (R391) and
the feeds (R350), in mV. -/
structure TickInputs where
  samples : List (List (BitVec 16))
  vanaMv  : Nat
  vioMv   : Nat
  feedAMv : Nat
  feedBMv : Nat
  deriving DecidableEq, Repr

/-- Body of an uplink frame (R144). -/
inductive UplinkBody where
  | telem (reports : List Word)
  | ident (w1 w2 : DWord)
  | keepalive
  deriving DecidableEq, Repr

/-- A valid uplink frame, as the module reads it from its blocks (R144 to R147). -/
structure UplinkFrame where
  laneField : BitVec 6
  tick      : DWord
  status    : DWord
  body      : UplinkBody
  deriving DecidableEq, Repr

/-- One block of a lane (R134): its sync header, the type of a control block, and the payload, of which a control block has 56 bits. -/
structure LaneBlock where
  sync    : BitVec 2
  ty      : Byte
  payload : DWord
  deriving DecidableEq, Repr

/-- The valid samples on the kernel's own link in one microsecond (R297): arm and current in 0.0001 pu. -/
abbrev ArmSamples := List (Fin 6 × Int)

/-- The step at which a residue check fails, and whether it saturates in the tick (R191). -/
structure ResidueStep where
  step      : Nat
  saturates : Bool
  deriving DecidableEq, Repr

/-- A scheduled point of an emitter switch (R299): the milliseconds since its last one and since the last one of the other switch. -/
structure EmitterPoint where
  low     : Bool
  sinceMs : Nat
  apartMs : Nat
  deriving DecidableEq, Repr

/-- A scheduled point of an SO switch (SO1H, SO1L, SO2H, SO2L): the milliseconds since its last one and since the last SO pulse (R299). -/
structure SoPoint where
  sw      : Fin 4
  sinceMs : Nat
  apartMs : Nat
  deriving DecidableEq, Repr

/-- What a lane's receiver takes between two gaps (R142, R144): when the frame arrived, in eighth-bits after the edge (R135), and its blocks, the
first received first. -/
structure LaneRx where
  arrival : Nat
  blocks  : List LaneBlock
  deriving DecidableEq, Repr

/-- A run of equal samples at a trip input (R123): its length, and whether it ended in the filter sample of the TRIP_EDGE before (R133). -/
structure TripRun where
  samples : Nat
  same    : Bool
  deriving DecidableEq, Repr

/-- Which quotients of a fit (R53) are rounded up, the others being rounded down; the spec states no rounding (log entry 12). -/
structure FitRounding where
  angle : Bool
  dev   : Bool
  mag   : Bool
  deriving DecidableEq, Repr

/-- What the integrating converter of one input gives over a window (R226), in the LSB of the result word. -/
structure AiWindow where
  mean      : Int
  ip        : Int
  qd        : Int
  deriving DecidableEq, Repr

/-- Ready flags of the start steps (R381), but for REF_OK, which the state of the two sources gives; `badRise`: in W2 a rise of LOCK_S has failed
its window (R240, R421). -/
structure StartFlags where
  ocxoOk : Bool
  railOk : Bool
  regLocked : Bool
  anaOk : Bool
  fastOk : Bool
  escOk : Bool
  badRise : Bool
  deriving DecidableEq, Repr

/-- A cycle of the loop's reference (R240, R241): its phase error in ps, and the µs since the slip detector last acted. -/
structure RefCycle where
  errorPs : Nat
  sinceUs : Nat
  deriving DecidableEq, Repr

/-- What a power-up meets: how long a feed has been present in ms (R343), whether the ROOT pin is strapped (R325), and the ready flags (R381). -/
structure PowerOn where
  presentMs : Nat
  strapped : Bool
  flags : StartFlags
  deriving DecidableEq, Repr

/-- The attributes of a master that the best master clock algorithm ranks (R247): the grandmaster's, and how far away it is. -/
structure PtpMaster where
  priority1 : Nat
  clockClass : Nat
  accuracy : Nat
  variance : Nat
  priority2 : Nat
  gmIdentity : DWord
  steps : Nat
  deriving DecidableEq, Repr

/-- A PTP Announce message as the port sees it (R247): its domain, the port that sends it, what it announces, and the UTC fields (R245). -/
structure Announce where
  domain : Nat
  sender : DWord
  master : PtpMaster
  utcOffset : Int
  utcValid : Bool
  deriving DecidableEq, Repr

/-- Source address and port of a datagram (R353). -/
structure Peer where
  ip   : Word := 0
  port : BitVec 16 := 0
  deriving DecidableEq, Repr

/-- SEQ of a host-link frame, and the source of its datagram (R353, R355). -/
structure FrameNo where
  n    : Nat
  peer : Peer := {}
  deriving DecidableEq, Repr

/-- The nonce of a HELLO, and the source of its datagram (R353, R354). -/
structure HelloFrame where
  nh   : List Byte
  peer : Peer := {}
  deriving DecidableEq, Repr

/-- A mailbox and the place of a response among its unacknowledged ones, the oldest first (R364). -/
structure UnackedAt where
  mb : Fin 8
  k  : Nat
  deriving DecidableEq, Repr

/-- Header of a mailbox message (R353, R362): the session it belongs to, its frame number, the mailbox, the
message's TAG, and whether LEN agrees with the parameters. -/
structure Msg where
  session : Word
  seq : FrameNo
  mb : Fin 8
  tag : BitVec 16
  lenOk : Bool
  deriving DecidableEq, Repr

/-- A value of an object (R369). -/
inductive ObjVal where
  | num (v : Int)
  | time (sec ns : Nat)
  | str (bytes : List Byte)
  deriving DecidableEq, Repr

/-- One entry of OBJ_WRITE or OBJ_WRITE_SET (R368). -/
structure ObjEntry where
  index : BitVec 16
  ty : Byte
  value : ObjVal
  deriving DecidableEq, Repr

/-- A schedule key (R252): TYPE, OPTIONS, SKIP and the 12 bytes of VALUE. -/
structure SchedKey where
  ty : Byte
  options : Byte
  skip : BitVec 16
  value : BitVec 96
  deriving DecidableEq, Repr

/-- One fragment of TABLE_LOAD (R371). `conforms` is no wire field: it says that the image is one whose steps
implement the laws of chapters 02, 03, 04 and 08 exactly as stated (R179), so that the model carries them by
those laws (log entry 6). -/
structure Fragment where
  transfer : BitVec 16
  flags : Byte
  offset : Nat
  data : List Byte
  conforms : Bool
  deriving DecidableEq, Repr

/-- The commands of the Asrov set (R368), as a mailbox holds them; `bad` is a message that is answered with an error
when its turn comes: its length, its opcode or the key of its session does not permit it (R355, R362, R366). -/
inductive HostCmd where
  | objRead (indices : List (BitVec 16))
  | objWrite (e : ObjEntry)
  | objWriteSet (key : SchedKey) (es : List ObjEntry)
  | tableLoad (f : Fragment)
  | tableSwap (key : SchedKey)
  | engineSpare (mode engine : Byte)
  | convState (key : SchedKey) (target : Byte)
  | handsTarget (key : SchedKey) (axes options : Byte) (targets : List Int)
  | settingStart
  | chronoArm (options : Byte)
  | chronoRead (recordId : Nat) (part options : Byte) (offset length : Nat)
  | logRead (ring max : Byte) (fromSeq : Word)
  | pstateReq (state level : Byte) (flags : StartFlags)
  | fwBegin (target : Byte) (length : Nat)
  | fwData (offset : Nat) (data : List Byte)
  | fwEnd
  | fwActivate (target : Byte)
  | safetySession (sub : Byte) (crc : Word)
  | bad (status : Byte)
  deriving DecidableEq, Repr

/-- Why a host-link datagram is bad (R353, R355). -/
inductive BadFrame where
  | format | noSession | authTag | oldSeq
  deriving DecidableEq, Repr

/-- Sources that wake the module (R389), in the order of the WAKE_MASK bits; a limit input by its number. -/
inductive WakeSource where
  | trip | lim (n : Fin 8) | safety | feed | vana
  deriving DecidableEq, Repr

/-- What may wake a sleeping module (R389): a TI or LIM pin with its level and how long it has stood, in µs, or another source's event. -/
inductive WakeFact where
  | trip (n : TripIn) (pin : Bool) (runUs : Nat)
  | lim (n : Fin 8) (pin : Bool) (runUs : Nat)
  | safety | feed | vana
  deriving DecidableEq, Repr

/-- One command to the block: one constructor per row of spec/opcode_table.json. -/
inductive Instr where
  | tickEdge (x : TickInputs)
  | prechargeComplete
  | frtStart
  | frtEnd
  | dcfDetect
  | dcfRearm
  | dcfEnd
  | enrgEnd
  | gtCoastStart
  | gtAcquireStart
  | gtReacquired (fit : FitRounding)
  | cellStale (lane : LaneId) (cell : CellIx)
  | cellLost (lane : LaneId) (cell : CellIx)
  | setPermit
  | setTimeout
  | limEdge (n : Fin 8) (level : Bool) (run : Nat)
  | limQuietExpired (n : Fin 8)
  | tripEdge (n : TripIn) (pin : Bool) (run : TripRun)
  | tripInactiveEdge (n : TripIn) (pin : Bool) (run : Nat)
  | engineResidueError (phys : EngineId) (step : ResidueStep)
  | engineSignatureError (phys : EngineId)
  | migrateEnd
  | spareFault (phys : EngineId)
  | coefGroupApply
  | tableSwapApply
  | tableVerifyDone
  | schedActionDue
  | chrRecordDone
  | chrHoldoffExpired
  | logWindowEnd
  | windowBoundary (up : Bool)
  | windowResult (ovl : List Bool) (ai : List AiWindow)
  | fallbackPowerUp
  | vanaLost (mv : Nat) (ticks : Nat)
  | vanaPresent (mv : Nat) (ticks : Nat)
  | vanaLowChange (mv : Nat) (ticks : Nat)
  | refMonitorCheck (reading : Int)
  | vanaOrder
  | uplinkFrameRx (lane : LaneId) (f : LaneRx)
  | laneDelaySet (lane : LaneId)
  | laneRxTimeout (lane : LaneId)
  | delayStep (lane : LaneId)
  | refLoss (refclk : Bool) (missing : Nat)
  | refGood (refclk : Bool) (cleanUs : Nat)
  | regLockDeclared (riseUs : Nat) (aonCount : Option Nat)
  | regSlip (c : RefCycle)
  | rampStart
  | ptpSyncRx (domain : Nat) (intervalNs : Nat) (offset : Int) (ratio : Int)
  | ptpAnnounceRx (a : Announce)
  | ptpPdelayReqRx (domain : Nat) (requester : List Byte) (turnaroundNs : Nat)
  | ptpPdelayRespRx (domain : Nat) (meanDelay : Nat)
  | ptpDelayRespRx (domain : Nat) (meanDelay : Nat)
  | ptpDelayReqTx
  | ptpSyncTimeout
  | ptpAnnounceTimeout
  | holdoverExpired (heldS : Nat)
  | trainFrameRx (west : Bool) (arrival : Int) (f : List LaneBlock)
  | trainHeartbeatRx (slot : DWord)
  | trainJoinRx (slot : DWord)
  | trainGrantRx (slot : DWord)
  | trainArmRx (src : Fin 32) (slot : DWord)
  | trainDisarmRx (src : Fin 32) (slot : DWord)
  | trainFireRx (src : Fin 32) (fire1 fire2 : DWord)
  | trainPortDown (west : Bool)
  | ringClosed
  | actingRoot
  | heartbeatLost
  | pairLinkLost
  | takeover
  | leaderLanesLost
  | abdicateFailed
  | reversion (readyS : Nat)
  | shadowGraceExpired
  | feedPresent (b : Bool) (mv ms : Nat)
  | feedAbsent (b : Bool) (mv us otherMv : Nat)
  | feedLossPrDelay
  | holdupExpired
  | feedRecoveryTest (presentS : Nat)
  | feedStartupTest
  | feedTestDone (vminMv imaxMa : Nat)
  | supWatchdogExpiry
  | supStart
  | fwFallback
  | powerUp (x : PowerOn)
  | wakeRetry (flags : StartFlags)
  | resetAssert (lowUs : Nat)
  | resetRelease (heldMs : Nat) (strapped : Bool) (flags : StartFlags)
  | pstateReqSleep (m : Msg) (state : Byte)
  | pstateReqWake (m : Msg) (level : Byte) (flags : StartFlags)
  | pstateReqLevel (m : Msg) (level : Byte)
  | wakeEvent (src : WakeFact) (flags : StartFlags)
  | safetyInputChange (n : Fin 8) (chB : Bool) (level : Bool) (runUs : Nat)
  | siDiscrepancy (n : Fin 8) (ms : Nat)
  | restartAckPress (n : Fin 8) (ms : Nat)
  | kernelTiChange (n : TripIn) (level : Bool) (runUs : Nat)
  | vioLost (mv ms : Nat)
  | vioPresent (mv ms : Nat)
  | scsMonitorCheck (samples : List ArmSamples) (us : Nat)
  | sampleLinkLost (us : Nat)
  | sampleLinkRestored (ms : Nat)
  | emitterTest (low : EmitterPoint) (fallNs : Nat) (recovered : Bool) (readMv : Nat) (demandDuring : Bool)
  | soTest (sw : SoPoint) (readMv vioMv : Nat) (otherChanged : Bool) (demandDuring : Bool)
  | sfPeriodicTx
  | sfFrameRx (snb : Bool) (payload : List Byte) (sinceUs : Nat)
  | sfAcceptTimeout (addr : Fin 32)
  | sfWatchdog (addr : Fin 32) (us : Nat)
  | startTestDone (pass : Bool) (item : Byte)
  | coreMismatch
  | tickMissing (us : Nat)
  | safetyKeyChange (closed : Bool) (ms : Nat)
  | sessionInactivity (idleS : Nat)
  | hello (nonce : HelloFrame) (slot : Byte)
  | prove (session : Word) (mac : List Byte) (srcIp : Peer)
  | proveTimeout (session : Word)
  | hlSessionTimeout (session : Word) (idleS : Nat)
  | hlClose (session : Word) (seq : FrameNo)
  | regRead (session : Word) (seq : FrameNo) (addr : Word) (count : Nat)
  | regWriteOther (session : Word) (seq : FrameNo) (addr value : Word)
  | doorbellAck (session : Word) (seq : FrameNo) (bits : Byte)
  | doorbellFlush (session : Word) (seq : FrameNo) (bits : Byte)
  | mbRespRetransmit (mb : UnackedAt)
  | mbRespDiscard (mb : Fin 8)
  | mbCmdBound (mb : Fin 8)
  | objRead (m : Msg) (indices : List (BitVec 16))
  | objWrite (m : Msg) (e : ObjEntry)
  | objWriteSet (m : Msg) (key : SchedKey) (es : List ObjEntry)
  | tableLoad (m : Msg) (f : Fragment)
  | tableLoadAbandon
  | tableSwap (m : Msg) (key : SchedKey)
  | engineSpareMigrate (m : Msg) (engine : Byte)
  | engineSpareRetest (m : Msg) (engine : Byte)
  | convState (m : Msg) (key : SchedKey) (target : Byte)
  | handsTarget (m : Msg) (key : SchedKey) (axes options : Byte) (targets : List Int)
  | settingStart (m : Msg)
  | chronoArm (m : Msg) (repeatOpt trainOpt : Bool)
  | chronoDisarm (m : Msg) (trainOpt : Bool)
  | chronoForce (m : Msg)
  | chronoRead (m : Msg) (recordId : Nat) (part options : Byte) (offset length : Nat)
  | logRead (m : Msg) (ring max : Byte) (fromSeq : Word)
  | fwBegin (m : Msg) (target : Byte) (length : Nat)
  | fwData (m : Msg) (offset : Nat) (data : List Byte)
  | fwEnd (m : Msg)
  | fwActivate (m : Msg) (target : Byte)
  | safetySessionOpen (m : Msg)
  | safetySessionCommit (m : Msg) (crc : Word)
  | safetySessionClose (m : Msg)
  | coefWrite (m : Msg) (value : DWord)
  | tripClear (m : Msg) (bitmap : BitVec 16)
  | tripArmsWrite (m : Msg) (n : TripIn) (mask : Byte)
  | cellExclude (m : Msg) (number : BitVec 16)
  | cellReadmit (m : Msg) (number : BitVec 16)
  | limChatClear (m : Msg) (bitmap : Byte)
  | driftClear (m : Msg) (bitmap : Word)
  | setEndClosed (m : Msg)
  | setEndCancel (m : Msg)
  | dcfRecover (m : Msg)
  | pairYield (m : Msg)
  | feedTest (m : Msg) (bitmap : Byte)
  | trainAddrClear (m : Msg)
  | laneCntClear (m : Msg) (bitmap : DWord)
  | schedCancel (m : Msg) (id : Word)
  | logAck (m : Msg) (seqNo : Word)
  | rampCmd (m : Msg) (value : DWord)
  | modEnableWrite (m : Msg) (value : Bool)
  | laneEnWrite (m : Msg) (lane : LaneId) (value : Bool)
  | regModeWrite (m : Msg) (ramp : Bool)
  | regRefWrite (m : Msg) (refclk : Bool)
  | regTrimWrite (m : Msg) (value : Int)
  | sparesWrite (m : Msg) (n : Byte)
  | lockLossDeclared (mv : Nat)
  | soOvercurrent (so2 : Bool) (ma : Nat)
  | trainPortUp (west : Bool) (goodFrames : Nat)
  | hlRxBadFrame (session : Word) (why : BadFrame) (srcIp : Word)
  | mbMsgBadOpcode (m : Msg) (opcode : BitVec 16)
  | ptpMasterTx
  | ptpManagementRx (domain : Nat) (dataset : BitVec 16) (write : Bool)
  deriving DecidableEq, Repr

end Sys2Proof
end

