-- ==== Sys2Proof/Decode.lean ====
section
/-!
DEFINITION. The command a table word spells. The opcode table of the LGF48 gives no row any bits (the commands are events,
frames and mailbox messages, not words), so no word spells a command.
-/
namespace Sys2Proof

/-- The rows of the opcode table that give bits: none. -/
def tableRows : List (Nat × Nat × Instr) := []

/-- The command whose row has `nbits` bits and the word `w`. -/
def decodeTableWord (nbits w : Nat) : Option Instr :=
  (tableRows.find? fun r => r.1 == nbits && r.2.1 == w).map fun r => r.2.2

end Sys2Proof
end

