-- ==== Sys2Proof/Machine/Crypto.lean ====
section
/-!
DEFINITION. Check values and keys: CRC-32C (R139), and SHA-256 with its keyed form (R353, R354), the latter from FIPS 180-4 and
RFC 2104, which the spec names and does not copy (log entry 11).
-/
namespace Sys2Proof.Machine

/-! ### CRC-32C -/

/-- Castagnoli polynomial 0x1EDC6F41, bit-reversed as RFC 3720 processes it. -/
def crcPoly : BitVec 32 := 0x82F63B78

/-- Eight shifts of the register. -/
def crcShift (c : BitVec 32) : Nat → BitVec 32
  | 0 => c
  | n + 1 => crcShift (if c.getLsbD 0 then (c >>> 1) ^^^ crcPoly else c >>> 1) n

/-- One byte. -/
def crcByte (c : BitVec 32) (b : Byte) : BitVec 32 := crcShift (c ^^^ b.setWidth 32) 8

/-- CRC-32C with an initial value; the final XOR is 0xFFFF_FFFF. -/
def crc32c (init : BitVec 32) (bs : List Byte) : BitVec 32 := bs.foldl crcByte init ^^^ 0xFFFFFFFF

/-! ### SHA-256

The words of the standard are computed from the numbers it draws them from, and the eight working words are kept as two lines of four,
newest first: a round puts one word at the front of each. -/

/-- The largest number of `n` bits, from the bits of `r` on, whose `k`-th power is at most `x`. -/
def rootBits (k x : Nat) : Nat → Nat → Nat
  | 0, r => r
  | n + 1, r => rootBits k x n (if (r + 2 ^ n) ^ k ≤ x then r + 2 ^ n else r)

/-- The first 32 bits of the fraction of the `k`-th root of a number below 2^16. -/
def rootFraction (k p : Nat) : Word := BitVec.ofNat 32 (rootBits k (p * 2 ^ (32 * k)) 48 0)

/-- The first 64 primes. -/
def shaPrimes : List Nat := (List.range 312).filter fun p => 2 ≤ p && (List.range 18).all fun d => d < 2 || p = d || p % d ≠ 0

/-- Start words: from the square roots of the first eight primes. -/
def shaStart : List Word × List Word := ((shaPrimes.take 4).map (rootFraction 2), ((shaPrimes.drop 4).take 4).map (rootFraction 2))
/-- Round words: from the cube roots of the first 64 primes. -/
def shaKeys : List Word := shaPrimes.map (rootFraction 3)

/-- Sum without carry of a word's rotations to the right, and of `z`. -/
def turned (x : Word) (by_ : List Nat) (z : Word) : Word := by_.foldl (fun acc n => acc ^^^ x.rotateRight n) z

/-- The message words that follow, `n` of them; the list holds the newest first. -/
def shaExpand : Nat → List Word → List Word
  | 0, w => w
  | n + 1, w =>
    let x := w.getD 14 0
    let y := w.getD 1 0
    shaExpand n ((turned x [7, 18] (x >>> 3) + turned y [17, 19] (y >>> 10) + w.getD 6 0 + w.getD 15 0) :: w)

/-- One round: `u` and `v` are the two lines, `m` the message word with its round word. -/
def shaRound (r : List Word × List Word) (m : Word) : List Word × List Word :=
  let u := fun n => r.1.getD n 0
  let v := fun n => r.2.getD n 0
  let chosen := v 2 ^^^ (v 0 &&& (v 1 ^^^ v 2))
  let most := (u 0 &&& u 1) ||| (u 2 &&& (u 0 ||| u 1))
  let t := m + v 3 + chosen + turned (v 0) [6, 11, 25] 0
  (((t + most + turned (u 0) [2, 13, 22] 0) :: r.1).take 4, ((u 3 + t) :: r.2).take 4)

/-- Words of a list of bytes, most significant byte first. -/
def wordsOf : List Byte → List Word
  | a :: b :: c :: d :: l => BitVec.ofNat 32 (beNat [a, b, c, d]) :: wordsOf l
  | _ => []

/-- One block of 16 words. -/
def shaBlock (h : List Word × List Word) (block : List Word) : List Word × List Word :=
  let keyed := List.zipWith (· + ·) shaKeys (shaExpand 48 block.reverse).reverse
  let r := keyed.foldl shaRound h
  (List.zipWith (· + ·) h.1 r.1, List.zipWith (· + ·) h.2 r.2)

/-- All blocks of a message of whole blocks, `n` of them. -/
def shaBlocks : Nat → List Word × List Word → List Word → List Word × List Word
  | 0, h, _ => h
  | n + 1, h, ws => shaBlocks n (shaBlock h (ws.take 16)) (ws.drop 16)

/-- SHA-256 of a list of bytes. -/
def sha256 (m : List Byte) : List Byte :=
  let zeros := 63 - (m.length + 8) % 64
  let padded := m ++ [0x80] ++ List.replicate zeros 0 ++ beBytes 8 (8 * m.length)
  let h := shaBlocks (padded.length / 64) shaStart (wordsOf padded)
  (h.1 ++ h.2).flatMap fun w => beBytes 4 w.toNat

/-- A key as one block, each byte with `x` added without carry. -/
def keyBlock (k : List Byte) (x : Byte) : List Byte :=
  let short := if k.length ≤ 64 then k else sha256 k
  (List.range 64).map fun n => short.getD n 0 ^^^ x

/-- HMAC-SHA-256. -/
def hmac (k m : List Byte) : List Byte := sha256 (keyBlock k 0x5C ++ sha256 (keyBlock k 0x36 ++ m))

end Sys2Proof.Machine
end

