-- ==== Sys2Proof/Config.lean ====
section
/-!
DEFINITION. What one module fixes, and the free values: constants with no body, so that no proof can see a number.
A function of a `Nat` is applied to `State.free`, a counter the model advances, or to the operand named.
-/
namespace Sys2Proof.Config

/-- Serial number of the delivery sheet (R375); left open by the spec (log entry 3). -/
opaque serial : Word
/-- Major and minor hardware revision, and HW_REV, whose low half is 0 (R375). -/
opaque revision : BitVec 16
def hwRev : Word := revision.setWidth 32 <<< 16
/-- Part number: false JV-LGF48-A, true JV-LGF48-T (R1, R356). -/
opaque partT : Bool
/-- Running supervisor firmware as delivered, R375. -/
opaque supFw : Word
/-- Running kernel firmware as delivered, R312. -/
opaque skFw : Word
/-- Delivery keys of the OP and RO slots, 32 bytes each (R354). -/
opaque keyOp : BitVec 256
opaque keyRo : BitVec 256
/-- Kernel starts since manufacture before this run (R303). -/
opaque bootBase : Nat
/-- Instant at which a copy of a safety frame leaves its port (R248), by the frame's BOOT and SEQ and the network, before its bound of one tick. -/
opaque sfDeparture : (boot seq net : Nat) → Nat
/-- A fresh module nonce of 16 bytes (R354). -/
opaque nonce : Nat → BitVec 128
/-- Where the search for a session identifier that is not in use begins (R353, R354). -/
opaque sessionId : Nat → Word
/-- Error of the angle unit in LSB, before the bound of 4 LSB on either side of the exact value (R43). -/
opaque sinErr : Word → Int
opaque cosErr : Word → Int
/-- Error of SQRT and DIV, before the bounds of R174. -/
opaque sqrtErr : Int → Int
opaque divErr : Int → Int → Int
/-- Error of the scale factor k, before the bound of R63. -/
opaque kErr : Int → Int → Int
/-- Damping ratio of the tracker's phase-locked loop, per unit, before its bounds (R51): the spec gives the bandwidth alone. -/
opaque pllDamping : Int
/-- ECDSA P-384 check of a firmware image by the key its trailer names (R372, R310). -/
opaque signatureValid : (kernel : Bool) → List Byte → Bool
/-- Version number a firmware image carries (R372). -/
opaque imageVersion : List Byte → Word
/-- Ticks steps E2, E3 and E4 of a sleep entry take, before the bounds of R388. -/
opaque entryTicks : Nat → Nat
/-- Which of the 16 ticks of a superframe begins at a block boundary of the lanes (R134). -/
opaque blockPhase : Nat
/-- The calibrated fixed latencies of a lane, in eighth-bits (R142). -/
opaque laneLatency : Nat → Int
/-- Part of a new delay measurement that the filter of R142 takes, in 2^-16, before its bounds. -/
opaque delayFilter : Nat
/-- Blocks of the frames in progress that have been sent when a block command cuts them (R143). -/
opaque blocksSent : Nat → Nat
/-- Resynchronisation value of OMEGA in ACQUIRING (R51). -/
opaque acqOmega : Nat → Int
/-- Whether the ramp-mode frequency clamp acts in a tick (R244): the spec gives the bound, not the loop. -/
opaque clampActing : Nat → Bool
/-- Clock accuracy and variance that the port ranks itself by (R247): the profiles fix them. -/
opaque clockAccuracy : Nat
opaque clockVariance : Nat
/-- Clock identity of the PTP port (R247). -/
opaque clockIdentity : DWord
/-- MAC-level facts of the module are outside the model. The temperature-compensated test table pass of an idle spare
and of RETEST (R194, R195): whether the built-in test passes. -/
opaque selfTestPass : Nat → Bool
/-- Entry the general ring's arbiter serves first after reset (R277). -/
opaque firstPort : Nat
/-- Load current at which a safety output opens, in mA, before its bounds of R412. -/
opaque soLimit : Nat
/-- The source address of the module's safety frames (R304). -/
opaque macAddress : BitVec 48
/-- Value of a result the spec states for no operand: an interpolation or quotient outside its rule. -/
opaque openValue : Nat → Int

end Sys2Proof.Config
end

