-- ==== Sys2Proof/Machine/State.lean ====
section
/-!
DEFINITION. The state of the LGF48 as plain data, one structure per block, with the reset value of each field beside
it, and the state right after reset. The object dictionary's writable values stand in `objs` (only those that differ
from the table's Default, Machine/Objects.lean); read-only objects are computed from the fields.
Counters are natural numbers here and are read modulo 2^32 or 2^64 (log entry 9).
Per-unit quantities of the control laws are integers in units of 2^-60 (R36, R86).
-/
namespace Sys2Proof.Machine

/-- Reasons the model stops with a fault. -/
inductive Fault where
  /-- Raised by every meaning through `guarded` when the command's operands do not have the shape the row's wire format
  gives (`Instr.wf`). Safe: no wire carries such a command. -/
  | illFormed
  deriving DecidableEq, Repr

/-- Reasons the model has no meaning for a command. -/
inductive Refusal where
  /-- Raised by `exec` for a row that has no meaning yet. Safe: nothing is claimed of it. -/
  | notModelled (mnemonic : String)
  deriving DecidableEq, Repr

/-- Pair roles (R330), coded as ESC_STATE[9:8]. -/
inductive PairRole where | solo | leader | standby
  deriving DecidableEq, Repr
/-- Power states (R357 POWER 0 to 4); entering is `Pwr.entry`. -/
inductive PowerState where | s0 | s1 | s2 | s3 | wakeFail
  deriving DecidableEq, Repr
/-- Time states (R249). -/
inductive TimeState where | free | locked | holdover
  deriving DecidableEq, Repr
/-- Grid angle tracker states (R51). -/
inductive GtState where | acquiring | locked | coasting
  deriving DecidableEq, Repr
/-- Lane states (R152, R157). -/
inductive LaneState where | off | seek | sync | up | parked | keepalive | fault
  deriving DecidableEq, Repr
/-- Chronograph states (R267). -/
inductive ChrState where | idle | armed | recording | holdoff
  deriving DecidableEq, Repr
/-- Train states (R347). -/
inductive TrainState where | none | joining | member | root
  deriving DecidableEq, Repr
/-- Why a cell is retired (R100), coded as CELL_RETIRED's reason. -/
inductive RetireReason where | fault | bypassed | lost | excluded
  deriving DecidableEq, Repr
/-- Where a written value waits (R18). -/
inductive ApplyPoint where | nextTick | stateChange | window | logWindow | bankSwap | setOnly | never
  deriving DecidableEq, Repr

/-- To whom the response of a command goes (R362, R363); `peer` is where its datagram came from (R353). -/
structure Reply where
  mb : Fin 8
  session : Word
  opcode : BitVec 16
  tag : BitVec 16
  peer : Peer := {}
  deriving DecidableEq, Repr

/-- A mailbox response (R362), and where it goes (R353). -/
structure Response where
  opcode : BitVec 16
  tag : BitVec 16
  status : Byte
  reason : Byte
  params : List Byte
  peer : Peer := {}
  deriving DecidableEq, Repr

/-- A frame the module sends on the host link (R353). -/
inductive HostOut where
  | challenge (session : Word) (nonce : List Byte)
  | welcome (session : Word) (mac : List Byte)
  | error (session : Word) (status : Byte)
  | regReadResp (session : Word) (addr : Word) (words : List Word)
  | regWriteResp (session : Word) (addr : Word)
  | mbResp (session : Word) (mb : Fin 8) (r : Response) (retransmit : Bool)
  deriving DecidableEq, Repr

/-- Tick counter (R14, R242). -/
structure Tick where
  now : Nat := 0
  next : Nat := 0
  started : Bool := false
  deriving DecidableEq, Repr

/-- Lateness: in ticks, and of a THETA key in 2^-32 turn of position too (R255). -/
structure Lateness where
  ticks : Nat
  turn : Int
  deriving DecidableEq, Repr

/-- A host or scheduled request for a transition (R30); `sched` is the scheduled action's identifier, flags and lateness. -/
structure ConvReq where
  target : ConvState
  reply : Option Reply
  sched : Option (Nat × Nat × Lateness)
  deriving DecidableEq, Repr

/-- Converter state machine (R29 to R31). `reqs` are the requests accepted, in order; `scsEnded` is the end of SCS as a PR demand,
`prechg` the automatic transition to READY that the next boundary takes. -/
structure Conv where
  state : ConvState := .pr
  reqs : List ConvReq := []
  tripMove : Bool := false
  modDisMove : Bool := false
  prechg : Bool := false
  scsEnded : Bool := false
  deriving DecidableEq, Repr

/-- The balance (R40 to R50). `acc` is the 64-bit phase accumulator, `lastStep` what the last edge added; `dw` is dw64, in units of
2^-63 (R173). -/
structure Balance where
  acc : DWord := 0
  lastStep : Nat := 0
  dw : Int := 0
  pf : Int := 0
  pdf : Int := 0
  qf : Int := 0
  vsq : Int := 0
  iv : Int := 0
  vref : Int := 0
  emag : Int := 0
  freqClamp : Bool := false
  freqClampPos : Bool := false
  eClamp : Bool := false
  freqClampCount : Nat := 0
  deriving DecidableEq, Repr

/-- What the tracker gathers over the qualifying cycle in progress (R53): `last` is the newest angle less the nominal rotation since
the cycle began, unwrapped, in 2^-64 turn; then the sums and extremes that the fit is formed from. -/
structure CycleFit where
  last : Int := 0
  sum : Int := 0
  sumK : Int := 0
  sumMag : Int := 0
  magMax : Int := 0
  magMin : Int := 0
  deriving DecidableEq, Repr

/-- The grid angle tracker (R51 to R54). `prev` and `lastStep` are the angle at the edge before the
last and the rotation to the last; `jumpFrom` and `jumpFwd` are the same for an edge at which the angle jumps. `pll` is the
integrator of the loop, per unit; `qualTicks` are the edges of the qualifying cycle so far, `fit` what they gave; `fitMag` is the
magnitude last fitted; `draw` numbers the free values of ACQUIRING, one an edge (log entry 3). -/
structure Tracker where
  state : GtState := .acquiring
  theta : DWord := 0
  prev : DWord := 0
  lastStep : Int := 0
  jumpFrom : DWord := 0
  jumpFwd : Int := 0
  draw : Nat := 0
  omega : Int := 0
  frozen : Int := 0
  coasted : Bool := false
  hist : List Int := []
  meanAtFall : Int := 0
  absentTicks : Nat := 0
  qualTicks : Nat := 0
  pll : Int := 0
  fit : CycleFit := {}
  fitMag : Nat := 0
  jumpLast : Int := 0
  jumpCount : Nat := 0
  jumpEdge : Bool := false
  jumpRos : Bool := false
  deriving DecidableEq, Repr

/-- The fusee, ride-through and energisation (R61 to R83). `dcfAssert` is the trip input that the DC-fault detector asserts (R75). -/
structure Fusee where
  i2 : Int := 0
  i3 : Int := 0
  heat : Int := 0
  win : Nat := 0
  k : Int := 0x7FFFFFFF
  mWin : Int := 0
  winChanges : Nat := 0
  frt : Bool := false
  frtStart : Nat := 0
  frtLow : Nat := 0
  frtHigh : Nat := 0
  frtCount : Nat := 0
  slipArmed : Bool := true
  slipRos : Bool := false
  slipCount : Nat := 0
  dcfArmed : Bool := false
  dcfLow : Nat := 0
  dcfHigh : Nat := 0
  dcfCount : Nat := 0
  dcfAssert : List Nat := []
  dcfActive : Bool := false
  dcfRecovering : Bool := false
  dcfU : Int := 0
  rideLost : Bool := false
  rideLostRos : Bool := false
  enrgRamp : Bool := false
  enrgTicks : Nat := 0
  scsCeil : Int := 2 * 2 ^ 60
  deriving DecidableEq, Repr

/-- Law states of the arm loops (R90 to R93). -/
structure ArmLoops where
  iDcvl : Int := 0
  iWs : Int := 0
  iWh : List Int := [0, 0, 0]
  iWv : List Int := [0, 0, 0]
  iCc : List Int := [0, 0, 0]
  res : List (Int × Int) := [(0, 0), (0, 0), (0, 0)]
  deriving DecidableEq, Repr

/-- One cell: what the rank engine and the modulator hold about it (R97 to R101, R112, R113, R120). `age` is none while the
cell has no age. `cmd` is the state last commanded, `since` its instant in 1/2048 tick, `pend` the second entry
of a dead time; `prev` and `prevSince` are what stood before the last edge, for a drop of R113; `wish` is the state last wanted.
`applied` is the state last reported; `take` waits for a report whose state the modulator takes as its record (R154). -/
structure Cell where
  applied : CellState := .block
  take : Bool := false
  staleSeen : Bool := false
  prev : CellState := .block
  prevSince : Nat := 0
  prevPend : Option (CellState × Nat) := none
  wish : CellState := .block
  vcap : Nat := 0
  age : Option Nat := none
  wasRanked : Bool := false
  retired : Option RetireReason := none
  retiring : Option RetireReason := none
  cmd : CellState := .block
  since : Nat := 0
  blockAt : Nat := 0
  pend : Option (CellState × Nat) := none
  duty : Int := 0
  deriving DecidableEq, Repr

/-- The rank engine's orders and the arm flags (R96 to R107); cells are numbered lane × 64 + cell. `staleNow` is the number of cells stale
at the last edge, `shortAssert` are the trip inputs asserted for the arms that are short (R102). -/
structure Arms where
  charge : List (List Nat) := List.replicate 6 []
  discharge : List (List Nat) := List.replicate 6 []
  short : List Bool := List.replicate 6 false
  redLow : List Bool := List.replicate 6 false
  evaluated : Bool := false
  shortAssert : List Nat := []
  prechgDone : Bool := false
  retiredNew : Bool := false
  staleNow : Nat := 0
  staleEvents : Nat := 0
  retireCount : Nat := 0
  deriving DecidableEq, Repr

/-- The modulator (R109 to R133). Inserted sets are lists of cell numbers with one polarity an arm. `gap`: ticks left
in which no frame is assembled around a dark test pulse (R150); `reload`: every carrier reloads at the next boundary (R133). -/
structure Modulator where
  dir : List Bool := List.replicate 6 true
  refPrev : List Int := List.replicate 6 0
  inserted : List (List Nat) := List.replicate 6 []
  negative : List Bool := List.replicate 6 false
  nIns : List Int := List.replicate 6 0
  satPos : List Bool := List.replicate 6 false
  satNeg : List Bool := List.replicate 6 false
  hybCell : List (Option Nat) := List.replicate 6 none
  hybF : List Int := List.replicate 6 0
  satCount : Nat := 0
  dropCount : Nat := 0
  spillCount : Nat := 0
  dropRos : Bool := false
  spillRos : Bool := false
  reload : Bool := false
  gap : Nat := 0
  deriving DecidableEq, Repr

/-- Trip inputs (R123 to R126). `sampleOff` is the offset of the last edge's filter sample in its tick, in ns, `sampleArms` are the arms that it
has blocked, `sampleFirst` says that the
sample has opened the episode (R133). -/
structure Trips where
  filtered : List Bool := List.replicate 16 false
  latch : List Bool := List.replicate 16 false
  pin : List Bool := List.replicate 16 false
  req : BitVec 16 := 0
  intern : List Nat := List.replicate 16 0
  first : Nat := 255
  sampleArms : Nat := 0
  sampleOff : Nat := 0
  sampleFirst : Bool := false
  count : Nat := 0
  clearRefused : Nat := 0
  deriving DecidableEq, Repr

/-- One entry of a change list (R138); `exec` is its execution tick. -/
structure Entry where
  cell : Nat
  state : CellState
  offset : Nat
  exec : Nat
  deriving DecidableEq, Repr

/-- A downlink frame (R136 to R139). -/
structure DownFrame where
  lane : Nat
  kind : Nat
  crown : Bool
  trainAddr : Nat
  execTick : Nat
  cellCount : Nat
  cellType : Nat
  deadTime : Nat
  lofTicks : Nat
  execDelay : Nat
  sofPhase : Nat
  laneDelay : Nat
  entries : List Entry
  crc : Word
  deriving DecidableEq, Repr

/-- One lane (R142 to R158). Delays are in eighth-bits, the filtered one `filt` in 2^-16 of one. `status` is the last cluster status word
(R146); `wire` are the blocks of the present tick beside IDLE, first sent first; `blkHeld`: a block command waits for the light of a dark test
to return (R302). -/
structure Lane where
  state : LaneState := .off
  reason : Nat := 0
  identRun : Nat := 0
  missRun : Nat := 0
  silent : Nat := 0
  rxThisTick : Bool := false
  setN : Nat := 0
  setMin : Int := 0
  setMax : Int := 0
  setSum : Int := 0
  failedSets : Nat := 0
  delay : Int := 0
  filt : Int := 0
  far : Nat := 0
  product : Nat := 0
  serial : Nat := 0
  maxCells : Nat := 0
  maxExec : Nat := 0
  hbOk : Bool := false
  fbOk : Bool := false
  status : DWord := 0
  heard : Bool := false
  rxCrc : Nat := 0
  rxSync : Nat := 0
  rxMiss : Nat := 0
  cuCrc : Nat := 0
  cuLate : Nat := 0
  cuDtg : Nat := 0
  downCount : Nat := 0
  typeRos : Bool := false
  dtgRos : Bool := false
  lateRos : Bool := false
  conflictRos : Bool := false
  notFollow : Bool := false
  nfEpisode : Bool := false
  grace : Nat := 0
  shadow : Bool := false
  queue : List Entry := []
  tx : Option DownFrame := none
  wire : List LaneBlock := []
  blkHeld : Bool := false
  deriving DecidableEq, Repr

/-- A logical engine's table in one bank (R163). -/
structure EngTable where
  dir : List (Nat × Nat) := [(0, 0), (0, 0), (0, 0), (0, 0)]
  steps : List DWord := List.replicate 1024 0
  deriving DecidableEq, Repr

/-- One binding (R180, R183). -/
structure Bind where
  obj : Nat
  sub : Nat
  engine : Nat
  step : Nat
  deriving DecidableEq, Repr

/-- One table bank (R163, R164, R197); `sigs` are the expected signatures of its logical engines (R191). -/
structure Bank where
  tables : List EngTable := List.replicate 16 {}
  binds : List Bind := []
  loaded : Bool := false
  verified : Bool := true
  fit : Nat := 0xF
  id : Word := 0
  sigs : List Word := List.replicate 16 0
  conforms : Bool := false
  deriving DecidableEq, Repr

/-- One physical engine (R160), its mirror (R192), and the checks of R191: `sig` is the CRC register over the step words executed in the
tick, `want` the signature that the verifier expects of it. `failed` is out of service, `barred` is so until reset release (R195);
`stopAt` is the step a residue error stops it at in the tick to come; `failAt` the tick in which a check failed. -/
structure Engine where
  locals : List Word := List.replicate 256 0
  tag : Byte := 0
  acc : Int := 0
  mLocals : List Word := List.replicate 256 0
  mTag : Byte := 0
  sig : Word := 0xFFFFFFFF
  want : Word := 0
  failed : Bool := false
  barred : Bool := false
  stopAt : Option Nat := none
  failAt : Option Nat := none
  deriving DecidableEq, Repr

/-- What the engines hold of the laws in their local registers, mirrored for a spare (R192): set-points and rates of the hands and the
setting offsets (E0), then the integrators and filters of the balance, the fusee and the arm loops. -/
structure LawStates where
  hands : List (Int × Int) := [(0, 0), (0, 0), (2 ^ 60, 0), (50000 * 2 ^ 60, 0), (2 ^ 60, 0)]
  setDw : Int := 0
  setDv : Int := 0
  iDcvl : Int := 0
  dw : Int := 0
  pf : Int := 0
  pdf : Int := 0
  qf : Int := 0
  vsq : Int := 0
  iv : Int := 0
  heat : Int := 0
  i2 : Int := 0
  i3 : Int := 0
  iWs : Int := 0
  iWh : List Int := [0, 0, 0]
  iWv : List Int := [0, 0, 0]
  iCc : List Int := [0, 0, 0]
  res : List (Int × Int) := [(0, 0), (0, 0), (0, 0)]
  deriving DecidableEq, Repr

/-- What one coefficient group changes when it applies (R186, R370). -/
inductive Item where
  | obj (index : Nat) (v : ObjVal)
  | action (index : Nat) (v : Int)
  | coef (bankB : Bool) (engine step : Nat) (word : DWord)
  | target (axis : Nat) (v sigma : Int) (coord : Bool)
  deriving DecidableEq, Repr

/-- A queued coefficient group (R186): the tick it was accepted in and the response it owes. -/
structure Group where
  acc : Nat
  items : List Item
  isSet : Bool
  reply : Option Reply
  move : Option (Nat × Nat)
  deriving DecidableEq, Repr

/-- A pending bank swap (R188). -/
structure Swap where
  due : Nat
  reply : Option Reply
  deriving DecidableEq, Repr

/-- A migration in progress (R193) to a spare slot. -/
structure Migration where
  logical : Nat
  slot : Nat
  start : Nat
  byCommand : Bool
  reply : Option Reply
  deriving DecidableEq, Repr

/-- A migration that waits for the one in progress (R194). -/
structure MigWait where
  logical : Nat
  byCommand : Bool
  reply : Option Reply
  deriving DecidableEq, Repr

/-- A TABLE_LOAD or firmware transfer (R371, R372): bytes received so far. -/
structure Transfer where
  id : Nat
  mb : Nat
  length : Nat
  bytes : List Byte
  deriving DecidableEq, Repr

/-- An image being verified (R176, R188). `before` is the transfer as it stood before the last fragment, to which a command answered at its
bound returns (R365). -/
structure Verify where
  image : List Byte
  conforms : Bool
  reply : Option Reply
  before : Option Transfer := none
  deriving DecidableEq, Repr

/-- The escapement (R160 to R199). `vacant` lists the spare slots a migration has left without a physical engine in service,
`noSpare` the logical engines whose fault has found no spare (R194, R195). -/
structure Esc where
  bankA : Bank := {}
  bankB : Bank := {}
  activeB : Bool := false
  swap : Option Swap := none
  swapCount : Nat := 0
  swapTick : Nat := 0
  engines : List Engine := List.replicate 16 {}
  lawMirror : LawStates := {}
  map : List Nat := List.range 16
  vacant : List Nat := []
  migration : Option Migration := none
  waiting : List MigWait := []
  noSpare : List Nat := []
  migrateCount : Nat := 0
  residueCount : Nat := 0
  sigCount : Nat := 0
  wbSat : Nat := 0
  accSat : Nat := 0
  wbSatRos : Bool := false
  accSatRos : Bool := false
  spareFaultRos : Bool := false
  noSpareRos : Bool := false
  groups : List Group := []
  coefLast : Nat := 0
  groupTick : Option Nat := none
  load : Option Transfer := none
  verify : Option Verify := none
  verifyFails : Nat := 0
  verifyFirst : DWord := 0
  deriving DecidableEq, Repr

/-- One axis of the hands (R200 to R206): set-point and rate in units of 2^-60 per unit (of 2^-60 mHz for F), rate per
second, the scale σ of R205, and the input that stops it (R207). The target is the object of R200. -/
structure Axis where
  direct : Bool := true
  x : Int := 0
  v : Int := 0
  sigma : Int := 2 ^ 60
  moving : Bool := false
  coord : Bool := false
  stop : Option Nat := none
  moveId : Nat := 0
  deriving DecidableEq, Repr

/-- The hands (R200 to R206). -/
structure Hands where
  axes : List Axis := [{}, {}, { x := 2 ^ 60 }, { x := 50000 * 2 ^ 60 }, { x := 2 ^ 60 }]
  moveId : Nat := 0
  eta : Nat := 0
  coordRos : Bool := false
  deriving DecidableEq, Repr

/-- Limit inputs (R207 to R209). `quiet` is true while the quiet time after the last inactive edge runs. -/
structure Limits where
  filtered : List Bool := List.replicate 8 false
  chatter : List Bool := List.replicate 8 false
  quiet : List Bool := List.replicate 8 false
  changes : List (List Nat) := List.replicate 8 []
  changeCount : Nat := 0
  clearRefused : Nat := 0
  deriving DecidableEq, Repr

/-- Setting (R210 to R213). -/
structure Setting where
  starting : Bool := false
  active : Bool := false
  permit : Bool := false
  everPermit : Bool := false
  dwell : Nat := 0
  startTick : Nat := 0
  angleOk : Bool := false
  freqOk : Bool := false
  voltOk : Bool := false
  releasing : Bool := false
  dw : Int := 0
  dv : Int := 0
  abortReason : Nat := 0
  abortCount : Nat := 0
  abortedRos : Bool := false
  permitLostRos : Bool := false
  deriving DecidableEq, Repr

/-- One input's last window results (R226). -/
structure AiResult where
  mean : Word := 0
  ip : Word := 0
  qd : Word := 0
  trms : Nat := 0
  deriving DecidableEq, Repr

/-- One 50 ns sample of all inputs: whether the fast path ran, the window angle at its aperture, and the corrected values in 1/64 nV
(R220, R226). -/
structure FastSample where
  on : Bool := false
  angle : Word := 0
  v : List Int := []
  deriving DecidableEq, Repr

/-- What the fast path gathers over a window (R226, R229): the weight of its samples in 1/256000 tick, and for each input the weighted
sums of the value, of its products with the sine and cosine of the window angle, and of its square. -/
structure FastSums where
  weight : Int := 0
  mean : List Int := List.replicate 24 0
  sine : List Int := List.replicate 24 0
  cosine : List Int := List.replicate 24 0
  square : List Int := List.replicate 24 0
  deriving DecidableEq, Repr

/-- Measurement (R219 to R236). `recent` are the eight latest samples, oldest first, `win` and `endFast` what the fast path has gathered over
the window in progress and over the one that has ended; `winRot` is the rotation of a fall-back window so far, `endScale` the scales at a
window's end. Offsets are in nV, gains in 2^-60, instants in 1/2048 tick; `fresh` marks results that appear at
the next edge, `endTick` the edge at which those of a window that has ended are due. `vanaAssert` is the trip input asserted while VANA is absent (R233). -/
structure Meas where
  raw : List (List Int) := List.replicate 24 (List.replicate 8 0)
  recent : List FastSample := List.replicate 8 {}
  offs : List Int := List.replicate 24 0
  gain : List Int := List.replicate 24 (2 ^ 60)
  ovr : List Bool := List.replicate 24 false
  ovrCount : List Nat := List.replicate 24 0
  ovrRos : Bool := false
  driftEp : List Bool := List.replicate 24 false
  driftRos : Bool := false
  driftCount : Nat := 0
  vanaOk : Bool := false
  vanaLow : Bool := false
  vanaMv : Nat := 0
  vanaAssert : List Nat := []
  refInUse : Nat := 0
  refNom : Nat := 25000
  refReadings : List Int := []
  refMean : Int := 0
  refSettled : Bool := false
  refLost : Bool := false
  refLostRos : Bool := false
  fastOn : Bool := false
  fbTurns : Nat := 0
  fbPowered : Bool := false
  fbPowerAt : Nat := 0
  lastBound : Nat := 0
  fresh : Bool := false
  winOpen : Bool := false
  winStart : Nat := 0
  winSkip : Bool := false
  winUntrusted : Bool := false
  winRefUns : Bool := false
  winFb : Bool := false
  winS2 : Bool := false
  winRot : Int := 0
  win : FastSums := {}
  winOvr : List Bool := List.replicate 24 false
  endTick : Option Nat := none
  endStart : Nat := 0
  endFrac : Nat := 0
  endScale : List Int := List.replicate 24 0
  endFast : FastSums := {}
  endFlags : Nat := 0
  endOvr : List Bool := List.replicate 24 false
  results : List AiResult := List.replicate 24 {}
  winCount : Nat := 0
  winLen : Nat := 0
  fWin : Nat := 0
  winP : Int := 0
  winQ : Int := 0
  winVac : Int := 0
  winVdc : Int := 0
  expE : Int := 0
  impE : Int := 0
  lastCounted : Option Nat := none
  energyGap : Bool := false
  energyRos : Bool := false
  discardRos : Bool := false
  discardCount : Nat := 0
  fbWindows : Nat := 0
  deriving DecidableEq, Repr

/-- A frequency ramp (R244): target in 0.01 ppm, duration in microseconds. -/
structure Ramp where
  target : Int
  duration : Nat
  deriving DecidableEq, Repr

/-- The regulator (R237 to R244). Offsets in 0.001 ppm. `gated`: the outputs are gated off, and no tick runs. `lockA` is the level of LOCK_A
as last driven, `low` says that LOCK_S has been below 0.5 V since its last rise, `slipped` that a lost lock awaits its REG_LOCK (R240, R241). -/
structure Reg where
  locked : Bool := false
  gated : Bool := true
  offs : Int := 0
  word : Int := 0
  refclk : Bool := false
  ocxoOk : Bool := true
  refclkOk : Bool := false
  ramp : Bool := false
  rampQ : List Ramp := []
  rampRun : Option (Int × Ramp × Nat) := none
  lockLostRos : Bool := false
  refRos : Bool := false
  filterRos : Bool := false
  slipped : Bool := false
  low : Bool := true
  lockA : Bool := false
  lockLoss : Nat := 0
  refSwitches : Nat := 0
  skipped : Nat := 0
  aonLost : Bool := false
  deriving DecidableEq, Repr

/-- What the module's PTP messages carry (R247, R248): a Pdelay_Resp its requester, the turnaround added to correctionField and the
requestReceiptTimestamp, a Sync its originTimestamp and the fraction of a nanosecond, in 2^-16 ns, added to correctionField. -/
inductive PtpMsg where
  | delayReq | pdelayReq
  | pdelayResp (requester : List Byte) (turnaround receipt : Nat)
  | sync (sec ns frac : Nat)
  | announce (master : PtpMaster) (utc : Int) (utcValid : Bool)
  | management (dataset : BitVec 16)
  deriving DecidableEq, Repr

/-- A PTP message the module sends; over UDP/IPv4 with its source address and UDP checksum (R247, R248), else over IEEE 802.3. -/
structure PtpOut where
  msg : PtpMsg
  udp : Option (Word × Nat)
  deriving DecidableEq, Repr

/-- A pulse of 1PPS_OUT (R246): the tick and the VCO period in it at which it rises, and its length in ms. -/
structure Pulse where
  tick : Nat
  vco : Nat
  ms : Nat
  deriving DecidableEq, Repr

/-- Module time and the PTP servo (R245 to R251). Epoch in ns; rates in 10^-12. `best` is the master selected and the port it announces
from, `measured` says that o_f has been formed, `pulse` is the last pulse of 1PPS_OUT. -/
structure TimeS where
  epoch : Int := 0
  state : TimeState := .free
  holdSince : Nat := 0
  stepDone : Bool := false
  offs8 : List Int := []
  offs5 : List Int := []
  oF : Int := 0
  fEst : Int := 0
  r : Int := 0
  stepPending : Option Int := none
  stepFrom : Int := 0
  stepTo : Int := 0
  stepTick : Nat := 0
  utc : Int := 0
  utcValid : Bool := false
  gm : DWord := 0
  gmPresent : Bool := false
  gmRos : Bool := false
  master : Bool := false
  path : Nat := 0
  reqOut : Nat := 0
  slewing : Bool := false
  best : Option (DWord × PtpMaster) := none
  measured : Bool := false
  pulse : Option Pulse := none
  out : List PtpOut := []
  deriving DecidableEq, Repr

/-- A pending scheduled action (R252 to R256). `due` is the due tick if known, `pos` the angle position. -/
structure Action where
  id : Nat
  key : SchedKey
  cmd : HostCmd
  acc : Nat
  due : Option Nat
  pos : Option Int
  hold : Bool
  reached : Option Nat
  jump : Bool
  coasted : Bool
  deriving DecidableEq, Repr

/-- The scheduler (R252 to R256); `lateTurn` is the lateness in 2^-32 turn of the last action that was late (R255), `lateFlags` its flags LATE, JUMP
and COASTED (R256, R260). -/
structure Sched where
  pending : List Action := []
  nextId : Nat := 1
  turnV : Nat := 0
  turnG : Int := 0
  lateCount : Nat := 0
  discardCount : Nat := 0
  lateRos : Bool := false
  lateTurn : Int := 0
  lateFlags : Nat := 0
  deriving DecidableEq, Repr

/-- A chronograph record (R265, R273); `rows` oldest first. -/
structure Record where
  id : Nat := 0
  armId : Nat := 0
  nch : Nat := 0
  dec : Nat := 1
  preActual : Nat := 0
  postActual : Nat := 0
  firstTick : Nat := 0
  trigTick : Nat := 0
  trigTime : Int := 0
  source : Nat := 0
  cause : Nat := 0
  flags : Nat := 0
  trainAddr : Nat := 0
  fireAddr : Nat := 0
  timeQ : Nat := 0
  utc : Int := 0
  cond : BitVec 128 := 0
  channels : List (Nat × Nat × Nat) := []
  rows : List (List Word) := []
  deriving DecidableEq, Repr

/-- What a record's header says of a tick (R273): its module time, TIME_Q, UTC_OFFSET and condition vector. -/
structure Moment where
  tick : Nat
  time : Int
  timeQ : Nat
  utc : Int
  cond : BitVec 128
  deriving DecidableEq, Repr

/-- The chronograph (R261 to R276). `ring` holds the rows of the armed slot, newest first, each with its tick, `past` what a header
says of each tick that has run, newest first (R261, R273), `fixed` the configuration of the arming, and `disarm` says that DISARM acts at the next tick. -/
structure Chrono where
  state : ChrState := .idle
  repeatOpt : Bool := false
  armId : Nat := 0
  master : Bool := false
  armSeq : Nat := 0
  force : Bool := false
  armTick : Nat := 0
  preCount : Nat := 0
  postCount : Nat := 0
  truncFlags : Nat := 0
  capacity : Nat := 0
  ring : List (Nat × List Word) := []
  past : List Moment := []
  fixed : List (Nat × Int) := []
  disarm : Bool := false
  patPrev : Bool := false
  thPrev : List Bool := List.replicate 8 false
  rtHist : List (List Int) := List.replicate 2 []
  rtPrev : List Bool := List.replicate 2 false
  cur : Option Record := none
  postLeft : Nat := 0
  closedTick : Nat := 0
  eventsInHold : Nat := 0
  records : List Record := []
  nextId : Nat := 1
  lastId : Nat := 0
  full : Bool := false
  overwrote : Bool := false
  trigLost : Nat := 0
  overwrites : Nat := 0
  fireIgnored : Nat := 0
  fireRos : Bool := false
  lostRos : Bool := false
  overRos : Bool := false
  firePending : Option (Nat × Nat) := none
  fireTx : Option (Nat × Int) := none
  deriving DecidableEq, Repr

/-- An event on its way to the log (R277) and an entry of it (R278). `made` is the tick it was posted in, and `sub` says that its time carries
an offset within the tick. -/
structure LogEntry where
  seq : Nat := 0
  made : Nat := 0
  tick : Nat := 0
  time : Int := 0
  sub : Bool := false
  code : Nat
  cls : Nat
  inst : Nat
  data : List Byte
  merged : Bool := false
  deferred : Bool := false
  rpt : Nat := 1
  lastTick : Nat := 0
  deriving DecidableEq, Repr

/-- Rate-limit account of one source and class in the present log window (R281). -/
structure RateAcc where
  src : Nat
  cls : Nat
  count : Nat
  suppressed : Nat
  firstCode : Nat
  lastCode : Nat
  firstTick : Nat
  lastTick : Nat
  deriving DecidableEq, Repr

/-- The event arbiter and the log (R277 to R284). Rings are oldest first; `overSeq` is the SEQ overwritten last. -/
structure LogS where
  ports : List (List LogEntry) := List.replicate 16 []
  lastPort : Nat := Config.firstPort
  seq : Nat := 0
  general : List LogEntry := []
  safety : List LogEntry := []
  acc : List RateAcc := []
  overwritten : Nat := 0
  overSeq : Option Nat := none
  suppressed : Nat := 0
  deferred : Nat := 0
  merged : Nat := 0
  overRos : Bool := false
  supRos : Bool := false
  defRos : Bool := false
  deriving DecidableEq, Repr

/-- One safety producer's account (R305, R306). `waiting` are copies with the network they came on, oldest first. -/
structure Producer where
  known : Bool := false
  boot : Nat := 0
  seq : Nat := 0
  pr : Bool := false
  scs : Bool := false
  watchdog : Bool := false
  good : Nat := 0
  waiting : List (Bool × List Byte) := []
  deriving DecidableEq, Repr

/-- The safety kernel (R285 to R318). `readA` and `readB` are the channels that it has read since it started. `active` are the demand sources present (kind, number, function); `switches` are emitter high, emitter low, SO1H, SO1L, SO2H, SO2L.
`env` is the largest valid |i_arm| of each microsecond of the last half cycle, newest first (R297); `pulse` the last test pulse: switch and
microseconds (R299); `tx` the two copies of the last frame, SNA first, and `sfAt` the uptime in ticks of the last periodic one (R303). -/
structure Safety where
  chA : List Bool := List.replicate 8 false
  chB : List Bool := List.replicate 8 false
  readA : List Bool := List.replicate 8 false
  readB : List Bool := List.replicate 8 false
  disc : List Bool := List.replicate 8 false
  discBoth : List Bool := List.replicate 8 false
  ackPending : Bool := false
  ti : List Bool := List.replicate 16 false
  vioOk : Bool := false
  vioFault : Bool := false
  vioMv : Nat := 0
  startDone : Bool := false
  startRunning : Bool := true
  faultCore : Bool := false
  faultTest : Bool := false
  faultStart : Bool := false
  tickMissing : Bool := false
  mainDie : Bool := false
  startFailed : Bool := false
  feedsLost : Bool := false
  linkLost : Bool := false
  env : List Nat := []
  iEnv : Nat := 0
  iEnv0 : Nat := 0
  scsUs : Nat := 0
  scsTick : Nat := 0
  scsCount : Nat := 0
  prCount : Nat := 0
  active : List (Nat × Nat × Nat) := []
  switches : List Bool := List.replicate 6 false
  pulse : Option (Nat × Nat) := none
  preempts : Nat := 0
  preemptRos : Bool := false
  testFails : Nat := 0
  testRos : Bool := false
  keyClosed : Bool := false
  session : Bool := false
  staged : List (Nat × Int) := []
  paramVersion : Nat := 0
  producers : List Producer := List.replicate 32 {}
  rejectRos : Bool := false
  rxSingle : Nat := 0
  rxDisagree : Nat := 0
  rxCrc : Nat := 0
  rxSeq : Nat := 0
  wdCount : Nat := 0
  txSeq : Nat := 1
  boot : Nat := Config.bootBase
  txPr : Nat := 0
  txScs : Nat := 0
  tx : List (List Byte) := []
  sfAt : Option Nat := none
  deriving DecidableEq, Repr

/-- The train (R319 to R329). `slots` holds the newest value of each address, `ages` the ticks since one came, `fresh` marks values
whose message has not been acted on; `table` pairs serials and addresses; `outMsg` are messages to send, `msgRun` the ticks without a
heartbeat, `passed` the root tick of the frame last sent on in a wrapped ring; `joins` the granted address, and `yieldTo` the root of higher
rank, that take effect at the next tick. -/
structure Train where
  state : TrainState := .none
  addr : Nat := 0
  stored : Nat := 0
  strapped : Bool := false
  originating : Bool := false
  acting : Bool := false
  rootSerial : Nat := 0
  rootActing : Bool := false
  eastUp : Bool := false
  westUp : Bool := false
  miswireE : Bool := false
  miswireW : Bool := false
  wrapped : Bool := false
  closed : Bool := false
  unwrappedE : Bool := false
  unwrappedW : Bool := false
  slots : List DWord := List.replicate 32 0
  prev : List DWord := List.replicate 32 0
  ages : List Nat := List.replicate 32 8
  fresh : List Bool := List.replicate 32 false
  mySeq : Nat := 0
  outMsg : List (Nat × Nat) := []
  msgRun : Nat := 0
  passed : Option Word := none
  table : List (Nat × Nat) := []
  full : Bool := false
  addrRos : Bool := false
  conflictRos : Bool := false
  msgRos : Bool := false
  quietTicks : Nat := 0
  rxThisTick : Bool := false
  badRunE : Nat := 0
  badRunW : Nat := 0
  deltaE : Int := 0
  deltaW : Int := 0
  crcErr : Nat := 0
  msgLost : Nat := 0
  wraps : Nat := 0
  tx : List (List LaneBlock) := []
  joins : Option Nat := none
  yieldTo : Option Word := none
  deriving DecidableEq, Repr

/-- The module pair (R330 to R339). -/
structure Pair where
  role : PairRole := .solo
  crown : Bool := true
  seen : Bool := false
  mismatch : Bool := false
  partner : DWord := 0
  hbLost : Bool := false
  linkLost : Bool := false
  ready : Bool := false
  abdicating : Bool := false
  abdicateTick : Nat := 0
  abdicateFeeds : Bool := false
  abdicateRevert : Bool := false
  absentEp : Bool := false
  notReadyEp : Bool := false
  formed : Bool := false
  revertFrom : Option Nat := none
  notReadyRos : Bool := false
  crownLostRos : Bool := false
  tookRos : Bool := false
  takeovers : Nat := 0
  takeoverTick : Nat := 0
  reported : ConvState := .pr
  inherits : Bool := false
  deriving DecidableEq, Repr

/-- A feed load test in progress (R342): the feeds still to test (false A, true B), the cause,
and the IN_USE to which the load returns. -/
structure FeedTest where
  queue : List Bool
  cause : Nat
  back : Nat
  deriving DecidableEq, Repr

/-- The feeds (R340 to R343, R350). `inUse`: 0 A, 1 B, 2 HOLD-UP. The hold-up is charging up to the tick `chargedAt` (R410). -/
structure Feed where
  aPresent : Bool := false
  bPresent : Bool := false
  aMv : Nat := 0
  bMv : Nat := 0
  inUse : Nat := 0
  charged : Bool := false
  chargedAt : Nat := 0
  test : Option FeedTest := none
  healthA : Word := 0
  healthB : Word := 0
  aFailed : Bool := false
  bFailed : Bool := false
  switchRos : Bool := false
  switches : Nat := 0
  startTested : Bool := false
  handed : Bool := false
  takeback : Bool := false
  retest : Bool := false
  deriving DecidableEq, Repr

/-- An open host session (R354, R355). -/
structure Session where
  id : Word
  ro : Bool
  key : List Byte
  lastSeq : Nat
  peer : Peer := {}
  deriving DecidableEq, Repr

/-- A session that awaits its PROVE (R354). -/
structure PendingSession where
  id : Word
  ro : Bool
  nh : List Byte
  nm : List Byte
  deriving DecidableEq, Repr

/-- One mailbox (R358, R363, R364). `queue` are accepted commands not started, `running` the one executing,
`unacked` responses sent and not acknowledged, oldest first, `last` the last response given. -/
structure Mailbox where
  owner : Option Word := none
  queue : List (Reply × HostCmd) := []
  running : Option (Reply × HostCmd) := none
  unacked : List Response := []
  last : Option Response := none
  lastTag : BitVec 16 := 0
  deriving DecidableEq, Repr

/-- The supervisor, the host link and the firmware slots (R353 to R377). `sent` counts the tagged frames of each open session before those in
`out`; `asker` is the source of the last datagram without a session, `gone` are closed sessions whose last commands still execute. `newSince` is the up-time at which a new image has started,
`wdRuns` the watchdog expiries within 60 s of it (R374). -/
structure HostLink where
  sessions : List Session := []
  pendings : List PendingSession := []
  mbs : List Mailbox := List.replicate 8 {}
  out : List HostOut := []
  sent : List (Word × Nat) := []
  asker : Peer := {}
  gone : List Session := []
  keyOp : List Byte := beBytes 32 Config.keyOp.toNat
  keyRo : List Byte := beBytes 32 Config.keyRo.toNat
  rxBad : Nat := 0
  authFail : Nat := 0
  replay : Nat := 0
  discards : Nat := 0
  accessErr : Bool := false
  accessErrAddr : Nat := 0
  accessErrs : Nat := 0
  supEpoch : Nat := 0
  supRestarts : Nat := 0
  wdRuns : Nat := 0
  newSince : Option Nat := none
  fwSup : Option Transfer := none
  fwSk : Option Transfer := none
  fwTarget : Nat := 0
  supRunning : Word := Config.supFw
  supInactive : Word := 0
  supStaged : Bool := false
  supFallback : Option Word := none
  skRunning : Word := Config.skFw
  skStaged : Option Word := none
  starting : Bool := false
  deriving DecidableEq, Repr

/-- A sleep entry in progress (R388): target 1 to 3, the step to come (1 to 4), ticks left before its abort point,
and what has been found. -/
structure SleepEntry where
  target : Nat
  step : Nat
  left : Nat
  reply : Reply
  wake : Option WakeSource
  wakeHost : Option StartFlags
  ana : Bool
  fast : Bool
  deriving DecidableEq, Repr

/-- A wake in progress (R381, R389): the step it began at, the step that runs (4 to 6, W3 to W5), the ticks left of its delay, and the flags it
meets. -/
structure Waking where
  first : Nat
  step : Nat
  left : Nat
  flags : StartFlags
  deriving DecidableEq, Repr

/-- Supplies, reset and power states (R378 to R394). `resetLow`: RESET_N is low behind its filter. `wakeReply`: the requests of S0 that are to be
answered in S0, with their levels. `noTick`: the kernel expects no tick, from the
end of an S3 entry to the first tick of the wake (R387). `aonTi`, `aonLim`: the levels the always-on domain holds of the pins, behind its filter
and the polarities (R389). -/
structure Pwr where
  state : PowerState := .s0
  pl : Nat := 0
  plTarget : Option (Nat × Reply × Nat) := none
  entry : Option SleepEntry := none
  waking : Option Waking := none
  started : Bool := false
  inReset : Bool := false
  resetLow : Bool := false
  noTick : Bool := false
  aonTi : List Bool := List.replicate 16 false
  aonLim : List Bool := List.replicate 8 false
  anaOk : Bool := false
  fastOk : Bool := false
  coreRail : Bool := true
  ioRail : Bool := true
  attempt : Nat := 0
  retryFrom : Nat := 0
  wakeFailRos : Bool := false
  wakeFails : Nat := 0
  wakeFailLast : Nat := 0
  wakeReply : List (Reply × Nat) := []
  refuse : List Nat := List.replicate 7 0
  refusedRos : Bool := false
  aborts : Nat := 0
  abortLast : Nat := 0
  abortedRos : Bool := false
  entries : Nat := 0
  wakes : Nat := 0
  sleepTick : Nat := 0
  sleepMs : Nat := 0
  plChanges : Nat := 0
  plRefused : Nat := 0
  vanaOrderRos : Bool := false
  heldMs : Nat := 0
  releasePending : Bool := false
  lastReset : Nat := 0
  lateVana : Bool := false
  uptimeTicks : Nat := 0
  escGated : Bool := false
  deriving DecidableEq, Repr

/-- Event bits of the condition vector gathered since the last one (R261). -/
structure CondEvents where
  bits : BitVec 64 := 0
  vec : BitVec 128 := 0
  deriving DecidableEq, Repr

/-- A written value that waits for its point of application (R18). -/
structure Waiting where
  index : Nat
  value : Int
  point : ApplyPoint
  deriving DecidableEq, Repr

/-- The whole block. `free` numbers the free values (log entry 3): the model's own field. -/
structure State where
  pending : List Instr := []
  tick : Tick := {}
  conv : Conv := {}
  bal : Balance := {}
  gt : Tracker := {}
  fus : Fusee := {}
  loops : ArmLoops := {}
  cells : List Cell := List.replicate 3072 {}
  arms : Arms := {}
  mod : Modulator := {}
  trips : Trips := {}
  lanes : List Lane := List.replicate 48 {}
  esc : Esc := {}
  sig : List Word := List.replicate 4096 0
  hands : Hands := {}
  lim : Limits := {}
  set : Setting := {}
  meas : Meas := {}
  reg : Reg := {}
  time : TimeS := {}
  sched : Sched := {}
  chr : Chrono := {}
  cond : CondEvents := {}
  log : LogS := {}
  saf : Safety := {}
  train : Train := {}
  pair : Pair := {}
  feed : Feed := {}
  host : HostLink := {}
  pwr : Pwr := {}
  objs : List (Nat × Int) := []
  waiting : List Waiting := []
  free : Nat := 0
  deriving DecidableEq, Repr

/-- The machine right after reset: every field at the value beside it above (R15; log entry 1). -/
def State.reset : State := {}

end Sys2Proof.Machine
end

