-- ==== Sys2Proof/Machine/Objects.lean ====
section
/-!
DEFINITION. The object dictionary (R15 to R20, R57, R81, R106, R131, R157, R199, R217, R235, R259, R276, R284, R317, R351, R375,
R394): one row per object of the spec's object tables with its type, access, range, default and point of application,
and the store of the written values, which lists only what differs from the default.
-/
namespace Sys2Proof.Machine

/-- An index lies in a row of `n` objects. -/
def inRow (i base n : Nat) : Bool := decide (base ≤ i) && decide (i < base + n)

/-- Access of an object: written and read, read only, write only. -/
inductive ObjAcc where
  | rw | ro | wo
  deriving DecidableEq, Repr

/-- What a write is checked against: intervals, a contiguous mask, the range of F_SET, the fields of STEP_SEL. -/
inductive ObjRange where
  | ivs (l : List (Int × Int)) | mask | fset | step
  deriving DecidableEq, Repr

/-- One row of an object table; `lo` to `hi` are the indices of a row that names several objects. `ty` is the TYPE
byte of R369. -/
structure ObjDef where
  lo : Nat
  hi : Nat
  ty : Nat
  acc : ObjAcc
  range : ObjRange
  dflt : Int
  point : ApplyPoint
  deriving DecidableEq, Repr

/-! Indices by name. -/

abbrev Obj.PART_NUMBER : Nat := 0x1000
abbrev Obj.SERIAL : Nat := 0x1001
abbrev Obj.HW_REV : Nat := 0x1002
abbrev Obj.SUP_FW_RUNNING : Nat := 0x1003
abbrev Obj.SUP_FW_INACTIVE : Nat := 0x1004
abbrev Obj.HL_IPV4 : Nat := 0x1010
abbrev Obj.HL_IPV4_MASK : Nat := 0x1011
abbrev Obj.HL_GATEWAY : Nat := 0x1012
abbrev Obj.HL_SESSION_TIMEOUT : Nat := 0x1013
abbrev Obj.HL_KEY_OP : Nat := 0x1014
abbrev Obj.HL_KEY_RO : Nat := 0x1015
abbrev Obj.HL_RX_BAD : Nat := 0x1020
abbrev Obj.HL_AUTH_FAIL_COUNT : Nat := 0x1021
abbrev Obj.HL_REPLAY_COUNT : Nat := 0x1022
abbrev Obj.MB_RESP_DISCARD_COUNT : Nat := 0x1023
abbrev Obj.ACCESS_ERR_COUNT : Nat := 0x1024
abbrev Obj.HL_SESSIONS : Nat := 0x1025
abbrev Obj.F_NOM : Nat := 0x2000
abbrev Obj.S_BASE : Nat := 0x2001
abbrev Obj.V_AC_BASE : Nat := 0x2002
abbrev Obj.V_DC_BASE : Nat := 0x2003
abbrev Obj.AC_ROLE : Nat := 0x2004
abbrev Obj.P_SET : Nat := 0x2010
abbrev Obj.Q_SET : Nat := 0x2011
abbrev Obj.V_SET : Nat := 0x2012
abbrev Obj.F_SET : Nat := 0x2013
abbrev Obj.H : Nat := 0x2020
abbrev Obj.D : Nat := 0x2021
abbrev Obj.DROOP_F : Nat := 0x2022
abbrev Obj.T_DROOP : Nat := 0x2023
abbrev Obj.T_PMEAS : Nat := 0x2024
abbrev Obj.FREQ_LIMIT : Nat := 0x2025
abbrev Obj.DROOP_Q : Nat := 0x2030
abbrev Obj.T_QMEAS : Nat := 0x2031
abbrev Obj.KP_V : Nat := 0x2032
abbrev Obj.TI_V : Nat := 0x2033
abbrev Obj.E_CORR_MAX : Nat := 0x2034
abbrev Obj.T_VMEAS : Nat := 0x2035
abbrev Obj.E_MAX : Nat := 0x2036
abbrev Obj.R_V : Nat := 0x2040
abbrev Obj.X_V : Nat := 0x2041
abbrev Obj.GT_BW : Nat := 0x2050
abbrev Obj.GT_ABSENT_LEVEL : Nat := 0x2051
abbrev Obj.GT_ABSENT_TIME : Nat := 0x2052
abbrev Obj.GT_RETURN_HYST : Nat := 0x2053
abbrev Obj.PREALIGN : Nat := 0x2054
abbrev Obj.F_V : Nat := 0x2060
abbrev Obj.THETA_V : Nat := 0x2061
abbrev Obj.F_G : Nat := 0x2062
abbrev Obj.THETA_G : Nat := 0x2063
abbrev Obj.GT_STATE : Nat := 0x2064
abbrev Obj.P_MEAS : Nat := 0x2065
abbrev Obj.Q_MEAS : Nat := 0x2066
abbrev Obj.V_MEAS : Nat := 0x2067
abbrev Obj.E_MAG : Nat := 0x2068
abbrev Obj.BAL_STATUS : Nat := 0x2069
abbrev Obj.GT_JUMP_LAST : Nat := 0x206A
abbrev Obj.GT_JUMP_COUNT : Nat := 0x206B
abbrev Obj.FREQ_CLAMP_COUNT : Nat := 0x206C
abbrev Obj.FUSEE_ENABLE : Nat := 0x2100
abbrev Obj.I_LIM : Nat := 0x2101
abbrev Obj.TRK_HEAD : Nat := 0x2102
abbrev Obj.DCV_LOW : Nat := 0x2110
abbrev Obj.DCV_HIGH : Nat := 0x2111
abbrev Obj.KP_DCV : Nat := 0x2112
abbrev Obj.TI_DCV : Nat := 0x2113
abbrev Obj.W_LOW : Nat := 0x2120
abbrev Obj.W_HIGH : Nat := 0x2121
abbrev Obj.KP_W : Nat := 0x2122
abbrev Obj.TI_W : Nat := 0x2123
abbrev Obj.I_TH_CONT : Nat := 0x2130
abbrev Obj.I_TH_SHORT : Nat := 0x2131
abbrev Obj.TH_TAU : Nat := 0x2132
abbrev Obj.P_SIGN_BAND : Nat := 0x2138
abbrev Obj.FRT_LEVEL : Nat := 0x2140
abbrev Obj.FRT_HYST : Nat := 0x2141
abbrev Obj.FRT_TIME : Nat := 0x2142
abbrev Obj.SLIP_ANGLE : Nat := 0x2143
abbrev Obj.DCF_MODE : Nat := 0x2150
abbrev Obj.DCF_LEVEL : Nat := 0x2151
abbrev Obj.DCF_TIME : Nat := 0x2152
abbrev Obj.DCF_TRIP_INPUT : Nat := 0x2153
abbrev Obj.DCF_RECOVER : Nat := 0x2154
abbrev Obj.DCF_RAMP : Nat := 0x2155
abbrev Obj.ENRG_EN : Nat := 0x2160
abbrev Obj.ENRG_TIME : Nat := 0x2161
abbrev Obj.FUSEE_WIN : Nat := 0x2170
abbrev Obj.FUSEE_K : Nat := 0x2171
abbrev Obj.FUSEE_STATUS : Nat := 0x2172
abbrev Obj.WIN_CHANGE_COUNT : Nat := 0x2173
abbrev Obj.FRT_COUNT : Nat := 0x2174
abbrev Obj.DCF_COUNT : Nat := 0x2175
abbrev Obj.SLIP_COUNT : Nat := 0x2176
abbrev Obj.TH_STATE : Nat := 0x2177
abbrev Obj.DC_ROLE : Nat := 0x2200
abbrev Obj.V_DC_SET : Nat := 0x2201
abbrev Obj.N_NEED : Nat := 0x2202
abbrev Obj.REDUND_MIN : Nat := 0x2203
abbrev Obj.REDUND_TRIP_INPUT : Nat := 0x2204
abbrev Obj.V_CELL_NOM : Nat := 0x2205
abbrev Obj.W_REF : Nat := 0x2210
abbrev Obj.KP_WS : Nat := 0x2211
abbrev Obj.TI_WS : Nat := 0x2212
abbrev Obj.I_DC_MAX : Nat := 0x2213
abbrev Obj.KP_WH : Nat := 0x2214
abbrev Obj.TI_WH : Nat := 0x2215
abbrev Obj.KP_WV : Nat := 0x2216
abbrev Obj.TI_WV : Nat := 0x2217
abbrev Obj.I_BAL_MAX : Nat := 0x2218
abbrev Obj.KP_DCVL : Nat := 0x2220
abbrev Obj.TI_DCVL : Nat := 0x2221
abbrev Obj.P_DCV_MAX : Nat := 0x2222
abbrev Obj.KP_ARM : Nat := 0x2230
abbrev Obj.TI_CC : Nat := 0x2231
abbrev Obj.CC_INT_MAX : Nat := 0x2232
abbrev Obj.CCS_HARM : Nat := 0x2233
abbrev Obj.CC_RES_MAX : Nat := 0x2234
abbrev Obj.RANK_HYST : Nat := 0x2240
abbrev Obj.STALE_TICKS : Nat := 0x2241
abbrev Obj.CELL_FAIL_TIME : Nat := 0x2242
abbrev Obj.PRECHG_SOURCE : Nat := 0x2243
abbrev Obj.PRECHG_LEVEL : Nat := 0x2244
abbrev Obj.CELL_EXCLUDE : Nat := 0x2245
abbrev Obj.CELL_READMIT : Nat := 0x2246
abbrev Obj.N_RANK : Nat := 0x2250
abbrev Obj.N_FB : Nat := 0x2256
abbrev Obj.W_ARM : Nat := 0x225C
abbrev Obj.W_SUM : Nat := 0x2262
abbrev Obj.I_DC_REF : Nat := 0x2263
abbrev Obj.P_DCV : Nat := 0x2264
abbrev Obj.ARM_STATUS : Nat := 0x2265
abbrev Obj.CELLS_RETIRED : Nat := 0x2266
abbrev Obj.CELLS_STALE : Nat := 0x2267
abbrev Obj.STALE_EVENT_COUNT : Nat := 0x2268
abbrev Obj.RETIRE_COUNT : Nat := 0x2269
abbrev Obj.ARM_MAP : Nat := 0x2280
abbrev Obj.CELL_TYPE : Nat := 0x22B0
abbrev Obj.MOD_MODE : Nat := 0x2300
abbrev Obj.MOD_ENABLE : Nat := 0x2301
abbrev Obj.DEAD_TIME : Nat := 0x2302
abbrev Obj.MIN_PULSE : Nat := 0x2303
abbrev Obj.ISIGN_BAND : Nat := 0x2304
abbrev Obj.NLM_EDGE : Nat := 0x2305
abbrev Obj.SWAP_MAX : Nat := 0x2306
abbrev Obj.PSC_BAL : Nat := 0x2307
abbrev Obj.CARR_PER_CYCLE : Nat := 0x2310
abbrev Obj.CARR_SPACING : Nat := 0x2311
abbrev Obj.CARR_PHASE : Nat := 0x2312
abbrev Obj.CARR_INTERLEAVE : Nat := 0x2313
abbrev Obj.UPD_MODE : Nat := 0x2314
abbrev Obj.TRIP_FILT : Nat := 0x2320
abbrev Obj.TRIP_ARMS : Nat := 0x2330
abbrev Obj.TRIP_POL : Nat := 0x2340
abbrev Obj.TRIP_CLEAR : Nat := 0x2341
abbrev Obj.TRIP_ACTIVE : Nat := 0x2350
abbrev Obj.TRIP_LATCH : Nat := 0x2351
abbrev Obj.TRIP_FIRST : Nat := 0x2352
abbrev Obj.TRIP_COUNT : Nat := 0x2353
abbrev Obj.TRIP_CLEAR_REFUSED : Nat := 0x2354
abbrev Obj.MOD_STATUS : Nat := 0x2355
abbrev Obj.N_INS : Nat := 0x2356
abbrev Obj.SAT_COUNT : Nat := 0x235C
abbrev Obj.PULSE_DROP_COUNT : Nat := 0x235D
abbrev Obj.SPILL_COUNT : Nat := 0x235E
abbrev Obj.LANE_EN : Nat := 0x2400
abbrev Obj.CELL_COUNT : Nat := 0x2430
abbrev Obj.LANE_STATE : Nat := 0x2460
abbrev Obj.LANE_DELAY : Nat := 0x2490
abbrev Obj.EXEC_DELAY : Nat := 0x24F0
abbrev Obj.LOF_TICKS : Nat := 0x24F1
abbrev Obj.LANE_SEL : Nat := 0x24F2
abbrev Obj.LANE_STATUS : Nat := 0x24F3
abbrev Obj.LANE_RX_CRC : Nat := 0x24F4
abbrev Obj.LANE_RX_SYNC : Nat := 0x24F5
abbrev Obj.LANE_RX_MISS : Nat := 0x24F6
abbrev Obj.CU_RX_CRC : Nat := 0x24F7
abbrev Obj.CU_LATE : Nat := 0x24F8
abbrev Obj.CU_DTG : Nat := 0x24F9
abbrev Obj.LANE_DOWN_COUNT : Nat := 0x24FA
abbrev Obj.CU_PRODUCT : Nat := 0x24FB
abbrev Obj.CU_SERIAL : Nat := 0x24FC
abbrev Obj.LANES_UP : Nat := 0x24FD
abbrev Obj.LANE_CNT_CLEAR : Nat := 0x24FE
abbrev Obj.RATE_P : Nat := 0x2500
abbrev Obj.ACC_P : Nat := 0x2501
abbrev Obj.RATE_Q : Nat := 0x2502
abbrev Obj.ACC_Q : Nat := 0x2503
abbrev Obj.RATE_VDC : Nat := 0x2504
abbrev Obj.ACC_VDC : Nat := 0x2505
abbrev Obj.RATE_F : Nat := 0x2506
abbrev Obj.ACC_F : Nat := 0x2507
abbrev Obj.RATE_V : Nat := 0x2508
abbrev Obj.ACC_V : Nat := 0x2509
abbrev Obj.HANDS_STATUS : Nat := 0x2510
abbrev Obj.NOW_P : Nat := 0x2511
abbrev Obj.NOW_F : Nat := 0x2514
abbrev Obj.NOW_V : Nat := 0x2515
abbrev Obj.HANDS_ETA : Nat := 0x2516
abbrev Obj.HANDS_MOVE_ID : Nat := 0x2517
abbrev Obj.LIM_POL : Nat := 0x2520
abbrev Obj.LIM_MODE : Nat := 0x2521
abbrev Obj.LIM_AXES : Nat := 0x2522
abbrev Obj.LIM_FILT : Nat := 0x252A
abbrev Obj.LIM_QUIET : Nat := 0x2532
abbrev Obj.LIM_CHAT_N : Nat := 0x253A
abbrev Obj.LIM_CHAT_W : Nat := 0x253B
abbrev Obj.LIM_CHAT_CLEAR : Nat := 0x253C
abbrev Obj.LIM_ACTIVE : Nat := 0x2540
abbrev Obj.LIM_CHATTER : Nat := 0x2541
abbrev Obj.LIM_CHANGE_COUNT : Nat := 0x2542
abbrev Obj.LIM_CLEAR_REFUSED : Nat := 0x2543
abbrev Obj.SET_TAU : Nat := 0x2550
abbrev Obj.SET_SLIP_MAX : Nat := 0x2551
abbrev Obj.SET_TF : Nat := 0x2552
abbrev Obj.SET_F_MAX : Nat := 0x2553
abbrev Obj.SET_TV : Nat := 0x2554
abbrev Obj.SET_V_MAX : Nat := 0x2555
abbrev Obj.SET_ANG_TOL : Nat := 0x2556
abbrev Obj.SET_FREQ_TOL : Nat := 0x2557
abbrev Obj.SET_VOLT_TOL : Nat := 0x2558
abbrev Obj.SET_DWELL : Nat := 0x2559
abbrev Obj.SET_TIMEOUT : Nat := 0x255A
abbrev Obj.SET_END : Nat := 0x255B
abbrev Obj.SET_STATUS : Nat := 0x2560
abbrev Obj.SET_ABORT_REASON : Nat := 0x2561
abbrev Obj.SET_ANGLE_ERR : Nat := 0x2562
abbrev Obj.V_G : Nat := 0x2563
abbrev Obj.SET_ABORT_COUNT : Nat := 0x2564
abbrev Obj.AI_ROLE : Nat := 0x2600
abbrev Obj.AI_SCALE : Nat := 0x2618
abbrev Obj.AI_DRIFT : Nat := 0x2630
abbrev Obj.REF_SEL : Nat := 0x2650
abbrev Obj.REF_IN_NOM : Nat := 0x2651
abbrev Obj.WIN_ANGLE : Nat := 0x2652
abbrev Obj.WIN_ANCHOR : Nat := 0x2653
abbrev Obj.WIN_FB_EVERY : Nat := 0x2654
abbrev Obj.MEAS_TRIP_INPUT : Nat := 0x2655
abbrev Obj.DRIFT_CLEAR : Nat := 0x2656
abbrev Obj.AI_SEL : Nat := 0x2657
abbrev Obj.MEAS_STATUS : Nat := 0x2660
abbrev Obj.VANA_MV : Nat := 0x2661
abbrev Obj.WIN_COUNT : Nat := 0x2662
abbrev Obj.WIN_LEN : Nat := 0x2663
abbrev Obj.F_WIN : Nat := 0x2664
abbrev Obj.WIN_P : Nat := 0x2665
abbrev Obj.WIN_Q : Nat := 0x2666
abbrev Obj.WIN_VAC : Nat := 0x2667
abbrev Obj.WIN_VDC : Nat := 0x2668
abbrev Obj.ENERGY_EXPORT : Nat := 0x2669
abbrev Obj.ENERGY_IMPORT : Nat := 0x266A
abbrev Obj.FB_WINDOWS : Nat := 0x266B
abbrev Obj.WIN_DISCARD_COUNT : Nat := 0x266C
abbrev Obj.DRIFT_LIMIT_COUNT : Nat := 0x266D
abbrev Obj.AI_MEAN : Nat := 0x2670
abbrev Obj.AI_IP : Nat := 0x2671
abbrev Obj.AI_QD : Nat := 0x2672
abbrev Obj.AI_TRMS : Nat := 0x2673
abbrev Obj.AI_OFFS_CORR : Nat := 0x2674
abbrev Obj.AI_GAIN_CORR : Nat := 0x2675
abbrev Obj.AI_OVR_COUNT : Nat := 0x2676
abbrev Obj.REG_REF : Nat := 0x2700
abbrev Obj.REFCLK_IN_FREQ : Nat := 0x2701
abbrev Obj.REG_MODE : Nat := 0x2702
abbrev Obj.RAMP_CMD : Nat := 0x2703
abbrev Obj.REG_TRIM : Nat := 0x2704
abbrev Obj.REFCLK_OUT_FREQ : Nat := 0x2705
abbrev Obj.PPS_WIDTH : Nat := 0x2706
abbrev Obj.PTP_MODE : Nat := 0x2710
abbrev Obj.PTP_DOMAIN : Nat := 0x2711
abbrev Obj.PTP_TRANSPORT : Nat := 0x2712
abbrev Obj.PTP_SLAVE_ONLY : Nat := 0x2713
abbrev Obj.PTP_PRIORITY1 : Nat := 0x2714
abbrev Obj.PTP_PRIORITY2 : Nat := 0x2715
abbrev Obj.PTP_LOG_REQ : Nat := 0x2716
abbrev Obj.PTP_IPV4 : Nat := 0x2717
abbrev Obj.PTP_IPV4_MASK : Nat := 0x2718
abbrev Obj.PTP_ASYM : Nat := 0x2719
abbrev Obj.SLEW_LIMIT : Nat := 0x2720
abbrev Obj.PTP_TAU : Nat := 0x2721
abbrev Obj.PTP_FREQ_TAU : Nat := 0x2722
abbrev Obj.TIME_TOL : Nat := 0x2723
abbrev Obj.HOLDOVER_MAX : Nat := 0x2724
abbrev Obj.SCHED_CANCEL : Nat := 0x2730
abbrev Obj.REG_STATUS : Nat := 0x2740
abbrev Obj.REG_FREQ_OFFS : Nat := 0x2741
abbrev Obj.TIME_STATE : Nat := 0x2742
abbrev Obj.TIME_NOW : Nat := 0x2743
abbrev Obj.TICK_NOW : Nat := 0x2744
abbrev Obj.TIME_EPOCH : Nat := 0x2745
abbrev Obj.TIME_OFFSET : Nat := 0x2746
abbrev Obj.TIME_RATE : Nat := 0x2747
abbrev Obj.MEAN_PATH_DELAY : Nat := 0x2748
abbrev Obj.GM_IDENTITY : Nat := 0x2749
abbrev Obj.UTC_OFFSET : Nat := 0x274A
abbrev Obj.TIME_STEP_FROM : Nat := 0x274B
abbrev Obj.TIME_STEP_TO : Nat := 0x274C
abbrev Obj.TIME_STEP_TICK : Nat := 0x274D
abbrev Obj.TIME_STATUS : Nat := 0x274E
abbrev Obj.TICKS_SKIPPED : Nat := 0x2750
abbrev Obj.LOCK_LOSS_COUNT : Nat := 0x2751
abbrev Obj.REF_SWITCH_COUNT : Nat := 0x2752
abbrev Obj.TURN_V : Nat := 0x2753
abbrev Obj.TURN_G : Nat := 0x2754
abbrev Obj.SCHED_PENDING : Nat := 0x2755
abbrev Obj.SCHED_LATE_COUNT : Nat := 0x2756
abbrev Obj.SCHED_DISCARD_COUNT : Nat := 0x2757
abbrev Obj.CHR_NCH : Nat := 0x2800
abbrev Obj.CHR_DEC : Nat := 0x2801
abbrev Obj.CHR_PRE : Nat := 0x2802
abbrev Obj.CHR_POST : Nat := 0x2803
abbrev Obj.CHR_HOLDOFF_MODE : Nat := 0x2804
abbrev Obj.CHR_HOLDOFF : Nat := 0x2805
abbrev Obj.CHR_TRIG_EN : Nat := 0x2806
abbrev Obj.CHR_SLOTS : Nat := 0x2807
abbrev Obj.CHR_OVERWRITE_UNREAD : Nat := 0x2808
abbrev Obj.CHR_TRAIN_JOIN : Nat := 0x2809
abbrev Obj.CHR_PAT_MASK : Nat := 0x2810
abbrev Obj.CHR_PAT_VALUE : Nat := 0x2814
abbrev Obj.CHR_PAT_EDGE : Nat := 0x2818
abbrev Obj.TH_SIG : Nat := 0x2820
abbrev Obj.TH_LEVEL : Nat := 0x2824
abbrev Obj.TH_HYST : Nat := 0x2828
abbrev Obj.TH_DIR : Nat := 0x282C
abbrev Obj.RT_SIG : Nat := 0x2830
abbrev Obj.RT_LEVEL : Nat := 0x2832
abbrev Obj.RT_SPAN : Nat := 0x2834
abbrev Obj.CHR_STATE : Nat := 0x2838
abbrev Obj.CHR_STATUS : Nat := 0x2839
abbrev Obj.CHR_UNREAD : Nat := 0x283A
abbrev Obj.CHR_LAST_ID : Nat := 0x283B
abbrev Obj.CHR_ARM_ID : Nat := 0x283C
abbrev Obj.CHR_TRIG_LOST : Nat := 0x283D
abbrev Obj.CHR_OVERWRITE_COUNT : Nat := 0x283E
abbrev Obj.CHR_FIRE_IGNORED : Nat := 0x283F
abbrev Obj.CHR_CH_SIG : Nat := 0x2840
abbrev Obj.CHR_CH_FMT : Nat := 0x2880
abbrev Obj.CHR_CH_FS : Nat := 0x28C0
abbrev Obj.SI_FUNC : Nat := 0x2900
abbrev Obj.SI_MODE : Nat := 0x2908
abbrev Obj.SI_FILT : Nat := 0x2910
abbrev Obj.SI_DISC : Nat := 0x2918
abbrev Obj.SF_TI_PR : Nat := 0x2920
abbrev Obj.SF_TI_FILT : Nat := 0x2921
abbrev Obj.SCS_RATE : Nat := 0x2928
abbrev Obj.SCS_CTL_RATE : Nat := 0x2929
abbrev Obj.SCS_MARGIN : Nat := 0x292A
abbrev Obj.SCS_GRACE : Nat := 0x292B
abbrev Obj.SCS_END_LEVEL : Nat := 0x292C
abbrev Obj.SCS_TMAX : Nat := 0x292D
abbrev Obj.EM_TEST_PERIOD : Nat := 0x2930
abbrev Obj.SO_TEST_PERIOD : Nat := 0x2931
abbrev Obj.SO_TEST_WIDTH : Nat := 0x2932
abbrev Obj.SF_ENABLE : Nat := 0x2938
abbrev Obj.SF_PRODUCERS : Nat := 0x2939
abbrev Obj.SF_GROUPS : Nat := 0x293A
abbrev Obj.SF_TX_PR_GROUPS : Nat := 0x293B
abbrev Obj.SF_TX_SCS_GROUPS : Nat := 0x293C
abbrev Obj.SF_PERIOD : Nat := 0x293D
abbrev Obj.SF_WATCHDOG : Nat := 0x293E
abbrev Obj.SF_ACCEPT_WIN : Nat := 0x293F
abbrev Obj.SF_SEED : Nat := 0x2940
abbrev Obj.SAFETY_STATUS : Nat := 0x2950
abbrev Obj.SI_STATE : Nat := 0x2951
abbrev Obj.SF_RX_OK : Nat := 0x2952
abbrev Obj.SF_RX_SINGLE : Nat := 0x2953
abbrev Obj.SF_WATCHDOG_COUNT : Nat := 0x2957
abbrev Obj.SAFETY_TEST_PREEMPT : Nat := 0x2958
abbrev Obj.SAFETY_TEST_FAIL_COUNT : Nat := 0x2959
abbrev Obj.SF_PARAM_CRC : Nat := 0x295A
abbrev Obj.SF_PARAM_VERSION : Nat := 0x295B
abbrev Obj.SK_FW_VERSION : Nat := 0x295C
abbrev Obj.SCS_ENV : Nat := 0x295D
abbrev Obj.SCS_COUNT : Nat := 0x295E
abbrev Obj.PR_COUNT : Nat := 0x295F
abbrev Obj.TRAIN_ADDR_CLEAR : Nat := 0x2A00
abbrev Obj.PAIR_PARTNER : Nat := 0x2A01
abbrev Obj.PAIR_PREFERRED : Nat := 0x2A02
abbrev Obj.PAIR_LOF_LANES : Nat := 0x2A03
abbrev Obj.PAIR_REVERT : Nat := 0x2A04
abbrev Obj.PAIR_REVERT_DELAY : Nat := 0x2A05
abbrev Obj.PAIR_YIELD : Nat := 0x2A06
abbrev Obj.FEED_TEST : Nat := 0x2A07
abbrev Obj.TRAIN_ADDR : Nat := 0x2A10
abbrev Obj.TRAIN_STATE : Nat := 0x2A11
abbrev Obj.TRAIN_STATUS : Nat := 0x2A12
abbrev Obj.TRAIN_MEMBERS : Nat := 0x2A13
abbrev Obj.TRAIN_ROOT_SERIAL : Nat := 0x2A14
abbrev Obj.TRAIN_RX_DELTA_E : Nat := 0x2A15
abbrev Obj.TRAIN_RX_DELTA_W : Nat := 0x2A16
abbrev Obj.TRAIN_CRC_ERR : Nat := 0x2A17
abbrev Obj.TRAIN_MSG_LOST : Nat := 0x2A18
abbrev Obj.TRAIN_WRAP_COUNT : Nat := 0x2A19
abbrev Obj.PAIR_ROLE : Nat := 0x2A20
abbrev Obj.PAIR_STATUS : Nat := 0x2A21
abbrev Obj.TAKEOVER_COUNT : Nat := 0x2A22
abbrev Obj.TAKEOVER_TICK : Nat := 0x2A23
abbrev Obj.FEED_A_MV : Nat := 0x2A30
abbrev Obj.FEED_B_MV : Nat := 0x2A31
abbrev Obj.FEED_STATUS : Nat := 0x2A32
abbrev Obj.FEED_HEALTH_A : Nat := 0x2A33
abbrev Obj.FEED_HEALTH_B : Nat := 0x2A34
abbrev Obj.FEED_SWITCH_COUNT : Nat := 0x2A35
abbrev Obj.SUP_RESTART_COUNT : Nat := 0x2A40
abbrev Obj.WAKE_MASK : Nat := 0x2B00
abbrev Obj.PS_STATUS : Nat := 0x2B10
abbrev Obj.PS_REFUSE : Nat := 0x2B11
abbrev Obj.PS_ABORT_COUNT : Nat := 0x2B18
abbrev Obj.PS_ABORT_LAST : Nat := 0x2B19
abbrev Obj.PS_ENTRY_COUNT : Nat := 0x2B1A
abbrev Obj.WAKE_COUNT : Nat := 0x2B1B
abbrev Obj.WAKE_FAIL_COUNT : Nat := 0x2B1C
abbrev Obj.WAKE_FAIL_LAST : Nat := 0x2B1D
abbrev Obj.SLEEP_TIME_LAST : Nat := 0x2B1E
abbrev Obj.PL_CHANGE_COUNT : Nat := 0x2B20
abbrev Obj.PL_REFUSE_COUNT : Nat := 0x2B21
abbrev Obj.VIO_MV : Nat := 0x2B22
abbrev Obj.RESET_HELD_LAST : Nat := 0x2B23
abbrev Obj.LOG_PERIOD : Nat := 0x2C00
abbrev Obj.LOG_BURST_1 : Nat := 0x2C01
abbrev Obj.LOG_BURST_2 : Nat := 0x2C02
abbrev Obj.LOG_BURST_3 : Nat := 0x2C03
abbrev Obj.LOG_ACK : Nat := 0x2C04
abbrev Obj.LOG_HEAD_SEQ : Nat := 0x2C10
abbrev Obj.LOG_OLDEST_SEQ : Nat := 0x2C11
abbrev Obj.SAFETY_OLDEST_SEQ : Nat := 0x2C12
abbrev Obj.SAFETY_UNACKED : Nat := 0x2C13
abbrev Obj.LOG_OVERWRITTEN : Nat := 0x2C14
abbrev Obj.LOG_SUPPRESSED : Nat := 0x2C15
abbrev Obj.LOG_DEFERRED : Nat := 0x2C16
abbrev Obj.SAFETY_MERGED : Nat := 0x2C17
abbrev Obj.LOG_STATUS : Nat := 0x2C18
abbrev Obj.SPARES : Nat := 0x2D00
abbrev Obj.COEF_WRITE : Nat := 0x2D02
abbrev Obj.STEP_SEL : Nat := 0x2D03
abbrev Obj.STEP_READ : Nat := 0x2D04
abbrev Obj.SIGNAL_SEL : Nat := 0x2D05
abbrev Obj.SIGNAL_VALUE : Nat := 0x2D06
abbrev Obj.LOCAL_SEL : Nat := 0x2D07
abbrev Obj.LOCAL_VALUE : Nat := 0x2D08
abbrev Obj.BANK_ACTIVE : Nat := 0x2D10
abbrev Obj.BANK_STATUS_A : Nat := 0x2D11
abbrev Obj.BANK_STATUS_B : Nat := 0x2D12
abbrev Obj.TABLE_ID_A : Nat := 0x2D13
abbrev Obj.TABLE_ID_B : Nat := 0x2D14
abbrev Obj.SWAP_COUNT : Nat := 0x2D15
abbrev Obj.SWAP_TICK : Nat := 0x2D16
abbrev Obj.VERIFY_FAILS : Nat := 0x2D17
abbrev Obj.VERIFY_FIRST : Nat := 0x2D18
abbrev Obj.ENGINE_MAP : Nat := 0x2D20
abbrev Obj.ENGINE_FAILED : Nat := 0x2D21
abbrev Obj.SPARES_AVAILABLE : Nat := 0x2D22
abbrev Obj.MIGRATE_COUNT : Nat := 0x2D23
abbrev Obj.RESIDUE_ERR_COUNT : Nat := 0x2D24
abbrev Obj.SIG_ERR_COUNT : Nat := 0x2D25
abbrev Obj.WB_SAT_COUNT : Nat := 0x2D26
abbrev Obj.ACC_SAT_COUNT : Nat := 0x2D27
abbrev Obj.COEF_QUEUE : Nat := 0x2D28
abbrev Obj.COEF_LAST_TICK : Nat := 0x2D29
abbrev Obj.ESC_STATUS : Nat := 0x2D2A

/-- Objects of block 0x1000 (spec file 14). -/
def objBlock10 : List ObjDef :=
  [⟨0x1000, 0x1000, 13, .ro, .ivs [], 0, .never⟩, -- PART_NUMBER
   ⟨0x1001, 0x1001, 3, .ro, .ivs [], 0, .never⟩, -- SERIAL
   ⟨0x1002, 0x1002, 3, .ro, .ivs [], 0, .never⟩, -- HW_REV
   ⟨0x1003, 0x1003, 3, .ro, .ivs [], 0, .never⟩, -- SUP_FW_RUNNING
   ⟨0x1004, 0x1004, 3, .ro, .ivs [], 0, .never⟩, -- SUP_FW_INACTIVE
   ⟨0x1010, 0x1010, 3, .rw, .ivs [(1, 4294967294)], 3232235620, .nextTick⟩, -- HL_IPV4
   ⟨0x1011, 0x1011, 3, .rw, .mask, 4294967040, .nextTick⟩, -- HL_IPV4_MASK
   ⟨0x1012, 0x1012, 3, .rw, .ivs [(0, 4294967294)], 0, .nextTick⟩, -- HL_GATEWAY
   ⟨0x1013, 0x1013, 2, .rw, .ivs [(5, 3600)], 30, .nextTick⟩, -- HL_SESSION_TIMEOUT
   ⟨0x1014, 0x1014, 13, .wo, .ivs [(0, 0)], 0, .nextTick⟩, -- HL_KEY_OP
   ⟨0x1015, 0x1015, 13, .wo, .ivs [(0, 0)], 0, .nextTick⟩, -- HL_KEY_RO
   ⟨0x1020, 0x1020, 3, .ro, .ivs [], 0, .never⟩, -- HL_RX_BAD
   ⟨0x1021, 0x1021, 3, .ro, .ivs [], 0, .never⟩, -- HL_AUTH_FAIL_COUNT
   ⟨0x1022, 0x1022, 3, .ro, .ivs [], 0, .never⟩, -- HL_REPLAY_COUNT
   ⟨0x1023, 0x1023, 3, .ro, .ivs [], 0, .never⟩, -- MB_RESP_DISCARD_COUNT
   ⟨0x1024, 0x1024, 3, .ro, .ivs [], 0, .never⟩, -- ACCESS_ERR_COUNT
   ⟨0x1025, 0x1025, 1, .ro, .ivs [], 0, .never⟩] -- HL_SESSIONS

/-- Objects of block 0x2000 (spec file 02). -/
def objBlock20 : List ObjDef :=
  [⟨0x2000, 0x2000, 12, .rw, .ivs [(50, 50), (60, 60)], 50, .stateChange⟩, -- F_NOM
   ⟨0x2001, 0x2001, 3, .rw, .ivs [(10000, 10000000)], 1000000, .stateChange⟩, -- S_BASE
   ⟨0x2002, 0x2002, 3, .rw, .ivs [(1000, 1000000)], 400000, .stateChange⟩, -- V_AC_BASE
   ⟨0x2003, 0x2003, 3, .rw, .ivs [(1000, 2000000)], 800000, .stateChange⟩, -- V_DC_BASE
   ⟨0x2004, 0x2004, 12, .rw, .ivs [(0, 0), (1, 1)], 0, .nextTick⟩, -- AC_ROLE
   ⟨0x2010, 0x2010, 6, .rw, .ivs [(-10000, 10000)], 0, .nextTick⟩, -- P_SET
   ⟨0x2011, 0x2011, 6, .rw, .ivs [(-10000, 10000)], 0, .nextTick⟩, -- Q_SET
   ⟨0x2012, 0x2012, 2, .rw, .ivs [(8000, 12000)], 10000, .nextTick⟩, -- V_SET
   ⟨0x2013, 0x2013, 3, .rw, .fset, 50000, .nextTick⟩, -- F_SET
   ⟨0x2020, 0x2020, 2, .rw, .ivs [(200, 30000)], 5000, .nextTick⟩, -- H
   ⟨0x2021, 0x2021, 2, .rw, .ivs [(0, 20000)], 5000, .nextTick⟩, -- D
   ⟨0x2022, 0x2022, 2, .rw, .ivs [(50, 1000)], 400, .nextTick⟩, -- DROOP_F
   ⟨0x2023, 0x2023, 2, .rw, .ivs [(0, 10000)], 500, .nextTick⟩, -- T_DROOP
   ⟨0x2024, 0x2024, 2, .rw, .ivs [(0, 50000)], 1000, .nextTick⟩, -- T_PMEAS
   ⟨0x2025, 0x2025, 2, .rw, .ivs [(10, 100)], 50, .nextTick⟩, -- FREQ_LIMIT
   ⟨0x2030, 0x2030, 2, .rw, .ivs [(0, 2000)], 400, .nextTick⟩, -- DROOP_Q
   ⟨0x2031, 0x2031, 2, .rw, .ivs [(0, 50000)], 5000, .nextTick⟩, -- T_QMEAS
   ⟨0x2032, 0x2032, 2, .rw, .ivs [(0, 10000)], 300, .nextTick⟩, -- KP_V
   ⟨0x2033, 0x2033, 2, .rw, .ivs [(0, 10000)], 50, .nextTick⟩, -- TI_V
   ⟨0x2034, 0x2034, 2, .rw, .ivs [(0, 3000)], 1500, .nextTick⟩, -- E_CORR_MAX
   ⟨0x2035, 0x2035, 2, .rw, .ivs [(0, 50000)], 2000, .nextTick⟩, -- T_VMEAS
   ⟨0x2036, 0x2036, 2, .rw, .ivs [(10000, 13000)], 12000, .nextTick⟩, -- E_MAX
   ⟨0x2040, 0x2040, 2, .rw, .ivs [(0, 1000)], 100, .nextTick⟩, -- R_V
   ⟨0x2041, 0x2041, 2, .rw, .ivs [(300, 5000)], 1500, .nextTick⟩, -- X_V
   ⟨0x2050, 0x2050, 2, .rw, .ivs [(20, 500)], 200, .nextTick⟩, -- GT_BW
   ⟨0x2051, 0x2051, 2, .rw, .ivs [(500, 8000)], 3000, .nextTick⟩, -- GT_ABSENT_LEVEL
   ⟨0x2052, 0x2052, 2, .rw, .ivs [(1000, 50000)], 5000, .nextTick⟩, -- GT_ABSENT_TIME
   ⟨0x2053, 0x2053, 2, .rw, .ivs [(0, 2000)], 500, .nextTick⟩, -- GT_RETURN_HYST
   ⟨0x2054, 0x2054, 0, .rw, .ivs [(0, 0), (1, 1)], 1, .nextTick⟩, -- PREALIGN
   ⟨0x2060, 0x2060, 3, .ro, .ivs [], 0, .never⟩, -- F_V
   ⟨0x2061, 0x2061, 9, .ro, .ivs [], 0, .never⟩, -- THETA_V
   ⟨0x2062, 0x2062, 3, .ro, .ivs [], 0, .never⟩, -- F_G
   ⟨0x2063, 0x2063, 9, .ro, .ivs [], 0, .never⟩, -- THETA_G
   ⟨0x2064, 0x2064, 12, .ro, .ivs [], 0, .never⟩, -- GT_STATE
   ⟨0x2065, 0x2065, 6, .ro, .ivs [], 0, .never⟩, -- P_MEAS
   ⟨0x2066, 0x2066, 6, .ro, .ivs [], 0, .never⟩, -- Q_MEAS
   ⟨0x2067, 0x2067, 2, .ro, .ivs [], 0, .never⟩, -- V_MEAS
   ⟨0x2068, 0x2068, 2, .ro, .ivs [], 0, .never⟩, -- E_MAG
   ⟨0x2069, 0x2069, 3, .ro, .ivs [], 0, .never⟩, -- BAL_STATUS
   ⟨0x206A, 0x206A, 6, .ro, .ivs [], 0, .never⟩, -- GT_JUMP_LAST
   ⟨0x206B, 0x206B, 3, .ro, .ivs [], 0, .never⟩, -- GT_JUMP_COUNT
   ⟨0x206C, 0x206C, 3, .ro, .ivs [], 0, .never⟩] -- FREQ_CLAMP_COUNT

/-- Objects of block 0x2100 (spec file 03). -/
def objBlock21 : List ObjDef :=
  [⟨0x2100, 0x2100, 1, .rw, .ivs [(3, 255)], 31, .nextTick⟩, -- FUSEE_ENABLE
   ⟨0x2101, 0x2101, 2, .rw, .ivs [(1000, 20000)], 11000, .nextTick⟩, -- I_LIM
   ⟨0x2102, 0x2102, 2, .rw, .ivs [(1, 2000)], 200, .nextTick⟩, -- TRK_HEAD
   ⟨0x2110, 0x2110, 2, .rw, .ivs [(5000, 10000)], 9000, .nextTick⟩, -- DCV_LOW
   ⟨0x2111, 0x2111, 2, .rw, .ivs [(10000, 13000)], 11000, .nextTick⟩, -- DCV_HIGH
   ⟨0x2112, 0x2112, 2, .rw, .ivs [(0, 10000)], 500, .nextTick⟩, -- KP_DCV
   ⟨0x2113, 0x2113, 2, .rw, .ivs [(0, 10000)], 20, .nextTick⟩, -- TI_DCV
   ⟨0x2120, 0x2120, 2, .rw, .ivs [(5000, 10000)], 8500, .nextTick⟩, -- W_LOW
   ⟨0x2121, 0x2121, 2, .rw, .ivs [(10000, 13000)], 11500, .nextTick⟩, -- W_HIGH
   ⟨0x2122, 0x2122, 2, .rw, .ivs [(0, 10000)], 500, .nextTick⟩, -- KP_W
   ⟨0x2123, 0x2123, 2, .rw, .ivs [(0, 10000)], 50, .nextTick⟩, -- TI_W
   ⟨0x2130, 0x2130, 2, .rw, .ivs [(1000, 20000)], 10000, .nextTick⟩, -- I_TH_CONT
   ⟨0x2131, 0x2131, 2, .rw, .ivs [(1000, 30000)], 13000, .nextTick⟩, -- I_TH_SHORT
   ⟨0x2132, 0x2132, 2, .rw, .ivs [(100, 60000)], 10000, .nextTick⟩, -- TH_TAU
   ⟨0x2138, 0x2138, 2, .rw, .ivs [(0, 1000)], 100, .nextTick⟩, -- P_SIGN_BAND
   ⟨0x2140, 0x2140, 2, .rw, .ivs [(5000, 9500)], 8500, .nextTick⟩, -- FRT_LEVEL
   ⟨0x2141, 0x2141, 2, .rw, .ivs [(0, 1000)], 300, .nextTick⟩, -- FRT_HYST
   ⟨0x2142, 0x2142, 2, .rw, .ivs [(0, 20000)], 1000, .nextTick⟩, -- FRT_TIME
   ⟨0x2143, 0x2143, 2, .rw, .ivs [(100, 490)], 250, .nextTick⟩, -- SLIP_ANGLE
   ⟨0x2150, 0x2150, 12, .rw, .ivs [(0, 0), (1, 1)], 0, .nextTick⟩, -- DCF_MODE
   ⟨0x2151, 0x2151, 2, .rw, .ivs [(1000, 8000)], 5000, .nextTick⟩, -- DCF_LEVEL
   ⟨0x2152, 0x2152, 2, .rw, .ivs [(0, 4000)], 40, .nextTick⟩, -- DCF_TIME
   ⟨0x2153, 0x2153, 12, .rw, .ivs [(0, 15), (255, 255)], 255, .nextTick⟩, -- DCF_TRIP_INPUT
   ⟨0x2154, 0x2154, 0, .rw, .ivs [(0, 0), (1, 1)], 0, .nextTick⟩, -- DCF_RECOVER
   ⟨0x2155, 0x2155, 2, .rw, .ivs [(1, 10000)], 100, .nextTick⟩, -- DCF_RAMP
   ⟨0x2160, 0x2160, 0, .rw, .ivs [(0, 0), (1, 1)], 0, .stateChange⟩, -- ENRG_EN
   ⟨0x2161, 0x2161, 2, .rw, .ivs [(0, 10000)], 200, .stateChange⟩, -- ENRG_TIME
   ⟨0x2170, 0x2170, 12, .ro, .ivs [], 0, .never⟩, -- FUSEE_WIN
   ⟨0x2171, 0x2171, 7, .ro, .ivs [], 0, .never⟩, -- FUSEE_K
   ⟨0x2172, 0x2172, 3, .ro, .ivs [], 0, .never⟩, -- FUSEE_STATUS
   ⟨0x2173, 0x2173, 3, .ro, .ivs [], 0, .never⟩, -- WIN_CHANGE_COUNT
   ⟨0x2174, 0x2174, 3, .ro, .ivs [], 0, .never⟩, -- FRT_COUNT
   ⟨0x2175, 0x2175, 3, .ro, .ivs [], 0, .never⟩, -- DCF_COUNT
   ⟨0x2176, 0x2176, 3, .ro, .ivs [], 0, .never⟩, -- SLIP_COUNT
   ⟨0x2177, 0x2177, 3, .ro, .ivs [], 0, .never⟩] -- TH_STATE

/-- Objects of block 0x2200 (spec file 04). -/
def objBlock22 : List ObjDef :=
  [⟨0x2200, 0x2200, 12, .rw, .ivs [(0, 0), (1, 1), (2, 2)], 2, .stateChange⟩, -- DC_ROLE
   ⟨0x2201, 0x2201, 2, .rw, .ivs [(5000, 12000)], 10000, .nextTick⟩, -- V_DC_SET
   ⟨0x2202, 0x2202, 2, .rw, .ivs [(1, 512)], 512, .nextTick⟩, -- N_NEED
   ⟨0x2203, 0x2203, 2, .rw, .ivs [(0, 256)], 0, .nextTick⟩, -- REDUND_MIN
   ⟨0x2204, 0x2204, 12, .rw, .ivs [(0, 15), (255, 255)], 255, .nextTick⟩, -- REDUND_TRIP_INPUT
   ⟨0x2205, 0x2205, 2, .rw, .ivs [(1000, 50000)], 20000, .stateChange⟩, -- V_CELL_NOM
   ⟨0x2210, 0x2210, 2, .rw, .ivs [(9000, 11000)], 10000, .nextTick⟩, -- W_REF
   ⟨0x2211, 0x2211, 2, .rw, .ivs [(0, 10000)], 2000, .nextTick⟩, -- KP_WS
   ⟨0x2212, 0x2212, 2, .rw, .ivs [(0, 10000)], 100, .nextTick⟩, -- TI_WS
   ⟨0x2213, 0x2213, 2, .rw, .ivs [(1000, 20000)], 11000, .nextTick⟩, -- I_DC_MAX
   ⟨0x2214, 0x2214, 2, .rw, .ivs [(0, 10000)], 1000, .nextTick⟩, -- KP_WH
   ⟨0x2215, 0x2215, 2, .rw, .ivs [(0, 10000)], 200, .nextTick⟩, -- TI_WH
   ⟨0x2216, 0x2216, 2, .rw, .ivs [(0, 10000)], 1000, .nextTick⟩, -- KP_WV
   ⟨0x2217, 0x2217, 2, .rw, .ivs [(0, 10000)], 200, .nextTick⟩, -- TI_WV
   ⟨0x2218, 0x2218, 2, .rw, .ivs [(0, 3000)], 1000, .nextTick⟩, -- I_BAL_MAX
   ⟨0x2220, 0x2220, 2, .rw, .ivs [(0, 10000)], 1000, .nextTick⟩, -- KP_DCVL
   ⟨0x2221, 0x2221, 2, .rw, .ivs [(0, 10000)], 50, .nextTick⟩, -- TI_DCVL
   ⟨0x2222, 0x2222, 2, .rw, .ivs [(0, 20000)], 10000, .nextTick⟩, -- P_DCV_MAX
   ⟨0x2230, 0x2230, 2, .rw, .ivs [(0, 10000)], 1000, .nextTick⟩, -- KP_ARM
   ⟨0x2231, 0x2231, 2, .rw, .ivs [(0, 1000)], 50, .nextTick⟩, -- TI_CC
   ⟨0x2232, 0x2232, 2, .rw, .ivs [(0, 3000)], 1000, .nextTick⟩, -- CC_INT_MAX
   ⟨0x2233, 0x2233, 1, .rw, .ivs [(0, 7)], 1, .nextTick⟩, -- CCS_HARM
   ⟨0x2234, 0x2234, 2, .rw, .ivs [(0, 2000)], 500, .nextTick⟩, -- CC_RES_MAX
   ⟨0x2240, 0x2240, 2, .rw, .ivs [(0, 5000)], 50, .nextTick⟩, -- RANK_HYST
   ⟨0x2241, 0x2241, 2, .rw, .ivs [(17, 4000)], 48, .nextTick⟩, -- STALE_TICKS
   ⟨0x2242, 0x2242, 2, .rw, .ivs [(0, 60000)], 4000, .nextTick⟩, -- CELL_FAIL_TIME
   ⟨0x2243, 0x2243, 12, .rw, .ivs [(0, 0), (1, 1)], 0, .stateChange⟩, -- PRECHG_SOURCE
   ⟨0x2244, 0x2244, 2, .rw, .ivs [(5000, 10000)], 9500, .nextTick⟩, -- PRECHG_LEVEL
   ⟨0x2245, 0x2245, 2, .wo, .ivs [(0, 3071)], 0, .nextTick⟩, -- CELL_EXCLUDE
   ⟨0x2246, 0x2246, 2, .wo, .ivs [(0, 3071), (65535, 65535)], 0, .nextTick⟩, -- CELL_READMIT
   ⟨0x2250, 0x2255, 2, .ro, .ivs [], 0, .never⟩, -- N_RANK
   ⟨0x2256, 0x225B, 2, .ro, .ivs [], 0, .never⟩, -- N_FB
   ⟨0x225C, 0x2261, 2, .ro, .ivs [], 0, .never⟩, -- W_ARM
   ⟨0x2262, 0x2262, 2, .ro, .ivs [], 0, .never⟩, -- W_SUM
   ⟨0x2263, 0x2263, 6, .ro, .ivs [], 0, .never⟩, -- I_DC_REF
   ⟨0x2264, 0x2264, 6, .ro, .ivs [], 0, .never⟩, -- P_DCV
   ⟨0x2265, 0x2265, 3, .ro, .ivs [], 0, .never⟩, -- ARM_STATUS
   ⟨0x2266, 0x2266, 2, .ro, .ivs [], 0, .never⟩, -- CELLS_RETIRED
   ⟨0x2267, 0x2267, 2, .ro, .ivs [], 0, .never⟩, -- CELLS_STALE
   ⟨0x2268, 0x2268, 3, .ro, .ivs [], 0, .never⟩, -- STALE_EVENT_COUNT
   ⟨0x2269, 0x2269, 3, .ro, .ivs [], 0, .never⟩, -- RETIRE_COUNT
   ⟨0x2280, 0x22AF, 12, .rw, .ivs [(0, 5), (7, 7)], 7, .setOnly⟩, -- ARM_MAP
   ⟨0x22B0, 0x22DF, 12, .rw, .ivs [(0, 0), (1, 1)], 0, .setOnly⟩] -- CELL_TYPE

/-- Objects of block 0x2300 (spec file 05). -/
def objBlock23 : List ObjDef :=
  [⟨0x2300, 0x2300, 12, .rw, .ivs [(0, 0), (1, 1), (2, 2)], 0, .stateChange⟩, -- MOD_MODE
   ⟨0x2301, 0x2301, 0, .rw, .ivs [(0, 0), (1, 1)], 1, .nextTick⟩, -- MOD_ENABLE
   ⟨0x2302, 0x2302, 2, .rw, .ivs [(20, 2000)], 300, .nextTick⟩, -- DEAD_TIME
   ⟨0x2303, 0x2303, 2, .rw, .ivs [(0, 2000)], 100, .nextTick⟩, -- MIN_PULSE
   ⟨0x2304, 0x2304, 2, .rw, .ivs [(0, 1000)], 50, .nextTick⟩, -- ISIGN_BAND
   ⟨0x2305, 0x2305, 12, .rw, .ivs [(0, 0), (1, 1)], 1, .nextTick⟩, -- NLM_EDGE
   ⟨0x2306, 0x2306, 1, .rw, .ivs [(0, 16)], 1, .nextTick⟩, -- SWAP_MAX
   ⟨0x2307, 0x2307, 2, .rw, .ivs [(0, 2000)], 200, .nextTick⟩, -- PSC_BAL
   ⟨0x2310, 0x2310, 2, .rw, .ivs [(1, 1023)], 3, .setOnly⟩, -- CARR_PER_CYCLE
   ⟨0x2311, 0x2311, 2, .rw, .ivs [(1, 512)], 512, .setOnly⟩, -- CARR_SPACING
   ⟨0x2312, 0x2312, 9, .rw, .ivs [(0, 4294967295)], 0, .setOnly⟩, -- CARR_PHASE
   ⟨0x2313, 0x2313, 0, .rw, .ivs [(0, 0), (1, 1)], 1, .setOnly⟩, -- CARR_INTERLEAVE
   ⟨0x2314, 0x2319, 12, .rw, .ivs [(0, 0), (1, 1)], 0, .nextTick⟩, -- UPD_MODE
   ⟨0x2320, 0x232F, 2, .rw, .ivs [(0, 4095)], 10, .nextTick⟩, -- TRIP_FILT
   ⟨0x2330, 0x233F, 1, .rw, .ivs [(0, 63)], 63, .nextTick⟩, -- TRIP_ARMS
   ⟨0x2340, 0x2340, 2, .rw, .ivs [(0, 65535)], 0, .nextTick⟩, -- TRIP_POL
   ⟨0x2341, 0x2341, 2, .wo, .ivs [(0, 65535)], 0, .nextTick⟩, -- TRIP_CLEAR
   ⟨0x2350, 0x2350, 2, .ro, .ivs [], 0, .never⟩, -- TRIP_ACTIVE
   ⟨0x2351, 0x2351, 2, .ro, .ivs [], 0, .never⟩, -- TRIP_LATCH
   ⟨0x2352, 0x2352, 12, .ro, .ivs [], 0, .never⟩, -- TRIP_FIRST
   ⟨0x2353, 0x2353, 3, .ro, .ivs [], 0, .never⟩, -- TRIP_COUNT
   ⟨0x2354, 0x2354, 3, .ro, .ivs [], 0, .never⟩, -- TRIP_CLEAR_REFUSED
   ⟨0x2355, 0x2355, 3, .ro, .ivs [], 0, .never⟩, -- MOD_STATUS
   ⟨0x2356, 0x235B, 5, .ro, .ivs [], 0, .never⟩, -- N_INS
   ⟨0x235C, 0x235C, 3, .ro, .ivs [], 0, .never⟩, -- SAT_COUNT
   ⟨0x235D, 0x235D, 3, .ro, .ivs [], 0, .never⟩, -- PULSE_DROP_COUNT
   ⟨0x235E, 0x235E, 3, .ro, .ivs [], 0, .never⟩] -- SPILL_COUNT

/-- Objects of block 0x2400 (spec file 06). -/
def objBlock24 : List ObjDef :=
  [⟨0x2400, 0x242F, 0, .rw, .ivs [(0, 0), (1, 1)], 1, .nextTick⟩, -- LANE_EN
   ⟨0x2430, 0x245F, 1, .rw, .ivs [(0, 64)], 0, .setOnly⟩, -- CELL_COUNT
   ⟨0x2460, 0x248F, 12, .ro, .ivs [], 0, .never⟩, -- LANE_STATE
   ⟨0x2490, 0x24BF, 3, .ro, .ivs [], 0, .never⟩, -- LANE_DELAY
   ⟨0x24F0, 0x24F0, 2, .rw, .ivs [(1, 400)], 8, .stateChange⟩, -- EXEC_DELAY
   ⟨0x24F1, 0x24F1, 1, .rw, .ivs [(12, 64)], 24, .nextTick⟩, -- LOF_TICKS
   ⟨0x24F2, 0x24F2, 1, .rw, .ivs [(0, 47)], 0, .nextTick⟩, -- LANE_SEL
   ⟨0x24F3, 0x24F3, 3, .ro, .ivs [], 0, .never⟩, -- LANE_STATUS
   ⟨0x24F4, 0x24F4, 3, .ro, .ivs [], 0, .never⟩, -- LANE_RX_CRC
   ⟨0x24F5, 0x24F5, 3, .ro, .ivs [], 0, .never⟩, -- LANE_RX_SYNC
   ⟨0x24F6, 0x24F6, 3, .ro, .ivs [], 0, .never⟩, -- LANE_RX_MISS
   ⟨0x24F7, 0x24F7, 3, .ro, .ivs [], 0, .never⟩, -- CU_RX_CRC
   ⟨0x24F8, 0x24F8, 3, .ro, .ivs [], 0, .never⟩, -- CU_LATE
   ⟨0x24F9, 0x24F9, 3, .ro, .ivs [], 0, .never⟩, -- CU_DTG
   ⟨0x24FA, 0x24FA, 3, .ro, .ivs [], 0, .never⟩, -- LANE_DOWN_COUNT
   ⟨0x24FB, 0x24FB, 3, .ro, .ivs [], 0, .never⟩, -- CU_PRODUCT
   ⟨0x24FC, 0x24FC, 3, .ro, .ivs [], 0, .never⟩, -- CU_SERIAL
   ⟨0x24FD, 0x24FD, 4, .ro, .ivs [], 0, .never⟩, -- LANES_UP
   ⟨0x24FE, 0x24FE, 4, .wo, .ivs [(0, 281474976710655)], 0, .nextTick⟩] -- LANE_CNT_CLEAR

/-- Objects of block 0x2500 (spec file 08). -/
def objBlock25 : List ObjDef :=
  [⟨0x2500, 0x2500, 3, .rw, .ivs [(1, 100000)], 1000, .nextTick⟩, -- RATE_P
   ⟨0x2501, 0x2501, 3, .rw, .ivs [(1, 1000000)], 1000, .nextTick⟩, -- ACC_P
   ⟨0x2502, 0x2502, 3, .rw, .ivs [(1, 100000)], 1000, .nextTick⟩, -- RATE_Q
   ⟨0x2503, 0x2503, 3, .rw, .ivs [(1, 1000000)], 1000, .nextTick⟩, -- ACC_Q
   ⟨0x2504, 0x2504, 3, .rw, .ivs [(1, 100000)], 1000, .nextTick⟩, -- RATE_VDC
   ⟨0x2505, 0x2505, 3, .rw, .ivs [(1, 1000000)], 1000, .nextTick⟩, -- ACC_VDC
   ⟨0x2506, 0x2506, 3, .rw, .ivs [(1, 10000)], 100, .nextTick⟩, -- RATE_F
   ⟨0x2507, 0x2507, 3, .rw, .ivs [(1, 100000)], 100, .nextTick⟩, -- ACC_F
   ⟨0x2508, 0x2508, 3, .rw, .ivs [(1, 100000)], 1000, .nextTick⟩, -- RATE_V
   ⟨0x2509, 0x2509, 3, .rw, .ivs [(1, 1000000)], 1000, .nextTick⟩, -- ACC_V
   ⟨0x2510, 0x2510, 3, .ro, .ivs [], 0, .never⟩, -- HANDS_STATUS
   ⟨0x2511, 0x2513, 6, .ro, .ivs [], 0, .never⟩, -- NOW_P
   ⟨0x2514, 0x2514, 3, .ro, .ivs [], 0, .never⟩, -- NOW_F
   ⟨0x2515, 0x2515, 2, .ro, .ivs [], 0, .never⟩, -- NOW_V
   ⟨0x2516, 0x2516, 11, .ro, .ivs [], 0, .never⟩, -- HANDS_ETA
   ⟨0x2517, 0x2517, 3, .ro, .ivs [], 0, .never⟩, -- HANDS_MOVE_ID
   ⟨0x2520, 0x2520, 1, .rw, .ivs [(0, 255)], 0, .nextTick⟩, -- LIM_POL
   ⟨0x2521, 0x2521, 1, .rw, .ivs [(0, 255)], 0, .nextTick⟩, -- LIM_MODE
   ⟨0x2522, 0x2529, 1, .rw, .ivs [(0, 63)], 63, .nextTick⟩, -- LIM_AXES
   ⟨0x252A, 0x2531, 2, .rw, .ivs [(0, 65535)], 400, .nextTick⟩, -- LIM_FILT
   ⟨0x2532, 0x2539, 2, .rw, .ivs [(0, 60000)], 1000, .nextTick⟩, -- LIM_QUIET
   ⟨0x253A, 0x253A, 1, .rw, .ivs [(0, 255)], 10, .nextTick⟩, -- LIM_CHAT_N
   ⟨0x253B, 0x253B, 2, .rw, .ivs [(1, 60000)], 1000, .nextTick⟩, -- LIM_CHAT_W
   ⟨0x253C, 0x253C, 1, .wo, .ivs [(0, 255)], 0, .nextTick⟩, -- LIM_CHAT_CLEAR
   ⟨0x2540, 0x2540, 1, .ro, .ivs [], 0, .never⟩, -- LIM_ACTIVE
   ⟨0x2541, 0x2541, 1, .ro, .ivs [], 0, .never⟩, -- LIM_CHATTER
   ⟨0x2542, 0x2542, 3, .ro, .ivs [], 0, .never⟩, -- LIM_CHANGE_COUNT
   ⟨0x2543, 0x2543, 3, .ro, .ivs [], 0, .never⟩, -- LIM_CLEAR_REFUSED
   ⟨0x2550, 0x2550, 2, .rw, .ivs [(5, 2000)], 200, .nextTick⟩, -- SET_TAU
   ⟨0x2551, 0x2551, 2, .rw, .ivs [(1, 100)], 20, .nextTick⟩, -- SET_SLIP_MAX
   ⟨0x2552, 0x2552, 2, .rw, .ivs [(10, 2000)], 200, .nextTick⟩, -- SET_TF
   ⟨0x2553, 0x2553, 2, .rw, .ivs [(1, 500)], 100, .nextTick⟩, -- SET_F_MAX
   ⟨0x2554, 0x2554, 2, .rw, .ivs [(10, 5000)], 200, .nextTick⟩, -- SET_TV
   ⟨0x2555, 0x2555, 2, .rw, .ivs [(0, 1000)], 500, .nextTick⟩, -- SET_V_MAX
   ⟨0x2556, 0x2556, 2, .rw, .ivs [(10, 1000)], 139, .nextTick⟩, -- SET_ANG_TOL
   ⟨0x2557, 0x2557, 2, .rw, .ivs [(1, 500)], 50, .nextTick⟩, -- SET_FREQ_TOL
   ⟨0x2558, 0x2558, 2, .rw, .ivs [(10, 2000)], 200, .nextTick⟩, -- SET_VOLT_TOL
   ⟨0x2559, 0x2559, 2, .rw, .ivs [(0, 10000)], 100, .nextTick⟩, -- SET_DWELL
   ⟨0x255A, 0x255A, 3, .rw, .ivs [(0, 600000)], 60000, .nextTick⟩, -- SET_TIMEOUT
   ⟨0x255B, 0x255B, 12, .wo, .ivs [(1, 2)], 0, .nextTick⟩, -- SET_END
   ⟨0x2560, 0x2560, 3, .ro, .ivs [], 0, .never⟩, -- SET_STATUS
   ⟨0x2561, 0x2561, 12, .ro, .ivs [], 0, .never⟩, -- SET_ABORT_REASON
   ⟨0x2562, 0x2562, 6, .ro, .ivs [], 0, .never⟩, -- SET_ANGLE_ERR
   ⟨0x2563, 0x2563, 2, .ro, .ivs [], 0, .never⟩, -- V_G
   ⟨0x2564, 0x2564, 3, .ro, .ivs [], 0, .never⟩] -- SET_ABORT_COUNT

/-- Objects of block 0x2600 (spec file 09). -/
def objBlock26 : List ObjDef :=
  [⟨0x2600, 0x2617, 12, .rw, .ivs [(0, 14)], 0, .setOnly⟩, -- AI_ROLE
   ⟨0x2618, 0x262F, 6, .rw, .ivs [(-10000000, 10000000)], 100000, .nextTick⟩, -- AI_SCALE
   ⟨0x2630, 0x2647, 12, .rw, .ivs [(0, 0), (1, 1), (2, 2)], 2, .window⟩, -- AI_DRIFT
   ⟨0x2650, 0x2650, 12, .rw, .ivs [(0, 0), (1, 1), (2, 2)], 0, .window⟩, -- REF_SEL
   ⟨0x2651, 0x2651, 2, .rw, .ivs [(24000, 26000)], 25000, .window⟩, -- REF_IN_NOM
   ⟨0x2652, 0x2652, 12, .rw, .ivs [(0, 0), (1, 1)], 1, .setOnly⟩, -- WIN_ANGLE
   ⟨0x2653, 0x2653, 9, .rw, .ivs [(0, 4294967295)], 0, .setOnly⟩, -- WIN_ANCHOR
   ⟨0x2654, 0x2654, 2, .rw, .ivs [(2, 256)], 8, .window⟩, -- WIN_FB_EVERY
   ⟨0x2655, 0x2655, 12, .rw, .ivs [(0, 15), (255, 255)], 15, .nextTick⟩, -- MEAS_TRIP_INPUT
   ⟨0x2656, 0x2656, 3, .wo, .ivs [(0, 16777215)], 0, .nextTick⟩, -- DRIFT_CLEAR
   ⟨0x2657, 0x2657, 1, .rw, .ivs [(0, 23)], 0, .nextTick⟩, -- AI_SEL
   ⟨0x2660, 0x2660, 3, .ro, .ivs [], 0, .never⟩, -- MEAS_STATUS
   ⟨0x2661, 0x2661, 2, .ro, .ivs [], 0, .never⟩, -- VANA_MV
   ⟨0x2662, 0x2662, 4, .ro, .ivs [], 0, .never⟩, -- WIN_COUNT
   ⟨0x2663, 0x2663, 3, .ro, .ivs [], 0, .never⟩, -- WIN_LEN
   ⟨0x2664, 0x2664, 3, .ro, .ivs [], 0, .never⟩, -- F_WIN
   ⟨0x2665, 0x2665, 6, .ro, .ivs [], 0, .never⟩, -- WIN_P
   ⟨0x2666, 0x2666, 6, .ro, .ivs [], 0, .never⟩, -- WIN_Q
   ⟨0x2667, 0x2667, 2, .ro, .ivs [], 0, .never⟩, -- WIN_VAC
   ⟨0x2668, 0x2668, 6, .ro, .ivs [], 0, .never⟩, -- WIN_VDC
   ⟨0x2669, 0x2669, 4, .ro, .ivs [], 0, .never⟩, -- ENERGY_EXPORT
   ⟨0x266A, 0x266A, 4, .ro, .ivs [], 0, .never⟩, -- ENERGY_IMPORT
   ⟨0x266B, 0x266B, 3, .ro, .ivs [], 0, .never⟩, -- FB_WINDOWS
   ⟨0x266C, 0x266C, 3, .ro, .ivs [], 0, .never⟩, -- WIN_DISCARD_COUNT
   ⟨0x266D, 0x266D, 3, .ro, .ivs [], 0, .never⟩, -- DRIFT_LIMIT_COUNT
   ⟨0x2670, 0x2670, 6, .ro, .ivs [], 0, .never⟩, -- AI_MEAN
   ⟨0x2671, 0x2671, 6, .ro, .ivs [], 0, .never⟩, -- AI_IP
   ⟨0x2672, 0x2672, 6, .ro, .ivs [], 0, .never⟩, -- AI_QD
   ⟨0x2673, 0x2673, 3, .ro, .ivs [], 0, .never⟩, -- AI_TRMS
   ⟨0x2674, 0x2674, 6, .ro, .ivs [], 0, .never⟩, -- AI_OFFS_CORR
   ⟨0x2675, 0x2675, 3, .ro, .ivs [], 0, .never⟩, -- AI_GAIN_CORR
   ⟨0x2676, 0x2676, 3, .ro, .ivs [], 0, .never⟩] -- AI_OVR_COUNT

/-- Objects of block 0x2700 (spec file 10). -/
def objBlock27 : List ObjDef :=
  [⟨0x2700, 0x2700, 12, .rw, .ivs [(0, 0), (1, 1)], 0, .nextTick⟩, -- REG_REF
   ⟨0x2701, 0x2701, 12, .rw, .ivs [(0, 0), (1, 1)], 1, .nextTick⟩, -- REFCLK_IN_FREQ
   ⟨0x2702, 0x2702, 12, .rw, .ivs [(0, 0), (1, 1)], 0, .nextTick⟩, -- REG_MODE
   ⟨0x2703, 0x2703, 4, .wo, .ivs [(0, 18446744073709551615)], 0, .nextTick⟩, -- RAMP_CMD
   ⟨0x2704, 0x2704, 6, .rw, .ivs [(-100000, 100000)], 0, .nextTick⟩, -- REG_TRIM
   ⟨0x2705, 0x2705, 12, .rw, .ivs [(0, 0), (1, 1), (2, 2)], 1, .nextTick⟩, -- REFCLK_OUT_FREQ
   ⟨0x2706, 0x2706, 2, .rw, .ivs [(0, 500)], 100, .nextTick⟩, -- PPS_WIDTH
   ⟨0x2710, 0x2710, 12, .rw, .ivs [(0, 0), (1, 1), (2, 2), (3, 3)], 1, .nextTick⟩, -- PTP_MODE
   ⟨0x2711, 0x2711, 1, .rw, .ivs [(0, 127)], 0, .nextTick⟩, -- PTP_DOMAIN
   ⟨0x2712, 0x2712, 12, .rw, .ivs [(0, 0), (1, 1)], 0, .nextTick⟩, -- PTP_TRANSPORT
   ⟨0x2713, 0x2713, 0, .rw, .ivs [(0, 0), (1, 1)], 1, .nextTick⟩, -- PTP_SLAVE_ONLY
   ⟨0x2714, 0x2714, 1, .rw, .ivs [(0, 255)], 255, .nextTick⟩, -- PTP_PRIORITY1
   ⟨0x2715, 0x2715, 1, .rw, .ivs [(0, 255)], 255, .nextTick⟩, -- PTP_PRIORITY2
   ⟨0x2716, 0x2716, 5, .rw, .ivs [(-4, 4)], 0, .nextTick⟩, -- PTP_LOG_REQ
   ⟨0x2717, 0x2717, 3, .rw, .ivs [(1, 4294967294)], 3232238082, .nextTick⟩, -- PTP_IPV4
   ⟨0x2718, 0x2718, 3, .rw, .mask, 4294967040, .nextTick⟩, -- PTP_IPV4_MASK
   ⟨0x2719, 0x2719, 6, .rw, .ivs [(-1000000, 1000000)], 0, .nextTick⟩, -- PTP_ASYM
   ⟨0x2720, 0x2720, 2, .rw, .ivs [(1, 1000)], 100, .nextTick⟩, -- SLEW_LIMIT
   ⟨0x2721, 0x2721, 2, .rw, .ivs [(1, 1000)], 16, .nextTick⟩, -- PTP_TAU
   ⟨0x2722, 0x2722, 2, .rw, .ivs [(1, 1000)], 64, .nextTick⟩, -- PTP_FREQ_TAU
   ⟨0x2723, 0x2723, 3, .rw, .ivs [(10, 1000000)], 250, .nextTick⟩, -- TIME_TOL
   ⟨0x2724, 0x2724, 3, .rw, .ivs [(0, 604800)], 86400, .nextTick⟩, -- HOLDOVER_MAX
   ⟨0x2730, 0x2730, 3, .wo, .ivs [(0, 4294967295)], 0, .nextTick⟩, -- SCHED_CANCEL
   ⟨0x2740, 0x2740, 3, .ro, .ivs [], 0, .never⟩, -- REG_STATUS
   ⟨0x2741, 0x2741, 6, .ro, .ivs [], 0, .never⟩, -- REG_FREQ_OFFS
   ⟨0x2742, 0x2742, 12, .ro, .ivs [], 0, .never⟩, -- TIME_STATE
   ⟨0x2743, 0x2743, 10, .ro, .ivs [], 0, .never⟩, -- TIME_NOW
   ⟨0x2744, 0x2744, 11, .ro, .ivs [], 0, .never⟩, -- TICK_NOW
   ⟨0x2745, 0x2745, 10, .ro, .ivs [], 0, .never⟩, -- TIME_EPOCH
   ⟨0x2746, 0x2746, 6, .ro, .ivs [], 0, .never⟩, -- TIME_OFFSET
   ⟨0x2747, 0x2747, 6, .ro, .ivs [], 0, .never⟩, -- TIME_RATE
   ⟨0x2748, 0x2748, 3, .ro, .ivs [], 0, .never⟩, -- MEAN_PATH_DELAY
   ⟨0x2749, 0x2749, 4, .ro, .ivs [], 0, .never⟩, -- GM_IDENTITY
   ⟨0x274A, 0x274A, 5, .ro, .ivs [], 0, .never⟩, -- UTC_OFFSET
   ⟨0x274B, 0x274B, 10, .ro, .ivs [], 0, .never⟩, -- TIME_STEP_FROM
   ⟨0x274C, 0x274C, 10, .ro, .ivs [], 0, .never⟩, -- TIME_STEP_TO
   ⟨0x274D, 0x274D, 11, .ro, .ivs [], 0, .never⟩, -- TIME_STEP_TICK
   ⟨0x274E, 0x274E, 3, .ro, .ivs [], 0, .never⟩, -- TIME_STATUS
   ⟨0x2750, 0x2750, 4, .ro, .ivs [], 0, .never⟩, -- TICKS_SKIPPED
   ⟨0x2751, 0x2751, 3, .ro, .ivs [], 0, .never⟩, -- LOCK_LOSS_COUNT
   ⟨0x2752, 0x2752, 3, .ro, .ivs [], 0, .never⟩, -- REF_SWITCH_COUNT
   ⟨0x2753, 0x2753, 4, .ro, .ivs [], 0, .never⟩, -- TURN_V
   ⟨0x2754, 0x2754, 4, .ro, .ivs [], 0, .never⟩, -- TURN_G
   ⟨0x2755, 0x2755, 1, .ro, .ivs [], 0, .never⟩, -- SCHED_PENDING
   ⟨0x2756, 0x2756, 3, .ro, .ivs [], 0, .never⟩, -- SCHED_LATE_COUNT
   ⟨0x2757, 0x2757, 3, .ro, .ivs [], 0, .never⟩] -- SCHED_DISCARD_COUNT

/-- Objects of block 0x2800 (spec file 11). -/
def objBlock28 : List ObjDef :=
  [⟨0x2800, 0x2800, 1, .rw, .ivs [(1, 64)], 16, .nextTick⟩, -- CHR_NCH
   ⟨0x2801, 0x2801, 2, .rw, .ivs [(1, 4096)], 1, .nextTick⟩, -- CHR_DEC
   ⟨0x2802, 0x2802, 3, .rw, .ivs [(0, 4294967295)], 40000, .nextTick⟩, -- CHR_PRE
   ⟨0x2803, 0x2803, 3, .rw, .ivs [(0, 4294967295)], 160000, .nextTick⟩, -- CHR_POST
   ⟨0x2804, 0x2804, 12, .rw, .ivs [(0, 0), (1, 1)], 0, .nextTick⟩, -- CHR_HOLDOFF_MODE
   ⟨0x2805, 0x2805, 3, .rw, .ivs [(0, 3600000)], 1000, .nextTick⟩, -- CHR_HOLDOFF
   ⟨0x2806, 0x2806, 1, .rw, .ivs [(0, 255)], 128, .nextTick⟩, -- CHR_TRIG_EN
   ⟨0x2807, 0x2807, 1, .rw, .ivs [(1, 64)], 4, .nextTick⟩, -- CHR_SLOTS
   ⟨0x2808, 0x2808, 0, .rw, .ivs [(0, 0), (1, 1)], 0, .nextTick⟩, -- CHR_OVERWRITE_UNREAD
   ⟨0x2809, 0x2809, 0, .rw, .ivs [(0, 0), (1, 1)], 0, .nextTick⟩, -- CHR_TRAIN_JOIN
   ⟨0x2810, 0x2813, 3, .rw, .ivs [(0, 4294967295)], 0, .nextTick⟩, -- CHR_PAT_MASK
   ⟨0x2814, 0x2817, 3, .rw, .ivs [(0, 4294967295)], 0, .nextTick⟩, -- CHR_PAT_VALUE
   ⟨0x2818, 0x2818, 0, .rw, .ivs [(0, 0), (1, 1)], 1, .nextTick⟩, -- CHR_PAT_EDGE
   ⟨0x2820, 0x2823, 2, .rw, .ivs [(0, 4095)], 0, .nextTick⟩, -- TH_SIG
   ⟨0x2824, 0x2827, 7, .rw, .ivs [(-2147483648, 2147483647)], 0, .nextTick⟩, -- TH_LEVEL
   ⟨0x2828, 0x282B, 7, .rw, .ivs [(0, 2147483647)], 0, .nextTick⟩, -- TH_HYST
   ⟨0x282C, 0x282F, 12, .rw, .ivs [(0, 0), (1, 1), (2, 2), (3, 3)], 0, .nextTick⟩, -- TH_DIR
   ⟨0x2830, 0x2831, 2, .rw, .ivs [(0, 4095)], 0, .nextTick⟩, -- RT_SIG
   ⟨0x2832, 0x2833, 7, .rw, .ivs [(0, 2147483647)], 2147483647, .nextTick⟩, -- RT_LEVEL
   ⟨0x2834, 0x2835, 2, .rw, .ivs [(1, 256)], 4, .nextTick⟩, -- RT_SPAN
   ⟨0x2838, 0x2838, 12, .ro, .ivs [], 0, .never⟩, -- CHR_STATE
   ⟨0x2839, 0x2839, 3, .ro, .ivs [], 0, .never⟩, -- CHR_STATUS
   ⟨0x283A, 0x283A, 1, .ro, .ivs [], 0, .never⟩, -- CHR_UNREAD
   ⟨0x283B, 0x283B, 3, .ro, .ivs [], 0, .never⟩, -- CHR_LAST_ID
   ⟨0x283C, 0x283C, 3, .ro, .ivs [], 0, .never⟩, -- CHR_ARM_ID
   ⟨0x283D, 0x283D, 3, .ro, .ivs [], 0, .never⟩, -- CHR_TRIG_LOST
   ⟨0x283E, 0x283E, 3, .ro, .ivs [], 0, .never⟩, -- CHR_OVERWRITE_COUNT
   ⟨0x283F, 0x283F, 3, .ro, .ivs [], 0, .never⟩, -- CHR_FIRE_IGNORED
   ⟨0x2840, 0x287F, 2, .rw, .ivs [(0, 4095)], 0, .nextTick⟩, -- CHR_CH_SIG
   ⟨0x2880, 0x28BF, 1, .rw, .ivs [(0, 9), (64, 73), (128, 137)], 0, .nextTick⟩, -- CHR_CH_FMT
   ⟨0x28C0, 0x28FF, 3, .rw, .ivs [(0, 4294967295)], 1000, .nextTick⟩] -- CHR_CH_FS

/-- Objects of block 0x2900 (spec file 12). -/
def objBlock29 : List ObjDef :=
  [⟨0x2900, 0x2907, 12, .rw, .ivs [(0, 0), (1, 1), (2, 2), (3, 3)], 1, .setOnly⟩, -- SI_FUNC
   ⟨0x2908, 0x290F, 12, .rw, .ivs [(0, 0), (1, 1)], 0, .setOnly⟩, -- SI_MODE
   ⟨0x2910, 0x2917, 2, .rw, .ivs [(0, 50000)], 1000, .setOnly⟩, -- SI_FILT
   ⟨0x2918, 0x291F, 2, .rw, .ivs [(10, 10000)], 100, .setOnly⟩, -- SI_DISC
   ⟨0x2920, 0x2920, 2, .rw, .ivs [(0, 65535)], 0, .setOnly⟩, -- SF_TI_PR
   ⟨0x2921, 0x2921, 2, .rw, .ivs [(0, 50000)], 100, .setOnly⟩, -- SF_TI_FILT
   ⟨0x2928, 0x2928, 3, .rw, .ivs [(10, 100000)], 500, .setOnly⟩, -- SCS_RATE
   ⟨0x2929, 0x2929, 3, .rw, .ivs [(10, 100000)], 1000, .setOnly⟩, -- SCS_CTL_RATE
   ⟨0x292A, 0x292A, 2, .rw, .ivs [(0, 5000)], 500, .setOnly⟩, -- SCS_MARGIN
   ⟨0x292B, 0x292B, 2, .rw, .ivs [(0, 1000)], 20, .setOnly⟩, -- SCS_GRACE
   ⟨0x292C, 0x292C, 2, .rw, .ivs [(100, 5000)], 500, .setOnly⟩, -- SCS_END_LEVEL
   ⟨0x292D, 0x292D, 2, .rw, .ivs [(100, 60000)], 2000, .setOnly⟩, -- SCS_TMAX
   ⟨0x2930, 0x2930, 2, .rw, .ivs [(1, 3600)], 10, .setOnly⟩, -- EM_TEST_PERIOD
   ⟨0x2931, 0x2931, 2, .rw, .ivs [(1, 3600)], 60, .setOnly⟩, -- SO_TEST_PERIOD
   ⟨0x2932, 0x2932, 2, .rw, .ivs [(100, 400)], 300, .setOnly⟩, -- SO_TEST_WIDTH
   ⟨0x2938, 0x2938, 0, .rw, .ivs [(0, 0), (1, 1)], 0, .setOnly⟩, -- SF_ENABLE
   ⟨0x2939, 0x2939, 3, .rw, .ivs [(0, 4294967294)], 0, .setOnly⟩, -- SF_PRODUCERS
   ⟨0x293A, 0x293A, 1, .rw, .ivs [(0, 255)], 0, .setOnly⟩, -- SF_GROUPS
   ⟨0x293B, 0x293B, 1, .rw, .ivs [(0, 255)], 0, .setOnly⟩, -- SF_TX_PR_GROUPS
   ⟨0x293C, 0x293C, 1, .rw, .ivs [(0, 255)], 0, .setOnly⟩, -- SF_TX_SCS_GROUPS
   ⟨0x293D, 0x293D, 2, .rw, .ivs [(100, 10000)], 1000, .setOnly⟩, -- SF_PERIOD
   ⟨0x293E, 0x293E, 3, .rw, .ivs [(500, 100000)], 3000, .setOnly⟩, -- SF_WATCHDOG
   ⟨0x293F, 0x293F, 2, .rw, .ivs [(10, 200)], 100, .setOnly⟩, -- SF_ACCEPT_WIN
   ⟨0x2940, 0x2940, 3, .rw, .ivs [(1, 4294967295)], 1, .setOnly⟩, -- SF_SEED
   ⟨0x2950, 0x2950, 3, .ro, .ivs [], 0, .never⟩, -- SAFETY_STATUS
   ⟨0x2951, 0x2951, 3, .ro, .ivs [], 0, .never⟩, -- SI_STATE
   ⟨0x2952, 0x2952, 3, .ro, .ivs [], 0, .never⟩, -- SF_RX_OK
   ⟨0x2953, 0x2956, 3, .ro, .ivs [], 0, .never⟩, -- SF_RX_SINGLE
   ⟨0x2957, 0x2957, 3, .ro, .ivs [], 0, .never⟩, -- SF_WATCHDOG_COUNT
   ⟨0x2958, 0x2958, 3, .ro, .ivs [], 0, .never⟩, -- SAFETY_TEST_PREEMPT
   ⟨0x2959, 0x2959, 3, .ro, .ivs [], 0, .never⟩, -- SAFETY_TEST_FAIL_COUNT
   ⟨0x295A, 0x295A, 3, .ro, .ivs [], 0, .never⟩, -- SF_PARAM_CRC
   ⟨0x295B, 0x295B, 3, .ro, .ivs [], 0, .never⟩, -- SF_PARAM_VERSION
   ⟨0x295C, 0x295C, 3, .ro, .ivs [], 0, .never⟩, -- SK_FW_VERSION
   ⟨0x295D, 0x295D, 2, .ro, .ivs [], 0, .never⟩, -- SCS_ENV
   ⟨0x295E, 0x295E, 3, .ro, .ivs [], 0, .never⟩, -- SCS_COUNT
   ⟨0x295F, 0x295F, 3, .ro, .ivs [], 0, .never⟩] -- PR_COUNT

/-- Objects of block 0x2A00 (spec file 13). -/
def objBlock2A : List ObjDef :=
  [⟨0x2A00, 0x2A00, 0, .wo, .ivs [(1, 1)], 0, .nextTick⟩, -- TRAIN_ADDR_CLEAR
   ⟨0x2A01, 0x2A01, 1, .rw, .ivs [(0, 31)], 0, .nextTick⟩, -- PAIR_PARTNER
   ⟨0x2A02, 0x2A02, 0, .rw, .ivs [(0, 0), (1, 1)], 0, .nextTick⟩, -- PAIR_PREFERRED
   ⟨0x2A03, 0x2A03, 1, .rw, .ivs [(1, 48)], 4, .nextTick⟩, -- PAIR_LOF_LANES
   ⟨0x2A04, 0x2A04, 0, .rw, .ivs [(0, 0), (1, 1)], 0, .nextTick⟩, -- PAIR_REVERT
   ⟨0x2A05, 0x2A05, 2, .rw, .ivs [(1, 3600)], 60, .nextTick⟩, -- PAIR_REVERT_DELAY
   ⟨0x2A06, 0x2A06, 0, .wo, .ivs [(1, 1)], 0, .nextTick⟩, -- PAIR_YIELD
   ⟨0x2A07, 0x2A07, 1, .wo, .ivs [(1, 3)], 0, .nextTick⟩, -- FEED_TEST
   ⟨0x2A10, 0x2A10, 1, .ro, .ivs [], 0, .never⟩, -- TRAIN_ADDR
   ⟨0x2A11, 0x2A11, 12, .ro, .ivs [], 0, .never⟩, -- TRAIN_STATE
   ⟨0x2A12, 0x2A12, 3, .ro, .ivs [], 0, .never⟩, -- TRAIN_STATUS
   ⟨0x2A13, 0x2A13, 3, .ro, .ivs [], 0, .never⟩, -- TRAIN_MEMBERS
   ⟨0x2A14, 0x2A14, 3, .ro, .ivs [], 0, .never⟩, -- TRAIN_ROOT_SERIAL
   ⟨0x2A15, 0x2A15, 6, .ro, .ivs [], 0, .never⟩, -- TRAIN_RX_DELTA_E
   ⟨0x2A16, 0x2A16, 6, .ro, .ivs [], 0, .never⟩, -- TRAIN_RX_DELTA_W
   ⟨0x2A17, 0x2A17, 3, .ro, .ivs [], 0, .never⟩, -- TRAIN_CRC_ERR
   ⟨0x2A18, 0x2A18, 3, .ro, .ivs [], 0, .never⟩, -- TRAIN_MSG_LOST
   ⟨0x2A19, 0x2A19, 3, .ro, .ivs [], 0, .never⟩, -- TRAIN_WRAP_COUNT
   ⟨0x2A20, 0x2A20, 12, .ro, .ivs [], 0, .never⟩, -- PAIR_ROLE
   ⟨0x2A21, 0x2A21, 3, .ro, .ivs [], 0, .never⟩, -- PAIR_STATUS
   ⟨0x2A22, 0x2A22, 3, .ro, .ivs [], 0, .never⟩, -- TAKEOVER_COUNT
   ⟨0x2A23, 0x2A23, 11, .ro, .ivs [], 0, .never⟩, -- TAKEOVER_TICK
   ⟨0x2A30, 0x2A30, 3, .ro, .ivs [], 0, .never⟩, -- FEED_A_MV
   ⟨0x2A31, 0x2A31, 3, .ro, .ivs [], 0, .never⟩, -- FEED_B_MV
   ⟨0x2A32, 0x2A32, 3, .ro, .ivs [], 0, .never⟩, -- FEED_STATUS
   ⟨0x2A33, 0x2A33, 3, .ro, .ivs [], 0, .never⟩, -- FEED_HEALTH_A
   ⟨0x2A34, 0x2A34, 3, .ro, .ivs [], 0, .never⟩, -- FEED_HEALTH_B
   ⟨0x2A35, 0x2A35, 3, .ro, .ivs [], 0, .never⟩, -- FEED_SWITCH_COUNT
   ⟨0x2A40, 0x2A40, 3, .ro, .ivs [], 0, .never⟩] -- SUP_RESTART_COUNT

/-- Objects of block 0x2B00 (spec file 15). -/
def objBlock2B : List ObjDef :=
  [⟨0x2B00, 0x2B00, 1, .rw, .ivs [(0, 31)], 5, .nextTick⟩, -- WAKE_MASK
   ⟨0x2B10, 0x2B10, 3, .ro, .ivs [], 0, .never⟩, -- PS_STATUS
   ⟨0x2B11, 0x2B17, 3, .ro, .ivs [], 0, .never⟩, -- PS_REFUSE
   ⟨0x2B18, 0x2B18, 3, .ro, .ivs [], 0, .never⟩, -- PS_ABORT_COUNT
   ⟨0x2B19, 0x2B19, 3, .ro, .ivs [], 0, .never⟩, -- PS_ABORT_LAST
   ⟨0x2B1A, 0x2B1A, 3, .ro, .ivs [], 0, .never⟩, -- PS_ENTRY_COUNT
   ⟨0x2B1B, 0x2B1B, 3, .ro, .ivs [], 0, .never⟩, -- WAKE_COUNT
   ⟨0x2B1C, 0x2B1C, 3, .ro, .ivs [], 0, .never⟩, -- WAKE_FAIL_COUNT
   ⟨0x2B1D, 0x2B1D, 3, .ro, .ivs [], 0, .never⟩, -- WAKE_FAIL_LAST
   ⟨0x2B1E, 0x2B1E, 3, .ro, .ivs [], 0, .never⟩, -- SLEEP_TIME_LAST
   ⟨0x2B20, 0x2B20, 3, .ro, .ivs [], 0, .never⟩, -- PL_CHANGE_COUNT
   ⟨0x2B21, 0x2B21, 3, .ro, .ivs [], 0, .never⟩, -- PL_REFUSE_COUNT
   ⟨0x2B22, 0x2B22, 3, .ro, .ivs [], 0, .never⟩, -- VIO_MV
   ⟨0x2B23, 0x2B23, 3, .ro, .ivs [], 0, .never⟩] -- RESET_HELD_LAST

/-- Objects of block 0x2C00 (spec file 11). -/
def objBlock2C : List ObjDef :=
  [⟨0x2C00, 0x2C00, 2, .rw, .ivs [(10, 60000)], 1000, .logWindow⟩, -- LOG_PERIOD
   ⟨0x2C01, 0x2C01, 2, .rw, .ivs [(1, 65535)], 256, .logWindow⟩, -- LOG_BURST_1
   ⟨0x2C02, 0x2C02, 2, .rw, .ivs [(1, 65535)], 32, .logWindow⟩, -- LOG_BURST_2
   ⟨0x2C03, 0x2C03, 2, .rw, .ivs [(1, 65535)], 8, .logWindow⟩, -- LOG_BURST_3
   ⟨0x2C04, 0x2C04, 3, .wo, .ivs [(0, 4294967295)], 0, .nextTick⟩, -- LOG_ACK
   ⟨0x2C10, 0x2C10, 3, .ro, .ivs [], 0, .never⟩, -- LOG_HEAD_SEQ
   ⟨0x2C11, 0x2C11, 3, .ro, .ivs [], 0, .never⟩, -- LOG_OLDEST_SEQ
   ⟨0x2C12, 0x2C12, 3, .ro, .ivs [], 0, .never⟩, -- SAFETY_OLDEST_SEQ
   ⟨0x2C13, 0x2C13, 2, .ro, .ivs [], 0, .never⟩, -- SAFETY_UNACKED
   ⟨0x2C14, 0x2C14, 3, .ro, .ivs [], 0, .never⟩, -- LOG_OVERWRITTEN
   ⟨0x2C15, 0x2C15, 3, .ro, .ivs [], 0, .never⟩, -- LOG_SUPPRESSED
   ⟨0x2C16, 0x2C16, 3, .ro, .ivs [], 0, .never⟩, -- LOG_DEFERRED
   ⟨0x2C17, 0x2C17, 3, .ro, .ivs [], 0, .never⟩, -- SAFETY_MERGED
   ⟨0x2C18, 0x2C18, 3, .ro, .ivs [], 0, .never⟩] -- LOG_STATUS

/-- Objects of block 0x2D00 (spec file 07). -/
def objBlock2D : List ObjDef :=
  [⟨0x2D00, 0x2D00, 1, .rw, .ivs [(0, 2)], 1, .nextTick⟩, -- SPARES
   ⟨0x2D02, 0x2D02, 4, .wo, .ivs [(0, 18446744073709551615)], 0, .nextTick⟩, -- COEF_WRITE
   ⟨0x2D03, 0x2D03, 3, .rw, .step, 0, .nextTick⟩, -- STEP_SEL
   ⟨0x2D04, 0x2D04, 4, .ro, .ivs [], 0, .never⟩, -- STEP_READ
   ⟨0x2D05, 0x2D05, 2, .rw, .ivs [(0, 4095)], 0, .nextTick⟩, -- SIGNAL_SEL
   ⟨0x2D06, 0x2D06, 3, .ro, .ivs [], 0, .never⟩, -- SIGNAL_VALUE
   ⟨0x2D07, 0x2D07, 2, .rw, .ivs [(0, 4095)], 0, .nextTick⟩, -- LOCAL_SEL
   ⟨0x2D08, 0x2D08, 3, .ro, .ivs [], 0, .never⟩, -- LOCAL_VALUE
   ⟨0x2D10, 0x2D10, 12, .ro, .ivs [], 0, .never⟩, -- BANK_ACTIVE
   ⟨0x2D11, 0x2D11, 3, .ro, .ivs [], 0, .never⟩, -- BANK_STATUS_A
   ⟨0x2D12, 0x2D12, 3, .ro, .ivs [], 0, .never⟩, -- BANK_STATUS_B
   ⟨0x2D13, 0x2D13, 3, .ro, .ivs [], 0, .never⟩, -- TABLE_ID_A
   ⟨0x2D14, 0x2D14, 3, .ro, .ivs [], 0, .never⟩, -- TABLE_ID_B
   ⟨0x2D15, 0x2D15, 3, .ro, .ivs [], 0, .never⟩, -- SWAP_COUNT
   ⟨0x2D16, 0x2D16, 11, .ro, .ivs [], 0, .never⟩, -- SWAP_TICK
   ⟨0x2D17, 0x2D17, 2, .ro, .ivs [], 0, .never⟩, -- VERIFY_FAILS
   ⟨0x2D18, 0x2D18, 4, .ro, .ivs [], 0, .never⟩, -- VERIFY_FIRST
   ⟨0x2D20, 0x2D20, 4, .ro, .ivs [], 0, .never⟩, -- ENGINE_MAP
   ⟨0x2D21, 0x2D21, 2, .ro, .ivs [], 0, .never⟩, -- ENGINE_FAILED
   ⟨0x2D22, 0x2D22, 1, .ro, .ivs [], 0, .never⟩, -- SPARES_AVAILABLE
   ⟨0x2D23, 0x2D23, 3, .ro, .ivs [], 0, .never⟩, -- MIGRATE_COUNT
   ⟨0x2D24, 0x2D24, 3, .ro, .ivs [], 0, .never⟩, -- RESIDUE_ERR_COUNT
   ⟨0x2D25, 0x2D25, 3, .ro, .ivs [], 0, .never⟩, -- SIG_ERR_COUNT
   ⟨0x2D26, 0x2D26, 3, .ro, .ivs [], 0, .never⟩, -- WB_SAT_COUNT
   ⟨0x2D27, 0x2D27, 3, .ro, .ivs [], 0, .never⟩, -- ACC_SAT_COUNT
   ⟨0x2D28, 0x2D28, 1, .ro, .ivs [], 0, .never⟩, -- COEF_QUEUE
   ⟨0x2D29, 0x2D29, 11, .ro, .ivs [], 0, .never⟩, -- COEF_LAST_TICK
   ⟨0x2D2A, 0x2D2A, 3, .ro, .ivs [], 0, .never⟩] -- ESC_STATUS

/-- The table of one block, by the high byte of the index. -/
def objBlock (b : Nat) : List ObjDef :=
  match b with
  | 0x10 => objBlock10
  | 0x20 => objBlock20
  | 0x21 => objBlock21
  | 0x22 => objBlock22
  | 0x23 => objBlock23
  | 0x24 => objBlock24
  | 0x25 => objBlock25
  | 0x26 => objBlock26
  | 0x27 => objBlock27
  | 0x28 => objBlock28
  | 0x29 => objBlock29
  | 0x2A => objBlock2A
  | 0x2B => objBlock2B
  | 0x2C => objBlock2C
  | 0x2D => objBlock2D
  | _ => []

/-- The row of an index; none where the index names no object. -/
def objDef (i : Nat) : Option ObjDef := (objBlock (i / 256)).find? fun d => decide (d.lo ≤ i) && decide (i ≤ d.hi)

/-- The default of an object. -/
def objDefault (i : Nat) : Int := match objDef i with | some d => d.dflt | none => 0

/-- The store of written values is strictly rising and lists no default. -/
def objsWf : List (Nat × Int) → Bool
  | [] => true
  | (i, v) :: l => decide (v ≠ objDefault i) && l.all (fun p => decide (i < p.1)) && objsWf l

/-- The value an index holds. -/
def objsGet : List (Nat × Int) → Nat → Int
  | [], i => objDefault i
  | (j, v) :: l, i => if i = j then v else objsGet l i

/-- Put a value that is not the default at its place. -/
def objsInsert : List (Nat × Int) → Nat → Int → List (Nat × Int)
  | [], i, v => [(i, v)]
  | (j, w) :: l, i, v =>
    if i < j then (i, v) :: (j, w) :: l else if i = j then (i, v) :: l else (j, w) :: objsInsert l i v

/-- Write a value; the default removes the entry. -/
def objsSet (l : List (Nat × Int)) (i : Nat) (v : Int) : List (Nat × Int) :=
  if v = objDefault i then l.filter (fun p => p.1 ≠ i) else objsInsert l i v

/-- The value in effect of a writable object (R18). -/
def State.cfg (s : State) (i : Nat) : Int := objsGet s.objs i
/-- The same as a natural number. -/
def State.cfgN (s : State) (i : Nat) : Nat := (s.cfg i).toNat
/-- The same as a truth value. -/
def State.cfgB (s : State) (i : Nat) : Bool := s.cfg i ≠ 0
/-- The trip input an object names, as a list; 255 names none (R75, R102, R233). An assertion acts on the input named as it starts. -/
def State.tripNamed (s : State) (i : Nat) : List Nat := if s.cfgN i < 16 then [s.cfgN i] else []

/-- Put a value in effect. -/
def State.setCfg (s : State) (i : Nat) (v : Int) : State := { s with objs := objsSet s.objs i v }

/-- F_NOM in hertz (R57). -/
def State.fNom (s : State) : Nat := s.cfgN Obj.F_NOM

/-- F_SET in millihertz (R57). -/
def State.fSet (s : State) : Int := s.cfg Obj.F_SET

/-- A contiguous mask: ones above zeros (R259, R375). -/
def isMask (v : Int) : Bool := (List.range 33).any fun k => decide (v = 2 ^ 32 - 2 ^ k)

/-- Range check of a written value (R19). -/
def ObjDef.inRange (s : State) (d : ObjDef) (v : Int) : Bool :=
  match d.range with
  | .ivs l => l.any fun p => decide (p.1 ≤ v) && decide (v ≤ p.2)
  | .mask => isMask v
  | .fset => decide ((s.fNom : Int) * 950 ≤ v) && decide (v ≤ (s.fNom : Int) * 1050)
  | .step => decide (0 ≤ v) && decide (v < 2 ^ 21) && decide (v.toNat % 65536 < 1024)

/-- Bytes of a value by TYPE (R369); a string counts its length byte apart. -/
def tyBytes : Nat → Nat
  | 0 => 1 | 1 => 1 | 2 => 2 | 3 => 4 | 4 => 8 | 5 => 2 | 6 => 4 | 7 => 4 | 8 => 8 | 9 => 4 | 10 => 10 | 11 => 8 | 12 => 1
  | _ => 0

/-- The wire bytes of a value of a TYPE (R369); a negative number in two's complement. -/
def valBytes (ty : Nat) : ObjVal → List Byte
  | .num v => beBytes (tyBytes ty) (v % (2 ^ (8 * tyBytes ty) : Nat)).toNat
  | .time sec ns => beBytes 6 sec ++ beBytes 4 ns
  | .str bs => BitVec.ofNat 8 bs.length :: bs

/-- Domains of R360. -/
inductive Domain where
  | aon | sup | sk | core | lane | ana | time | recd
  deriving DecidableEq, Repr

/-- The domain of an object index (R360). -/
def objDomain (i : Nat) : Domain :=
  match i / 256 with
  | 0x20 => .core | 0x21 => .core | 0x22 => .core | 0x23 => .core | 0x25 => .core | 0x2D => .core
  | 0x24 => .lane | 0x26 => .ana | 0x27 => .time | 0x28 => .recd | 0x29 => .sk | 0x2B => .aon
  | _ => .sup

/-- The domain is off in the present power state (R360); while a wake runs CORE counts as off (R395). -/
def State.domainOff (s : State) (d : Domain) : Bool :=
  match d with
  | .aon => false | .sup => false | .sk => false
  | .core => s.pwr.state ≠ .s0
  | .lane => s.pwr.state = .s2 || s.pwr.state = .s3 || s.pwr.state = .wakeFail
  | .recd => s.pwr.state = .s2 || s.pwr.state = .s3 || s.pwr.state = .wakeFail
  | .ana => s.pwr.state = .s3 || s.pwr.state = .wakeFail
  | .time => s.pwr.state = .s3 || s.pwr.state = .wakeFail

/-- Step E3 of an entry into S3 has turned the train ports and the PTP port off (R388). -/
def State.portsOff (s : State) : Bool := s.pwr.entry.any fun e => e.target = 3 && decide (3 < e.step)

/-- A wake has begun the step W3 to W5 of a number (R381). -/
def State.wokenTo (s : State) (step : Nat) : Bool := s.pwr.waking.any fun w => decide (w.first ≤ step ∧ step ≤ w.step)

end Sys2Proof.Machine
end

