-- ==== Sys2Proof/Machine/Ops.lean ====
section
/-!
DEFINITION. The named operations every family of commands uses: reading and writing signals and cells, module time,
posting events to the arbiter and the log (R277 to R281), the free values, and what `guarded` answers.
-/
namespace Sys2Proof.Machine

/-- One per unit in the units of the laws. -/
def pu : Int := 2 ^ 60

/-- The tick runs: the outputs are released (R241). -/
def State.ticking (s : State) : Bool := !s.reg.gated

/-- The tick in which a command applies what it applies "at the next tick boundary". -/
def State.nextTick (s : State) : Nat := s.tick.next

/-! ### Signals (R160, R161) -/

/-- The raw word of a signal; 0 beyond the space. -/
def State.sigW (s : State) (a : Nat) : Word := s.sig.getD a 0
/-- A signal read as signed Q1.31. -/
def State.sigI (s : State) (a : Nat) : Int := (s.sigW a).toInt
/-- A signal read as bits. -/
def State.sigN (s : State) (a : Nat) : Nat := (s.sigW a).toNat
/-- Write one signal. -/
def State.setSig (s : State) (a : Nat) (w : Word) : State := { s with sig := s.sig.set a w }
/-- Write a natural number's low 32 bits. -/
def State.setSigN (s : State) (a n : Nat) : State := s.setSig a (BitVec.ofNat 32 n)
/-- Write consecutive signals. -/
def State.setSigs (s : State) (a : Nat) : List Word → State
  | [] => s
  | w :: ws => (s.setSig a w).setSigs (a + 1) ws

/-- A signed integer saturated to 32 bits (R11). -/
def sat32 (x : Int) : Int := clampInt (-(2 ^ 31)) (2 ^ 31 - 1) x
/-- A word of a saturated integer. -/
def satWord (x : Int) : Word := BitVec.ofInt 32 (sat32 x)

/-- A quotient where the spec states no rounding and the command says which way: up, or down. -/
def quotient (up : Bool) (a b : Int) : Int := if up then -floorDiv (-a) b else floorDiv a b

/-- A per-unit quantity as Q1.31 of `fs` per unit full scale, rounded a half upward and saturated (R172). -/
def toQ31 (fs x : Int) : Word := satWord (roundDiv x (fs * 2 ^ 29))
/-- A Q1.31 word of `fs` per unit full scale as a per-unit quantity. -/
def ofQ31 (fs : Int) (w : Word) : Int := w.toInt * (fs * 2 ^ 29)
/-- The per-unit quantity of a signal of `fs` per unit full scale. -/
def State.sigPu (s : State) (a : Nat) (fs : Int) : Int := ofQ31 fs (s.sigW a)
/-- Write a per-unit quantity to a signal of `fs` per unit full scale. -/
def State.setPu (s : State) (a : Nat) (fs x : Int) : State := s.setSig a (toQ31 fs x)

/-- Product of two per-unit quantities. -/
def mulPu (a b : Int) : Int := floorDiv (a * b) pu
/-- Quotient of two per-unit quantities; 0 for a zero divisor, which no law forms. -/
def divPu (a b : Int) : Int := if b = 0 then 0 else floorDiv (a * pu) b
/-- Square root of a per-unit quantity, 0 below 0. -/
def sqrtPu (a : Int) : Int := (Nat.sqrt (a * pu).toNat : Int)
/-- An object of `n` units to the per unit, as a per-unit quantity. -/
def State.cfgPu (s : State) (i : Nat) (n : Int) : Int := roundDiv (s.cfg i * pu) n

/-! ### Free values (log entry 3) -/

/-- Take the next number of the free values. -/
def State.fresh (s : State) : State := { s with free := s.free + 1 }

/-- A free count. -/
def State.freeNat (s : State) : Nat := (Config.openValue s.free).toNat

/-- Bits `hi` to `lo` of a 64-bit word. -/
def DWord.bits (w : DWord) (hi lo : Nat) : Nat := w.toNat / 2 ^ lo % 2 ^ (hi + 1 - lo)

/-! ### Lists -/

/-- Change one element; a list is unchanged beyond its end. -/
def modifyAt {α : Type} (l : List α) (n : Nat) (f : α → α) : List α := l.modify n f

/-- Set one flag of a list. -/
def setFlag (l : List Bool) (n : Nat) (b : Bool) : List Bool := l.set n b

/-- One flag of a list. -/
def flag (l : List Bool) (n : Nat) : Bool := l.getD n false

/-- The first index at which a flag holds. -/
def firstFlag (l : List Bool) : Option Nat := l.findIdx? id

/-! ### Module time (R14, R245) -/

/-- T(k) in nanoseconds of the PTP timescale. -/
def State.timeOf (s : State) (k : Nat) : Int := s.time.epoch + 250 * k

/-- Seconds and nanoseconds of a time. -/
def secNs (t : Int) : Nat × Nat := ((t / 1000000000).toNat, (t % 1000000000).toNat)

/-! ### Events and the log (R277 to R282, R316, R351, R376, R393) -/

/-- The port of the arbiter that a block's high byte names (R277). -/
def portOf (hi : Nat) : Nat := if hi = 0x10 then 0 else if hi = 0x1F then 1 else hi - 0x1E

/-- Class of an event code: 0 SAFETY, 1 PROTECTION, 2 OPERATION, 3 DIAGNOSTIC. STATE_CHANGE is decided by its new
state (R279), the second byte of its data. -/
def eventClass (code : Nat) (data : List Byte) : Nat :=
  match code with
  | 0x1001 => if data.getD 1 0 = 4 || data.getD 1 0 = 5 then 0 else 1
  | 0x2102 => 1 | 0x2103 => 1 | 0x2104 => 1 | 0x2105 => 1 | 0x2106 => 1 | 0x2107 => 1
  | 0x2202 => 1 | 0x2203 => 1 | 0x2204 => 1 | 0x2205 => 1
  | 0x2301 => 3 | 0x2302 => 1 | 0x2303 => 1
  | 0x2403 => 1 | 0x2404 => 3
  | 0x2501 => 3 | 0x2502 => 3 | 0x2503 => 3 | 0x2504 => 3
  | 0x2601 => 3 | 0x2602 => 3 | 0x2603 => 1 | 0x2604 => 1
  | 0x2701 => 1 | 0x2702 => 1 | 0x2703 => 1 | 0x2704 => 1 | 0x2705 => 1 | 0x2707 => 1 | 0x2709 => 3
  | 0x2801 => 3 | 0x2803 => 3 | 0x2806 => 3
  | 0x2D04 => 1 | 0x2D05 => 1 | 0x2D06 => 1 | 0x2D07 => 1 | 0x2D08 => 1
  | 0x2908 => 1
  | 0x2A02 => 1 | 0x2A03 => 3 | 0x2A08 => 1 | 0x2A10 => 1 | 0x2A11 => 1 | 0x2A12 => 1 | 0x2A13 => 1 | 0x2A14 => 1
  | 0x2A15 => 1 | 0x2A16 => 1 | 0x2A17 => 1 | 0x2A18 => 1 | 0x2A20 => 1 | 0x2A23 => 1 | 0x2A30 => 1
  | 0x2B05 => 1 | 0x2B06 => 1 | 0x2B07 => 3 | 0x2B08 => 1
  | 0x1F01 => 3 | 0x1F02 => 3 | 0x1F03 => 1 | 0x1F05 => 3 | 0x1F07 => 1 | 0x1F08 => 1
  | c => if c / 256 = 0x29 then 0 else 2

/-- SOURCE of an entry (R278); instance 0xFF when none. A SUPPRESSED entry carries the whole SOURCE it stands for (R281). -/
def LogEntry.source (e : LogEntry) : Nat := if e.code = 0x2C01 then e.inst else e.code / 256 * 256 + e.inst

/-- Merge a class 0 occurrence into the newest unacknowledged entry of the same CODE and SOURCE (R280); the ring is
oldest first. -/
def mergeInto (e : LogEntry) : List LogEntry → Option (List LogEntry)
  | [] => none
  | x :: xs =>
    match mergeInto e xs with
    | some ys => some (x :: ys)
    | none =>
      if x.code = e.code ∧ x.inst = e.inst then
        some ({ x with rpt := x.rpt + 1, lastTick := e.tick, merged := true } :: xs)
      else none

/-- Give an accepted event its sequence number and put it into its ring (R277 to R280). A merged occurrence takes no
sequence number (DEDUCED: it is no entry). -/
def LogS.accept (l : LogS) (now : Nat) (e : LogEntry) : LogS :=
  let late : Bool := e.made + 1 < now
  let e := { e with seq := l.seq, deferred := late }
  let l := if late then { l with deferred := l.deferred + 1, defRos := true } else l
  if e.cls = 0 then
    match (if 3072 ≤ l.safety.length then mergeInto e l.safety else none) with
    | some r => { l with safety := r, merged := l.merged + 1 }
    | none => { l with safety := l.safety ++ [e], seq := l.seq + 1 }
  else if 65536 ≤ l.general.length then
    { l with general := l.general.drop 1 ++ [e], seq := l.seq + 1, overwritten := l.overwritten + 1, overRos := true
             overSeq := l.general.head?.map (·.seq) }
  else { l with general := l.general ++ [e], seq := l.seq + 1 }

/-- Queue an event at its port. -/
def LogS.push (l : LogS) (e : LogEntry) : LogS :=
  { l with ports := modifyAt l.ports (portOf (e.code / 256)) (· ++ [e]) }

/-- The account of a source and class in the present window. -/
def accFind (src cls : Nat) (acc : List RateAcc) : Option RateAcc := acc.find? fun a => a.src == src && a.cls == cls

/-- Change the account of a source and class. -/
def accPut (a : RateAcc) : List RateAcc → List RateAcc
  | [] => [a]
  | b :: bs => if b.src = a.src ∧ b.cls = a.cls then a :: bs else b :: accPut a bs

/-- Port that holds an event, from `p` on in ascending order, `n` ports to look at. -/
def nextPort (ports : List (List LogEntry)) (p : Nat) : Nat → Option Nat
  | 0 => none
  | n + 1 => if (ports.getD p []).isEmpty then nextPort ports ((p + 1) % 16) n else some p

/-- Take up to `n` events in rounds, one per port, from the port after the one served last (R277). -/
def LogS.arbitrate (l : LogS) (now : Nat) : Nat → LogS
  | 0 => l
  | n + 1 =>
    match nextPort l.ports ((l.lastPort + 1) % 16) 16 with
    | none => l
    | some p =>
      match l.ports.getD p [] with
      | [] => l
      | e :: es => LogS.arbitrate ({ l with ports := l.ports.set p es, lastPort := p }.accept now e) now n

/-- Hand an event to its port. While the tick is stopped the arbiter takes at once what its ports hold (log entry 8). -/
def State.takeIn (s : State) (e : LogEntry) : State :=
  let l := s.log.push e
  { s with log := if s.ticking then l else l.arbitrate s.tick.now (l.ports.map List.length).sum }

/-- Bursts of R281 by class. -/
def State.burst (s : State) (cls : Nat) : Nat :=
  if cls = 1 then s.cfgN Obj.LOG_BURST_1 else if cls = 2 then s.cfgN Obj.LOG_BURST_2 else s.cfgN Obj.LOG_BURST_3

/-- Post one event at a tick, with the offset in ns within it that a finer source gives: classes 1 to 3 pass the rate limiter first (R281). -/
def State.postFine (s : State) (tick : Nat) (off : Option Nat) (code inst : Nat) (data : List Byte) : State :=
  let cls := eventClass code data
  let e : LogEntry := { made := tick, tick := tick, time := s.timeOf tick + off.getD 0, sub := off.isSome, code := code, cls := cls
                        inst := inst, data := data, lastTick := tick }
  if cls = 0 then s.takeIn e
  else
    let a := (accFind e.source cls s.log.acc).getD ⟨e.source, cls, 0, 0, 0, 0, 0, 0⟩
    if a.count < s.burst cls then
      let s := s.takeIn e
      { s with log := { s.log with acc := accPut { a with count := a.count + 1 } s.log.acc } }
    else
      let a' : RateAcc :=
        if a.suppressed = 0 then { a with suppressed := 1, firstCode := code, lastCode := code, firstTick := tick, lastTick := tick }
        else { a with suppressed := a.suppressed + 1, lastCode := code, lastTick := tick }
      { s with log := { s.log with acc := accPut a' s.log.acc, suppressed := s.log.suppressed + 1, supRos := true } }

/-- Post one event at a tick. -/
def State.postAt (s : State) (tick code inst : Nat) (data : List Byte) : State := s.postFine tick none code inst data

/-- Post one event in the present tick. -/
def State.post (s : State) (code inst : Nat) (data : List Byte) : State := s.postAt s.tick.now code inst data

/-- Instance of an event that has none (R278). -/
def noInst : Nat := 0xFF

/-- Event bits of the condition vector (R261). -/
def State.condEvent (s : State) (bit : Nat) : State :=
  { s with cond := { s.cond with bits := s.cond.bits ||| BitVec.twoPow 64 bit } }

/-- The module's role changes, which the condition vector tells (R261). -/
def State.setRole (s : State) (r : PairRole) : State :=
  if s.pair.role = r then s else { s with pair := { s.pair with role := r } }.condEvent 54

/-! ### Lanes, arms and cells (R4, R84, R85) -/

/-- The arm a lane serves: 0 to 5, 7 unassigned. -/
def State.laneArm (s : State) (l : Nat) : Nat := s.cfgN (Obj.ARM_MAP + l)
/-- CELL_COUNT of a lane. -/
def State.laneCells (s : State) (l : Nat) : Nat := s.cfgN (Obj.CELL_COUNT + l)
/-- The lane's cells are full bridges. -/
def State.laneFb (s : State) (l : Nat) : Bool := s.cfgN (Obj.CELL_TYPE + l) = 1
/-- The arm of a cell number lane × 64 + cell. -/
def State.cellArm (s : State) (c : Nat) : Nat := s.laneArm (c / 64)
/-- The cell exists: its index is below its lane's count. -/
def State.cellInUse (s : State) (c : Nat) : Bool := c % 64 < s.laneCells (c / 64)
/-- A lane in use serves an arm and has cells. -/
def State.laneInUse (s : State) (l : Nat) : Bool := s.laneArm l < 6 && 0 < s.laneCells l
/-- A lane. -/
def State.lane (s : State) (l : Nat) : Lane := s.lanes.getD l {}
/-- A cell. -/
def State.cell (s : State) (c : Nat) : Cell := s.cells.getD c {}
/-- Change one lane. -/
def State.setLane (s : State) (l : Nat) (f : Lane → Lane) : State := { s with lanes := modifyAt s.lanes l f }
/-- Change one cell. -/
def State.setCell (s : State) (c : Nat) (f : Cell → Cell) : State := { s with cells := modifyAt s.cells c f }

/-- The input an uplink belongs to (A 1, B 2), and the input the cluster unit follows (R146). -/
def statusInput (w : DWord) : Nat := 1 + DWord.bits w 34 34
def statusFollows (w : DWord) : Nat := DWord.bits w 47 46
/-- FOLLOWS of LANE_STATUS (R158): 0 none, 1 this module, 2 the other input. -/
def followsCode (w : DWord) : Nat :=
  if statusFollows w = 0 then 0 else if statusFollows w = statusInput w then 1 else 2
/-- CROWN_CONFLICT. -/
def statusConflict (w : DWord) : Bool := w.getLsbD 37
/-- The other input is VALID and CROWNED. -/
def otherCrowned (w : DWord) : Bool :=
  if statusInput w = 1 then DWord.bits w 41 40 = 3 else DWord.bits w 45 44 = 3

/-- The lane is up in the sense of R152: in UP, and its cluster unit follows this module (R154) or the grace of R339 still holds. -/
def Lane.isUp (l : Lane) : Bool := l.state = .up && (!l.notFollow || 0 < l.grace)
/-- A standby counts a lane as up while its cluster unit follows the partner's crowned input (R332). -/
def Lane.shadowUp (l : Lane) : Bool := l.state = .up && l.heard && followsCode l.status = 2 && otherCrowned l.status
/-- A lane is up for this module's role. -/
def State.laneUp (s : State) (l : Nat) : Bool := if s.pair.role = .standby then (s.lane l).shadowUp else (s.lane l).isUp

/-- The lanes of an arm. -/
def State.lanesOf (s : State) (arm : Nat) : List Nat := (List.range 48).filter fun l => s.laneArm l = arm && 0 < s.laneCells l

/-! ### Answers -/

/-- Every meaning answers through this: a fault when the operands do not have the shape of the row's wire format, else
the next state. -/
def guarded (ok : Bool) (s : State) : Host.Outcome State Fault Refusal := if ok then .next s else .fault .illFormed

end Sys2Proof.Machine
end

