-- ==== Sys2Proof/Machine/Angle.lean ====
section
/-!
DEFINITION. Angles, the angle unit, the dq frames (R9, R10, R36, R43) and the coefficients the module derives from
objects (R181, R182).
-/
namespace Sys2Proof.Machine

/-! ### Sine and cosine -/

/-- π/2 in units of 2^-60. -/
def halfPi : Int := 1811004864519280711
/-- √3/2 in units of 2^-60. -/
def sqrt3Half : Int := 998459311558907194

/-- The Taylor series of sine or cosine from the term `t` on; `a2` is the squared angle, `k` the next factor. -/
def taylor (a2 : Int) : Nat → Int → Nat → Int
  | 0, t, _ => t
  | n + 1, t, k => t - taylor a2 n (floorDiv (mulPu t a2) ((k : Int) * (k + 1))) (k + 2)

/-- Sine and cosine of a quarter-turn angle, in units of 2^-60; `r` counts 2^-32 turns below 2^30. -/
def sinCosQuarter (r : Nat) : Int × Int :=
  let a := floorDiv ((r : Int) * halfPi) (2 ^ 30)
  let a2 := mulPu a a
  (taylor a2 12 a 2, taylor a2 12 pu 1)

/-- Sine and cosine of an angle, in units of 2^-60. -/
def sinCos (θ : Word) : Int × Int :=
  let sc := sinCosQuarter (θ.toNat % 2 ^ 30)
  match θ.toNat / 2 ^ 30 with
  | 0 => (sc.1, sc.2)
  | 1 => (sc.2, -sc.1)
  | 2 => (-sc.1, -sc.2)
  | _ => (-sc.2, sc.1)

/-- What the angle unit writes for a value: a word within 4 LSB of it (R43), which one is free (log entry 3). The bounds are drawn
in by 2^-20 LSB, more than what the series above leave out. -/
def angleOut (x err : Int) : Word :=
  satWord (clampInt (-(floorDiv (2 ^ 31 - 2 ^ 9 - x) (2 ^ 29))) (floorDiv (x + 2 ^ 31 - 2 ^ 9) (2 ^ 29)) (roundDiv x (2 ^ 29) + err))

/-- The angle unit's sine and cosine of an angle (R43). -/
def sinOut (θ : Word) : Word := angleOut (sinCos θ).1 (Config.sinErr θ)
def cosOut (θ : Word) : Word := angleOut (sinCos θ).2 (Config.cosErr θ)

/-- An angle difference read as signed (R9), in 2^-32 turn. -/
def angDiff (a b : Word) : Int := (a - b).toInt

/-- An angle difference in turns, per unit. -/
def turnsPu (d : Int) : Int := d * 2 ^ 28

/-- The angle whose cosine and sine are in the proportion `x` to `y`, in 2^-32 turn: the bits below `n` are found one after
another, each kept while the angle so far does not pass the vector. -/
def angleBits (x y : Int) : Nat → Nat → Nat
  | 0, θ => θ
  | n + 1, θ =>
    let c := sinCos (BitVec.ofNat 32 (θ + 2 ^ n))
    angleBits x y n (if 0 ≤ y * c.2 - x * c.1 then θ + 2 ^ n else θ)

/-- The angle of a vector, 0 for the zero vector. -/
def angleOf (x y : Int) : Word :=
  if x = 0 ∧ y = 0 then 0
  else if 0 ≤ y then BitVec.ofNat 32 (angleBits x y 31 0)
  else BitVec.ofNat 32 (2 ^ 31 + angleBits (-x) (-y) 31 0)

/-! ### Frames (R36) -/

/-- Sines of a phase angle and of the two phases that lag it by 1/3 and 2/3 turn, from sine and cosine. -/
def sin3 (s c : Int) : Int × Int × Int :=
  (s, -(s / 2) - mulPu sqrt3Half c, -(s / 2) + mulPu sqrt3Half c)
/-- The cosines likewise. -/
def cos3 (s c : Int) : Int × Int × Int :=
  (c, -(c / 2) + mulPu sqrt3Half s, -(c / 2) - mulPu sqrt3Half s)

/-- Two thirds of the sum of products. -/
def dot3 (x w : Int × Int × Int) : Int :=
  floorDiv (2 * (mulPu x.1 w.1 + mulPu x.2.1 w.2.1 + mulPu x.2.2 w.2.2)) 3

/-- The amplitude-invariant dq transform of three phases with sine `s` and cosine `c` of the frame (R36). -/
def dq (x : Int × Int × Int) (s c : Int) : Int × Int := (dot3 x (sin3 s c), dot3 x (cos3 s c))

/-- The squared magnitude of a three-phase set. -/
def magSq (x : Int × Int × Int) : Int :=
  let v := dq x 0 pu
  mulPu v.1 v.1 + mulPu v.2 v.2

/-- Three consecutive signals of `fs` per unit full scale. -/
def State.sig3 (s : State) (a : Nat) (fs : Int) : Int × Int × Int := (s.sigPu a fs, s.sigPu (a + 1) fs, s.sigPu (a + 2) fs)

/-! ### Derived coefficients (R181, R182) -/

/-- A coefficient as R12 stores it: Q1.31 value and shift. -/
structure Coef where
  value : Int
  shift : Int
  deriving DecidableEq, Repr

/-- The value of a coefficient, per unit. -/
def Coef.toPu (c : Coef) : Int := c.value * 2 ^ (29 + c.shift).toNat

/-- A rational number `num / den` with a positive denominator. -/
structure Rat2 where
  num : Int
  den : Int
  deriving DecidableEq, Repr

/-- The smallest shift from `s` on, `n` shifts to try, at which the value lies below 1 in magnitude (R181). -/
def shiftFor (q : Rat2) : Nat → Int → Int
  | 0, s => s
  | n + 1, s => if q.num.natAbs * 2 ^ 16 < q.den.natAbs * 2 ^ (s + 16).toNat then s else shiftFor q n (s + 1)

/-- A coefficient stored under R181. -/
def quantize (q : Rat2) : Coef :=
  let s := shiftFor q 31 (-16)
  ⟨sat32 (roundDiv (q.num * 2 ^ (31 + 16)) (q.den * 2 ^ (s + 16).toNat)), s⟩

/-- 1 − exp(−n/d) as a multiple of 2^-120, by its series: `t` is the present term of exp(−x) − 1. -/
def expSeries (n d : Int) : Nat → Int → Int → Int
  | 0, _, acc => acc
  | m + 1, t, k => floorDiv (-(t * n)) (d * k) + expSeries n d m (floorDiv (-(t * n)) (d * k)) (k + 1)

/-- a = 1 − exp(−Δt/T) for T of `t` units of which 250 ns is 1/`u`; 1 when T = 0 (R40, R182). -/
def filterCoef (t u : Int) : Rat2 :=
  if t = 0 then ⟨1, 1⟩ else ⟨-(expSeries 1 (t * u) 26 (2 ^ 120) 1), 2 ^ 120⟩

/-- Units of an object's table column to the unit of its chapter's equations (R182): how many make 1. A Q31 level makes the fraction of its
signal's full scale, the unit of its row (log entry 61). -/
def objUnit (i : Nat) : Int :=
  if i ∈ [Obj.DROOP_F, Obj.DROOP_Q, Obj.E_CORR_MAX, Obj.E_MAX, Obj.R_V, Obj.X_V,
      Obj.GT_ABSENT_LEVEL, Obj.GT_RETURN_HYST, Obj.I_LIM, Obj.TRK_HEAD, Obj.DCV_LOW, Obj.DCV_HIGH, Obj.W_LOW, Obj.W_HIGH,
      Obj.I_TH_CONT, Obj.I_TH_SHORT, Obj.P_SIGN_BAND, Obj.FRT_LEVEL, Obj.FRT_HYST, Obj.DCF_LEVEL,
      Obj.W_REF, Obj.I_DC_MAX, Obj.I_BAL_MAX, Obj.P_DCV_MAX, Obj.TI_CC, Obj.CC_INT_MAX, Obj.CC_RES_MAX,
      Obj.PRECHG_LEVEL, Obj.ISIGN_BAND, Obj.PSC_BAL, Obj.RATE_P, Obj.ACC_P, Obj.RATE_Q, Obj.ACC_Q, Obj.RATE_VDC,
      Obj.ACC_VDC, Obj.RATE_V, Obj.ACC_V, Obj.SET_SLIP_MAX, Obj.SET_F_MAX, Obj.SET_V_MAX, Obj.SET_ANG_TOL,
      Obj.SET_VOLT_TOL, Obj.SCS_MARGIN, Obj.SCS_END_LEVEL, Obj.REF_IN_NOM] then 10000
  else if i ∈ [Obj.FREQ_LIMIT, Obj.KP_V, Obj.TI_V, Obj.TI_DCV, Obj.TI_W, Obj.SLIP_ANGLE, Obj.ENRG_TIME, Obj.KP_WS,
      Obj.TI_WS, Obj.KP_WH, Obj.TI_WH, Obj.KP_WV, Obj.TI_WV, Obj.TI_DCVL, Obj.KP_ARM, Obj.SET_TAU, Obj.SET_TF, Obj.SET_TV,
      Obj.SET_DWELL, Obj.SET_TIMEOUT, Obj.LIM_CHAT_W, Obj.LOG_PERIOD, Obj.PPS_WIDTH, Obj.SCS_GRACE, Obj.SCS_TMAX, Obj.SCS_RATE,
      Obj.SCS_CTL_RATE, Obj.SET_FREQ_TOL, Obj.CHR_HOLDOFF] ∨ inRow i Obj.LIM_QUIET 8 ∨ inRow i Obj.SI_DISC 8 then 1000
  else if i ∈ [Obj.D, Obj.KP_DCV, Obj.KP_W, Obj.KP_DCVL] then 100
  else if i ∈ [Obj.GT_BW, Obj.V_CELL_NOM, Obj.RANK_HYST, Obj.DCF_RAMP] then 10
  else if inRow i Obj.TH_LEVEL 4 ∨ inRow i Obj.TH_HYST 4 ∨ inRow i Obj.RT_LEVEL 2 then 2 ^ 31
  else if i ∈ [Obj.GT_ABSENT_TIME, Obj.FRT_TIME, Obj.SF_TI_FILT, Obj.SO_TEST_WIDTH, Obj.SF_PERIOD, Obj.SF_WATCHDOG, Obj.SF_ACCEPT_WIN] ∨
      inRow i Obj.SI_FILT 8 ∨ inRow i Obj.AI_SCALE 24 then 1000000
  else if i ∈ [Obj.DCF_TIME, Obj.STALE_TICKS, Obj.CELL_FAIL_TIME, Obj.EXEC_DELAY, Obj.LOF_TICKS] ∨ inRow i Obj.LIM_FILT 8 ∨
      inRow i Obj.RT_SPAN 2 then 4000000
  else if i ∈ [Obj.PTP_ASYM, Obj.TIME_TOL, Obj.REG_TRIM] then 1000000000
  else if i = Obj.SLEW_LIMIT then 10000000
  else if i ∈ [Obj.DEAD_TIME, Obj.MIN_PULSE] ∨ inRow i Obj.TRIP_FILT 16 then 100000000
  else 1

/-- The gain a partner belongs to, its unit and the partner's Δt unit: KP, units of KP, TI, ticks per unit of TI
(R182). -/
def gainOf (i : Nat) : Option (Int × Nat × Int) :=
  if i = Obj.KP_V then some (1000, Obj.TI_V, 4000)
  else if i = Obj.KP_DCV then some (100, Obj.TI_DCV, 4000)
  else if i = Obj.KP_W then some (100, Obj.TI_W, 4000)
  else if i = Obj.KP_WS then some (1000, Obj.TI_WS, 4000)
  else if i = Obj.KP_WH then some (1000, Obj.TI_WH, 4000)
  else if i = Obj.KP_WV then some (1000, Obj.TI_WV, 4000)
  else if i = Obj.KP_DCVL then some (100, Obj.TI_DCVL, 4000)
  else if i = Obj.KP_ARM then some (1000, Obj.TI_CC, 400)
  else none

/-- √(3/2) and √(2/3) in units of 2^-60. -/
def sqrt3by2 : Int := 1412034699884310141
def sqrt2by3 : Int := 941356466589540094

/-- The coefficient an object and sub-index derive, none where the pair is not defined (R182): the set-points that the hands move are no
coefficients. -/
def derive (s : State) (i sub : Nat) : Option Rat2 :=
  let v := s.cfg i
  if i = Obj.H then if sub = 0 then some ⟨1, 8000 * v⟩ else none
  else if i ∈ [Obj.T_DROOP] then if sub = 0 then some (filterCoef v 4000) else none
  else if i ∈ [Obj.T_PMEAS, Obj.T_QMEAS, Obj.T_VMEAS] then if sub = 0 then some (filterCoef v 4) else none
  else if i = Obj.V_SET then if sub = 1 then some ⟨5000, v⟩ else none
  else if i ∈ [Obj.P_SET, Obj.Q_SET, Obj.F_SET, Obj.V_DC_SET] then none
  else if i = Obj.R_V then
    let x := s.cfg Obj.X_V
    if sub = 0 then some ⟨v * 10000, v * v + x * x⟩ else if sub = 1 then some ⟨x * 10000, v * v + x * x⟩ else none
  else if i = Obj.V_DC_BASE then
    let ac := s.cfg Obj.V_AC_BASE
    if sub = 0 then some ⟨sqrt3by2 * ac, pu * v⟩ else if sub = 1 then some ⟨sqrt2by3 * ac, pu * v⟩ else none
  else if i = Obj.TH_TAU then if sub = 0 then some ⟨1, 4000 * v⟩ else none
  else if i ∈ [Obj.RATE_F, Obj.ACC_F] then if sub = 0 then some ⟨v, 1000 * s.cfg Obj.F_NOM⟩ else none
  else if i = Obj.CHR_HOLDOFF ∧ s.cfg Obj.CHR_HOLDOFF_MODE = 1 then if sub = 0 then some ⟨v, 4000000⟩ else none
  else match gainOf i with
    | some (u, ti, n) =>
      if sub = 0 then some ⟨v, u⟩
      else if sub = 1 then if s.cfg ti = 0 then some ⟨0, 1⟩ else some ⟨v, u * n * s.cfg ti⟩
      else none
    | none =>
      match objDef i with
      | some d => if d.acc = .rw ∧ sub = 0 then some ⟨v, objUnit i⟩ else none
      | none => none

/-- The derived coefficient in effect, as the tables hold it, per unit (R181). -/
def State.co (s : State) (i sub : Nat) : Int :=
  match derive s i sub with | some q => (quantize q).toPu | none => 0

/-- Objects whose writing rewrites another object's coefficients (R182): base objects, X_V, the partners, and F_NOM for the frequency's rates,
which are per unit of it (R213). -/
def coefOwners (i : Nat) : List Nat :=
  if i = Obj.X_V then [Obj.R_V]
  else if i = Obj.F_NOM then [Obj.RATE_F, Obj.ACC_F]
  else if i ∈ [Obj.S_BASE, Obj.V_AC_BASE] then [Obj.V_DC_BASE]
  else if i = Obj.CHR_HOLDOFF_MODE then [Obj.CHR_HOLDOFF]
  else if i = Obj.TI_V then [Obj.KP_V] else if i = Obj.TI_DCV then [Obj.KP_DCV] else if i = Obj.TI_W then [Obj.KP_W]
  else if i = Obj.TI_WS then [Obj.KP_WS] else if i = Obj.TI_WH then [Obj.KP_WH] else if i = Obj.TI_WV then [Obj.KP_WV]
  else if i = Obj.TI_DCVL then [Obj.KP_DCVL] else if i = Obj.TI_CC then [Obj.KP_ARM]
  else []

/-- Put value and shift into a constant step word (R167). -/
def constWord (c : Coef) : DWord :=
  (0x3F : DWord) <<< 58 ||| ((BitVec.ofInt 5 c.shift).setWidth 64 <<< 53) ||| (BitVec.ofInt 32 c.value).setWidth 64

end Sys2Proof.Machine
end

