-- ==== Sys2Proof/Machine/Arms.lean ====
section
/-!
DEFINITION. The rank engine (R84, R87, R96 to R105): which cells are ranked, the two orders of an arm, what it writes at a tick
edge, the redundancy of R102 and precharge.
-/
namespace Sys2Proof.Machine

/-- The cell meets R97 for an arm. -/
def State.rankOk (s : State) (arm c : Nat) : Bool :=
  let x := s.cell c
  s.laneArm (c / 64) = arm && s.cellInUse c && s.laneUp (c / 64) && x.retired.isNone && !x.take &&
    (match x.age with | some a => a ≤ s.cfgN Obj.STALE_TICKS | none => false)

/-- Move `c`, which stands between `pre` and `post`, one place at a time (R98): toward the front past the cells of
`ahead`, or, when it has not moved so, toward the back past those of `behind`. -/
def moveInOrder (ahead behind : Nat → Bool) (c : Nat) (pre post : List Nat) : List Nat :=
  let jumped := pre.reverse.takeWhile ahead
  if jumped.isEmpty then pre ++ post.takeWhile behind ++ c :: post.dropWhile behind
  else (pre.reverse.dropWhile ahead).reverse ++ c :: jumped.reverse ++ post

/-- Place `c` in an order: from its place, or from the back when it enters. -/
def placeInOrder (ahead behind : Nat → Bool) (c : Nat) (l : List Nat) : List Nat :=
  moveInOrder ahead behind c (l.takeWhile (· ≠ c)) ((l.dropWhile (· ≠ c)).drop 1)

/-- Give a cell its place in both orders of its arm after a report (R98). -/
def State.rerank (s : State) (arm c : Nat) : State :=
  let h := s.cfgN Obj.RANK_HYST
  let v := fun x => (s.cell x).vcap
  let vc := v c
  let a := s.arms
  { s with arms := { a with
      charge := modifyAt a.charge arm (placeInOrder (fun x => vc + h < v x) (fun x => v x + h < vc) c)
      discharge := modifyAt a.discharge arm (placeInOrder (fun x => v x + h < vc) (fun x => vc + h < v x) c) } }

/-- Apply a valid report's voltage to a cell (R97 to R99): its age starts again, and it takes its place. -/
def State.applyReport (s : State) (c vcap : Nat) : State :=
  let s := s.setCell c fun x => { x with vcap := vcap, age := some 0, staleSeen := false }
  let arm := s.laneArm (c / 64)
  if s.rankOk arm c then (s.setCell c fun x => { x with wasRanked := true }).rerank arm c else s

/-- The charging and discharging order of an arm, and the cells ranked. -/
def State.chargeOrder (s : State) (arm : Nat) : List Nat := s.arms.charge.getD arm []
def State.dischargeOrder (s : State) (arm : Nat) : List Nat := s.arms.discharge.getD arm []
def State.nRank (s : State) (arm : Nat) : Nat := (s.chargeOrder arm).length
/-- Ranked cells of FB lanes. -/
def State.nFb (s : State) (arm : Nat) : Nat := ((s.chargeOrder arm).filter fun c => s.laneFb (c / 64)).length

/-- Take a cell out of the ranking of every arm. -/
def Arms.drop (a : Arms) (c : Nat) : Arms :=
  { a with charge := a.charge.map (·.filter (· ≠ c)), discharge := a.discharge.map (·.filter (· ≠ c)) }

/-- Code of a retirement reason in CELL_RETIRED. -/
def RetireReason.code : RetireReason → Nat
  | .fault => 0 | .bypassed => 1 | .lost => 2 | .excluded => 3

/-- Retire a cell (R100): counted, flagged and logged; it is out of the ranking. -/
def State.retire (s : State) (c : Nat) (r : RetireReason) : State :=
  let s := s.setCell c fun x => { x with retired := some r, retiring := none }
  ({ s with arms := { s.arms.drop c with retireCount := s.arms.retireCount + 1, retiredNew := true } }.condEvent 44).post 0x2201 (c / 64)
    [BitVec.ofNat 8 (c % 64), BitVec.ofNat 8 r.code]

/-- Age of one cell at an edge (R99). -/
def Cell.older (x : Cell) : Cell := { x with age := x.age.map (· + 1) }

/-- A cell's age (R99): none for a cell of an unassigned lane and for one above its lane's count. -/
def State.cellAge (s : State) (c : Nat) : Option Nat := if s.cellArm c < 6 && s.cellInUse c then (s.cell c).age else none

/-- A cell is stale (R99). -/
def State.stale (s : State) (c : Nat) : Bool := match s.cellAge c with | some a => s.cfgN Obj.STALE_TICKS < a | none => false

/-- Cells that are stale now. -/
def State.staleCells (s : State) : Nat := ((List.range s.cells.length).filter s.stale).length

/-- Retire every cell that a report or a write has marked since the last edge (R100). -/
def State.retireMarked (s : State) : State :=
  (s.cells.zipIdx.filterMap fun p => p.1.retiring.map fun r => (p.2, r)).foldl (fun s p => s.retire p.1 p.2) s

/-- Sum of the ranked cell voltages of an arm, in 0.1 V, and of their squares. -/
def State.vSum (s : State) (arm : Nat) : Nat := ((s.chargeOrder arm).map fun c => (s.cell c).vcap).sum
def State.vSqSum (s : State) (arm : Nat) : Nat := ((s.chargeOrder arm).map fun c => (s.cell c).vcap ^ 2).sum

/-- VSUM_j per unit of V_dc_base (R88), exact to 2^-60. -/
def State.vSumPu (s : State) (arm : Nat) : Int := floorDiv (s.vSum arm * pu) (10 * s.cfg Obj.V_DC_BASE)
/-- W_ARM_j (R87). -/
def State.wArm (s : State) (arm : Nat) : Int :=
  if s.nRank arm = 0 then 0 else floorDiv (s.vSqSum arm * pu) (s.nRank arm * s.cfg Obj.V_CELL_NOM ^ 2)
/-- W_SUM, the mean of the six (R87). -/
def State.wSum (s : State) : Int := floorDiv (((List.range 6).map s.wArm).sum) 6

/-- REDUND_j (R102). -/
def State.redund (s : State) (arm : Nat) : Int := (s.nRank arm : Int) - s.cfg Obj.N_NEED

/-- Post the four events of R102 for one arm, given its flags before and after. -/
def State.redundEvents (s : State) (arm : Nat) (low0 low1 short0 short1 : Bool) : State :=
  let d := beBytes 2 (s.redund arm % 2 ^ 16).toNat
  let s := if low1 && !low0 then s.post 0x2202 arm d else if low0 && !low1 then s.post 0x2203 arm d else s
  if short1 && !short0 then s.post 0x2204 arm d else if short0 && !short1 then s.post 0x2205 arm d else s

/-- Evaluate R102 over the present ranking. The first evaluation writes no entry. An arm that becomes short in RUN or SCS asserts the input then
named, beside those asserted already. -/
def State.evalRedund (s : State) : State :=
  let short1 := (List.range 6).map fun j => decide (s.redund j < 0)
  let low1 := (List.range 6).map fun j => decide (s.redund j < s.cfg Obj.REDUND_MIN)
  let a := s.arms
  let newShort := (List.range 6).any fun j => flag short1 j && !flag a.short j
  let old := if short1.any id then a.shortAssert else []
  let new := if newShort && (s.conv.state = .run || s.conv.state = .scs) then s.tripNamed Obj.REDUND_TRIP_INPUT else []
  let s' := if a.evaluated then
      (List.range 6).foldl (fun s j => s.redundEvents j (flag a.redLow j) (flag low1 j) (flag a.short j) (flag short1 j)) s
    else s
  { s' with arms := { s'.arms with short := short1, redLow := low1, evaluated := true, shortAssert := old ++ new.filter fun n => !old.contains n } }

/-- ARM_FLAGS (R88). -/
def State.armFlags (s : State) : Nat := bitsNat s.arms.short + 2 ^ 8 * bitsNat s.arms.redLow + 2 ^ 16 * b2n s.arms.prechgDone

/-- Write the signals of the rank engine (R88). -/
def State.rankSignals (s : State) : State :=
  let js := List.range 6
  let s := s.setSigs 0x066 (js.map fun j => toQ31 2 (s.wArm j))
  let s := s.setSigs 0x06C (js.map fun j => toQ31 2 (s.vSumPu j))
  let s := s.setSigs 0x072 (js.map fun j => BitVec.ofNat 32 (s.nRank j + 2 ^ 16 * s.nFb j))
  (s.setPu 0x078 2 s.wSum).setSigN 0x07F s.armFlags

/-- What the rank engine does at a tick edge (R99 to R103): ages, retirements, the snapshot, aggregates and redundancy. -/
def State.rankEdge (s : State) : State :=
  let s := { s with cells := s.cells.map Cell.older }.retireMarked
  let keep := fun (l : List (List Nat)) => l.mapIdx fun j o => o.filter (s.rankOk j)
  ({ s with arms := { s.arms with
      charge := keep s.arms.charge, discharge := keep s.arms.discharge, staleNow := s.staleCells } }.evalRedund).rankSignals

/-- The cells of a lane have no age from its entry into UP until their reports (R97, R99). -/
def State.laneAges (s : State) (l : Nat) : State :=
  (List.range 64).foldl (fun s i => s.setCell (l * 64 + i) fun x => { x with age := none, wasRanked := false, staleSeen := false }) s

/-! ### Precharge (R104, R105) -/

/-- V_tgt in 0.01 mV: PRECHG_LEVEL × V_CELL_NOM. -/
def State.vTgt (s : State) : Int := s.cfg Obj.PRECHG_LEVEL * s.cfg Obj.V_CELL_NOM
/-- The driving voltage in 0.01 mV, from V_SQ or V_dc. -/
def State.vDrv (s : State) : Int :=
  if s.cfg Obj.PRECHG_SOURCE = 0 then floorDiv (sqrtPu (2 * s.sigPu 0x04B 4) * s.cfg Obj.V_AC_BASE * 100000) pu
  else floorDiv (s.sigPu 0x028 2 * s.cfg Obj.V_DC_BASE * 100000) (2 * pu)
/-- Cells an arm leaves blocked. -/
def State.nBlk (s : State) (arm : Nat) : Nat :=
  let a := floorDiv s.vDrv s.vTgt
  let b := -(floorDiv (-(s.vDrv * 100)) (105 * 10000 * s.cfg Obj.V_CELL_NOM))
  (clampInt 1 (s.nRank arm) (max a b)).toNat

/-- Every arm has reached the precharge-complete level. -/
def State.precharged (s : State) : Bool :=
  (List.range 6).all fun j =>
    decide (s.cfgN Obj.N_NEED ≤ ((s.chargeOrder j).filter fun c => s.vTgt ≤ 10000 * (s.cell c).vcap).length)

end Sys2Proof.Machine
end

