-- ==== Sys2Proof/Machine/Modulator.lean ====
section
/-!
DEFINITION. The modulator (R109 to R122, R128 to R130): what drives each cell, levels, carriers, dead time and minimum pulse.
Instants are in 1/2048 tick from tick 0 (R110); the edges computed at edge m lie in tick m + 1.
-/
namespace Sys2Proof.Machine

/-- Units of one tick. -/
def tickUnits : Nat := 2048
/-- A time of 10 ns units in 1/2048 tick, rounded up (R112). -/
def units10ns (x : Nat) : Nat := (x * 2048 + 24) / 25

/-! ### One cell: transitions, dead time, minimum pulse (R112, R113) -/

/-- One edge wanted of a cell: at `at_`, to `dest`. `mode`: decided by row 9 of R109. -/
structure CellEdge where
  at_ : Nat
  dest : CellState
  mode : Bool
  deriving DecidableEq, Repr

/-- The work on one cell at one edge: the cell, its new entries, whether its last edge is one from before whose first entry waits unsent,
whether what waits of that edge is to be discarded, and the pulses dropped or moved. -/
structure CellRun where
  x : Cell
  out : List Entry := []
  unsent : Bool
  purge : Bool := false
  drops : Nat := 0
  deriving DecidableEq, Repr

/-- The state a cell is heading for. -/
def Cell.target (x : Cell) : CellState := match x.pend with | some (b, _) => b | none => x.cmd

/-- An entry of cell `c` at an instant. -/
def entryAt (c t : Nat) (st : CellState) : Entry := { cell := c, state := st, offset := t % tickUnits, exec := t / tickUnits }

/-- Execute the second entry of a dead time when it falls at or before `t` (R112). -/
def CellRun.flush (c t : Nat) (r : CellRun) : CellRun :=
  match r.x.pend with
  | some (b, p) => if p ≤ t then { r with x := { r.x with cmd := b, pend := none }, out := r.out ++ [entryAt c p b] } else r
  | none => r

/-- The transition table of R112: go to `b` at `t` with dead time `dt`. `since` is the instant of the edge, 0 for an edge no
mode decides. -/
def CellRun.go (c dt t : Nat) (b : CellState) (since : Nat) (r : CellRun) : CellRun :=
  let x := { r.x with prev := r.x.target, prevSince := r.x.since, prevPend := r.x.pend, since := since }
  let n := { r with unsent := false }
  match r.x.pend with
  | some (q, _) =>
    if q = b then r
    else if b = .block then { n with x := { x with cmd := .block, pend := none } }
    else { n with x := { x with pend := some (b, max t (x.blockAt + dt)) } }
  | none =>
    if r.x.cmd = b then r
    else if b = .block then { n with x := { x with cmd := .block }, out := r.out ++ [entryAt c t .block] }
    else if r.x.cmd = .block then { n with x := { x with cmd := b }, out := r.out ++ [entryAt c t b] }
    else { n with x := { x with cmd := .block, blockAt := t, pend := some (b, t + dt) }, out := r.out ++ [entryAt c t .block] }

/-- The last edge of the cell has replaced a pending entry and its own is still pending: no entry of it exists. -/
def Cell.onlyPends (x : Cell) : Bool := x.prevPend.isSome && x.pend.isSome

/-- Drop the last edge of the cell with the one now due (R113): nothing of it has been sent. What waits of an edge from before, which a spill may
have moved to the start of this tick, is taken out of the lane's queue; of an edge of this run, out of the new entries. An edge that had replaced
a pending entry gives it back. -/
def CellRun.dropBoth (first : Nat) (r : CellRun) : CellRun :=
  { r with x := { r.x with cmd := if r.x.prevPend.isSome then .block else r.x.prev, since := r.x.prevSince,
                           pend := r.x.prevPend.map fun p => (p.1, max p.2 first), prevPend := none },
           out := if r.x.onlyPends then r.out else if r.unsent then []
             else r.out.filter (fun e => e.exec * tickUnits + e.offset < r.x.since),
           purge := r.purge || (r.unsent && !r.x.onlyPends), unsent := false, drops := r.drops + 1 }

/-- One edge of a cell in the execution tick that starts at `first` (R112, R113). A moved edge is counted when the mode first wants it, and once
more when the mode goes back before it comes, for both edges are dropped then. An edge of rows 1 to 8, and a cell that is in BLOCK, set no minimum for the edge that follows (log entry 53). -/
def CellRun.edge (c dt mp first : Nat) (r : CellRun) (e : CellEdge) : CellRun :=
  let r := r.flush c e.at_
  let min := r.x.since + dt + mp
  let fresh := r.x.wish != e.dest
  let moved := r.x.wish != r.x.target
  let r := { r with x := { r.x with wish := e.dest } }
  if r.x.target = e.dest then if e.mode && moved then { r with drops := r.drops + 1 } else r
  else if !e.mode then r.go c dt e.at_ e.dest 0
  else if (r.x.cmd = .block && r.x.pend.isNone) || min ≤ e.at_ || r.x.since = 0 then r.go c dt e.at_ e.dest e.at_
  else if first ≤ r.x.since || r.unsent then (r.dropBoth first).flush c e.at_
  else
    let r := if fresh then { r with drops := r.drops + 1 } else r
    if min < first + tickUnits then (r.flush c min).go c dt min e.dest min else r

/-- All edges of a cell in one execution tick, then the second entry of a dead time that ends in it. -/
def CellRun.edges (c dt mp first : Nat) (r : CellRun) (es : List CellEdge) : CellRun :=
  (es.foldl (CellRun.edge c dt mp first) r).flush c (first + tickUnits - 1)

/-! ### Levels and inserted sets (R115 to R117) -/

/-- The nearest level of R115. -/
def level (x : Int) : Int := if 0 ≤ x then floorDiv (x + pu / 2) pu else -(floorDiv (-x + pu / 2) pu)

/-- The half-levels the extrapolated reference crosses upward (R116): offset and the level from there on. -/
def crossUp (x d : Int) : Nat → Int → List (Nat × Int)
  | 0, _ => []
  | n + 1, l =>
    let h := floorDiv ((2 * l + 1) * pu) 2
    let o := roundDiv ((h - x) * 2048) d
    if h < x + d ∧ o < 2048 then (o.toNat, l + 1) :: crossUp x d n (l + 1) else []

/-- The same downward. -/
def crossDown (x d : Int) : Nat → Int → List (Nat × Int)
  | 0, _ => []
  | n + 1, l =>
    let h := floorDiv ((2 * l - 1) * pu) 2
    let o := roundDiv ((x - h) * 2048) (-d)
    if x + d < h ∧ o < 2048 then (o.toNat, l - 1) :: crossDown x d n (l - 1) else []

/-- The levels of one execution tick, offset 0 first. Crossings further than one level beyond `-least` to `most`, which the arm can reach,
change nothing and are left out. -/
def levelsOf (extrap : Bool) (x xPrev : Int) (least most : Nat) : List (Nat × Int) :=
  let d := x - xPrev
  (0, level x) ::
    (if !extrap || d = 0 then []
     else if 0 < d then crossUp x d (least + most + 2) (max (level x) (-(least : Int) - 1))
     else crossDown x d (least + most + 2) (min (level x) (most + 1)))

/-- The order in use for a polarity (R96, R111): its eligible cells, front first. -/
def State.orderFor (s : State) (arm : Nat) (neg : Bool) : List Nat :=
  let o := if flag s.mod.dir arm != neg then s.chargeOrder arm else s.dischargeOrder arm
  if neg then o.filter fun c => s.laneFb (c / 64) else o

/-- Bring a set to `n` cells (R117): take the first cells of the order that are not in it, or remove those furthest back. -/
def setToCount (order set : List Nat) (n : Nat) : List Nat :=
  if set.length ≤ n then set ++ ((order.filter fun c => !set.contains c).take (n - set.length))
  else
    let out := ((order.filter fun c => set.contains c).reverse).take (set.length - n)
    set.filter fun c => !out.contains c

/-- Replace the cells that have left the order (R117): the count is unchanged where cells remain. -/
def refill (order set : List Nat) : List Nat := setToCount order (set.filter order.contains) set.length

/-- Up to `n` swaps (R117). -/
def swaps (order : List Nat) : Nat → List Nat → List Nat
  | 0, set => set
  | n + 1, set =>
    match order.find? (fun c => !set.contains c), order.reverse.find? (fun c => set.contains c) with
    | some f, some b =>
      if order.idxOf f < order.idxOf b then swaps order n (f :: set.filter (· ≠ b)) else set
    | _, _ => set

/-- An arm's inserted set and its polarity. -/
structure InsSet where
  cells : List Nat
  neg : Bool
  deriving DecidableEq, Repr

/-- The set for a level: a level of the other polarity starts from no cell. -/
def State.setForLevel (s : State) (arm : Nat) (i : InsSet) (l : Int) : InsSet :=
  if l = 0 then { i with cells := [] }
  else
    let neg := decide (l < 0)
    let from_ := if i.neg = neg then i.cells else []
    { cells := setToCount (s.orderFor arm neg) from_ l.natAbs, neg := neg }

/-- The state of a cell under an inserted set. -/
def InsSet.stateOf (i : InsSet) (c : Nat) : CellState :=
  if i.cells.contains c then if i.neg then .insertNeg else .insertPos else .bypass

/-- What the modulator plans for one arm at one edge. -/
structure ArmPlan where
  edges : List (Nat × List CellEdge) := []
  ins : InsSet
  nIns : Int := 0
  satPos : Bool := false
  satNeg : Bool := false
  hyb : Option Nat := none
  hybF : Int := 0
  duties : List (Nat × Int) := []
  deriving DecidableEq, Repr

/-- Edges of one cell through a timeline of sets. -/
def timelineEdges (first c : Nat) (l : List (Nat × InsSet)) : List CellEdge :=
  l.map fun p => { at_ := first + p.1, dest := p.2.stateOf c, mode := true }

/-- What a timeline has come to at offset 0: the last of its points there. -/
def atStart {α : Type} (l : List (Nat × α)) : Option α := ((l.takeWhile fun p => p.1 == 0).getLast?).map (·.2)

/-- The polarity and count a set inserts, as N_INS (R130). -/
def InsSet.signed (i : InsSet) : Int := if i.neg then -(i.cells.length : Int) else i.cells.length

/-- ARM_REF_j as it stands at the edge (R25). -/
def State.armRef (s : State) (arm : Nat) : Int := s.sigPu (0x060 + arm) 2

/-- The level x = r / u_j of a reference (R115): u_j = VSUM_j / N_RANK_j. With every ranked cell at 0 V the quotient has no
stated value (log entry 3). -/
def State.levelX (s : State) (arm : Nat) (r : Int) : Int :=
  if s.vSumPu arm = 0 then Config.openValue (s.free + arm) else floorDiv (r * s.nRank arm * pu) (s.vSumPu arm)

/-- An arm without ranked cells inserts none and saturates by the sign of its reference (R115). -/
def State.emptyPlan (s : State) (arm : Nat) : ArmPlan :=
  { ins := ⟨[], flag s.mod.negative arm⟩, satPos := decide (0 < s.armRef arm), satNeg := decide (s.armRef arm < 0) }

/-- The set an arm holds when the edge comes, with the cells that left replaced; `pwm` is a cell that no replacement takes. -/
def State.heldSet (s : State) (arm : Nat) (pwm : Option Nat) : InsSet :=
  let neg := flag s.mod.negative arm
  ⟨refill ((s.orderFor arm neg).filter fun c => some c ≠ pwm) (s.mod.inserted.getD arm []), neg⟩

/-- The level an arm can reach. -/
def State.reach (s : State) (arm : Nat) (l : Int) : Int := clampInt (-(s.nFb arm : Int)) (s.nRank arm) l

/-- Nearest-level modulation of one arm (R115 to R117). -/
def State.planNlm (s : State) (first arm : Nat) : ArmPlan :=
  let x := s.levelX arm (s.armRef arm)
  let xp := s.levelX arm (s.mod.refPrev.getD arm 0)
  let raw := levelsOf (s.cfgN Obj.NLM_EDGE = 1) x xp (s.nFb arm) (s.nRank arm)
  let line := raw.map fun p => (p.1, s.reach arm p.2)
  let go := fun (acc : InsSet × List (Nat × InsSet)) (p : Nat × Int) =>
    let i := s.setForLevel arm acc.1 p.2
    (i, acc.2 ++ [(p.1, i)])
  let r := line.foldl go (s.heldSet arm none, [])
  let order := s.orderFor arm r.1.neg
  let final : InsSet := ⟨swaps order (s.cfgN Obj.SWAP_MAX) r.1.cells, r.1.neg⟩
  let gone := r.1.cells.filter fun c => !final.cells.contains c
  let come := final.cells.filter fun c => !r.1.cells.contains c
  let swap := fun (i : InsSet) => if i.neg = final.neg && !come.isEmpty then
      { i with cells := i.cells.filter (fun c => !gone.contains c) ++ come } else i
  let tl := r.2.map fun p => (p.1, swap p.2)
  { edges := (s.chargeOrder arm).map fun c => (c, timelineEdges first c tl)
    ins := final
    nIns := ((atStart tl).map InsSet.signed).getD 0
    satPos := raw.any fun p => decide ((s.nRank arm : Int) < p.2)
    satNeg := raw.any fun p => decide (p.2 < -(s.nFb arm : Int)) }

/-! ### Carriers (R118 to R121). Phases are in 2^-64 carrier period. -/

/-- One carrier period. -/
def period : Nat := 2 ^ 64

/-- Carrier slot of a cell: its position among the configured cells of its arm (R118). -/
def State.slot (s : State) (c : Nat) : Nat :=
  (((s.lanesOf (s.cellArm c)).filter fun l => l < c / 64).map s.laneCells).sum + c % 64

/-- Phase of a slot at the start of the execution tick (R118). -/
def State.carrierPhase (s : State) (arm slot : Nat) : Nat :=
  let k := s.cfgN Obj.CARR_PER_CYCLE
  let sp := s.cfgN Obj.CARR_SPACING
  let i := if arm % 2 = 1 && s.cfgN Obj.CARR_INTERLEAVE = 1 then 1 else 0
  (k * (s.bal.acc.toNat + s.bal.lastStep) + s.cfgN Obj.CARR_PHASE * 2 ^ 32 + (2 * slot + i) * period / (2 * sp)) % period

/-- Phase a carrier advances in the execution tick. -/
def State.carrierStep (s : State) : Nat := s.cfgN Obj.CARR_PER_CYCLE * s.bal.lastStep

/-- A duty exceeds the carrier from a phase on: d > |2φ − 1|, for c = 1 at the boundary and c = 0 at mid-period (log entry 10); where the two
are equal, the carrier must be falling. -/
def overCarrier (d : Int) (φ : Nat) : Bool :=
  let c := |2 * ((φ % period : Nat) : Int) - period|
  decide (c < d * 16) || (decide (c = d * 16) && decide (0 < d) && decide (φ % period < period / 2))

/-- Where a duty crosses its carrier strictly between two phases of one period: phase, and whether it is over from there. -/
def carrierCross (d : Int) (a b : Nat) : List (Nat × Bool) :=
  let p := ((pu - d) * 8).toNat
  let q := ((pu + d) * 8).toNat
  (if 0 < d ∧ a < p ∧ p < b then [(p, true)] else []) ++ (if 0 < d ∧ a < q ∧ q < b then [(q, false)] else [])

/-- The reload instants of a carrier in a tick that starts at phase `a` and ends at `b` (R120): at the boundary, at
mid-period where MID is set, and at the start where every carrier reloads. -/
def reloadPoints (mid all : Bool) (a b : Nat) : List Nat :=
  (if all || a = 0 then [a] else []) ++
    (if mid ∧ a ≤ period / 2 ∧ period / 2 < b then [period / 2] else []) ++
    (if a < period ∧ period < b then [period] else [])

/-- Offset of a phase in the tick. -/
def phaseOffset (a step φ : Nat) : Nat := if step = 0 then 0 else ((2 * (φ - a) * 2048 + step) / (2 * step))

/-- The pieces of a tick between reloads: start, end and whether a reload stands at the start. -/
def phasePieces (a b : Nat) : List Nat → List (Nat × Nat × Bool)
  | [] => [(a, b, false)]
  | r :: rs =>
    let tail := rs.zip (rs.drop 1 ++ [b])
    (if a < r then [(a, r, false)] else []) ++
      (r, (rs.head?).getD b, true) :: tail.map fun p => (p.1, p.2, true)

/-- The base duty of an arm (R119), before its limit, and the number of cells that can carry its sign. -/
def State.baseDuty (s : State) (arm : Nat) : Int × Nat :=
  let r := s.armRef arm
  let nOn := if 0 ≤ r then s.nRank arm else s.nFb arm
  let v := s.vSumPu arm
  if nOn = 0 then (if r < 0 then -2 * pu else 0, 0)
  else if v = 0 then (Config.openValue (s.free + arm), nOn)
  else (floorDiv (r * s.nRank arm * pu) (v * nOn), nOn)

/-- The duty of the cell at position `p` of `n` (R119). -/
def State.dutyAt (s : State) (d : Int) (n p : Nat) : Int :=
  if n ≤ 1 then d
  else
    let b := s.cfgPu Obj.PSC_BAL 10000
    let w := pu + floorDiv (b * ((n : Int) - 1 - 2 * p)) ((n : Int) - 1)
    let m := clampInt 0 pu (mulPu |d| w)
    if d < 0 then -m else m

/-- State of a cell while its duty is over its carrier or not. -/
def dutyState (d : Int) (isOver : Bool) : CellState := if isOver then if d < 0 then .insertNeg else .insertPos else .bypass

/-- Edges of one PSC cell: through the pieces of the tick, reloading to `dNew`. -/
def pscEdges (first a step : Nat) (dNew : Int) : Int → List (Nat × Nat × Bool) → List CellEdge
  | _, [] => []
  | d, (x, y, re) :: l =>
    let d := if re then dNew else d
    let base := if period ≤ x then period else 0
    let mk := fun φ isOver => { at_ := first + phaseOffset a step φ, dest := dutyState d isOver, mode := true : CellEdge }
    mk x (overCarrier |d| x) :: (carrierCross |d| (x - base) (y - base)).map (fun p => mk (p.1 + base) p.2) ++ pscEdges first a step dNew d l

/-- Edges that fall into the tick: one that rounds to its end belongs to the next. -/
def inTick (first : Nat) (es : List CellEdge) : List CellEdge := es.filter fun e => decide (e.at_ < first + tickUnits)

/-- Phase-shifted carriers of one arm (R118 to R120). -/
def State.planPsc (s : State) (first arm : Nat) : ArmPlan :=
  let (d, nOn) := s.baseDuty arm
  let dl := clampInt (-pu) pu d
  let neg := decide (d < 0)
  let order := s.orderFor arm neg
  let mid := s.cfgN (Obj.UPD_MODE + arm) = 1
  let step := s.carrierStep
  let one := fun c =>
    let a := s.carrierPhase arm (s.slot c)
    let pieces := phasePieces a (a + step) (reloadPoints mid s.mod.reload a (a + step))
    let dn := if order.contains c then s.dutyAt dl nOn (order.idxOf c) else 0
    let d0 := (s.cell c).duty
    (c, inTick first (pscEdges first a step dn d0 pieces), if pieces.any (·.2.2) then dn else d0)
  let all := (s.chargeOrder arm).map one
  let on := fun (p : Nat × List CellEdge × Int) => (atStart (p.2.1.map fun e => (e.at_ - first, e.dest))).getD .bypass
  let pos := (all.filter fun p => on p = .insertPos).length
  let ngs := (all.filter fun p => on p = .insertNeg).length
  { edges := all.map fun p => (p.1, p.2.1)
    ins := ⟨(all.filter fun p => on p = .insertPos || on p = .insertNeg).map (·.1), neg⟩
    nIns := (pos : Int) - ngs
    satPos := decide (pu < d), satNeg := decide (d < -pu)
    duties := all.map fun p => (p.1, p.2.2) }

/-- The hybrid arm between reloads: its set, PWM cell, fraction and saturation (R121), and the swaps it may still make in the tick (R117). -/
structure HybArm where
  ins : InsSet
  pwm : Option Nat
  f : Int
  satPos : Bool
  satNeg : Bool
  left : Nat
  deriving DecidableEq, Repr

/-- The set with the PWM cell in it while its fraction is over the carrier; `ranked` are the cells that may be inserted. -/
def HybArm.setAt (h : HybArm) (ranked : List Nat) (isOver : Bool) : InsSet :=
  match h.pwm with
  | some c => if isOver && ranked.contains c then { h.ins with cells := c :: h.ins.cells } else h.ins
  | none => h.ins

/-- The reload of a hybrid arm (R121). -/
def State.hybReload (s : State) (arm left : Nat) (i : InsSet) : HybArm :=
  let x := s.levelX arm (s.armRef arm)
  let n := floorDiv |x| pu
  let f := |x| - n * pu
  let need := if f = 0 then n else n + 1
  let lv := s.reach arm (if x < 0 then -n else n)
  let j := s.setForLevel arm i lv
  let neg := decide (x < 0)
  let order := s.orderFor arm neg
  let k : InsSet := ⟨swaps order left j.cells, if lv = 0 then neg else j.neg⟩
  { ins := k, pwm := order.find? fun c => !k.cells.contains c, f := f
    satPos := !neg && decide ((s.nRank arm : Int) < need), satNeg := neg && decide ((s.nFb arm : Int) < need)
    left := left - (j.cells.filter fun c => !k.cells.contains c).length }

/-- The timeline of a hybrid arm through the pieces of the tick. -/
def State.hybLine (s : State) (arm a step : Nat) : HybArm → List (Nat × Nat × Bool) → HybArm × List (Nat × InsSet)
  | h, [] => (h, [])
  | h, (x, y, re) :: l =>
    let h := if re then s.hybReload arm h.left h.ins else h
    let base := if period ≤ x then period else 0
    let ranked := s.chargeOrder arm
    let here := (phaseOffset a step x, h.setAt ranked (overCarrier h.f x)) ::
      (carrierCross h.f (x - base) (y - base)).map fun p => (phaseOffset a step (p.1 + base), h.setAt ranked p.2)
    let r := s.hybLine arm a step h l
    (r.1, here ++ r.2)

/-- Hybrid modulation of one arm (R121). Between reloads the PWM cell, the fraction and the saturation stand as the last reload left them:
no replacement takes the PWM cell, and one that is not ranked stays in BYPASS by R109 until a reload chooses another (log entry 53). -/
def State.planHyb (s : State) (first arm : Nat) : ArmPlan :=
  let a := s.carrierPhase arm 0
  let step := s.carrierStep
  let mid := s.cfgN (Obj.UPD_MODE + arm) = 1
  let pwm := s.mod.hybCell.getD arm none
  let h : HybArm := ⟨s.heldSet arm pwm, pwm, s.mod.hybF.getD arm 0, flag s.mod.satPos arm, flag s.mod.satNeg arm,
    s.cfgN Obj.SWAP_MAX⟩
  let pieces := phasePieces a (a + step) (reloadPoints mid s.mod.reload a (a + step))
  let r := s.hybLine arm a step h pieces
  let tl := r.2.filter fun p => decide (p.1 < tickUnits)
  { edges := (s.chargeOrder arm).map fun c => (c, timelineEdges first c tl)
    ins := r.1.ins, hyb := r.1.pwm, hybF := r.1.f
    nIns := ((atStart tl).map InsSet.signed).getD 0
    satPos := r.1.satPos, satNeg := r.1.satNeg }

/-- The plan of one arm by the mode in effect (row 9 of R109). -/
def State.planArm (s : State) (first arm : Nat) : ArmPlan :=
  if s.nRank arm = 0 then s.emptyPlan arm
  else match s.cfgN Obj.MOD_MODE with
    | 1 => s.planPsc first arm
    | 2 => s.planHyb first arm
    | _ => s.planNlm first arm

/-! ### What drives a cell (R109) -/

/-- The modulator is disabled (row 3). -/
def State.modDisabled (s : State) : Bool := !s.cfgB Obj.MOD_ENABLE || s.pair.role = .standby

/-- The arms named by a trip input that is active or latched (row 2). -/
def State.trippedArms (s : State) : Nat :=
  (List.range 16).foldl (fun m n => if flag s.trips.filtered n || flag s.trips.latch n then m ||| s.cfgN (Obj.TRIP_ARMS + n) else m) 0

/-- A cell that rows 1 to 5 block. -/
def State.mustBlock (s : State) (tripped c : Nat) : Bool :=
  s.conv.state = .pr || tripped.testBit (s.cellArm c) || s.modDisabled || s.conv.state = .idle || s.conv.state = .ready ||
    s.cellArm c = 7 || !s.cellInUse c

/-- The edges of a cell at offset 0 by rows 1 to 8, none where row 9 drives it. -/
def State.fixedState (s : State) (tripped c : Nat) : Option CellState :=
  if s.mustBlock tripped c then some .block
  else
    let order := s.chargeOrder (s.cellArm c)
    if s.conv.state = .precharge then
      if order.contains c then some (if (order.take (s.nBlk (s.cellArm c))).contains c then .block else .bypass)
      else some (if (s.cell c).wasRanked then .bypass else .block)
    else if order.contains c then none else some .bypass

/-- The direction of each arm (R111), from the arm-current samples as they stand. -/
def State.directions (s : State) : List Bool :=
  (List.range 6).map fun j =>
    let i := s.sigPu (0x01B + j) 2
    let band := s.cfgPu Obj.ISIGN_BAND 10000
    if |i| ≤ band then flag s.mod.dir j else decide (0 < i)

/-- Row 9 drives cells. -/
def State.modulating (s : State) : Bool := (s.conv.state = .run || s.conv.state = .scs) && !s.modDisabled

/-- Post the entries into saturation of one arm (R115). -/
def State.satEvents (s : State) (arm : Nat) (p : ArmPlan) : State :=
  let bump := fun (s : State) (b : Byte) =>
    { s with mod := { s.mod with satCount := s.mod.satCount + 1 } }.post 0x2301 arm [b]
  let s := if p.satPos && !flag s.mod.satPos arm then bump s 0x01 else s
  if p.satNeg && !flag s.mod.satNeg arm then bump s 0xFF else s

/-- The last edge of a cell has one entry alone: it began in BLOCK, or replaced a pending entry. -/
def Cell.oneEntry (x : Cell) : Bool := x.prev == .block || x.prevPend.isSome
/-- The first entry of a cell's last edge has not been sent (R113): it waits in the queue, or is still pending. -/
def Lane.edgeUnsent (l : Lane) (x : Cell) (c : Nat) : Bool :=
  x.onlyPends || l.queue.any fun e => e.cell == c && (if x.prevPend.isSome then e.state != .block else e.state == .block || x.prev == .block)

/-- Take what waits of a cell's last edge out of a list of waiting entries: the cell's newest entry, and where that has opened a dead time
those behind its newest BLOCK entry. The list is given newest first. -/
def dropLast (c : Nat) (single : Bool) : List Entry → List Entry
  | [] => []
  | e :: es => if e.cell = c then if single || e.state = .block then es else dropLast c single es else e :: dropLast c single es

/-- The queue of lane `n` without what waits of the last edges of some cells. -/
def State.purgeQueue (s : State) (cells : List Nat) (n : Nat) (q : List Entry) : List Entry :=
  (cells.filter fun c => c / 64 = n).foldl (fun q c => (dropLast c (s.cell c).oneEntry q.reverse).reverse) q

/-- Work on one cell, `x` at its number `c`, at the edge. -/
def State.runCell (s : State) (first tripped : Nat) (plans : List ArmPlan) (x : Cell) (c : Nat) : CellRun :=
  let lane := s.lane (c / 64)
  let r : CellRun := { x := x, unsent := lane.edgeUnsent x c }
  let dt := units10ns (s.cfgN Obj.DEAD_TIME)
  let mp := units10ns (s.cfgN Obj.MIN_PULSE)
  match s.fixedState tripped c with
  | some st => r.edges c dt mp first [{ at_ := first, dest := st, mode := false }]
  | none =>
    let es := match plans.getD (s.cellArm c) { ins := ⟨[], false⟩ } with
      | p => ((p.edges.find? fun q => q.1 == c).map (·.2)).getD [{ at_ := first, dest := .bypass, mode := true }]
    r.edges c dt mp first es

/-- Store the plans: inserted sets, flags, hybrid cells and duties. -/
def State.storePlans (s : State) (plans : List ArmPlan) : State :=
  let s := (List.range 6).foldl (fun s j => s.satEvents j (plans.getD j { ins := ⟨[], false⟩ })) s
  let s := plans.foldl (fun s p => p.duties.foldl (fun s q => s.setCell q.1 fun x => { x with duty := q.2 }) s) s
  { s with mod := { s.mod with
      inserted := plans.map (·.ins.cells), negative := plans.map (·.ins.neg), nIns := plans.map (·.nIns),
      satPos := plans.map (·.satPos), satNeg := plans.map (·.satNeg), hybCell := plans.map (·.hyb), hybF := plans.map (·.hybF),
      reload := false } }

/-- MOD_FLAGS (R130). -/
def State.modFlags (s : State) : Nat :=
  bitsNat s.mod.satPos + 2 ^ 8 * bitsNat s.mod.satNeg + 2 ^ 16 * b2n (s.trips.latch.any id) + 2 ^ 17 * b2n s.modDisabled

/-- What the modulator computes at a tick edge: the cells' new records and, in cell order, the entries for the lanes. -/
def State.modulate (s : State) : State × List Entry :=
  let first := (s.tick.now + 1) * tickUnits
  let s := { s with mod := { s.mod with dir := s.directions } }
  let tripped := s.trippedArms
  let plans := (List.range 6).map fun j =>
    if s.modulating && !tripped.testBit j then s.planArm first j else { ins := ⟨[], false⟩ }
  let runs := s.cells.zipIdx.map fun (p : Cell × Nat) => s.runCell first tripped plans p.1 p.2
  let purged := ((List.range s.cells.length).zip runs).filter fun (p : Nat × CellRun) => p.2.purge
  let drops : Nat := (runs.map fun (r : CellRun) => r.drops).sum
  let s := s.storePlans plans
  let s := { s with
    cells := (s.cells.zip runs).map fun (p : Cell × CellRun) => { p.2.x with duty := if s.modulating then p.1.duty else 0 }
    lanes := s.lanes.mapIdx fun n (l : Lane) => { l with queue := s.purgeQueue (purged.map fun (p : Nat × CellRun) => p.1) n l.queue }
    mod := { s.mod with dropCount := s.mod.dropCount + drops, dropRos := s.mod.dropRos || 0 < drops,
                        refPrev := (List.range 6).map s.armRef }
    free := s.free + 6 }
  let s := if 0 < drops then s.condEvent 60 else s
  let s := (s.setSigN 0x084 s.modFlags).setSigs 0x085 ((List.range 6).map fun j => BitVec.ofInt 32 ((s.mod.nIns.getD j 0) % 2 ^ 16))
  let out := (runs.map (·.out)).flatten
  (s, if s.conv.state = .pr then [] else out)

end Sys2Proof.Machine
end

