-- ==== Sys2Proof/Machine/Lanes.lean ====
section
/-!
DEFINITION. The lanes (R114, R124, R134 to R158): states, the downlink frame and its change list, spill, the block command, the
uplink frame with its reports and status, and the delay measurement. Times on a lane are in eighth-bits (R135).
-/
namespace Sys2Proof.Machine

/-- Eighth-bits of one tick and of one block (R135). -/
def tickEighths : Nat := 20625
def blockEighths : Nat := 528
/-- 47.6 ns after the edge, in eighth-bits (R136). -/
def sofEarliest : Nat := 3927
/-- 100 ns in eighth-bits (R141). -/
def delayMargin : Nat := 8250

/-- Code of LANE_STATE (R157). -/
def LaneState.code : LaneState → Nat
  | .off => 0 | .seek => 1 | .sync => 2 | .up => 3 | .parked => 4 | .keepalive => 5 | .fault => 6

/-- A downlink frame is sent in every tick (R136, R152). -/
def LaneState.sends : LaneState → Bool
  | .seek | .sync | .up | .parked | .fault => true
  | _ => false
/-- Entries are sent (R152). -/
def LaneState.carries : LaneState → Bool
  | .seek | .sync | .up | .parked => true
  | _ => false
/-- KIND of the downlink frame (R137). -/
def LaneState.kind : LaneState → Nat
  | .up | .parked => 0 | .keepalive => 2 | _ => 1

/-! ### State changes (R152) -/

/-- Move a lane to a state, with the reason of a FAULT; logged, and counted at an exit from UP. -/
def State.laneTo (s : State) (l : Nat) (st : LaneState) (reason : Nat) : State :=
  let old := (s.lane l).state
  if old = st then s
  else
    let s := s.setLane l fun x =>
      { x with
        state := st, reason := reason, missRun := 0, identRun := 0,
        setN := 0, setSum := 0, far := 0, failedSets := 0,
        downCount := if old = .up then x.downCount + 1 else x.downCount,
        queue := if st.carries then x.queue else [] }
    let s := if st = .up then s.laneAges l else s
    let s := if old = .up then s.condEvent 53 else s
    s.post 0x2401 l [BitVec.ofNat 8 st.code, BitVec.ofNat 8 reason]

/-- A lane leaves OFF when it is enabled, has cells and the module is in S0, or W4 of its wake has begun (R152, R381). -/
def State.laneAdmit (s : State) (l : Nat) : State :=
  if (s.lane l).state = .off && s.cfgB (Obj.LANE_EN + l) && 0 < s.laneCells l && (s.pwr.state = .s0 || s.wokenTo 5) then s.laneTo l .seek 0 else s

/-- Every lane that may leave OFF does. -/
def State.lanesAdmit (s : State) : State := (List.range 48).foldl State.laneAdmit s

/-- The converter blocks: parked lanes go off when it enters IDLE, READY or PR. -/
def State.parkedOff (s : State) : State :=
  (List.range 48).foldl (fun s l => if (s.lane l).state = .parked then s.laneTo l .off 0 else s) s

/-- The converter is in a state in which its cells are blocked (IDLE, READY, PR). -/
def convBlocked : ConvState → Bool
  | .idle | .ready | .pr => true
  | _ => false

/-- LANE_EN has been written (R152). -/
def State.laneEnabled (s : State) (l : Nat) (on : Bool) : State :=
  match (s.lane l).state with
  | .up => if on then s else if convBlocked s.conv.state then s.laneTo l .off 0 else s.laneTo l .parked 0
  | .parked => if on then s.laneTo l .up 0 else s
  | .seek | .sync => if !on && convBlocked s.conv.state then s.laneTo l .off 0 else s
  | .fault => if on then s else s.laneTo l .off 0
  | .off => s.laneAdmit l
  | .keepalive => s

/-- CELL_COUNT of a lane has been written (R152, R157): 0 takes it off. In PARKED, KEEPALIVE and FAULT it changes no state, the model's choice
(log entry 60). -/
def State.laneCounted (s : State) (l : Nat) : State :=
  if s.laneCells l = 0 then
    match (s.lane l).state with
    | .up | .seek | .sync => s.laneTo l .off 0
    | _ => s
  else s.laneAdmit l

/-! ### The block command (R124, R143) -/

/-- Discard what waits for a cell and record it as blocked. -/
def Cell.blocked (x : Cell) : Cell := { x with cmd := .block, pend := none, since := 0, prev := .block, prevSince := 0, prevPend := none }

/-- Control block types (R134). -/
def tyIdle : Byte := 0x1E
def tySof : Byte := 0x2D
def tyEof : Byte := 0x4B
def tyBlk : Byte := 0x87

/-- A control and a data block. -/
def controlBlock (ty : Byte) (payload : Nat) : LaneBlock := ⟨0b10, ty, BitVec.ofNat 64 payload⟩
def dataBlock (payload : Nat) : LaneBlock := ⟨0b01, 0, BitVec.ofNat 64 payload⟩

/-- The BLK block of a lane (R143). -/
def blkBlock (l : Nat) : LaneBlock := controlBlock tyBlk (l * 2 ^ 50 + (63 - l) * 2 ^ 44 + 0x5A5A5A5A5A5)

/-- The block command of a lane: three BLK blocks (R143). -/
def blockCommand (l : Nat) : List LaneBlock := List.replicate 3 (blkBlock l)

/-- Send the block command on one lane and discard its unsent entries: the frame in progress ends at the next block boundary, where is free
(log entry 3), and the command follows. In the gap of a dark test it waits for the light (R302). None goes out on a lane that sends no frames by
R152, KEEPALIVE among them (log entry 60). -/
def State.blockLane (s : State) (l : Nat) : State :=
  let dark := s.mod.gap ≠ 0
  let s := s.setLane l fun x =>
    { x with wire := if x.state.sends && !dark then x.wire.take (Config.blocksSent s.free) ++ blockCommand l else x.wire
             blkHeld := x.blkHeld || (x.state.sends && dark), queue := [] }
  { s with cells := s.cells.mapIdx fun c x => if c / 64 = l then x.blocked else x }

/-- Send it on every lane of the arms of a mask. -/
def State.blockArms (s : State) (mask : Nat) : State :=
  ((List.range 48).foldl (fun s l => if s.laneArm l < 6 && mask.testBit (s.laneArm l) then s.blockLane l else s) s).fresh

/-- Send it on every lane (R127). -/
def State.blockAll (s : State) : State := ((List.range 48).foldl State.blockLane s).fresh

/-! ### Change lists and downlink frames (R114, R136 to R139) -/

/-- Order of entries in one execution tick: offset, then cell index (R114). -/
def entryBefore (a b : Entry) : Bool := a.offset < b.offset || (a.offset == b.offset && a.cell % 64 ≤ b.cell % 64)

/-- Insert an entry behind those that come before it; entries of one cell keep their order. -/
def insertEntry (e : Entry) : List Entry → List Entry
  | [] => [e]
  | x :: xs => if entryBefore x e then x :: insertEntry e xs else e :: x :: xs

/-- A lane's own entries of the execution tick in the order of R114. -/
def sortEntries (l : List Entry) : List Entry := l.foldl (fun acc e => insertEntry e acc) []

/-- Entries that one frame carries (R136). -/
def frameEntries : Nat := 16

/-- The instant of an entry. -/
def Entry.instant (e : Entry) : Nat := e.exec * tickUnits + e.offset

/-- An entry of the cell at the instant `t` moves by `d` (R113, R114): what is counted from its edge moves with it, and so does the entry pending
behind a BLOCK entry; `dt` is the dead time. -/
def Cell.moved (x : Cell) (t d dt : Nat) : Cell :=
  let later := fun (n : Nat) => if n ≠ 0 && (n = t || n + dt = t) then n + d else n
  let x := { x with since := later x.since, prevSince := later x.prevSince }
  if x.blockAt = t then { x with blockAt := t + d, pend := x.pend.map fun p => (p.1, p.2 + d) } else x

/-- Move the entries a frame does not carry to the next execution tick `next` (R114). `late` lists the cells whose BLOCK entry has moved, with the
delay: their later entries move by as much. A conducting entry that is its cell's last waits with the cell, where a new transition replaces it
(R112). -/
def State.spill (s : State) (l next : Nat) : List (Nat × Nat) → List Entry → State
  | _, [] => s
  | late, e :: es =>
    let dt := units10ns (s.cfgN Obj.DEAD_TIME)
    let s := { s with mod := { s.mod with spillCount := s.mod.spillCount + 1, spillRos := true } }.condEvent 59
    match late.find? fun p => p.1 == e.cell with
    | some (_, d) =>
      if e.state ≠ .block && !(es.any fun f => f.cell == e.cell) then
        (s.setCell e.cell fun x => { x with cmd := .block, pend := some (e.state, e.instant + d) }).spill l next late es
      else
        ((s.setLane l fun x => { x with queue := x.queue ++ [entryAt e.cell (e.instant + d) e.state] }).setCell e.cell
          (Cell.moved · e.instant d dt)).spill l next late es
    | none =>
      let d := next * tickUnits - e.instant
      ((s.setLane l fun x => { x with queue := x.queue ++ [{ e with exec := next, offset := 0 }] }).setCell e.cell
        (Cell.moved · e.instant d dt)).spill l next (if e.state = .block then (e.cell, d) :: late else late) es

/-- SOF payload (R137). -/
def DownFrame.sof (f : DownFrame) : Nat :=
  f.lane * 2 ^ 50 + f.kind * 2 ^ 48 + b2n f.crown * 2 ^ 47 + f.entries.length * 2 ^ 42 + f.trainAddr * 2 ^ 37
/-- Lane configuration block. -/
def DownFrame.config (f : DownFrame) : Nat :=
  f.cellCount * 2 ^ 57 + f.cellType * 2 ^ 56 + f.deadTime * 2 ^ 45 + f.lofTicks * 2 ^ 38 + f.execDelay * 2 ^ 29
/-- Lane timing block. -/
def DownFrame.timing (f : DownFrame) : Nat := f.sofPhase * 2 ^ 49 + f.laneDelay % 2 ^ 24 * 2 ^ 25
/-- Code of a cell state in an entry (R138). -/
def cellCode : CellState → Nat
  | .block => 0 | .bypass => 1 | .insertPos => 2 | .insertNeg => 3
/-- An entry word (R138). -/
def Entry.word (e : Entry) : Nat := 2 ^ 31 + e.cell % 64 * 2 ^ 25 + cellCode e.state * 2 ^ 23 + e.offset % 2048 * 2 ^ 12
/-- Entry words two a block, the last padded with a word whose V is 0. -/
def entryBlocks : List Nat → List Nat
  | a :: b :: l => (a * 2 ^ 32 + b) :: entryBlocks l
  | [a] => [a * 2 ^ 32]
  | [] => []
/-- Data blocks of a frame, in order (R136). -/
def DownFrame.blocks (f : DownFrame) : List Nat := [f.execTick % 2 ^ 64, f.config, f.timing] ++ entryBlocks (f.entries.map Entry.word)
/-- Frame check (R139). -/
def DownFrame.check (f : DownFrame) : Word := crc32c 0xFFFFFFFF (beBytes 7 f.sof ++ f.blocks.flatMap (beBytes 8))
/-- EOF payload (R139). -/
def DownFrame.eof (f : DownFrame) : Nat := f.crc.toNat * 2 ^ 24 + f.entries.length * 2 ^ 19
/-- The blocks of a frame on the lane (R134, R136). -/
def DownFrame.wire (f : DownFrame) : List LaneBlock := [controlBlock tySof f.sof] ++ f.blocks.map dataBlock ++ [controlBlock tyEof f.eof]

/-- SOF_PHASE at edge m: the first block boundary at least 47.6 ns after it (R136). A boundary coincides with one edge of every 16 (R134),
which one is free (log entry 3). -/
def sofPhase (m : Nat) : Nat :=
  let edge := Config.blockPhase % 16
  sofEarliest + (tickEighths * edge + (tickEighths * m + sofEarliest) * (blockEighths - 1)) % blockEighths

/-- The frame a lane sends at edge m with given entries. -/
def State.downFrame (s : State) (l : Nat) (es : List Entry) : DownFrame :=
  let x := s.lane l
  let f : DownFrame := {
    lane := l, kind := x.state.kind, crown := s.pair.crown, trainAddr := s.train.addr, execTick := s.tick.now + 1,
    cellCount := s.laneCells l, cellType := s.cfgN (Obj.CELL_TYPE + l), deadTime := s.cfgN Obj.DEAD_TIME,
    lofTicks := s.cfgN Obj.LOF_TICKS, execDelay := s.cfgN Obj.EXEC_DELAY, sofPhase := sofPhase s.tick.now,
    laneDelay := x.delay.toNat, entries := es, crc := 0 }
  { f with crc := f.check }

/-- The lane sends a frame at this edge: none in the gap of a test (R150), in KEEPALIVE one a superframe (R155). -/
def State.framesNow (s : State) (x : Lane) : Bool :=
  s.mod.gap = 0 && (x.state.sends || (x.state = .keepalive && s.tick.now % 16 = 0))

/-- The entries of an execution tick: those that have moved to its start, in their order, then the others by R114. -/
def inOrder (queue own : List Entry) : List Entry :=
  (queue.filter fun e => e.offset = 0) ++ sortEntries ((queue.filter fun e => e.offset ≠ 0) ++ own)

/-- Frame one lane at the edge: its waiting entries with its own, as many as the frame carries; the rest spill. A block command that waited for
the light goes first. -/
def State.frameLane (s : State) (l : Nat) (own : List Entry) : State :=
  let x := s.lane l
  let all := if x.state.carries then inOrder x.queue own else []
  let n := if s.framesNow x then frameEntries else 0
  let tx := if s.framesNow x then some (s.downFrame l (all.take n)) else none
  (s.setLane l fun y => { y with queue := [], tx := tx, wire := (if y.blkHeld && s.mod.gap = 0 then blockCommand l else []) ++ (tx.map DownFrame.wire).getD [], blkHeld := y.blkHeld && s.mod.gap ≠ 0 }).spill l (s.tick.now + 2) [] (all.drop n)

/-- Frame every lane with the entries of the modulator. -/
def State.frameLanes (s : State) (out : List Entry) : State :=
  let s := (List.range 48).foldl (fun s l => s.frameLane l (out.filter fun e => e.cell / 64 = l)) s
  { s with mod := { s.mod with gap := s.mod.gap - 1 } }

/-- Count the ticks without a valid uplink frame (R152, R157; log entry 60), and those in a row whatever the lane's state (R335). -/
def Lane.tickEdge (x : Lane) : Lane :=
  let x := { x with grace := x.grace - 1 }
  if x.state = .off || x.state = .keepalive then { x with rxThisTick := false, silent := 0 }
  else if x.rxThisTick then { x with rxThisTick := false, missRun := 0, silent := 0 }
  else { x with missRun := x.missRun + 1, silent := x.silent + 1, rxMiss := x.rxMiss + 1, identRun := 0 }

/-! ### Uplink frames (R134, R142, R144 to R148, R154) -/

/-- A block error: an invalid sync header or an undefined type (R134). -/
def blockBad (b : LaneBlock) : Bool :=
  if b.sync = 0b01 then false else b.sync ≠ 0b10 || !([tyIdle, tySof, tyEof, tyBlk].contains b.ty)
/-- A data block, and a control block of a type. -/
def blockIsData (b : LaneBlock) : Bool := b.sync = 0b01
def blockIsControl (b : LaneBlock) (ty : Byte) : Bool := b.sync = 0b10 && b.ty = ty
/-- Bytes of a payload that the frame check takes in. -/
def blockBytes (b : LaneBlock) : List Byte := if blockIsData b then beBytes 8 b.payload.toNat else beBytes 7 b.payload.toNat

/-- The body of an uplink frame of a kind (R144, R147): two report words in a block; that the report of the lower cell stands in [63:32] is the
model's choice (log entry 60). -/
def uplinkBody : Nat → List DWord → Option UplinkBody
  | 0, [a, b] => some (.telem ([a, b].flatMap fun (w : DWord) => [(w >>> 32).setWidth 32, w.setWidth 32]))
  | 1, [a, b] => some (.ident a b)
  | 2, [] => some .keepalive
  | _, _ => none

/-- Read an uplink frame from its blocks (R139, R144): SOF, tick number, status, body and EOF, with a check that agrees; none where
anything is wrong. -/
def readUplink (bs : List LaneBlock) : Option UplinkFrame :=
  match bs with
  | sof :: n :: st :: rest =>
    match rest.reverse with
    | eof :: body =>
      let blocks := [n, st] ++ body.reverse
      if blockIsControl sof tySof && blockIsControl eof tyEof && blocks.all blockIsData &&
          eof.payload.toNat / 2 ^ 24 % 2 ^ 32 = (crc32c 0xFFFFFFFF ((sof :: blocks).flatMap blockBytes)).toNat then
        (uplinkBody (DWord.bits sof.payload 49 48) (body.reverse.map (·.payload))).map fun b =>
          ⟨BitVec.ofNat 6 (DWord.bits sof.payload 55 50), n.payload, st.payload, b⟩
      else none
    | [] => none
  | _ => none

/-- Add the difference of a wrapping count of the cluster unit (R146). -/
def wrapDiff (new old hi lo : Nat) : Nat := (new / 2 ^ lo % 2 ^ (hi + 1 - lo) + 256 - old / 2 ^ lo % 2 ^ (hi + 1 - lo)) % 256

/-- Take in the status word of a frame: the counts and the sticky bits. A lane is a shadow lane from the report that its cluster unit follows the
partner's input, valid and crowned, until one that the unit has left that input (R332, R339). -/
def Lane.takeStatus (x : Lane) (w : DWord) : Lane :=
  let d := fun hi lo => if x.heard then wrapDiff w.toNat x.status.toNat hi lo else 0
  { x with
    status := w, heard := true, shadow := if otherCrowned w then followsCode w = 2 else x.shadow && followsCode w ≠ 1, cuCrc := x.cuCrc + d 17 10, cuDtg := x.cuDtg + d 25 18, cuLate := x.cuLate + d 33 26,
    dtgRos := x.dtgRos || 0 < d 25 18, lateRos := x.lateRos || 0 < d 33 26, conflictRos := x.conflictRos || statusConflict w }

/-- Whether the cluster unit follows this module (R152, R154): one entry per episode in which it follows the other input or
reports a conflict while this module drives; its cells then wait for a report that says what they are. -/
def State.laneFollow (s : State) (l : Nat) (w : DWord) : State :=
  let f := followsCode w
  let x := s.lane l
  let bad := (f = 2 || statusConflict w) && s.pair.role ≠ .standby && x.grace = 0
  let s' := s.setLane l fun x => { x with notFollow := f ≠ 1 || statusConflict w, nfEpisode := bad }
  let s' := if bad then { s' with cells := s'.cells.mapIdx fun c y => if c / 64 = l then { y with take := true } else y } else s'
  if bad && !x.nfEpisode then s'.post 0x2403 l [BitVec.ofNat 8 f] else s'

/-- The measurement 2d of a frame of lane `l`, in eighth-bits (R142): it arrives `arrival` eighth-bits after the edge of the present tick. -/
def State.twoDelay (s : State) (l arrival : Nat) (f : UplinkFrame) : Int :=
  tickEighths * ((s.tick.now : Int) - f.tick.toNat) + arrival - DWord.bits f.status 63 49 - Config.laneLatency l

/-- Units of the delay filter to an eighth-bit. -/
def filtUnits : Int := 2 ^ 16
/-- The filter of R142 takes in a measurement 2d; its coefficient is free (log entry 14). -/
def filterDelay (filt twoD : Int) : Int := filt + floorDiv ((twoD * filtUnits - 2 * filt) * (1 + Config.delayFilter % 2 ^ 16 : Nat)) (2 * filtUnits)

/-- Take a delay measurement (R142); in UP the frame of n mod 16 = 0 judges the step and the distance (log entry 14). -/
def Lane.measure (x : Lane) (f : UplinkFrame) (twoD : Int) : Lane :=
  match x.state with
  | .sync =>
    if x.setN < 256 then
      { x with setN := x.setN + 1, setSum := x.setSum + twoD,
               setMin := if x.setN = 0 then twoD else min x.setMin twoD,
               setMax := if x.setN = 0 then twoD else max x.setMax twoD }
    else x
  | .up =>
    let x := { x with filt := filterDelay x.filt twoD }
    if f.tick.toNat % 16 = 0 then
      let dev := x.filt - x.delay * filtUnits
      { x with delay := x.delay + clampInt (-1) 1 (roundDiv dev filtUnits), far := if 64 * filtUnits < |dev| then x.far + 1 else 0 }
    else x
  | _ => x

/-- Mark a cell for retirement at the next edge (R100). -/
def State.markRetire (s : State) (c : Nat) (r : RetireReason) : State :=
  s.setCell c fun x => if x.retired.isSome || x.retiring.isSome then x else { x with retiring := some r }

/-- State of a report's APPLIED field. -/
def appliedState (w : Word) : CellState :=
  match w.toNat / 2 ^ 24 % 4 with | 0 => .block | 1 => .bypass | 2 => .insertPos | _ => .insertNeg

/-- One report word in slot `i` of a lane (R147). A report with FAULT and BYPASSED gives the reason FAULT (log entry 53), and none of its
voltage is applied (R108). -/
def State.report (s : State) (l i : Nat) (w : Word) : State :=
  let c := l * 64 + i
  let named := w.toNat / 2 ^ 26
  let slotErr := s.post 0x2404 l [BitVec.ofNat 8 i, BitVec.ofNat 8 named]
  if s.laneCells l ≤ i then if w = 0 then s else slotErr
  else if named ≠ i then slotErr
  else
    let mismatch := w.getLsbD 4 != s.laneFb l
    let s := if mismatch then s.setLane l fun x => { x with typeRos := true } else s
    let fault := w.getLsbD 6 || mismatch
    let s := if fault then s.markRetire c .fault else if w.getLsbD 5 then s.markRetire c .bypassed else s
    if !w.getLsbD 7 || fault then s
    else
      let s := s.setCell c fun x =>
        let x := { x with applied := appliedState w }
        if x.take && !(s.lane l).notFollow then { x with take := false, cmd := appliedState w, wish := appliedState w, pend := none, since := 0 } else x
      s.applyReport c (w.toNat / 2 ^ 8 % 2 ^ 16)

/-- The reports of a TELEM frame: slots 4k to 4k+3 with k = n mod 16, taken in slot order, each cell moved before the next report is taken
(log entry 53). -/
def State.reports (s : State) (l : Nat) (n : DWord) (ws : List Word) : State :=
  (ws.zipIdx).foldl (fun s p => s.report l (4 * (n.toNat % 16) + p.2) p.1) s

/-- Identity words of an IDENT frame (R147). -/
def Lane.identify (x : Lane) (w1 w2 : DWord) : Lane :=
  { x with product := DWord.bits w1 63 32, serial := DWord.bits w1 31 0, maxCells := DWord.bits w2 63 57,
           maxExec := DWord.bits w2 56 48, hbOk := w2.getLsbD 47, fbOk := w2.getLsbD 46, identRun := x.identRun + 1 }

/-- A valid uplink frame (R142 to R154). Of a frame that names another lane while this one is PARKED, in FAULT or in KEEPALIVE the reports are
dropped and the status is taken: the model's choice (log entry 60). -/
def State.uplink (s : State) (l arrival : Nat) (f : UplinkFrame) : State :=
  if (s.lane l).state = .off then s
  else
    let s := s.setLane l fun x => { x with rxThisTick := true, missRun := 0, silent := 0 }
    let st := (s.lane l).state
    let crossed := f.laneField.toNat ≠ l && (match f.body with | .keepalive => false | _ => true)
    if crossed && (st = .seek || st = .sync || st = .up) then s.laneTo l .fault 2
    else
      let s := (s.setLane l fun x => (x.takeStatus f.status).measure f (s.twoDelay l arrival f)).laneFollow l f.status
      match f.body with
      | .ident w1 w2 =>
        let s := s.setLane l (Lane.identify · w1 w2)
        if st = .seek && 16 ≤ (s.lane l).identRun then s.laneTo l .sync 0 else s
      | .telem ws =>
        let s := s.setLane l fun x => { x with identRun := 0 }
        if crossed then s else s.reports l f.tick ws
      | .keepalive => s.setLane l fun x => { x with identRun := 0 }

/-- What arrives as an uplink frame on a lane that listens: block errors are counted, and a frame that fails its check is counted and
discarded (R139, R157); so is one whose KIND or block count is none of R144's (log entry 60). -/
def State.uplinkBlocks (s : State) (l arrival : Nat) (bs : List LaneBlock) : State :=
  if (s.lane l).state = .off then s
  else
    let errors := (bs.filter blockBad).length
    let s := s.setLane l fun x => { x with rxSync := x.rxSync + errors }
    match readUplink bs with
    | some f => s.uplink l arrival f
    | none => s.setLane l fun x => { x with rxCrc := x.rxCrc + 1, identRun := 0 }

/-- A set of 256 measurements is complete (R142, R152): the lane comes up, fails a condition, or starts another set. R141 is judged here alone: a
lane in UP stays there when a later EXEC_DELAY or LANE_DELAY breaks it, the model's choice (log entry 60). -/
def State.delaySet (s : State) (l : Nat) : State :=
  let x := s.lane l
  if x.state ≠ .sync || x.setN < 256 then s
  else if 16 < x.setMax - x.setMin then
    if 16 ≤ x.failedSets + 1 then s.laneTo l .fault 5
    else s.setLane l fun x => { x with setN := 0, setSum := 0, failedSets := x.failedSets + 1 }
  else
    let d := roundDiv x.setSum 512
    let s := s.setLane l fun x => { x with delay := d, filt := d * filtUnits }
    if ((s.cfgN Obj.EXEC_DELAY * tickEighths : Nat) : Int) - delayMargin < d then s.laneTo l .fault 1
    else if x.maxCells < s.laneCells l || x.maxExec < s.cfgN Obj.EXEC_DELAY then s.laneTo l .fault 3
    else if !(if s.laneFb l then x.fbOk else x.hbOk) then s.laneTo l .fault 4
    else s.laneTo l .up 0

/-- No valid uplink frame for 64 consecutive ticks (R152). -/
def State.rxTimeout (s : State) (l : Nat) : State :=
  if (s.lane l).state = .up && 64 ≤ (s.lane l).missRun then s.laneTo l .seek 0 else s

/-- The filtered measurement has stayed more than 64 eighth-bits away for 16 superframes (R142). -/
def State.delayStep (s : State) (l : Nat) : State :=
  let x := s.lane l
  if x.state = .up && 16 ≤ x.far then
    (s.post 0x2402 l (beBytes 4 ((roundDiv x.filt filtUnits - x.delay) % 2 ^ 32).toNat)).laneTo l .sync 0
  else s

/-- The counters of a lane start again (R157). -/
def Lane.clearCounts (x : Lane) : Lane :=
  { x with rxCrc := 0, rxSync := 0, rxMiss := 0, cuCrc := 0, cuLate := 0, cuDtg := 0, downCount := 0 }

/-- LANE_DELAY in picoseconds (R157), to the nearest, half up (log entry 61). -/
def Lane.delayPs (x : Lane) : Nat := (roundDiv (x.delay * 250000) tickEighths).toNat

/-- LANES_UP (R157): up in the sense of R152 in either role. -/
def State.lanesUp (s : State) : Nat := bitsNat ((List.range 48).map fun l => (s.lane l).isUp)

end Sys2Proof.Machine
end

