-- ==== Sys2Proof/Machine/Engines.lean ====
section
/-!
DEFINITION. Which engines run the laws, the banks they run from, and the writing of an object with the table steps it is bound to
(R160, R163, R180 to R182, R197).
-/
namespace Sys2Proof.Machine

/-- The active bank and the inactive one. -/
def Esc.active (e : Esc) : Bank := if e.activeB then e.bankB else e.bankA
def Esc.inactive (e : Esc) : Bank := if e.activeB then e.bankA else e.bankB

/-- The physical engine that runs a logical one. -/
def Esc.phys (e : Esc) (n : Nat) : Nat := e.map.getD n n
/-- A physical engine. -/
def Esc.engine (e : Esc) (p : Nat) : Engine := e.engines.getD p {}

/-- A logical engine runs: its physical engine is in service (R192, R193). -/
def Esc.runs (e : Esc) (n : Nat) : Bool := !(e.engine (e.phys n)).failed

/-- The directory entry of a beat (R163). -/
def EngTable.entry (t : EngTable) (k : Nat) : Nat × Nat := t.dir.getD k (0, 0)
/-- The beat whose range holds a step. -/
def EngTable.beatOf (t : EngTable) (j : Nat) : Option Nat :=
  (List.range 4).find? fun b => decide ((t.entry b).1 ≤ j) && decide (j < (t.entry b).1 + (t.entry b).2)

/-- The beat in which a residue error stops a logical engine in this tick. -/
def State.stopBeat (s : State) (n : Nat) : Option Nat :=
  (s.esc.engine (s.esc.phys n)).stopAt.bind (s.esc.active.tables.getD n {}).beatOf

/-- A logical engine of the conventional layout carries its law of a beat: the active table implements the laws (R179, log entry 6) and the
engine runs, or an error stops it in a later beat of this tick (R192, log entry 54). -/
def State.live (s : State) (n k : Nat) : Bool :=
  s.esc.active.conforms && (s.esc.runs n || match s.stopBeat n with | some b => decide (k < b) | none => false)

/-! ### The states of the laws (R192) -/

/-- The states of the laws as they stand. -/
def State.lawStates (s : State) : LawStates :=
  { hands := s.hands.axes.map fun a => (a.x, a.v), setDw := s.set.dw, setDv := s.set.dv, iDcvl := s.loops.iDcvl,
    dw := s.bal.dw, pf := s.bal.pf, pdf := s.bal.pdf, qf := s.bal.qf, vsq := s.bal.vsq, iv := s.bal.iv,
    heat := s.fus.heat, i2 := s.fus.i2, i3 := s.fus.i3, iWs := s.loops.iWs, iWh := s.loops.iWh, iWv := s.loops.iWv,
    iCc := s.loops.iCc, res := s.loops.res }

/-- `m` with the states that a logical engine of the conventional layout holds taken from `x`. -/
def LawStates.take (m x : LawStates) (n : Nat) : LawStates :=
  match n with
  | 0 => { m with hands := x.hands, setDw := x.setDw, setDv := x.setDv, iDcvl := x.iDcvl }
  | 1 => { m with dw := x.dw, pf := x.pf, pdf := x.pdf, qf := x.qf }
  | 3 => { m with vsq := x.vsq, iv := x.iv }
  | 6 => { m with heat := x.heat }
  | 7 => { m with i2 := x.i2, i3 := x.i3 }
  | 8 => { m with iWs := x.iWs }
  | 9 => { m with iWh := x.iWh, iWv := x.iWv }
  | 10 => { m with iCc := x.iCc, res := x.res }
  | _ => m

/-- An axis at a mirrored set-point and rate; it goes on with a move that had not ended there. -/
def axisBack (a : Axis) (p : Int × Int) : Axis := if a.direct then a else { a with x := p.1, v := p.2, moving := a.moving || a.x ≠ p.1 }

/-- Put states of the laws in place. -/
def State.putLaws (s : State) (m : LawStates) : State :=
  { s with
    hands := { s.hands with axes := s.hands.axes.mapIdx fun i a => axisBack a (m.hands.getD i (a.x, a.v)) }
    set := { s.set with dw := m.setDw, dv := m.setDv }
    bal := { s.bal with dw := m.dw, pf := m.pf, pdf := m.pdf, qf := m.qf, vsq := m.vsq, iv := m.iv }
    fus := { s.fus with heat := m.heat, i2 := m.i2, i3 := m.i3 }
    loops := { iDcvl := m.iDcvl, iWs := m.iWs, iWh := m.iWh, iWv := m.iWv, iCc := m.iCc, res := m.res } }

/-- A spare takes the states of a logical engine from the mirror (R192). -/
def State.restoreLaws (s : State) (n : Nat) : State := s.putLaws (s.lawStates.take s.esc.lawMirror n)

/-- The active table is run step by step, not by the laws (log entry 6). -/
def State.interprets (s : State) : Bool := s.esc.active.loaded && !s.esc.active.conforms

/-- Put a step word into a table of a bank. -/
def Bank.setStep (b : Bank) (engine step : Nat) (w : DWord) : Bank :=
  { b with tables := modifyAt b.tables engine fun t => { t with steps := t.steps.set step w } }

/-- Rewrite the steps of a bank that are bound to an object (R180, R181). -/
def Bank.rebind (b : Bank) (s : State) (i : Nat) : Bank :=
  (b.binds.filter fun x => x.obj == i).foldl
    (fun b x => match derive s i x.sub with | some q => b.setStep x.engine x.step (constWord (quantize q)) | none => b) b

/-- Rewrite the bound steps of both banks for an object and those that take it in (R182). -/
def State.rebind (s : State) (i : Nat) : State :=
  (i :: coefOwners i).foldl
    (fun s j => { s with esc := { s.esc with bankA := s.esc.bankA.rebind s j, bankB := s.esc.bankB.rebind s j } }) s

/-- Put a value of an object in effect, with the table steps bound to it. -/
def State.putObj (s : State) (i : Nat) (v : Int) : State := (s.setCfg i v).rebind i

end Sys2Proof.Machine
end

