-- ==== Sys2Proof/Machine/Balance.lean ====
section
/-!
DEFINITION. The balance (R35 to R50) and the grid angle tracker (R51 to R55). A law takes `o`, the state at the start of its beat,
whose signals it reads (R23), and the present state, whose law states and signals it writes.
-/
namespace Sys2Proof.Machine

/-- The balance is released in RUN and SCS, held in every other state (R49, R50). -/
def State.released (s : State) : Bool := s.conv.state = .run || s.conv.state = .scs

/-- STEP_NOM (R42). -/
def State.stepNom (s : State) : Nat := if s.fNom = 60 then 276701161105643 else 230584300921369

/-- Phase steps of one tick at a frequency deviation in Q1.31, rounded to the nearest (R41). -/
def State.phaseStep (s : State) (dev : Int) : Int := roundDiv (s.stepNom * (2 ^ 31 + dev)) (2 ^ 31)

/-- Ticks of one nominal cycle (R51). -/
def State.nomCycle (s : State) : Nat := if s.fNom = 60 then 66667 else 80000

/-- θv and θg. -/
def State.thetaV (s : State) : Word := (s.bal.acc >>> 32).setWidth 32
def State.thetaG (s : State) : Word := (s.gt.theta >>> 32).setWidth 32

/-- The phase accumulator at a tick edge (R41): it adds its step and counts its turns. -/
def State.phaseEdge (s : State) : State :=
  let d := (s.phaseStep (s.sigI 0x043)).toNat
  let n := s.bal.acc.toNat + d
  let s := { s with bal := { s.bal with acc := BitVec.ofNat 64 n, lastStep := d },
                    sched := { s.sched with turnV := s.sched.turnV + n / 2 ^ 64 } }
  ((s.setSig 0x040 s.thetaV).setSig 0x041 (sinOut s.thetaV)).setSig 0x042 (cosOut s.thetaV)

/-! ### Grid angle tracker -/

/-- Squared magnitude of the grid voltage, per unit. -/
def State.gridSq (s : State) : Int := magSq (s.sig3 0x029 2)
/-- The magnitude is below GT_ABSENT_LEVEL; it is at or above that level and its hysteresis. -/
def State.gridLow (s : State) : Bool :=
  let l := s.cfgPu Obj.GT_ABSENT_LEVEL 10000
  decide (s.gridSq < mulPu l l)
def State.gridBack (s : State) : Bool :=
  let l := floorDiv ((s.cfg Obj.GT_ABSENT_LEVEL + s.cfg Obj.GT_RETURN_HYST) * pu) 10000
  decide (mulPu l l ≤ s.gridSq)

/-- Mean of a list of integers, 0 of none: where less than a nominal cycle has passed, the mean of R52 is that of what there is
(log entry 51). -/
def meanInt (l : List Int) : Int := if l.isEmpty then 0 else floorDiv l.sum l.length

/-- The loop's phase error (R51): the q component of the grid voltage in the frame of θg, as a part of its magnitude. Both are those of the
tick that ends at this edge. -/
def State.gtError (s : State) : Int :=
  let v := dq (s.sig3 0x029 2) (s.sigPu 0x045 1) (s.sigPu 0x046 1)
  divPu v.2 (sqrtPu (mulPu v.1 v.1 + mulPu v.2 v.2))

/-- The loop's damping ratio, per unit, between 1/4 and 4 (log entry 12). -/
def pllZeta : Int := clampInt (pu / 4) (4 * pu) Config.pllDamping
/-- Closed-loop bandwidth over natural frequency of a loop of second order with the damping ratio `z` (half-power point). -/
def pllRatio (z : Int) : Int :=
  let b := pu + 2 * mulPu z z
  sqrtPu (b + sqrtPu (mulPu b b + pu))
/-- Gains of the loop (R51): deviation per unit of error, and what one tick of error adds to the integrator, so that the closed loop has
the bandwidth GT_BW. -/
def State.pllKp (s : State) : Int := floorDiv (2 * pllZeta * (s.cfg Obj.GT_BW * pu)) (10 * s.fNom * pllRatio pllZeta)
def State.pllKi (s : State) : Int :=
  floorDiv (4 * halfPi * s.cfg Obj.GT_BW ^ 2 * pu) (400000000 * s.fNom * mulPu (pllRatio pllZeta) (pllRatio pllZeta))

/-- Frequency deviation in Q1.31 and angle at an edge, from those of the edge before (R51). -/
def State.gtStep (s : State) : Int × DWord :=
  let g := s.gt
  let at_ := fun dev => (dev, BitVec.ofInt 64 (g.theta.toNat + s.phaseStep dev))
  match g.state with
  | .locked => at_ (sat32 (floorDiv (g.pll + mulPu s.pllKp s.gtError) (2 ^ 29)))
  | .coasting => at_ g.frozen
  | .acquiring => at_ (if g.coasted then g.frozen else sat32 (Config.acqOmega g.draw))

/-- Angle and frequency at this edge; a fitted angle written since the last edge stands. The angle position counts every
change (R254). -/
def State.gtAngle (s : State) : State :=
  let g := s.gt
  if g.jumpEdge then
    { s with gt := { g with prev := g.jumpFrom, lastStep := g.jumpFwd, hist := (g.omega :: g.hist).take s.nomCycle, draw := g.draw + 1 } }
  else
    let r := s.gtStep
    let step : Int := (r.2 - g.theta).toInt
    { s with
      gt := { g with theta := r.2, prev := g.theta, lastStep := step, omega := r.1, hist := (r.1 :: g.hist).take s.nomCycle
                     pll := if g.state = .locked then g.pll + mulPu s.pllKi s.gtError else g.pll
                     fitMag := if g.state = .locked then (sqrtPu s.gridSq).toNat else g.fitMag
                     draw := g.draw + 1 }
      sched := { s.sched with turnG := s.sched.turnG + step } }

/-- Add one edge to the cycle in progress; `k` is its number in the cycle, `n` the ticks a cycle has, `step` the nominal rotation a tick,
`θ` and `mag` what the grid voltage signals give. Edges after the cycle add nothing. -/
def CycleFit.add (f : CycleFit) (k n step : Nat) (θ : Word) (mag : Int) : CycleFit :=
  if n ≤ k then f
  else
    let a := (BitVec.ofInt 64 ((θ.toNat : Int) * 2 ^ 32 - k * step - f.last)).toInt
    let psi := if k = 0 then a else f.last + a
    { last := psi, sum := (if k = 0 then 0 else f.sum) + psi, sumK := (if k = 0 then 0 else f.sumK) + k * psi
      sumMag := (if k = 0 then 0 else f.sumMag) + mag
      magMax := if k = 0 then mag else max f.magMax mag, magMin := if k = 0 then mag else min f.magMin mag }

/-- The level counters and the qualifying cycle at this edge. -/
def State.gtCounts (s : State) : State :=
  let g := s.gt
  let low := s.gridLow
  let watch := low && g.state ≠ .coasting
  let qual := g.state = .acquiring && s.gridBack
  let v := dq (s.sig3 0x029 2) 0 pu
  { s with gt := { g with
      absentTicks := if watch then g.absentTicks + 1 else 0
      meanAtFall := if watch && g.absentTicks = 0 then meanInt g.hist else g.meanAtFall
      qualTicks := if qual then g.qualTicks + 1 else 0
      fit := if qual then (if g.qualTicks = 0 then {} else g.fit).add g.qualTicks s.nomCycle s.stepNom (angleOf v.1 v.2) (sqrtPu s.gridSq) else g.fit } }

/-- GT_FLAGS (R44). -/
def Tracker.flags (g : Tracker) : Nat := b2n (g.state = .locked) + 2 * b2n (g.state = .coasting) + 4 * b2n g.jumpEdge

/-- The tracker at a tick edge. -/
def State.trackerEdge (s : State) : State :=
  let s := s.gtAngle.gtCounts
  let θ := s.thetaG
  let s := ((s.setSig 0x044 θ).setSig 0x045 (sinOut θ)).setSig 0x046 (cosOut θ)
  let s := (s.setSig 0x047 (satWord s.gt.omega)).setSigN 0x048 s.gt.flags
  let s := if s.gt.jumpEdge then s.condEvent 47 else s
  { s with gt := { s.gt with jumpEdge := false } }

/-- GT_COAST_START is due: the grid has stayed absent for GT_ABSENT_TIME (R52). -/
def State.coastDue (s : State) : Bool := s.gt.state ≠ .coasting && 4 * s.cfgN Obj.GT_ABSENT_TIME ≤ s.gt.absentTicks

/-- A qualifying cycle is complete. -/
def State.fitDue (s : State) : Bool := s.gt.state = .acquiring && s.nomCycle ≤ s.gt.qualTicks

/-- The line of least squares through the angles of `n` edges has this slope, as a fraction, in 2^-64 turn a tick beyond the nominal rotation. -/
def CycleFit.slope (f : CycleFit) (n : Int) : Int × Int :=
  (n * f.sumK - n * (n - 1) / 2 * f.sum, n * (n * (n - 1) * (2 * n - 1) / 6) - (n * (n - 1) / 2) ^ 2)
/-- Fitted frequency deviation in Q1.31, fitted magnitude, and fitted angle at the edge `j` after the cycle's first, `step` the nominal
rotation; `up`: rounded up. -/
def CycleFit.dev (f : CycleFit) (up : Bool) (n step : Nat) : Int := quotient up ((f.slope n).1 * 2 ^ 31) ((f.slope n).2 * step)
def CycleFit.mag (f : CycleFit) (up : Bool) (n : Nat) : Int := quotient up f.sumMag n
def CycleFit.angle (f : CycleFit) (up : Bool) (n step j : Nat) : DWord :=
  BitVec.ofInt 64 (quotient up (f.sum * (2 * (f.slope n).2) + n * (f.slope n).1 * (2 * (j : Int) - (n - 1))) (n * (2 * (f.slope n).2)) + j * step)

/-- The fit of a qualifying cycle passes (R53): its frequency lies inside FREQ_LIMIT, and the magnitude has varied by 10 % at most. -/
def State.fitPasses (s : State) : Bool :=
  let f := s.gt.fit
  let m := f.slope s.nomCycle
  decide (|m.1| * 1000 ≤ s.cfg Obj.FREQ_LIMIT * (m.2 * s.stepNom)) && decide (10 * (f.magMax - f.magMin) * s.nomCycle ≤ f.sumMag)

/-- The fitted angle for the edge to come; its grid voltage is that of the next edge but one. -/
def State.fitAngle (s : State) (up : Bool) : DWord := s.gt.fit.angle up s.nomCycle s.stepNom (s.gt.qualTicks + 1)

/-- The end of a qualifying cycle (R53): a pass writes the fitted angle and locks, with the jump recorded, all for the edge to come, whose
number the entry carries; otherwise another cycle. -/
def State.reacquire (s : State) (fit : FitRounding) : State :=
  if !s.fitDue then s
  else if !s.fitPasses then { s with gt := { s.gt with qualTicks := 0 } }
  else
    let g := s.gt
    let coasted : DWord := BitVec.ofInt 64 (g.theta.toNat + s.phaseStep g.omega)
    let dev := sat32 (g.fit.dev fit.dev s.nomCycle s.stepNom)
    let new := s.fitAngle fit.angle
    let jump := angDiff ((new >>> 32).setWidth 32) ((coasted >>> 32).setWidth 32)
    let s := { s with
      gt := { g with state := .locked, theta := new, omega := dev, pll := dev * 2 ^ 29, coasted := false, qualTicks := 0, absentTicks := 0
                     fitMag := (g.fit.mag fit.mag s.nomCycle).toNat, jumpLast := jump, jumpCount := g.jumpCount + 1,
                     jumpEdge := true, jumpRos := true, jumpFrom := g.theta, jumpFwd := (coasted - g.theta).toInt }
      sched := { s.sched with turnG := s.sched.turnG + (coasted - g.theta).toInt + (new - coasted).toInt } }
    s.postAt s.nextTick 0x2004 noInst (beBytes 4 (jump % 2 ^ 32).toNat)

/-! ### The laws -/

/-- The converter's voltage and current in the frame of θv. -/
def State.vdq (o : State) : Int × Int := dq (o.sig3 0x018 2) (o.sigPu 0x041 1) (o.sigPu 0x042 1)
def State.idq (o : State) : Int × Int := dq (o.sig3 0x021 2) (o.sigPu 0x041 1) (o.sigPu 0x042 1)

/-- A first-order filter step. -/
def filt (a x y : Int) : Int := y + mulPu a (x - y)

/-- OMEGA_DEV while the balance is held (R49). The frequency offset of setting is not added (log entry 51). -/
def State.heldOmega (o : State) : Int :=
  if o.cfgB Obj.PREALIGN && (o.sigW 0x048).getLsbD 0 then
    let c := floorDiv (turnsPu (angDiff (o.sigW 0x044) (o.sigW 0x040)) * 50) o.fNom
    o.sigPu 0x047 1 + clampInt (-(4 * pu / 1000)) (4 * pu / 1000) c
  else o.sigPu 0x093 1

/-- The power set-point the balance reads: HND_P + P_DCV (R90, R200). -/
def State.pSetEff (o : State) : Int := o.sigPu 0x090 2 + o.sigPu 0x07E 2

/-- The swing integrator's new dw64 in units of 2^-63, limited (R40, R45); the other quantities are per unit. -/
def swingStep (kH d pSet pf wDroop lim dw : Int) : Int :=
  clampInt (-(8 * lim)) (8 * lim) (dw + mulPu kH (8 * (pSet - pf) - mulPu d (dw - 8 * wDroop)))

/-- Enter or leave the frequency clamp (R45). -/
def State.freqClampTo (s : State) (on pos : Bool) : State :=
  let sign : List Byte := [if pos then 0x01 else 0xFF]
  if on && !s.bal.freqClamp then
    { s with bal := { s.bal with freqClamp := true, freqClampPos := pos, freqClampCount := s.bal.freqClampCount + 1 } }.post 0x2001 noInst sign
  else if !on && s.bal.freqClamp then
    { s with bal := { s.bal with freqClamp := false } }.post 0x2002 noInst [if s.bal.freqClampPos then 0x01 else 0xFF]
  else s

/-- Power measurement and swing (R40), or the held balance (R49). -/
def State.swing (o s : State) : State :=
  if !s.released then
    let w := o.heldOmega
    let p := o.sigPu 0x090 2
    { s with bal := { s.bal with dw := 8 * w, pf := p, pdf := p, qf := o.sigPu 0x091 2 } }.freqClampTo false true
  else
    let v := o.vdq
    let i := o.idq
    let pf := clampInt (-2 * pu) (2 * pu) (filt (s.co Obj.T_PMEAS 0) (mulPu v.1 i.1 + mulPu v.2 i.2) s.bal.pf)
    let qf := filt (s.co Obj.T_QMEAS 0) (mulPu v.2 i.1 - mulPu v.1 i.2) s.bal.qf
    let pdf := filt (s.co Obj.T_DROOP 0) pf s.bal.pdf
    let pSet := o.pSetEff
    let wDroop := o.sigPu 0x093 1 + o.sigPu 0x096 1 + mulPu (s.co Obj.DROOP_F 0) (pSet - pdf)
    let lim := s.co Obj.FREQ_LIMIT 0
    let dw := swingStep (s.co Obj.H 0) (s.co Obj.D 0) pSet pf wDroop lim s.bal.dw
    { s with bal := { s.bal with dw := dw, pf := pf, pdf := pdf, qf := qf } }.freqClampTo (dw = 8 * lim || dw = -(8 * lim)) (dw = 8 * lim)

/-- Write the swing's signals: OMEGA_DEV is the upper part of the 64-bit state (R40). -/
def State.swingSignals (s : State) : State :=
  ((s.setSig 0x043 (satWord (floorDiv s.bal.dw (2 ^ 32)))).setPu 0x049 2 s.bal.pf).setPu 0x04A 2 s.bal.qf

/-- The Q–V droop (R46), with the voltage offset of setting. It reads Q_MEAS as the last tick left it, since R23 gives the beat's old value
of a signal another engine writes in it (log entry 51). -/
def State.qvDroop (o s : State) : State :=
  { s with bal := { s.bal with
      vref := o.sigPu 0x094 2 + o.sigPu 0x097 2 - mulPu (s.co Obj.DROOP_Q 0) (o.sigPu 0x04A 2 - o.sigPu 0x091 2) } }

/-- The energisation ramp scales the EMF (R79): ENRG_S is below 1. -/
def State.ramping (o : State) : Bool := o.sigW 0x05E ≠ 0x7FFFFFFF
/-- The winner of the last selection is not slot 0 (R64). -/
def State.limiting (o : State) : Bool := o.sigN 0x05A % 8 ≠ 0

/-- The correction of the voltage loop and its integrator for this tick (R47, R49): preset while the balance is held. -/
def State.voltageIntegral (s : State) (vsq kp cm : Int) : Int :=
  let vMeas := sqrtPu vsq
  let aim := if vMeas < s.cfgPu Obj.GT_ABSENT_LEVEL 10000 then s.bal.vref else vMeas
  if s.cfg Obj.TI_V = 0 || cm = 0 then 0 else if s.released then s.bal.iv else clampInt (-cm) cm (aim - s.bal.vref) - kp

/-- The voltage loop (R47), frozen while the fusee limits (R64) and suppressed during the energisation ramp (R79). -/
def State.voltageLoop (o s : State) : State :=
  let v := o.vdq
  let b := s.bal
  let vsq := filt (s.co Obj.T_VMEAS 0) (mulPu v.1 v.1 + mulPu v.2 v.2) b.vsq
  let err := mulPu (mulPu b.vref b.vref - vsq) (s.co Obj.V_SET 1)
  let cm := s.co Obj.E_CORR_MAX 0
  let eMax := s.co Obj.E_MAX 0
  let kp := mulPu (s.co Obj.KP_V 0) err
  let ramp := o.ramping
  let iv := if ramp then 0 else s.voltageIntegral vsq kp cm
  let corr := if ramp then 0 else clampInt (-cm) cm (kp + iv)
  let e := clampInt 0 eMax (if ramp then mulPu (o.sigPu 0x05E 1) b.vref else b.vref + corr)
  let clamp := (!ramp && 0 < cm && (corr = cm || corr = -cm)) || e = 0 || e = eMax
  let go := s.released && !clamp && !ramp && !o.limiting && s.cfg Obj.TI_V ≠ 0 && cm ≠ 0
  let s := { s with bal := { b with vsq := vsq, iv := if go then iv + mulPu (s.co Obj.KP_V 1) err else iv, emag := e, eClamp := clamp } }
  (s.setPu 0x04B 4 vsq).setPu 0x04C 2 e

/-- The virtual admittance (R48): the demand of the voltage loop, and M0 from it (R61, R68). All three saturate at the 2 pu of their signals
(R44, R71): of a deeper fault than that k and the current differ from the section's worked one (log entry 61). -/
def State.admittance (o s : State) : State :=
  let v := o.vdq
  let dd := o.sigPu 0x04C 2 - v.1
  let dv := -v.2
  let g := s.co Obj.R_V 0
  let b := s.co Obj.R_V 1
  let d := mulPu g dd + mulPu b dv
  let q := mulPu g dv - mulPu b dd
  ((s.setPu 0x04D 2 d).setPu 0x04E 2 q).setPu 0x050 2 (sqrtPu (mulPu d d + mulPu q q))

/-- The clamps of a balance whose table is interpreted, as its signals show them at the end of the tick: OMEGA_DEV at ±FREQ_LIMIT, E_MAG at 0
or E_MAX (R45, R47; log entry 6). -/
def State.tableClamps (s : State) : State :=
  if s.interprets then
    let lim := s.co Obj.FREQ_LIMIT 0
    let up := s.released && s.sigW 0x043 = toQ31 1 lim
    let e := s.sigPu 0x04C 2
    { s with bal := { s.bal with eClamp := decide (e ≤ 0) || decide (s.co Obj.E_MAX 0 ≤ e) } }.freqClampTo
      (up || (s.released && s.sigW 0x043 = toQ31 1 (-lim))) up
  else s

/-- |θg − θv| is below 0.001 turn. -/
def State.nearGrid (s : State) : Bool := decide (|angDiff s.thetaG s.thetaV| * 1000 < 2 ^ 32)

/-- The balance is held on the grid: within 0.001 turn of it, and with PREALIGN on a LOCKED tracker (R49, R59, R60). -/
def State.preAligned (s : State) : Bool := !s.released && s.nearGrid && (!s.cfgB Obj.PREALIGN || s.gt.state = .locked)

/-- BAL_STATUS (R59). -/
def State.balStatus (s : State) : Nat :=
  b2n (!s.released) + 2 * b2n s.preAligned + 4 * b2n s.bal.freqClamp + 8 * b2n s.bal.eClamp +
    16 * b2n (s.gt.state = .locked) + 32 * b2n (s.gt.state = .coasting) + 64 * b2n s.gt.jumpRos + 128 * b2n (s.cfg Obj.D = 0)

/-- F_V and F_G in mHz (R57). -/
def State.fV (s : State) : Int := roundDiv (s.fNom * 1000 * (2 ^ 31 + s.sigI 0x043)) (2 ^ 31)
def State.fG (s : State) : Int := roundDiv (s.fNom * 1000 * (2 ^ 31 + s.gt.omega)) (2 ^ 31)

end Sys2Proof.Machine
end

