-- ==== Sys2Proof/Machine/Hands.lean ====
section
/-!
DEFINITION. The hands (R200 to R206), the limit inputs (R207 to R209) and setting (R210 to R213).
-/
namespace Sys2Proof.Machine

/-- Ticks of one millisecond and of one second (R3). -/
def ticksPerMs : Nat := 4000
def ticksPerSec : Int := 4000000

/-! ### Axes (R200) -/

/-- Target object, rate and acceleration limit of an axis, and the scale of its object: P, Q, VDC, F, V. -/
def axisTarget (a : Nat) : Nat := [Obj.P_SET, Obj.Q_SET, Obj.V_DC_SET, Obj.F_SET, Obj.V_SET].getD a 0
def axisRate (a : Nat) : Nat := [Obj.RATE_P, Obj.RATE_Q, Obj.RATE_VDC, Obj.RATE_F, Obj.RATE_V].getD a 0
def axisAcc (a : Nat) : Nat := [Obj.ACC_P, Obj.ACC_Q, Obj.ACC_VDC, Obj.ACC_F, Obj.ACC_V].getD a 0
/-- Units of the object in one unit of the axis's state: 0.0001 pu, or 1 mHz. -/
def axisUnit (a : Nat) : Int := if a = 3 then 1 else 10000

/-- An object value as an axis's state. -/
def axisOf (a : Nat) (v : Int) : Int := floorDiv (v * pu) (axisUnit a)
/-- An axis's state rounded to the unit of its object. -/
def axisRound (a : Nat) (x : Int) : Int := roundDiv (x * axisUnit a) pu

/-- The axis whose target an object is. -/
def targetAxis (i : Nat) : Option Nat := (List.range 5).find? fun a => axisTarget a == i

/-- One axis. -/
def State.axis (s : State) (a : Nat) : Axis := s.hands.axes.getD a {}
/-- Change one axis. -/
def State.setAxis (s : State) (a : Nat) (f : Axis → Axis) : State :=
  { s with hands := { s.hands with axes := modifyAt s.hands.axes a f } }
/-- The target, as an axis's state. -/
def State.axisT (s : State) (a : Nat) : Int := axisOf a (s.cfg (axisTarget a))

/-- HANDS_MOVE_END (R203, R207). -/
def State.moveEnd (s : State) (a reason : Nat) : State :=
  s.post 0x2502 a (beBytes 4 (s.axis a).moveId ++ [BitVec.ofNat 8 reason])

/-- A direct write of a target (R201): the axis goes to DIRECT, its set-point steps, and its move ends. -/
def State.axisDirect (s : State) (a : Nat) (v : Int) : State :=
  let s := if (s.axis a).moving then s.moveEnd a 1 else s
  s.setAxis a fun x => { x with direct := true, x := axisOf a v, v := 0, sigma := pu, moving := false, coord := false, stop := none }

/-- A direct write of an object by the module itself, as that of R77 and R57: in effect, with its axis in DIRECT. -/
def State.putDirect (s : State) (i : Nat) (v : Int) : State :=
  let s := s.putObj i v
  match targetAxis i with | some a => s.axisDirect a v | none => s

/-! ### Limit inputs (R207 to R209) -/

/-- Input n acts: active after its filter, or chatter-latched. -/
def State.limOn (s : State) (n : Nat) : Bool := flag s.lim.filtered n || flag s.lim.chatter n
/-- It acts on an axis (or, with bit 5, on setting). -/
def State.limOnAxis (s : State) (n a : Nat) : Bool := s.limOn n && (s.cfgN (Obj.LIM_AXES + n)).testBit a
/-- It holds an axis (R208): it acts, or its quiet time runs. -/
def State.limHolds (s : State) (n a : Nat) : Bool :=
  (s.limOn n || flag s.lim.quiet n) && (s.cfgN (Obj.LIM_AXES + n)).testBit a
/-- The first input that holds an axis. -/
def State.heldBy (s : State) (a : Nat) : Option Nat := (List.range 8).find? fun n => s.limHolds n a
/-- Inputs that stop an axis, hard ones first. -/
def State.stopper (s : State) (a : Nat) : Option (Nat × Bool) :=
  let hard := fun n => (s.cfgN Obj.LIM_MODE).testBit n
  match (List.range 8).find? fun n => s.limOnAxis n a && hard n with
  | some n => some (n, true)
  | none => ((List.range 8).find? fun n => s.limOnAxis n a).map fun n => (n, false)

/-- LIM_IN (R214). -/
def State.limIn (s : State) : Nat := bitsNat s.lim.filtered + 2 ^ 8 * bitsNat s.lim.chatter

/-- A write of LIM_CHAT_CLEAR may act (R209): the first named input that is active or in its quiet time. -/
def State.chatBusy (s : State) (bm : Nat) : Option Nat :=
  (List.range 8).find? fun n => bm.testBit n && (flag s.lim.filtered n || flag s.lim.quiet n)
/-- Clear the chatter latches of a bitmap. -/
def State.chatClear (s : State) (bm : Nat) : State :=
  { s with lim := { s.lim with chatter := s.lim.chatter.mapIdx fun n b => b && !bm.testBit n } }

/-! ### The trajectory law (R203) -/

/-- A per-unit value over the ticks of a second: v·Δt. -/
def perTick (x : Int) : Int := floorDiv x ticksPerSec

/-- Rate and acceleration limits in effect for an axis: with the scale σ of its move (R205). -/
def State.axisVm (s : State) (a : Nat) : Int := mulPu (s.axis a).sigma (axisOf a (s.cfg (axisRate a)))
def State.axisA (s : State) (a : Nat) : Int :=
  mulPu (mulPu (s.axis a).sigma (s.axis a).sigma) (axisOf a (s.cfg (axisAcc a)))

/-- The rate the law wants: toward the target, no faster than it can stop from. -/
def wantedRate (vm acc d : Int) : Int := (if d < 0 then -1 else if d = 0 then 0 else 1) * min vm (sqrtPu (2 * mulPu acc |d|))

/-- One tick of one axis in TRAJ: new set-point and rate, before the arrival rule. -/
def trajStep (x v vdes acc : Int) : Int × Int :=
  let vn := clampInt (v - perTick acc) (v + perTick acc) vdes
  (x + floorDiv (v + vn) (2 * ticksPerSec), vn)

/-- An axis that a limit input has brought to rest (R207). -/
def State.axisStopped (s : State) (a n : Nat) : State :=
  let r := axisRound a (s.axis a).x
  let s := s.putObj (axisTarget a) r
  let s := s.moveEnd a (0x10 + n)
  s.setAxis a fun x => { x with x := axisOf a r, v := 0, moving := false, coord := false, stop := none }

/-- The arrival rule, which a ramp stop tests too: within one unit of the target and no faster than one tick's change of rate. -/
def State.axisArrives (s : State) (a : Nat) (p : Int × Int) : Bool := decide (|s.axisT a - p.1| < axisOf a 1 ∧ |p.2| ≤ perTick (s.axisA a))
/-- An axis arrives. -/
def State.axisArrived (s : State) (a : Nat) : State :=
  (s.setAxis a fun x => { x with x := s.axisT a, v := 0, moving := false, coord := false, stop := none }).moveEnd a 0

/-- One axis in one tick. A stop that has begun goes on to rest, whatever its input does meanwhile (R207). -/
def State.axisTick (s : State) (a : Nat) : State :=
  let ax := s.axis a
  if ax.direct || !ax.moving then s
  else
    match (s.stopper a).or (ax.stop.map fun n => (n, false)) with
    | some (n, hard) =>
      let p := if hard then (ax.x, 0) else trajStep ax.x ax.v 0 (axisOf a (s.cfg (axisAcc a)))
      if !hard && s.axisArrives a p then s.axisArrived a
      else
        let s := s.setAxis a fun x => { x with x := p.1, v := p.2, stop := some n }
        if p.2 = 0 then s.axisStopped a n else s
    | none =>
      let acc := s.axisA a
      let p := trajStep ax.x ax.v (wantedRate (s.axisVm a) acc (s.axisT a - ax.x)) acc
      if s.axisArrives a p then s.axisArrived a else s.setAxis a fun x => { x with x := p.1, v := p.2 }

/-- Duration of a rest-to-rest move over `d` at rate `vm` and acceleration `acc`, in seconds of 2^-60 (R205). -/
def moveTime (vm acc d : Int) : Int :=
  let d := |d|
  if mulPu vm vm ≤ mulPu d acc then divPu d vm + divPu vm acc else 2 * sqrtPu (divPu d acc)

/-- Duration of a move over `d` that begins with the rate `v0`, in seconds of 2^-60 (R203, R204): rest first, and from there to the target,
when it lies behind the motion or within the stopping distance. -/
def planTime (vm acc v0 d : Int) : Int :=
  let w := |v0|
  let e := if v0 < 0 then -d else d
  let stop := divPu (mulPu w w) (2 * acc)
  if e < stop then divPu w acc + moveTime vm acc (stop - e)
  else if vm ≤ w then divPu w acc + divPu (e - stop) vm
  else
    let peak := sqrtPu (mulPu acc e + mulPu w w / 2)
    if peak ≤ vm then divPu (2 * peak - w) acc
    else divPu (2 * vm - w) acc + divPu (e - divPu (2 * mulPu vm vm - mulPu w w) (2 * acc)) vm

/-- HND_FLAGS (R214). -/
def State.handFlags (s : State) : Nat :=
  bitsNat (s.hands.axes.map (·.moving)) + 2 ^ 8 * bitsNat ((List.range 5).map fun a => (s.heldBy a).isSome) +
    2 ^ 16 * b2n s.set.active + 2 ^ 17 * b2n s.set.permit

/-- The hands in beat 0: every axis moves and the signals are written. HND_F is F/F_NOM − 1. -/
def State.handsBeat (s : State) : State :=
  let s := (List.range 5).foldl State.axisTick s
  let s := ((s.setPu 0x090 2 (s.axis 0).x).setPu 0x091 2 (s.axis 1).x).setPu 0x092 2 (s.axis 2).x
  let s := (s.setPu 0x093 1 (floorDiv (s.axis 3).x (s.fNom * 1000) - pu)).setPu 0x094 2 (s.axis 4).x
  s.setSigN 0x095 s.handFlags

/-! ### Setting -/

/-- The difference of a comparison is within tolerance. -/
def State.angleInTol (s : State) : Bool := decide (|angDiff s.thetaG s.thetaV| * 10000 ≤ s.cfg Obj.SET_ANG_TOL * 2 ^ 32)
def State.freqInTol (s : State) : Bool := decide (|s.fV - s.fG| ≤ s.cfg Obj.SET_FREQ_TOL)
/-- V_MEAS, or E_MAG while the balance is held (R211), from their signals. -/
def State.setVoltage (s : State) : Int := if s.released then sqrtPu (s.sigPu 0x04B 4) else s.sigPu 0x04C 2
def State.voltInTol (s : State) : Bool := decide (|(s.gt.fitMag : Int) - s.setVoltage| ≤ s.cfgPu Obj.SET_VOLT_TOL 10000)

/-- Withdraw the close permit (R211, R54). -/
def State.permitLost (s : State) : State :=
  if s.set.permit then
    { s with set := { s.set with permit := false, dwell := 0, permitLostRos := true } }.post 0x2508 noInst []
  else { s with set := { s.set with dwell := 0 } }

/-- Both setting offsets are 0: in the law's states, or in the signals of a table that the model interprets (log entry 6). -/
def State.offsetsAtRest (s : State) : Bool :=
  if s.interprets then s.sigW 0x096 = 0 && s.sigW 0x097 = 0 else s.set.dw = 0 && s.set.dv = 0

/-- Setting at a tick edge: it becomes active after its acceptance, and compares (R210, R211). -/
def State.settingEdge (s : State) : State :=
  let s := if s.set.starting then
      { s with set := { s.set with starting := false, active := true, permit := false, everPermit := false, dwell := 0,
                                   startTick := s.tick.now, releasing := false } }.post 0x2506 noInst []
    else s
  let s := { s with set := { s.set with releasing := s.set.releasing && !s.offsetsAtRest } }
  if !s.set.active then { s with set := { s.set with angleOk := false, freqOk := false, voltOk := false } }
  else
    let a := s.angleInTol
    let f := s.freqInTol
    let v := s.voltInTol
    let s := { s with set := { s.set with angleOk := a, freqOk := f, voltOk := v } }
    if a && f && v && s.gt.state = .locked then { s with set := { s.set with dwell := s.set.dwell + 1 } } else s.permitLost

/-- SET_PERMIT is due: in tolerance without a break for SET_DWELL. -/
def State.permitDue (s : State) : Bool :=
  s.set.active && !s.set.permit && decide (s.cfgN Obj.SET_DWELL * ticksPerMs < s.set.dwell)

/-- SET_TIMEOUT is due: no permit given within it (R213). -/
def State.setTimeoutDue (s : State) : Bool :=
  s.set.active && !s.set.everPermit && s.cfg Obj.SET_TIMEOUT ≠ 0 &&
    decide (s.set.startTick + s.cfgN Obj.SET_TIMEOUT * ticksPerMs ≤ s.tick.now)

/-- Setting is over: offsets that are not at 0 go back there (R213). -/
def Setting.ended (x : Setting) (rest : Bool) : Setting :=
  { x with active := false, starting := false, permit := false, dwell := 0, releasing := !rest }

/-- An abort with its reason (R213). -/
def State.setAbort (s : State) (reason : Nat) : State :=
  if s.set.active || s.set.starting then
    { s with set := { s.set.ended s.offsetsAtRest with abortReason := reason, abortCount := s.set.abortCount + 1, abortedRos := true } }.post 0x250A
      noInst [BitVec.ofNat 8 reason]
  else s

/-- The host reports the breaker closed. -/
def State.setClosed (s : State) : State := { s with set := s.set.ended s.offsetsAtRest }.post 0x2509 noInst []

/-- Move a quantity to 0 in a straight line. -/
def towardZero (step x : Int) : Int := if |x| ≤ step then 0 else if 0 < x then x - step else x + step

/-- The offsets in beat 0 (R212, R213). -/
def State.settingBeat (o s : State) : State :=
  let f := s.fNom
  let x := s.set
  let x : Setting :=
    if x.active then
      if s.conv.state = .run then
        let slip := s.cfgPu Obj.SET_SLIP_MAX 10000
        let a := floorDiv (turnsPu (angDiff (o.sigW 0x044) (o.sigW 0x040)) * 1000) (s.cfg Obj.SET_TAU * f)
        let w := o.sigPu 0x047 1 + clampInt (-slip) slip a
        let fm := s.cfgPu Obj.SET_F_MAX 10000
        let vm := s.cfgPu Obj.SET_V_MAX 10000
        { x with
          dw := clampInt (-fm) fm (x.dw + floorDiv (w - o.sigPu 0x043 1) (4000 * s.cfg Obj.SET_TF))
          dv := clampInt (-vm) vm (x.dv + floorDiv (s.gt.fitMag - sqrtPu (o.sigPu 0x04B 4)) (4000 * s.cfg Obj.SET_TV)) }
      else x
    else if x.releasing then
      let dw := towardZero (perTick (floorDiv (s.cfg Obj.RATE_F * pu) (1000 * f))) x.dw
      let dv := towardZero (perTick (axisOf 4 (s.cfg Obj.RATE_V))) x.dv
      { x with dw := dw, dv := dv, releasing := !(dw = 0 && dv = 0) }
    else x
  ({ s with set := x }.setPu 0x096 1 x.dw).setPu 0x097 2 x.dv

/-- HANDS_STATUS (R216) and SET_STATUS (R217). -/
def State.handsStatus (s : State) : Nat :=
  bitsNat (s.hands.axes.map (·.moving)) + 2 ^ 8 * bitsNat (s.hands.axes.map (·.direct)) +
    2 ^ 16 * bitsNat ((List.range 5).map fun a => (s.heldBy a).isSome) + 2 ^ 21 * b2n (s.hands.axes.any (·.coord)) +
    2 ^ 22 * b2n s.hands.coordRos
def State.setStatus (s : State) : Nat :=
  let x := s.set
  b2n x.active + 2 * b2n x.permit + 4 * b2n x.angleOk + 8 * b2n x.freqOk + 16 * b2n x.voltOk + 32 * b2n x.releasing +
    64 * b2n x.abortedRos + 128 * b2n x.permitLostRos

/-! ### Starting a move (R202, R205) -/

/-- The axes a bitmap names, ascending. -/
def axesOf (bm : Nat) : List Nat := (List.range 5).filter bm.testBit

/-- τ of one axis to a target value. -/
def State.axisTau (s : State) (a : Nat) (v : Int) : Int :=
  moveTime (axisOf a (s.cfg (axisRate a))) (axisOf a (s.cfg (axisAcc a))) (axisOf a v - (s.axis a).x)

/-- The planned duration of one axis's move with its scale: from rest τ, or with COORD the longest τ, which the scale stretches it to (R205). -/
def State.axisPlan (s : State) (a : Nat) (v sigma tau : Int) (coord : Option Int) : Int :=
  let x := s.axis a
  if x.v = 0 then if tau = 0 then 0 else coord.getD tau
  else planTime (mulPu sigma (axisOf a (s.cfg (axisRate a)))) (mulPu (mulPu sigma sigma) (axisOf a (s.cfg (axisAcc a)))) x.v (axisOf a v - x.x)

/-- The scales σ of a move: τ_i / max τ with COORD, else 1. -/
def sigmas (coord : Bool) (taus : List Int) : List Int :=
  let t := taus.foldl max 0
  taus.map fun x => if coord && t ≠ 0 then divPu x t else pu

/-- The tick at which the slowest named axis is planned to arrive, from the tick its group applies. -/
def moveEta (applyTick : Nat) (taus : List Int) : Nat :=
  applyTick + (-(floorDiv (-(taus.foldl max 0 * ticksPerSec)) pu)).toNat

/-- A target applies: the axis goes to TRAJ from its present set-point; out of DIRECT it starts with rate 0 (R203, R204). -/
def State.axisGo (s : State) (a : Nat) (v sigma : Int) (coord : Bool) (id : Nat) : State :=
  let s := s.putObj (axisTarget a) v
  s.setAxis a fun x =>
    { x with direct := false, v := if x.direct then 0 else x.v, sigma := sigma, moving := true, coord := coord, moveId := id, stop := none }

end Sys2Proof.Machine
end

