-- ==== Sys2Proof/Machine/Fusee.lean ====
section
/-!
DEFINITION. The fusee (R61 to R71), fault ride-through and pole slip (R72, R73), DC faults (R74 to R78), energisation (R79, R80) and
the ceiling of a safe converter stop (R296).
-/
namespace Sys2Proof.Machine

/-! ### Contenders (R61, R69, R70) -/

/-- The margin on the side toward which the power drives its quantity (R69). -/
def signAware (p band low high : Int) : Int := if band < p then low else if p < -band then high else min low high

/-- e_dc and e_w (R69). -/
def State.marginDc (o : State) : Int :=
  let v := o.sigPu 0x028 2
  signAware (o.sigPu 0x049 2) (o.co Obj.P_SIGN_BAND 0) (v - o.co Obj.DCV_LOW 0) (o.co Obj.DCV_HIGH 0 - v)
def State.marginW (o : State) : Int :=
  let w := o.sigPu 0x078 2
  signAware (o.sigPu 0x049 2) (o.co Obj.P_SIGN_BAND 0) (w - o.co Obj.W_LOW 0) (o.co Obj.W_HIGH 0 - w)

/-- A demand saturated to 0 to 2 pu (R61). -/
def satDemand (x : Int) : Int := clampInt 0 (2 * pu) x

/-- Slots 1 to 3 in beat 1. Slot 1 is I_LIM, and in SCS no more than SCS_CEIL (R296). -/
def State.contenders (o s : State) : State :=
  let m1 := if s.conv.state = .scs then min (s.co Obj.I_LIM 0) (o.sigPu 0x0B0 2) else s.co Obj.I_LIM 0
  let m2 := mulPu (s.co Obj.KP_DCV 0) o.marginDc + s.fus.i2
  let m3 := mulPu (s.co Obj.KP_W 0) o.marginW + s.fus.i3
  ((s.setPu 0x051 2 (satDemand m1)).setPu 0x052 2 (satDemand m2)).setPu 0x053 2 (satDemand m3)

/-- M4 from the heat state (R70). -/
def thermalDemand (cont short x : Int) : Int :=
  let c2 := mulPu cont cont
  let lo := floorDiv (9 * c2) 10
  if x ≤ lo then short else if c2 ≤ x then cont else short - mulPu (short - cont) (divPu (x - lo) (c2 - lo))

/-- The thermal contender in beat 1 (R70). -/
def State.thermal (o s : State) : State :=
  let i := o.idq
  let x := filt (s.co Obj.TH_TAU 0) (mulPu i.1 i.1 + mulPu i.2 i.2) s.fus.heat
  { s with fus := { s.fus with heat := x } }.setPu 0x054 2 (satDemand (thermalDemand (s.co Obj.I_TH_CONT 0) (s.co Obj.I_TH_SHORT 0) x))

/-! ### Selection (R62 to R65) -/

/-- A contender's demand as its signal holds it: negative words count as 0. -/
def State.demandWord (o : State) (n : Nat) : Int := max 0 (o.sigI (0x050 + n))

/-- The lowest demand among the enabled contenders, the lowest slot of equals (R62). -/
def lowest (enabled : Nat) (m : Nat → Int) : Nat × Int :=
  ((List.range 8).filter enabled.testBit).foldl (fun b n => if m n < b.2 then (n, m n) else b) (0, m 0)

/-- The scale factor k = M_win / M0 in 2^-60 (R63), exactly 0 for a demand of 0 (R83). The quotient's error is free within 2^-20
(log entry 3). Below an M0 of 2^-16 pu k is 1 whatever the winner, as R63 has it (log entry 61). -/
def scaleK (slot : Nat) (mWin m0 : Int) : Int :=
  if slot = 0 ∨ m0 < 2 ^ 14 then pu
  else if mWin = 0 then 0
  else clampInt 0 pu (divPu mWin m0 + clampInt (-(2 ^ 40)) (2 ^ 40) (Config.kErr mWin m0))

/-- FUSEE_K: 0x7FFF_FFFF when k = 1 (R71). -/
def kWord (k : Int) : Word := satWord (floorDiv k (2 ^ 29))

/-- The integrator of a contender in RUN and SCS (R65): integrate, back-calculate unless it won, keep M within 0 to 2 pu. -/
def trackIntegral (i ki kpe e ceil : Int) (won : Bool) : Int :=
  let i := i + mulPu ki e
  let i := if won then i else min i (ceil - kpe)
  clampInt (-kpe) (2 * pu - kpe) i

/-- The winning slot as FUSEE_WIN names it. -/
def State.winner (s : State) : Nat := s.sigN 0x05A % 8

/-- Note a new winner at the end of the beats (R62), whichever table has written FUSEE_WIN; `fus.win` is the last tick's. -/
def State.winnerNote (s : State) : State :=
  let n := s.winner
  if n = s.fus.win then s
  else
    ({ s with fus := { s.fus with win := n, winChanges := s.fus.winChanges + 1 } }.condEvent 24).post 0x2101 noInst
      ([BitVec.ofNat 8 s.fus.win, BitVec.ofNat 8 n] ++ beBytes 4 (s.sigN 0x058))

/-- The bits of FUSEE_WIN beside the slot, as they stood at the tick edge (R71). -/
def State.fuseeBits (s : State) : Nat := 2 ^ 8 * b2n s.fus.frt + 2 ^ 9 * b2n s.fus.dcfActive + 2 ^ 10 * b2n s.fus.enrgRamp

/-- The module puts these bits into the FUSEE_WIN of a table that the model interprets, at the end of beats 2 and 3 (log entry 6). -/
def State.fuseeMark (s : State) : State :=
  if s.interprets then s.setSigN 0x05A (s.sigN 0x05A / 2 ^ 11 * 2 ^ 11 + s.sigN 0x05A % 2 ^ 8 + s.fuseeBits) else s

/-- The selection sequence in beat 2 (R62, R63, R65). -/
def State.selection (o s : State) (bits : Nat) : State :=
  let r := lowest (s.cfgN Obj.FUSEE_ENABLE) o.demandWord
  let mWin := r.2 * 2 ^ 30
  let m0 := o.demandWord 0
  let k := scaleK r.1 r.2 m0
  let ivd := o.sigPu 0x04D 2
  let ivq := o.sigPu 0x04E 2
  let dem := fun x => if r.1 = 0 then x else mulPu k x
  let ceil := mWin + s.co Obj.TRK_HEAD 0
  let kd := mulPu (s.co Obj.KP_DCV 0) o.marginDc
  let kw := mulPu (s.co Obj.KP_W 0) o.marginW
  let i2 := if s.released then trackIntegral s.fus.i2 (s.co Obj.KP_DCV 1) kd o.marginDc ceil (r.1 = 2) else 2 * pu - kd
  let i3 := if s.released then trackIntegral s.fus.i3 (s.co Obj.KP_W 1) kw o.marginW ceil (r.1 = 3) else 2 * pu - kw
  let w : Word := BitVec.ofInt 32 r.2
  let s := { s with fus := { s.fus with i2 := i2, i3 := i3, k := (kWord k).toInt, mWin := mWin } }
  let s := ((s.setSig 0x058 w).setSig 0x059 (kWord k)).setSigN 0x05A (r.1 + bits)
  ((s.setPu 0x05B 2 (dem ivd)).setPu 0x05C 2 (dem ivq)).setPu 0x05D 2 ceil

/-! ### Fault ride-through and pole slip (R72, R73) -/

/-- V_INST in beat 0. -/
def State.vInst (o s : State) : State :=
  let v := o.vdq
  s.setPu 0x05F 2 (sqrtPu (mulPu v.1 v.1 + mulPu v.2 v.2))

/-- Count a condition that holds without a break. -/
def runCount (b : Bool) (n : Nat) : Nat := if b then n + 1 else 0

/-- The FRT counters at the end of a tick. -/
def State.frtCounts (s : State) : State :=
  let v := s.sigPu 0x05F 2
  { s with fus := { s.fus with
      frtLow := runCount (v < s.cfgPu Obj.FRT_LEVEL 10000) s.fus.frtLow
      frtHigh := runCount (decide (floorDiv ((s.cfg Obj.FRT_LEVEL + s.cfg Obj.FRT_HYST) * pu) 10000 ≤ v)) s.fus.frtHigh } }

/-- FRT_START and FRT_END are due. -/
def State.frtTicks (s : State) : Nat := max 1 (4 * s.cfgN Obj.FRT_TIME)
def State.frtStartDue (s : State) : Bool := !s.fus.frt && s.frtTicks ≤ s.fus.frtLow
def State.frtEndDue (s : State) : Bool := s.fus.frt && s.frtTicks ≤ s.fus.frtHigh

/-- The slip detector at a tick edge (R73). -/
def State.slipEdge (s : State) : State :=
  let d := angDiff s.thetaV s.thetaG
  let lim := s.cfg Obj.SLIP_ANGLE * 2 ^ 32
  if s.fus.slipArmed && s.released && s.gt.state = .locked && decide (lim ≤ |d| * 1000) then
    ({ s with fus := { s.fus with slipArmed := false, slipRos := true, slipCount := s.fus.slipCount + 1 } }.condEvent 27).post 0x2104
      noInst (beBytes 4 (d % 2 ^ 32).toNat)
  else if !s.fus.slipArmed && decide (|d| * 2000 < lim) then { s with fus := { s.fus with slipArmed := true } }
  else s

/-! ### DC faults (R74 to R78) -/

/-- V_dc is below DCF_LEVEL. -/
def State.dcLow (s : State) : Bool := decide (s.sigPu 0x028 2 < s.cfgPu Obj.DCF_LEVEL 10000)

/-- The detector's counters at the end of a tick, and the release of its trip input (R74, R75). -/
def State.dcfCounts (s : State) : State :=
  { s with fus := { s.fus with
      dcfLow := runCount s.dcLow s.fus.dcfLow, dcfHigh := runCount (!s.dcLow && s.released) s.fus.dcfHigh,
      dcfAssert := if s.dcLow then s.fus.dcfAssert else [] } }

/-- DCF_TIME as a count of ticks. -/
def State.dcfTicks (s : State) : Nat := max 1 (s.cfgN Obj.DCF_TIME)
/-- DCF_DETECT and DCF_REARM are due. -/
def State.dcfDue (s : State) : Bool := s.fus.dcfArmed && s.released && s.dcfTicks ≤ s.fus.dcfLow
def State.dcfRearmDue (s : State) : Bool := !s.fus.dcfArmed && s.released && s.dcfTicks ≤ s.fus.dcfHigh

/-- Every arm can carry RIDE with the values `get` (R76): N_FB × V_cell_nom ≥ E_MAX × V_pk_base. -/
def State.rideCarriedBy (s : State) (get : Nat → Int) : Bool :=
  (List.range 6).all fun j =>
    decide (get Obj.E_MAX * get Obj.V_AC_BASE * sqrt2by3 ≤ (s.nFb j : Int) * get Obj.V_CELL_NOM * 1000 * pu)
/-- The same with the values in effect. -/
def State.rideCarried (s : State) : Bool := s.rideCarriedBy s.cfg

/-- Check RIDE at each edge (R76, R103), so that it is lost and carried again with the condition, whatever has changed it
(log entry 52). -/
def State.rideCheck (s : State) : State :=
  let lost := s.cfg Obj.DCF_MODE = 1 && !s.rideCarried
  let s' := { s with fus := { s.fus with rideLost := lost, rideLostRos := s.fus.rideLostRos || lost } }
  if lost && !s.fus.rideLost then s'.post 0x2106 noInst [] else s'

/-- A DC fault is detected (R74, R75, R77). With DCF_TRIP_INPUT = 255 it is logged only. -/
def State.dcfDetect (s : State) : State :=
  let ride := s.cfg Obj.DCF_MODE = 1 && !s.fus.rideLost
  let s := ({ s with fus := { s.fus with dcfArmed := false, dcfHigh := 0, dcfCount := s.fus.dcfCount + 1 } }.condEvent 28).post 0x2105 noInst []
  if ride then
    { s with fus := { s.fus with dcfActive := true, dcfRecovering := false, dcfU := 0 } }.putDirect Obj.P_SET 0
  else { s with fus := { s.fus with dcfAssert := s.tripNamed Obj.DCF_TRIP_INPUT } }

/-- U_DC_REF of a ride at a tick edge: 0, and once the host has asked for recovery a rise by DCF_RAMP toward HND_VDC (R77, R78). -/
def State.dcfEdge (s : State) : State :=
  let u := s.fus.dcfU + floorDiv (s.cfgPu Obj.DCF_RAMP 10000) ticksPerMs
  { s with fus := { s.fus with dcfU := if s.fus.dcfActive && s.fus.dcfRecovering then min (s.sigPu 0x092 2) u else 0 } }

/-- The module holds the references of a ride, whatever table runs (R77). -/
def State.dcfHold (s : State) : State :=
  if s.fus.dcfActive then (s.setPu 0x079 2 0).setPu 0x07A 2 s.fus.dcfU else s

/-- DCF_END is due: the reference has reached HND_VDC (R78). -/
def State.dcfEndDue (s : State) : Bool := s.fus.dcfRecovering && decide (s.sigPu 0x092 2 ≤ s.fus.dcfU)

/-! ### Energisation and the SCS ceiling at tick edges -/

/-- Ticks of the ramp. -/
def State.enrgLength (s : State) : Nat := s.cfgN Obj.ENRG_TIME * ticksPerMs

/-- ENRG_S at a tick edge (R79): 1 whenever no ramp runs. -/
def State.enrgEdge (s : State) : State :=
  if s.fus.enrgRamp then
    let n := s.fus.enrgTicks
    let w := if s.enrgLength ≤ n then satWord (2 ^ 31) else satWord (floorDiv (n * 2 ^ 31) s.enrgLength)
    { s with fus := { s.fus with enrgTicks := n + 1 } }.setSig 0x05E w
  else s.setSig 0x05E (satWord (2 ^ 31))

/-- ENRG_END is due: ENRG_S reaches 1 at the coming edge, in whose tick the ramp no longer runs (R71, R79). -/
def State.enrgEndDue (s : State) : Bool := s.fus.enrgRamp && decide (s.enrgLength ≤ s.fus.enrgTicks)

/-- SCS_CEIL at a tick edge (R296): it falls in every tick after the one of entry. -/
def State.scsCeilEdge (s : State) : State :=
  let c :=
    if s.conv.state ≠ .scs then 2 * pu
    else if s.tick.now = s.saf.scsTick then s.fus.scsCeil
    else max 0 (s.fus.scsCeil - floorDiv (s.cfg Obj.SCS_CTL_RATE * pu) (1000 * ticksPerSec))
  { s with fus := { s.fus with scsCeil := c } }.setPu 0x0B0 2 c

/-- FUSEE_STATUS (R82). -/
def State.fuseeStatus (s : State) : Nat :=
  let c := s.cfgPu Obj.I_TH_CONT 10000
  b2n (s.winner ≠ 0) + 2 * b2n s.fus.frt + 4 * b2n s.fus.dcfActive + 8 * b2n s.fus.dcfRecovering +
    16 * b2n s.fus.rideLostRos + 32 * b2n s.fus.enrgRamp + 64 * b2n s.fus.slipRos +
    128 * b2n (floorDiv (9 * mulPu c c) 10 < s.fus.heat) + 256 * s.winner

end Sys2Proof.Machine
end

