-- ==== Sys2Proof/Machine/ArmLaws.lean ====
section
/-!
DEFINITION. The arm loops (R86, R89 to R95): the DC-voltage loop, the energy sum, the balancing between arms, the circulating
current and the two arm currents of each phase.
-/
namespace Sys2Proof.Machine

/-- c_dc and k_v (R86). -/
def State.cDc (s : State) : Int := s.co Obj.V_DC_BASE 0
def State.kV (s : State) : Int := s.co Obj.V_DC_BASE 1

/-- DC_ROLE is DCV. -/
def State.roleDcv (s : State) : Bool := s.cfg Obj.DC_ROLE = 0

/-- Integrate unless frozen, at 0 while the integrators are held (R95) or TI is 0. -/
def integ (released : Bool) (ti : Int) (frozen : Bool) (i ki e : Int) : Int :=
  if !released || ti = 0 then 0 else if frozen then i else i + mulPu ki e

/-- The DC-voltage loop in beat 0 (R90). V_DC_SET is the hands' HND_VDC (R200). -/
def State.dcVoltageLoop (o s : State) : State :=
  if !s.released || s.fus.dcfActive || !s.roleDcv then { s with loops := { s.loops with iDcvl := 0 } }.setPu 0x07E 2 0
  else
    let e := o.sigPu 0x092 2 - o.sigPu 0x028 2
    let m := s.cfgPu Obj.P_DCV_MAX 10000
    let p := clampInt (-m) m (mulPu (s.co Obj.KP_DCVL 0) e + s.loops.iDcvl)
    let lim := p = m || p = -m
    let i := integ true (s.cfg Obj.TI_DCVL) lim s.loops.iDcvl (s.co Obj.KP_DCVL 1) e
    { s with loops := { s.loops with iDcvl := i } }.setPu 0x07E 2 (-p)

/-- The energy sum loop in beat 2 (R91): frozen while a DC fault is ridden through, whose references the module holds (R77). -/
def State.energySum (o s : State) : State :=
  let vdc := o.sigPu 0x028 2
  if s.fus.dcfActive then s
  else
    let e := s.co Obj.W_REF 0 - o.sigPu 0x078 2
    let ff := divPu (o.sigPu 0x049 2) (max vdc (pu / 10))
    let m := s.cfgPu Obj.I_DC_MAX 10000
    let iWs := if s.released then s.loops.iWs else 0
    let i := clampInt (-m) m (ff + mulPu (s.co Obj.KP_WS 0) e + iWs)
    let lim := i = m || i = -m
    let w := integ s.released (s.cfg Obj.TI_WS) lim iWs (s.co Obj.KP_WS 1) e
    ({ s with loops := { s.loops with iWs := w } }.setPu 0x079 2 i).setPu 0x07A 2 vdc

/-- W_ARM of the upper and lower arm of a phase, as signals. -/
def State.wUp (o : State) (x : Nat) : Int := o.sigPu (0x066 + 2 * x) 2
def State.wLo (o : State) (x : Nat) : Int := o.sigPu (0x067 + 2 * x) 2

/-- Energy balancing in beat 2 (R92). -/
def State.balancing (o s : State) : State :=
  let s1 := sin3 (o.sigPu 0x041 1) (o.sigPu 0x042 1)
  let sn := [s1.1, s1.2.1, s1.2.2]
  let xs := List.range 3
  let m := s.cfgPu Obj.I_BAL_MAX 10000
  let wPh := xs.map fun x => (o.wUp x + o.wLo x) / 2 - o.sigPu 0x078 2
  let wDf := xs.map fun x => (o.wUp x - o.wLo x) / 2
  let at0 := fun (l : List Int) x => l.getD x 0
  let iWh := if s.released then s.loops.iWh else [0, 0, 0]
  let iWv := if s.released then s.loops.iWv else [0, 0, 0]
  let h0 := xs.map fun x => -(mulPu (s.co Obj.KP_WH 0) (at0 wPh x) + at0 iWh x)
  let h := h0.map fun y => clampInt (-m) m (y - floorDiv h0.sum 3)
  let v := xs.map fun x => clampInt (-m) m (mulPu (mulPu (s.co Obj.KP_WV 0) (at0 wDf x) + at0 iWv x) (at0 sn x))
  let lim := fun (y : Int) => decide (y = m) || decide (y = -m)
  let nWh := xs.map fun x => integ s.released (s.cfg Obj.TI_WH) (lim (at0 h x)) (at0 iWh x) (s.co Obj.KP_WH 1) (at0 wPh x)
  let nWv := xs.map fun x => integ s.released (s.cfg Obj.TI_WV) (lim (at0 v x)) (at0 iWv x) (s.co Obj.KP_WV 1) (at0 wDf x)
  let base := floorDiv (mulPu s.cDc (o.sigPu 0x079 2)) 3
  { s with loops := { s.loops with iWh := nWh, iWv := nWv } }.setSigs 0x080
    (xs.map fun x => toQ31 2 (base + at0 h x + at0 v x))

/-- Harmonic and frame of a resonant pair (R93): the sines or cosines of the three phases in the negative, positive and zero
sequence. -/
def resHarm (b : Nat) : Nat := 2 * b + 2
def resFrame (b : Nat) (f : Int → Int → Int × Int × Int) (s c : Int) : Int × Int × Int :=
  let x := f s c
  match b with | 0 => (x.1, x.2.2, x.2.1) | 1 => x | _ => (x.1, x.1, x.1)

/-- Outputs of a resonant pair. -/
def resOut (b : Nat) (p : Int × Int) (s c m : Int) : List Int :=
  let sn := resFrame b sin3 s c
  let cs := resFrame b cos3 s c
  let one := fun (a b : Int) => clampInt (-m) m (mulPu p.1 a + mulPu p.2 b)
  [one sn.1 cs.1, one sn.2.1 cs.2.1, one sn.2.2 cs.2.2]

/-- One resonant pair in one tick: the new pair, and its outputs, which the pair before gives (log entry 15). -/
def State.resonate (o s : State) (ki m : Int) (err : Int × Int × Int) (b : Nat) : (Int × Int) × List Int :=
  let p := s.loops.res.getD b (0, 0)
  if !(s.cfgN Obj.CCS_HARM).testBit b || !s.released then ((0, 0), [0, 0, 0])
  else
    let θ : Word := BitVec.ofNat 32 (resHarm b) * o.sigW 0x040
    let sc := sinCos θ
    let out := resOut b p sc.1 sc.2 m
    if out.any fun y => decide (y = m) || decide (y = -m) then (p, out)
    else
      ((p.1 + mulPu ki (dot3 err (resFrame b sin3 sc.1 sc.2)), p.2 + mulPu ki (dot3 err (resFrame b cos3 sc.1 sc.2))), out)

/-- The circulating-current loop in beat 2 (R93). -/
def State.circulating (o s : State) : State :=
  let xs := List.range 3
  let err := xs.map fun x => o.sigPu (0x080 + x) 2 - (o.sigPu (0x01B + 2 * x) 2 + o.sigPu (0x01C + 2 * x) 2) / 2
  let e := fun x => err.getD x 0
  let ki := s.co Obj.KP_ARM 1
  let m := s.cfgPu Obj.CC_INT_MAX 10000
  let iCc := xs.map fun x =>
    if !s.released || s.cfg Obj.TI_CC = 0 then 0 else clampInt (-m) m (s.loops.iCc.getD x 0 + mulPu ki (e x))
  let rs : List ((Int × Int) × List Int) := xs.map fun b => o.resonate s ki (s.cfgPu Obj.CC_RES_MAX 10000) (e 0, e 1, e 2) b
  let u : Nat → Int := fun x => iCc.getD x 0 + (rs.map fun (r : (Int × Int) × List Int) => r.2.getD x 0).sum
  let pairs : List (Int × Int) := rs.map fun r => r.1
  { s with loops := { s.loops with iCc := iCc, res := pairs } }.setSigs 0x07B
    (xs.map fun (x : Nat) => toQ31 2 (o.sigPu 0x07A 2 - 2 * u x))

/-- The arm-current loop of one phase in beat 3 (R94). -/
def State.armCurrent (o s : State) (x : Nat) : State :=
  let sn := sin3 (o.sigPu 0x041 1) (o.sigPu 0x042 1)
  let cs := cos3 (o.sigPu 0x041 1) (o.sigPu 0x042 1)
  let pick := fun (t : Int × Int × Int) => match x with | 0 => t.1 | 1 => t.2.1 | _ => t.2.2
  let iAc := mulPu (o.sigPu 0x05B 2) (pick sn) + mulPu (o.sigPu 0x05C 2) (pick cs)
  let iC := o.sigPu (0x080 + x) 2
  let u := o.sigPu (0x07B + x) 2 / 2
  let emf := mulPu s.kV (o.sigPu (0x018 + x) 2)
  let kp := s.co Obj.KP_ARM 0
  let up := u - emf - mulPu kp (iC + iAc / 2 - o.sigPu (0x01B + 2 * x) 2)
  let lo := u + emf - mulPu kp (iC - iAc / 2 - o.sigPu (0x01C + 2 * x) 2)
  (s.setPu (0x060 + 2 * x) 2 up).setPu (0x061 + 2 * x) 2 lo

/-- A signal of 2 per unit full scale stands at the limit `±m`. -/
def State.atLimit (s : State) (a : Nat) (m : Int) : Bool := s.sigW a = toQ31 2 m || s.sigW a = toQ31 2 (-m)
/-- IDC_CLAMP and P_DCV_CLAMP (R90, R91): the signals at their limits; P_DCV has none while it is held at 0. -/
def State.idcClamp (s : State) : Bool := s.atLimit 0x079 (s.cfgPu Obj.I_DC_MAX 10000)
def State.pDcvClamp (s : State) : Bool :=
  s.released && !s.fus.dcfActive && s.roleDcv && s.atLimit 0x07E (s.cfgPu Obj.P_DCV_MAX 10000)

/-- ARM_STATUS (R107). -/
def State.armStatus (s : State) : Nat :=
  bitsNat s.arms.redLow + 2 ^ 8 * bitsNat s.arms.short + 2 ^ 16 * b2n s.arms.prechgDone + 2 ^ 17 * b2n s.idcClamp +
    2 ^ 18 * b2n s.pDcvClamp + 2 ^ 19 * b2n s.arms.retiredNew + 2 ^ 20 * b2n (0 < s.arms.staleNow)

/-- Harmonics whose bit has been cleared start again from 0 (R93). -/
def State.harmCleared (s : State) : State :=
  { s with loops := { s.loops with res := s.loops.res.mapIdx fun b p => if (s.cfgN Obj.CCS_HARM).testBit b then p else (0, 0) } }

end Sys2Proof.Machine
end

