-- ==== Sys2Proof/Machine/Interp.lean ====
section
/-!
DEFINITION. The engines at work (R163 to R175): operands, the accumulator and the opcodes, and the beats of a tick.
The accumulator is an integer in units of 2^-63 (R169).
-/
namespace Sys2Proof.Machine

/-! ### Step words (R165 to R168) -/

def stepOp (w : DWord) : Nat := w.toNat / 2 ^ 58
def stepA (w : DWord) : Nat := w.toNat / 2 ^ 44 % 2 ^ 14
def stepB (w : DWord) : Nat := w.toNat / 2 ^ 30 % 2 ^ 14
def stepD (w : DWord) : Nat := w.toNat / 2 ^ 16 % 2 ^ 14
def stepImm (w : DWord) : Nat := w.toNat / 2 ^ 8 % 2 ^ 8
/-- Space and address of an operand field (R166). -/
def opSpace (f : Nat) : Nat := f / 2 ^ 12
def opAddr (f : Nat) : Nat := f % 2 ^ 12
/-- Value and shift of a constant step (R167). -/
def constValue (w : DWord) : Word := w.setWidth 32
def constShift (w : DWord) : Int := (BitVec.ofNat 5 (w.toNat / 2 ^ 53)).toInt

/-! ### One engine (R160, R169 to R174) -/

/-- An engine while it runs a beat: registers, tag, accumulator, the shared signals it writes, and the saturations. -/
structure EngRun where
  locals : List Word
  tag : Byte
  acc : Int
  out : List (Nat × Word) := []
  wbSat : Nat := 0
  accSat : Nat := 0
  deriving DecidableEq, Repr

/-- What an operand gives: a stored value, its shift and its 32 raw bits (R169, R173). -/
structure Operand where
  value : Int
  shift : Int
  raw : Word
  deriving DecidableEq, Repr

/-- A raw word as an operand. -/
def Operand.ofWord (w : Word) : Operand := ⟨w.toInt, 0, w⟩
/-- An operand in units of the accumulator; exact, since no shift is below −16. -/
def Operand.acc (x : Operand) : Int := x.value * 2 ^ (32 + x.shift).toNat

/-- The ends of the accumulator's range (R169). -/
def sat72 (x : Int) : Int := clampInt (-(2 ^ 71)) (2 ^ 71 - 1) x
/-- The accumulator rounded and saturated as WB writes it (R172). -/
def wbWord (acc : Int) : Word := satWord (floorDiv (acc + 2 ^ 31) (2 ^ 32))
/-- A write-back saturates. -/
def wbSats (acc : Int) : Bool := let x := floorDiv (acc + 2 ^ 31) (2 ^ 32); decide (x < -(2 ^ 31)) || decide (2 ^ 31 ≤ x)
/-- The exact product of two operands, cut below 2^-63 (R170). -/
def prodAcc (x y : Operand) : Int := floorDiv (x.value * y.value * 2 ^ (33 + x.shift + y.shift).toNat) (2 ^ 32)

/-- The operand a field names (R166). `o` holds the shared signals, `t` the constants. -/
def EngRun.operand (r : EngRun) (o : State) (t : EngTable) (f : Nat) : Operand :=
  let a := opAddr f
  match opSpace f with
  | 0 => .ofWord (o.sigW a)
  | 1 => .ofWord (r.locals.getD a 0)
  | 2 => let w := t.steps.getD a 0; ⟨(constValue w).toInt, constShift w, constValue w⟩
  | _ => if a = 1 then .ofWord (wbWord r.acc) else .ofWord 0

/-- Put a result into the accumulator, saturating and counting (R170). -/
def EngRun.put (r : EngRun) (x : Int) : EngRun :=
  { r with acc := sat72 x, accSat := r.accSat + b2n (sat72 x ≠ x) }

/-- A raw word in the accumulator's bits 63 to 32 (R173). -/
def rawAcc (w : Word) : Int := w.toInt * 2 ^ 32
/-- The raw word in those bits. -/
def accRaw (acc : Int) : Word := BitVec.ofInt 32 (floorDiv acc (2 ^ 32))

/-- Write a destination (R166). -/
def EngRun.write (r : EngRun) (f : Nat) (w : Word) : EngRun :=
  match opSpace f with
  | 0 => { r with out := r.out ++ [(opAddr f, w)] }
  | 1 => { r with locals := r.locals.set (opAddr f) w }
  | _ => r

/-- A result within `e` of an exact value that lies between `lo` and `hi`; where in that bound is free (log entry 3). -/
def nearExact (lo hi e err : Int) : Int := clampInt (hi - e) (lo + e) (lo + err)

/-- SQRT within 2^-24 of the root (R168, R174). -/
def sqrtAcc (a : Int) : Int :=
  if a ≤ 0 then 0
  else
    let x := (a * 2 ^ 63).toNat
    let r := Nat.sqrt x
    nearExact r (if r * r = x then r else r + 1) (2 ^ 39) (Config.sqrtErr a)
/-- DIV within 2^-22 of the quotient, saturated (R168, R174). -/
def divAcc (a b : Int) : Int :=
  let top : Int := 2 ^ 63 - 2 ^ 32
  if b = 0 then if 0 ≤ a then top else -(2 ^ 63)
  else
    let x := a * 2 ^ 63
    clampInt (-(2 ^ 63)) top (nearExact (floorDiv x b) (-(floorDiv (-x) b)) (2 ^ 41) (Config.divErr a b))

/-- One step (R168). -/
def EngRun.exec (r : EngRun) (o : State) (t : EngTable) (w : DWord) : EngRun :=
  let a := r.operand o t (stepA w)
  let b := r.operand o t (stepB w)
  match stepOp w with
  | 0x01 => r.put (prodAcc a b)
  | 0x02 => r.put (r.acc + prodAcc a b)
  | 0x03 => r.put (r.acc - prodAcc a b)
  | 0x04 => { r.put a.acc with tag := BitVec.ofNat 8 (stepImm w) }
  | 0x05 => r.put (r.acc + a.acc)
  | 0x06 => r.put (r.acc - a.acc)
  | 0x07 =>
    let n := opAddr (stepA w)
    { r with acc := (r.locals.getD n 0).toInt * 2 ^ 32 + (r.locals.getD (n + 1) 0).toNat }
  | 0x08 => { r with acc := min r.acc (sat72 a.acc) }
  | 0x09 => { r with acc := max r.acc (sat72 a.acc) }
  | 0x0A => { r with acc := max (sat72 a.acc) (min r.acc (sat72 b.acc)) }
  | 0x0B => { r with acc := if 0 ≤ r.acc then sat72 a.acc else sat72 b.acc }
  | 0x0C => r.put |r.acc|
  | 0x0D => r.put (-r.acc)
  | 0x0E => if a.acc < r.acc then { r with acc := sat72 a.acc, tag := BitVec.ofNat 8 (stepImm w) } else r
  | 0x0F => { r with acc := rawAcc (a.raw - b.raw) }
  | 0x10 => { r with acc := rawAcc (accRaw r.acc &&& a.raw) }
  | 0x11 => { r with acc := rawAcc (accRaw r.acc ||| a.raw) }
  | 0x12 => { r with acc := rawAcc (accRaw r.acc ^^^ a.raw) }
  | 0x18 => { r with acc := sqrtAcc a.acc }
  | 0x19 => { r with acc := divAcc a.acc b.acc }
  | 0x20 => { r.write (stepD w) (wbWord r.acc) with wbSat := r.wbSat + b2n (wbSats r.acc) }
  | 0x21 =>
    let x := clampInt (-(2 ^ 63)) (2 ^ 63 - 1) r.acc
    let n := opAddr (stepD w)
    { r with
      locals := (r.locals.set n (BitVec.ofInt 32 (floorDiv x (2 ^ 32)))).set (n + 1) (BitVec.ofInt 32 x)
      wbSat := r.wbSat + b2n (x ≠ r.acc) }
  | 0x22 => r.write (stepD w) (r.tag.setWidth 32)
  | _ => r

/-! ### Beats (R22, R23, R163) -/

/-- Steps a beat executes, up to a step that an error stops. -/
def EngTable.beatSteps (t : EngTable) (k : Nat) (stop : Option Nat) : List DWord :=
  let (a, n) := t.entry k
  match stop with
  | none => (t.steps.drop a).take n
  | some j =>
    match t.beatOf j with
    | none => []
    | some b => if k < b then (t.steps.drop a).take n else if k = b then (t.steps.drop a).take (j - a) else []

/-- The CRC register after a step word, its most significant byte first (R191, log entry 54). -/
def crcWord (c : Word) (w : DWord) : Word := (beBytes 8 w.toNat).foldl crcByte c
/-- The signature expected of an engine that executes a table (R191). -/
def EngTable.signature (t : EngTable) : Word :=
  ((List.range 4).flatMap fun k => t.beatSteps k none).foldl crcWord 0xFFFFFFFF ^^^ 0xFFFFFFFF

/-- A logical engine executes steps in the tick: it is in service, or an error stops it in this tick. -/
def Engine.executes (e : Engine) : Bool := !e.failed || e.stopAt.isSome

/-- One logical engine in one beat; `o` is the state at the start of the beat. -/
def State.engineBeat (o s : State) (k n : Nat) : State × List (Nat × Word) :=
  let p := s.esc.phys n
  let e := s.esc.engine p
  if !e.executes then (s, [])
  else
    let t := s.esc.active.tables.getD n {}
    let ws := t.beatSteps k e.stopAt
    let r := ws.foldl (fun (r : EngRun) w => r.exec o t w) { locals := e.locals, tag := e.tag, acc := e.acc }
    let s := { s with esc := { s.esc with
      engines := s.esc.engines.set p { e with locals := r.locals, tag := r.tag, acc := r.acc, sig := ws.foldl crcWord e.sig }
      wbSat := s.esc.wbSat + r.wbSat, accSat := s.esc.accSat + r.accSat
      wbSatRos := s.esc.wbSatRos || 0 < r.wbSat, accSatRos := s.esc.accSatRos || 0 < r.accSat } }
    (s, r.out)

/-- All engines in one beat: what they write is readable from the next beat (R23). -/
def State.tableBeat (s : State) (k : Nat) : State :=
  let r := (List.range 16).foldl
    (fun (a : State × List (Nat × Word)) n => let b := s.engineBeat a.1 k n; (b.1, a.2 ++ b.2)) (s, [])
  r.2.foldl (fun s w => s.setSig w.1 w.2) r.1

/-! ### Escapement signals (R162), the mirror (R192) -/

/-- Code of a converter state (R162), of a pair role and of a time state. -/
def convCode : ConvState → Nat
  | .idle => 0 | .precharge => 1 | .ready => 2 | .run => 3 | .scs => 4 | .pr => 5
def PairRole.code : PairRole → Nat
  | .solo => 0 | .leader => 1 | .standby => 2
def TimeState.code : TimeState → Nat
  | .free => 0 | .locked => 1 | .holdover => 2

/-- ENGINE_FAILED. -/
def Esc.failedWord (e : Esc) : Nat := bitsNat (e.engines.map (·.failed))
/-- The same at the edge of a tick: a fault found in that tick comes after it. -/
def Esc.failedBefore (e : Esc) (now : Nat) : Nat := bitsNat (e.engines.map fun x => x.failed && x.failAt != some now)

/-- ESC_STATE at the edge: a migration that starts in the tick comes after it. -/
def State.escState (s : State) : Nat :=
  convCode s.conv.state + 2 ^ 3 * (s.cfgN Obj.AC_ROLE % 2) + 2 ^ 4 * (s.cfgN Obj.DC_ROLE % 4) + 2 ^ 6 * (s.cfgN Obj.MOD_MODE % 4) +
    2 ^ 8 * s.pair.role.code + 2 ^ 10 * (s.pwr.pl % 4) + 2 ^ 12 * b2n s.esc.activeB + 2 ^ 13 * b2n (s.esc.migration.any fun m => decide (m.start < s.tick.now)) +
    2 ^ 14 * s.time.state.code

/-- The escapement's signals at a tick edge. -/
def State.escSignals (s : State) : State :=
  (((s.setSigN 0x0F0 s.escState).setSigN 0x0F1 s.tick.now).setSigN 0x0F2 (s.tick.now / 2 ^ 32)).setSigN 0x0F3 (s.esc.failedBefore s.tick.now)

/-- The engine's last signature passed (R191). -/
def Engine.passed (e : Engine) : Bool := !e.failed && e.sig ^^^ 0xFFFFFFFF = e.want
/-- An engine whose last signature passed has its state mirrored; another one keeps its mirror. -/
def Engine.mirror (e : Engine) : Engine := if e.passed then { e with mLocals := e.locals, mTag := e.tag } else e
/-- Mirror one logical engine, with the states of the laws it holds. -/
def State.mirrorOne (s : State) (n : Nat) : State :=
  let p := s.esc.phys n
  let m := if (s.esc.engine p).passed then s.esc.lawMirror.take s.lawStates n else s.esc.lawMirror
  { s with esc := { s.esc with engines := modifyAt s.esc.engines p Engine.mirror, lawMirror := m } }
/-- A new tick's signature begins; an engine that executes nothing is expected to sign nothing. -/
def State.signEdge (s : State) : State :=
  { s with esc := { s.esc with engines := s.esc.engines.mapIdx fun p (e : Engine) =>
      { e with sig := 0xFFFFFFFF, want := if s.pwr.escGated then 0 else s.esc.active.sigs.getD (s.esc.map.idxOf p) 0 } } }
/-- In the reserved cycles the signatures are compared and every engine that passed is mirrored (R191, R192). -/
def State.mirrorEdge (s : State) : State := ((List.range 16).foldl State.mirrorOne s).signEdge

/-- An engine that an error stops executes nothing after its tick. -/
def State.stopEngines (s : State) : State :=
  { s with esc := { s.esc with engines := s.esc.engines.map fun e => { e with stopAt := none } } }

end Sys2Proof.Machine
end

