-- ==== Sys2Proof/Machine/Mailbox.lean ====
section
/-!
DEFINITION. Mailboxes and responses (R358, R362 to R367, R369): status and reason codes, accepting a message, answering a
command, and the access errors of R361.
-/
namespace Sys2Proof.Machine

/-! ### Codes (R366, R367) -/

abbrev stOk : Byte := 0x00
abbrev stBusy : Byte := 0x01
abbrev stBadOpcode : Byte := 0x02
abbrev stBadObject : Byte := 0x03
abbrev stRange : Byte := 0x04
abbrev stState : Byte := 0x05
abbrev stNoCredit : Byte := 0x06
abbrev stLate : Byte := 0x07
abbrev stRefused : Byte := 0x08
abbrev stAuth : Byte := 0x09
abbrev stCrc : Byte := 0x0A
abbrev stDomainOff : Byte := 0x0B
abbrev stTruncated : Byte := 0x0C

abbrev rsConverter : Byte := 0x01
abbrev rsSafety : Byte := 0x02
abbrev rsChrono : Byte := 0x03
abbrev rsTrain : Byte := 0x04
abbrev rsHost : Byte := 0x05
abbrev rsLane : Byte := 0x06
abbrev rsEscapement : Byte := 0x07
abbrev rsTrip : Byte := 0x10
abbrev rsLanes : Byte := 0x11
abbrev rsVana : Byte := 0x12
abbrev rsReg : Byte := 0x13
abbrev rsTable : Byte := 0x14
abbrev rsBank : Byte := 0x15
abbrev rsRedund : Byte := 0x16
abbrev rsModEnable : Byte := 0x17
abbrev rsMeas : Byte := 0x18
abbrev rsAcRole : Byte := 0x19
abbrev rsStandby : Byte := 0x1A
abbrev rsVio : Byte := 0x20
abbrev rsRestartAck : Byte := 0x21
abbrev rsSafetySession : Byte := 0x22
abbrev rsSafetyKey : Byte := 0x23
abbrev rsGt : Byte := 0x28
abbrev rsPrealign : Byte := 0x29
abbrev rsSetting : Byte := 0x2A
abbrev rsPtp : Byte := 0x2B
abbrev rsRamp : Byte := 0x2C
abbrev rsTime : Byte := 0x2D
abbrev rsSched : Byte := 0x2E
abbrev rsChronoFull : Byte := 0x30
abbrev rsPair : Byte := 0x31
abbrev rsFeed : Byte := 0x32
abbrev rsDamping : Byte := 0x33
abbrev rsFbCells : Byte := 0x34
abbrev rsBinding : Byte := 0x35
abbrev rsVerifier : Byte := 0x36
abbrev rsFit : Byte := 0x37
abbrev rsSpare : Byte := 0x38
abbrev rsReadOnly : Byte := 0x39
abbrev rsSetOnly : Byte := 0x3A
abbrev rsNotInSet : Byte := 0x3B
/-- LIM0 to LIM7. -/
def rsLim (n : Nat) : Byte := BitVec.ofNat 8 (0x40 + n)

/-- What a command answers: STATUS, REASON and the response parameters. -/
structure Ans where
  status : Byte
  reason : Byte := 0
  params : List Byte := []
  deriving DecidableEq, Repr

/-- OK with parameters. -/
def Ans.ok (p : List Byte := []) : Ans := { status := stOk, params := p }
/-- A status alone. -/
def Ans.st (x : Byte) : Ans := { status := x }
/-- REFUSED naming X. -/
def Ans.refuse (r : Byte) : Ans := { status := stRefused, reason := r }

/-! ### Mailboxes -/

/-- One mailbox. -/
def State.mbox (s : State) (n : Nat) : Mailbox := s.host.mbs.getD n {}
/-- Change one mailbox. -/
def State.setMbox (s : State) (n : Nat) (f : Mailbox → Mailbox) : State :=
  { s with host := { s.host with mbs := modifyAt s.host.mbs n f } }
/-- Send a frame on the host link. -/
def State.emit (s : State) (o : HostOut) : State := { s with host := { s.host with out := s.host.out ++ [o] } }

/-- EXECUTING of R358. -/
def Mailbox.executing (m : Mailbox) : Nat := if m.running.isSome then 1 else 0
/-- CREDITS of R358: 4 − QUEUED − EXECUTING − UNACKED. -/
def Mailbox.credits (m : Mailbox) : Nat := 4 - m.queue.length - m.executing - m.unacked.length
/-- MB_STATUS_n (R358). -/
def Mailbox.word (m : Mailbox) : Nat :=
  m.lastTag.toNat * 2 ^ 16 + m.queue.length * 2 ^ 8 + b2n m.owner.isSome * 2 ^ 7 + m.executing * 2 ^ 6 +
    m.unacked.length * 2 ^ 3 + m.credits

/-- The response of a command, to where its datagram came from (R353). -/
def Reply.response (r : Reply) (a : Ans) : Response :=
  { opcode := r.opcode, tag := r.tag, status := a.status, reason := a.reason, params := a.params, peer := r.peer }

/-- The command of a reply is still the one its mailbox executes: a supervisor start discards it (R373). -/
def Mailbox.runs (m : Mailbox) (r : Reply) : Bool :=
  match m.running with | some (q, _) => q == r | none => false

/-- Complete a command: send its response, which then waits for its acknowledgement (R364). A command a supervisor start
has discarded is answered to nobody, and the response of one that completes while the supervisor starts is lost (R373, R377). -/
def State.reply (s : State) (r : Reply) (a : Ans) : State :=
  if (s.mbox r.mb.val).runs r && !s.host.starting then
    (s.setMbox r.mb.val fun m =>
      { m with running := none, unacked := m.unacked ++ [r.response a], last := some (r.response a) }).emit
      (.mbResp r.session r.mb (r.response a) false)
  else s

/-- Complete a command that may have no host behind it (a scheduled action). -/
def State.replyTo (s : State) (r : Option Reply) (a : Ans) : State :=
  match r with | some r => s.reply r a | none => s

/-- Send a response that takes no credit: the message is not executed (R363). -/
def State.refuseMsg (s : State) (r : Reply) (st : Byte) : State := s.emit (.mbResp r.session r.mb (r.response (Ans.st st)) false)

/-- The session of an identifier. -/
def State.session (s : State) (id : Word) : Option Session := s.host.sessions.find? fun x => x.id == id

/-- Record the number of a session's frame, and where it came from (R353, R355). -/
def State.tookFrame (s : State) (id : Word) (f : FrameNo) : State :=
  { s with host := { s.host with sessions := s.host.sessions.map fun x => if x.id = id then { x with lastSeq := f.n, peer := f.peer } else x } }

/-- The host link answers: the supervisor serves and the module is not held in reset (R373, R382). -/
def State.serves (s : State) : Bool := !s.host.starting && !s.pwr.inReset

/-- A frame of an open session is handled when the host link answers and its SEQ is new; an old one is counted, and one of no open
session counts as a bad frame (R353, R355). -/
def State.frame (s : State) (id : Word) (f : FrameNo) (k : Session → State → State) : State :=
  if !s.serves then s
  else
    match s.session id with
    | none => { s with host := { s.host with rxBad := s.host.rxBad + 1 } }
    | some x =>
      if f.n ≤ x.lastSeq then { s with host := { s.host with replay := s.host.replay + 1 } }
      else k x (s.tookFrame id f)

/-- The response a mailbox still holds, or last gave, for a TAG. -/
def Mailbox.answered (m : Mailbox) (tag : BitVec 16) : Option Response :=
  match m.unacked.find? fun r => r.tag == tag with
  | some r => some r
  | none => match m.last with | some r => if r.tag = tag then some r else none | none => none

/-- The mailbox holds a command of a TAG that is not completed. -/
def Mailbox.holds (m : Mailbox) (tag : BitVec 16) : Bool :=
  m.queue.any (fun p => p.1.tag == tag) || (match m.running with | some (r, _) => r.tag == tag | none => false)

/-- Accept a message into its mailbox (R363): ownership, a repeated TAG, and the credit. -/
def State.enqueue (s : State) (r : Reply) (c : HostCmd) : State :=
  let m := s.mbox r.mb.val
  if (match m.owner with | some o => o != r.session | none => false) then s.refuseMsg r stBusy
  else if m.holds r.tag then s
  else match m.answered r.tag with
    | some x => s.emit (.mbResp r.session r.mb x true)
    | none =>
      if m.credits = 0 then s.refuseMsg r stNoCredit
      else s.setMbox r.mb.val fun m =>
        { m with owner := some r.session, lastTag := r.tag, queue := m.queue ++ [(r, c)] }

/-- A message arrives (R355, R362, R363). `ro` says that a session opened with the RO key may send it. -/
def State.acceptMsg (s : State) (m : Msg) (opcode : BitVec 16) (ro : Bool) (c : HostCmd) : State :=
  s.frame m.session m.seq fun x s =>
    let c := if x.ro && !ro then .bad stAuth else if m.lenOk then c else .bad stRange
    s.enqueue { mb := m.mb, session := m.session, opcode := opcode, tag := m.tag, peer := m.seq.peer } c

/-! ### Domains that are off (R361) -/

/-- Kind of an access in ACCESS_ERR_ADDR (R356): register address, object index, opcode. -/
def accessWord (kind x : Nat) : Nat := kind * 2 ^ 30 + x % 2 ^ 16

/-- Record an access to a domain that is off. -/
def State.accessErr (s : State) (kind x : Nat) : State :=
  let w := accessWord kind x
  let h := { s.host with accessErr := true, accessErrs := s.host.accessErrs + 1,
                         accessErrAddr := if s.host.accessErr then s.host.accessErrAddr else w }
  { s with host := h }.post 0x1F05 noInst (beBytes 4 w)

/-! ### Objects on the wire (R369) -/

/-- A value fits its TYPE's width. -/
def tyFits (ty : Nat) : ObjVal → Bool
  | .num v => match ty with
    | 0 => decide (v = 0 ∨ v = 1) | 1 | 12 => decide (0 ≤ v ∧ v < 2 ^ 8) | 2 => decide (0 ≤ v ∧ v < 2 ^ 16)
    | 3 | 9 => decide (0 ≤ v ∧ v < 2 ^ 32) | 4 | 8 | 11 => decide (0 ≤ v ∧ v < 2 ^ 64)
    | 5 => decide (-(2 ^ 15) ≤ v ∧ v < 2 ^ 15) | 6 | 7 => decide (-(2 ^ 31) ≤ v ∧ v < 2 ^ 31) | _ => false
  | .time sec ns => ty = 10 && decide (sec < 2 ^ 48) && decide (ns < 2 ^ 32)
  | .str bs => ty = 13 && decide (bs.length ≤ 64)

end Sys2Proof.Machine
end

