-- ==== Sys2Proof/Machine/Measure.lean ====
section
/-!
DEFINITION. Measurement (R219 to R236): the fast path and its signals, windows of the integrating path and their results, drift
tracking, the reference, fall-back and VANA. Instants are in 1/2048 tick (R225).
-/
namespace Sys2Proof.Machine

/-! ### The fast path (R220 to R224) -/

/-- Filter weights, oldest sample first (R220). -/
def firWeights : List Int := [1, 3, 5, 7, 7, 5, 3, 1]

/-- A sample at converter full scale (R222). -/
def atFullScale (c : Int) : Bool := c = 32767 || c = -32768

/-- The filter output in 1/64 nV: one code step is 12.5 nV per 0.1 mV of V_REF_NOM (R219, R230). -/
def firOut (refNom : Nat) (l : List Int) : Int := (List.zipWith (· * ·) firWeights l).sum * 25 * refNom

/-- FAST_n per unit (R221); the offset is in nV, the gain in 2^-60, the scale in 10^-6 pu/V. -/
def fastPu (u offs gain scale : Int) : Int := floorDiv ((u - 64 * offs) * gain * scale) (64 * 10 ^ 15)

/-- The input of a role. -/
def State.roleInput (s : State) (r : Nat) : Option Nat := (List.range 24).find? fun n => s.cfgN (Obj.AI_ROLE + n) = r
/-- Roles from `a` to `b` are all assigned. -/
def State.rolesSet (s : State) (a b : Nat) : Bool := (List.range (b + 1 - a)).all fun i => (s.roleInput (a + i)).isSome

/-- The signal word of a role: a copy of its input's, 0 unassigned. -/
def State.roleWord (s : State) (r : Nat) : Word := match s.roleInput r with | some n => s.sigW n | none => 0
/-- The per-unit value of a role. -/
def State.rolePu (s : State) (r : Nat) : Int := ofQ31 2 (s.roleWord r)

/-- A derived signal is 0 where a source is unassigned (R224). -/
def State.derived (s : State) (rs : List Nat) (x : Int) : Word := if rs.all fun r => (s.roleInput r).isSome then toQ31 2 x else 0

/-- Write the copies and derived signals 0x018 to 0x02B (R224). -/
def State.roleSignals (s : State) : State :=
  let i := fun j => s.rolePu (4 + j)
  let grid := s.rolesSet 12 14
  let s := s.setSigs 0x018 ((List.range 3).map fun x => s.roleWord (1 + x))
  let s := s.setSigs 0x01B ((List.range 6).map fun j => s.roleWord (4 + j))
  let s := s.setSigs 0x021 ((List.range 3).map fun x => s.derived [4 + 2 * x, 5 + 2 * x] (i (2 * x) - i (2 * x + 1)))
  let s := s.setSigs 0x024 ((List.range 3).map fun x => s.derived [4 + 2 * x, 5 + 2 * x] ((i (2 * x) + i (2 * x + 1)) / 2))
  let s := s.setSig 0x027 (s.derived [4, 6, 8] (divPu (i 0 + i 2 + i 4) s.cDc))
  let s := s.setSig 0x028 (s.derived [10, 11] (s.rolePu 10 - s.rolePu 11))
  s.setSigs 0x029 ((List.range 3).map fun x => s.roleWord ((if grid then 12 else 1) + x))

/-- Inputs with a sample at full scale among the eight. -/
def Meas.overrange (m : Meas) : List Bool := m.raw.map fun l => l.any atFullScale

/-- Post AI_OVERRANGE for the inputs whose episode begins. -/
def State.overEvents (s : State) (old new : List Bool) : State :=
  (List.range 24).foldl (fun s n => if flag new n && !flag old n then s.post 0x2601 n [] else s) s

/-- The fast path runs: it is on, and VANA is present (R232, R233). -/
def State.fastRuns (s : State) : Bool := s.meas.fastOn && s.meas.vanaOk

/-- The path is in fall-back (R232): in S2, from step E3 of its entry on, and while VANA is low. -/
def State.inFallback (s : State) : Bool :=
  s.pwr.state = .s2 || s.meas.vanaLow || s.pwr.entry.any fun e => e.target = 2 && decide (3 < e.step)
/-- MEAS_STATUS (R235). -/
def State.measStatus (s : State) : Nat :=
  let m := s.meas
  b2n m.vanaOk + 2 * b2n m.vanaLow + 4 * b2n m.refSettled + 8 * b2n s.inFallback + 16 * b2n m.fastOn + 32 * b2n (s.rolesSet 1 11) +
    64 * b2n m.refLostRos + 128 * b2n m.driftRos + 256 * b2n m.ovrRos + 512 * b2n m.discardRos + 1024 * b2n m.energyRos +
    2048 * (m.refInUse % 4)

/-- Take the samples and the VANA reading of a tick (R220, R233): the newest eight samples of each input stand, oldest first. -/
def Meas.takeSamples (m : Meas) (x : TickInputs) : Meas :=
  { m with
    vanaMv := x.vanaMv
    raw := List.zipWith (fun l n => (l ++ n.map BitVec.toInt).drop ((l ++ n.map BitVec.toInt).length - 8)) m.raw x.samples }

/-- The window angle at the edge before the last and its forward rotation since (R225). -/
def State.winAngle (s : State) : DWord × Int :=
  if s.cfgN Obj.WIN_ANGLE = 1 then (BitVec.ofInt 64 (s.bal.acc.toNat - s.bal.lastStep), s.bal.lastStep) else (s.gt.prev, s.gt.lastStep)

/-- Time in 1/256000 tick, in which 1 ns is 1024: of an aperture of the eight latest samples, the oldest first (R220), from the edge of the
tick, and the interval of a sample, which the model centres on its aperture (log entry 55). -/
def aperture (i : Nat) : Int := (50 * (i : Int) - 260) * 1024
def sampleSpan : Int := 51200

/-- A sample corrected by OFFS_CORR and GAIN_CORR, in 1/64 nV (R221, R230). -/
def State.corrected (s : State) (n : Nat) (code : Int) : Int :=
  floorDiv ((code * 800 * s.meas.refNom - 64 * s.meas.offs.getD n 0) * s.meas.gain.getD n 0) pu

/-- The window angle at an aperture, at the rate of the last tick. -/
def State.apertureAngle (s : State) (i : Nat) : Word :=
  let w := s.winAngle
  BitVec.ofInt 32 (floorDiv (w.1.toNat + w.2 + floorDiv (w.2 * aperture i) 256000) (2 ^ 32))

/-- The five samples that a tick has brought. -/
def State.newSamples (s : State) : List FastSample :=
  [3, 4, 5, 6, 7].map fun i =>
    if s.fastRuns then { on := true, angle := s.apertureAngle i, v := s.meas.raw.mapIdx fun n l => s.corrected n (l.getD i 0) } else {}

/-- What one sample gives a window that takes the weight `w` of it. -/
def FastSample.sums (x : FastSample) (w : Int) : FastSums :=
  if x.on && 0 < w then
    let sc := sinCos x.angle
    { weight := w, mean := x.v.map (w * ·), sine := x.v.map fun v => w * mulPu v sc.1, cosine := x.v.map fun v => w * mulPu v sc.2,
      square := x.v.map fun v => w * (v * v) }
  else {}

/-- Sums of two parts, `k` times the second. -/
def FastSums.plus (a b : FastSums) (k : Int) : FastSums :=
  let z := List.zipWith fun x y => x + k * y
  { weight := a.weight + k * b.weight, mean := z a.mean b.mean, sine := z a.sine b.sine, cosine := z a.cosine b.cosine,
    square := z a.square b.square }

/-- What the latest samples from the `i`-th on give from an instant on, in 1/2048 tick (R226). -/
def State.sumsFrom (s : State) (t i : Nat) : FastSums :=
  ((s.meas.recent.zipIdx).drop i).foldl
    (fun a p => a.plus (p.1.sums (clampInt 0 sampleSpan
      ((s.tick.now : Int) * 256000 + aperture p.2 + sampleSpan / 2 - (t : Int) * 125))) 1) {}

/-- The window in progress gathers the samples of the tick. -/
def State.gatherFast (s : State) : State :=
  let s := { s with meas := { s.meas with recent := (s.meas.recent ++ s.newSamples).drop 5 } }
  if s.meas.winOpen then { s with meas := { s.meas with win := s.meas.win.plus (s.sumsFrom s.meas.winStart 3) 1 } } else s

/-- The fast path at the start of beat 3 (R24, R221 to R224, R232, R233). -/
def State.fastBeat (s : State) (x : TickInputs) : State :=
  let s := { s with meas := s.meas.takeSamples x }.gatherFast
  let s :=
    if !s.meas.fastOn then { s with meas := { s.meas with ovr := List.replicate 24 false } }
    else if !s.meas.vanaOk then { s with meas := { s.meas with ovr := List.replicate 24 false } }.setSigs 0 (List.replicate 0x2D 0)
    else
      let new := s.meas.overrange
      let s := s.overEvents s.meas.ovr new
      let m := s.meas
      let s := { s with meas := { m with
        ovr := new, ovrCount := List.zipWith (fun c b => c + b2n b) m.ovrCount new, ovrRos := m.ovrRos || new.any id } }
      let fast := (List.range 24).map fun n =>
        toQ31 2 (fastPu (firOut m.refNom (m.raw.getD n [])) (m.offs.getD n 0) (m.gain.getD n 0) (s.cfg (Obj.AI_SCALE + n)))
      (s.setSigs 0 fast).roleSignals.setSigN 0x02C (bitsNat new)
  s.setSigN 0x02D (s.measStatus % 256)

/-! ### Windows (R225, R226, R232) -/

/-- θw has passed WIN_ANCHOR in its forward rotation between the last two edges. -/
def State.anchorPassed (s : State) : Bool :=
  let a := BitVec.ofNat 64 (s.cfgN Obj.WIN_ANCHOR * 2 ^ 32) - s.winAngle.1
  decide (0 < s.winAngle.2) && decide (0 < a.toNat) && decide ((a.toNat : Int) ≤ s.winAngle.2)

/-- The integrating path can run: the tick does, the analogue rail is power-good (R381), as it stays where a wake from S1 or S2 fails (R390), and
VANA is present. -/
def State.integRuns (s : State) : Bool := s.ticking && s.meas.vanaOk && s.pwr.anaOk

/-- Discard the window in progress (R225); the converter of a fall-back window powers down with it. -/
def State.discardWindow (s : State) : State :=
  if s.meas.winOpen then
    { s with meas := { s.meas with
        winOpen := false, winFb := false, winS2 := false, fbPowered := false, discardCount := s.meas.discardCount + 1, discardRos := true } }
  else s

/-- θw of this tick is untrusted: θg out of LOCKED, or jumping at this edge (R226). -/
def State.angleUntrusted (s : State) : Bool := s.cfgN Obj.WIN_ANGLE = 0 && (s.gt.state ≠ .locked || (s.sigW 0x048).getLsbD 2)

/-- Open a window at an instant, with the flags of the present tick. -/
def State.openWindow (s : State) (t : Nat) (fb : Bool) : State :=
  { s with meas := { s.meas with
      winOpen := true, winFb := fb, winS2 := false, winStart := t, win := s.sumsFrom t 0, winUntrusted := s.angleUntrusted, winRefUns := !s.meas.refSettled, winOvr := s.meas.ovr } }

/-- The flags of a window that ends: FALLBACK, then bits 2 and 3; OVERRANGE is each input's own. -/
def State.windowFlags (s : State) (fb : Bool) : Nat := b2n fb + 4 * b2n s.meas.winRefUns + 8 * b2n s.meas.winUntrusted

/-- Close the window at an instant: its results are due at the second edge after it (R226), with the scales as they stand (R227). A window
that ends in S2, or that was in progress when S2 turned the fast path off, is flagged as fall-back (R236). -/
def State.closeWindow (s : State) (t : Nat) : State :=
  let m := s.meas
  { s with meas := { m with
      winOpen := false, winFb := false, winS2 := false, endTick := some (t / tickUnits + 2), endStart := m.winStart, endFrac := t,
      endFlags := s.windowFlags (m.winFb || m.winS2 || s.pwr.state = .s2), endOvr := m.winOvr,
      endScale := (List.range 24).map fun n => s.cfg (Obj.AI_SCALE + n), endFast := m.win.plus (s.sumsFrom t 0) (-1) } }

/-- The instant between the last two edges at which the window angle has turned by `d` since the first of them (R225, R232). -/
def State.turnedBy (s : State) (up : Bool) (d : Int) : Nat :=
  (((s.tick.now : Int) - 1) * tickUnits + quotient up (d * tickUnits) (max 1 s.winAngle.2)).toNat

/-- A window boundary between the last two edges (R225, R232). -/
def State.boundary (s : State) (up : Bool) : State :=
  let t := s.turnedBy up (BitVec.ofNat 64 (s.cfgN Obj.WIN_ANCHOR * 2 ^ 32) - s.winAngle.1).toNat
  let s := { s with meas := { s.meas with lastBound := t, fbTurns := s.meas.fbTurns + 1 } }
  if s.meas.winFb then s
  else
    let s := if s.meas.winOpen then s.closeWindow t else s
    if s.inFallback then { s with meas := { s.meas with fbTurns := if s.meas.endFrac = t then 0 else s.meas.fbTurns } }
    else s.openWindow t false

/-- The integrating converter powers up in fall-back (R232). -/
def State.fbPowerUp (s : State) : State :=
  if s.integRuns && s.inFallback && s.anchorPassed && !s.meas.winOpen && !s.meas.fbPowered && s.cfgN Obj.WIN_FB_EVERY ≤ s.meas.fbTurns then
    { s with meas := { s.meas with fbPowered := true, fbPowerAt := s.meas.lastBound, fbTurns := 0 } }
  else s

/-- Ticks from power-up to the start of a fall-back window: 1.6 ms. -/
def fbSettle : Nat := 6400

/-- The window in progress at a tick edge: its flags, and the one-tick mark of new results. -/
def State.windowEdge (s : State) : State :=
  let m := s.meas
  let s := { s with meas := { m with
    winUntrusted := m.winUntrusted || s.angleUntrusted, winRefUns := m.winRefUns || !m.refSettled,
    winOvr := List.zipWith (· || ·) m.winOvr m.ovr, fresh := false } }
  if m.fresh then s else s.setSig 0x036 (s.sigW 0x036 &&& 0xFFFFFFEF)

/-- A fall-back window in the tick that ends (R232): it starts 1.6 ms after power-up, and ends when θw has turned by one turn since; a
converter that has powered up for none powers down when fall-back ends. -/
def State.fallbackTick (s : State) : State :=
  let m := s.meas
  let t := m.fbPowerAt + fbSettle * tickUnits
  let now := s.tick.now * tickUnits
  if m.winOpen && m.winFb then
    let r := m.winRot + s.winAngle.2
    if 2 ^ 64 ≤ r then
      let s := s.closeWindow (s.turnedBy false (2 ^ 64 - m.winRot))
      { s with meas := { s.meas with fbPowered := false } }
    else { s with meas := { m with winRot := r } }
  else if m.winOpen || !m.fbPowered then s
  else if !s.inFallback then { s with meas := { m with fbPowered := false } }
  else if s.integRuns && decide (t ≤ now) then
    let s := s.openWindow t true
    { s with meas := { s.meas with winRot := floorDiv (s.winAngle.2 * ((now : Int) - t)) tickUnits } }
  else s

/-! ### Window results (R226 to R229) -/

/-- One LSB of a result is 2^-23 V: a result in volts scaled to the base of its role, per unit. -/
def lsbPu (scale v : Int) : Int := floorDiv (v * scale * 2 ^ 37) (10 ^ 6)

/-- The result word: 28 significant bits and the flags. -/
def resultWord (v : Int) (flags : Nat) : Word := BitVec.ofInt 32 (clampInt (-(2 ^ 27)) (2 ^ 27 - 1) v * 16 + flags)

/-- Flags of one input's results; `ovl` are the overloads of the integrating converters. -/
def Meas.inputFlags (m : Meas) (ovl : List Bool) (n : Nat) : Nat := m.endFlags + 2 * b2n (flag m.endOvr n || flag ovl n)

/-- A window quantity of the input of a role, per unit, with the scale at the window's end (R227); 0 unassigned. -/
def State.roleRes (s : State) (ai : List AiWindow) (f : AiWindow → Int) (r : Nat) : Int :=
  match s.roleInput r with
  | some n => match ai[n]? with | some a => lsbPu (s.meas.endScale.getD n 0) (f a) | none => 0
  | none => 0

/-- The window quantities (R227). -/
def State.windowQuantities (s : State) (ai : List AiWindow) (len : Nat) : State :=
  let ip := s.roleRes ai AiWindow.ip
  let qd := s.roleRes ai AiWindow.qd
  let ph := fun x => (ip (1 + x), qd (1 + x), ip (4 + 2 * x) - ip (5 + 2 * x), qd (4 + 2 * x) - qd (5 + 2 * x))
  let xs := (List.range 3).map ph
  let p := floorDiv (xs.map fun v => mulPu v.1 v.2.2.1 + mulPu v.2.1 v.2.2.2).sum 3
  let q := floorDiv (xs.map fun v => mulPu v.2.1 v.2.2.1 - mulPu v.1 v.2.2.2).sum 3
  let vac := floorDiv (xs.map fun v => sqrtPu (mulPu v.1 v.1 + mulPu v.2.1 v.2.1)).sum 3
  let vdc := s.roleRes ai AiWindow.mean 10 - s.roleRes ai AiWindow.mean 11
  let fuHz := (clampInt 0 (2 ^ 32 - 1) (roundDiv (8192 * 10 ^ 12) (max 1 len))).toNat
  let s := { s with meas := { s.meas with
    winLen := len, fWin := fuHz, winP := p, winQ := q, winVac := vac, winVdc := vdc, winCount := s.meas.winCount + 1 } }
  let s := (((s.setPu 0x030 2 p).setPu 0x031 2 q).setPu 0x032 2 vac).setPu 0x033 2 vdc
  (s.setPu 0x034 1 (floorDiv (fuHz * pu) (s.fNom * 10 ^ 6) - pu)).setSigN 0x035 s.meas.winCount

/-- Energy of a window (R228), in 2^-60 kVA times 1/2048 tick. -/
def State.windowEnergy (s : State) (start stop : Nat) : State :=
  let from_ := s.meas.lastCounted.getD start
  let e := s.meas.winP * s.cfg Obj.S_BASE * ((stop : Int) - from_)
  { s with meas := { s.meas with
      expE := s.meas.expE + max 0 e, impE := s.meas.impE + max 0 (-e), lastCounted := some stop,
      energyRos := s.meas.energyRos || from_ ≠ start } }

/-- Wh of an energy counter. -/
def energyWh (e : Int) : Nat := (floorDiv (e * 1000) (pu * 3600 * 4000000 * 2048)).toNat

/-- MEAN_fast, IP_fast and QD_fast of an input over the ended window, in 1/64 nV (R229). -/
def FastSums.results (x : FastSums) (n : Nat) : Int × Int × Int :=
  (floorDiv (x.mean.getD n 0) x.weight, floorDiv (2 * x.sine.getD n 0) x.weight, floorDiv (2 * x.cosine.getD n 0) x.weight)
/-- TRMS of an input in µV (R226); no value is stated for a window in which the fast path did not run (log entry 55). -/
def FastSums.trms (x : FastSums) (n : Nat) (open_ : Int) : Nat :=
  if x.weight ≤ 0 then open_.toNat else Nat.sqrt (floorDiv (x.square.getD n 0) x.weight).toNat / 64000

/-- A result of the integrating path in 1/64 nV. -/
def lsbFine (v : Int) : Int := floorDiv (v * 64 * 10 ^ 9) (2 ^ 23)

/-- Corrections of one input (R229): new offset and gain, and whether one is at its limit; `f` are the fast path's results. -/
def driftStep (mode : Nat) (offs gain open_ : Int) (a : AiWindow) (f : Int × Int × Int) : Int × Int × Bool :=
  let o := clampInt (-51200000) 51200000 (offs + floorDiv (f.1 - lsbFine a.mean) (16 * 64))
  let m2 := a.ip * a.ip + a.qd * a.qd
  let mag := Nat.sqrt ((lsbFine a.ip) ^ 2 + (lsbFine a.qd) ^ 2).toNat
  let fast := Nat.sqrt (f.2.1 ^ 2 + f.2.2 ^ 2).toNat
  let g0 : Int := if fast = 0 then open_ else floorDiv (mag * pu) fast
  let lo := floorDiv (995 * pu) 1000
  let hi := floorDiv (1005 * pu) 1000
  let g := if mode = 2 ∧ 2 ^ 44 ≤ m2 then clampInt lo hi (mulPu gain (pu + floorDiv (g0 - pu) 16)) else gain
  (o, g, o = 51200000 || o = -51200000 || g = lo || g = hi)

/-- Drift tracking of one input after a window. -/
def State.driftInput (s : State) (ovl : List Bool) (n : Nat) (a : AiWindow) : State :=
  let mode := s.cfgN (Obj.AI_DRIFT + n)
  let x := s.meas.endFast
  if mode = 0 || s.meas.inputFlags ovl n ≠ 0 || !s.fastRuns || x.weight ≤ 0 then s
  else
    let r := driftStep mode (s.meas.offs.getD n 0) (s.meas.gain.getD n pu) (Config.openValue (s.free + n)) a (x.results n)
    let hit := r.2.2 && !flag s.meas.driftEp n
    let m := s.meas
    let s := { s with meas := { m with
      offs := m.offs.set n r.1, gain := m.gain.set n r.2.1, driftEp := setFlag m.driftEp n r.2.2,
      driftCount := m.driftCount + b2n hit, driftRos := m.driftRos || hit } }
    if hit then s.post 0x2602 n [] else s

/-- One input's results (R226). -/
def State.aiResult (s : State) (ovl : List Bool) (n : Nat) (a : AiWindow) : AiResult :=
  let f := s.meas.inputFlags ovl n
  { mean := resultWord a.mean f, ip := resultWord a.ip f, qd := resultWord a.qd f
    trms := s.meas.endFast.trms n (Config.openValue (s.free + 24 + n)) }

/-- WINDOW_RESULT: the results of the window that has ended, at the second edge after its end (R226). -/
def State.windowDone (s : State) (ovl : List Bool) (ai : List AiWindow) : State :=
  let m := s.meas
  let used := (List.range 24).filter fun n => 0 < s.cfgN (Obj.AI_ROLE + n)
  let res := ai.zipIdx.map fun p => s.aiResult ovl p.2 p.1
  let s := { s with meas := { m with results := res, endTick := none, fresh := true, fbWindows := m.fbWindows + b2n (m.endFlags % 2 = 1) } }
  let s := (s.windowQuantities ai (m.endFrac - m.endStart)).windowEnergy m.endStart m.endFrac
  let s := s.setSigN 0x036 (16 + used.foldl (fun b n => b ||| m.inputFlags ovl n) 0)
  let s := (ai.zipIdx).foldl (fun s p => s.driftInput ovl p.2 p.1) s
  { s with free := s.free + 48 }

/-- Results are due at the next edge. -/
def State.resultsDue (s : State) : Bool := match s.meas.endTick with | some k => decide (k ≤ s.nextTick) | none => false
def State.windowResult (s : State) (ovl : List Bool) (ai : List AiWindow) : State :=
  if s.resultsDue then s.windowDone ovl ai else s

/-! ### The reference (R230, R231) -/

/-- V_REF_NOM in 0.1 mV (R230). -/
def State.refNominal (s : State) : Nat :=
  match s.cfgN Obj.REF_SEL with | 1 => s.cfgN Obj.REF_IN_NOM | 2 => 30000 | _ => 25000

/-- The reference chosen by the objects acts from the start of a window. -/
def State.takeReference (s : State) : State :=
  let r := s.cfgN Obj.REF_SEL
  let m := s.meas
  let moved := r ≠ m.refInUse
  { s with meas := { m with
      refInUse := r, refNom := s.refNominal, refSettled := m.refSettled && !moved, refReadings := if moved then [] else m.refReadings } }

/-- The 1 ms reading of the chosen reference, in nV (R231). -/
def State.refCheck (s : State) (r : Int) : State :=
  let m := s.meas
  let out := m.refInUse = 1 && (decide (r < 2400000000) || decide (2600000000 < r))
  let rs := (r :: m.refReadings).take 16
  let wide := rs.foldl max r - rs.foldl min r
  let within := rs.length = 16 && decide (wide * 16 * 10 ^ 6 ≤ 20 * rs.sum)
  let m' :=
    if out then { m with refSettled := false, refReadings := [], refLost := true, refLostRos := true }
    else if m.refSettled then
      if decide (20 * m.refMean < |r - m.refMean| * 10 ^ 6) then { m with refSettled := false, refReadings := [r], refLost := false }
      else { m with refLost := false }
    else if within then { m with refSettled := true, refMean := floorDiv rs.sum 16, refReadings := [], refLost := false }
    else { m with refReadings := rs, refLost := false }
  let s' := { s with meas := m' }
  if out && !m.refLost then s'.post 0x2603 noInst [] else s'

/-! ### VANA (R233) -/

/-- Ticks that qualify a VANA threshold. -/
def vanaTicks : Nat := 40

/-- VANA ceases to be present. -/
def State.vanaLost (s : State) (mv ticks : Nat) : State :=
  if s.meas.vanaOk && decide (mv < 10800) && vanaTicks ≤ ticks then
    let s := s.discardWindow
    let act := if s.conv.state = .run || s.conv.state = .scs then s.tripNamed Obj.MEAS_TRIP_INPUT else []
    { s with pwr := { s.pwr with anaOk := false }, meas := { s.meas with
        vanaOk := false, vanaMv := mv, refSettled := false, refReadings := [], fbPowered := false, vanaAssert := act } }.post 0x2604 noInst []
  else s

/-- VANA is present again: its trip input is released. -/
def State.vanaPresent (s : State) (mv ticks : Nat) : State :=
  if !s.meas.vanaOk && decide (11000 < mv) && vanaTicks ≤ ticks then
    { s with meas := { s.meas with vanaOk := true, vanaMv := mv, vanaAssert := [] } }
  else s

/-- VANA enters or leaves its low range. -/
def State.vanaLowChange (s : State) (mv ticks : Nat) : State :=
  if vanaTicks ≤ ticks && (if s.meas.vanaLow then decide (11800 < mv) else decide (mv < 11700)) then
    { s with meas := { s.meas with vanaLow := !s.meas.vanaLow, vanaMv := mv } }
  else s

/-- A write of DRIFT_CLEAR (R229). -/
def State.driftClear (s : State) (bm : Nat) : State :=
  let m := s.meas
  { s with meas := { m with
      offs := m.offs.mapIdx fun n x => if bm.testBit n then 0 else x
      gain := m.gain.mapIdx fun n x => if bm.testBit n then pu else x
      driftEp := m.driftEp.mapIdx fun n b => b && !bm.testBit n } }

end Sys2Proof.Machine
end

