-- ==== Sys2Proof/Machine/Regulator.lean ====
section
/-!
DEFINITION. The regulator (R237 to R244), module time and PTP (R245 to R251). Frequency offsets are in 0.001 ppm, rates of the
servo in 10^-12, times in ns.
-/
namespace Sys2Proof.Machine

/-! ### The synthesiser (R237, R246) -/

/-- N_INT: 480 with a 25 MHz reference, 1,200 with a 10 MHz one (R238); the OCXO runs at 25 MHz. -/
def State.nInt (s : State) : Nat := if s.reg.refclk && s.cfgN Obj.REFCLK_IN_FREQ = 0 then 1200 else 480
/-- Reference frequency in Hz. -/
def State.refHz (s : State) : Nat := 12000000000 / s.nInt
/-- The divider ratio N in 2^-32: N_INT, and N_FRAC for the offset in effect (R237). -/
def State.divider (s : State) : Int := s.nInt * 2 ^ 32 + roundDiv (s.nInt * 2 ^ 32 * s.reg.offs) (10 ^ 9)
/-- N_FRAC, in 32 bits; below nominal it counts from the whole number beneath. -/
def State.nFrac (s : State) : Nat := (s.divider % 2 ^ 32).toNat
/-- Dividers of the outputs (R237): the engine clock by level, the tick, the SerDes reference. -/
def levelDivider (pl : Nat) : Nat := [12, 15, 20, 30].getD pl 12
def tickDivider : Nat := 3000
def serdesDivider : Nat := 192
/-- Divider of REFCLK_OUT; none while it is low: by REFCLK_OUT_FREQ, or gated off (R246). -/
def State.refclkDivider (s : State) : Option Nat :=
  if s.reg.gated then none else match s.cfgN Obj.REFCLK_OUT_FREQ with | 1 => some 1200 | 2 => some 480 | _ => none
/-- Frequency of an output in 2^-32 Hz; 0 while the outputs are gated off (R241). -/
def State.outputHz (s : State) (d : Nat) : Int := if s.reg.gated then 0 else floorDiv (s.divider * s.refHz) d

/-- VCO periods of one nanosecond of module time: the tick of 250 ns has 3,000 (R237). -/
def vcoPerNs : Nat := 12
/-- 1PPS_OUT at the edge of tick k (R246): a pulse rises in the tick in which module time passes a whole second, at its VCO period. A pulse
under way keeps its width unless the next one rises in it. -/
def State.ppsEdge (s : State) : State :=
  let ns := (-(s.timeOf s.tick.now)) % 1000000000
  if ns < 250 && s.cfgN Obj.PPS_WIDTH ≠ 0 then
    { s with time := { s.time with pulse := some ⟨s.tick.now, ns.toNat * vcoPerNs, s.cfgN Obj.PPS_WIDTH⟩ } }
  else s
/-- The level of 1PPS_OUT at a VCO period of the present tick. A pulse under way completes its width when the outputs are gated off (R241,
R246); none begins then, since no tick does. -/
def State.ppsHigh (s : State) (vco : Nat) : Bool :=
  match s.time.pulse with
  | some p =>
    let t := s.tick.now * tickDivider + vco
    let r := p.tick * tickDivider + p.vco
    decide (r ≤ t) && decide (t < r + p.ms * 1000000 * vcoPerNs)
  | none => false

/-! ### Reference and lock (R238, R240 to R242) -/

/-- A source of the loop is good; `r` means REFCLK_IN. -/
def Reg.good (g : Reg) (r : Bool) : Bool := if r then g.refclkOk else g.ocxoOk

/-- Switch the loop to the other source with phase build-out (R238). -/
def State.refSwitch (s : State) (r : Bool) : State :=
  ({ s with reg := { s.reg with refclk := r, refRos := true, refSwitches := s.reg.refSwitches + 1 } }.condEvent 56).post 0x2701 noInst
    [BitVec.ofNat 8 (b2n r)]

/-- The tick stops: outputs are gated off, and the window in progress is discarded (R241, R226). -/
def State.unlock (s : State) (aonLost : Bool) : State :=
  let s := s.discardWindow
  { s with meas := { s.meas with fbPowered := false }, reg := { s.reg with
      locked := false, gated := true, slipped := true, low := true, lockA := false, lockLostRos := true, lockLoss := s.reg.lockLoss + 1
      aonLost := s.reg.aonLost || aonLost } }.post 0x2703 noInst []

/-- The source in use is lost: the other one takes over, or the loop unlocks (R238). -/
def State.refGone (s : State) : State :=
  if s.reg.good (!s.reg.refclk) then s.refSwitch (!s.reg.refclk)
  else if s.ticking then s.unlock true else { s with reg := { s.reg with aonLost := true } }

/-- A source is declared lost after two missing edges (R238). -/
def State.refLoss (s : State) (r : Bool) (missing : Nat) : State :=
  if missing < 2 || !s.reg.good r then s
  else
    let s := { s with reg := if r then { s.reg with refclkOk := false } else { s.reg with ocxoOk := false } }
    if s.reg.refclk ≠ r then s else s.refGone

/-- A write of REG_REF that names the other source switches (R238); from a source that is lost the loop goes as it does at a loss (log
entry 56). -/
def State.refWrite (s : State) (r : Bool) : State :=
  if s.reg.refclk = r then s
  else
    let s := s.refSwitch r
    if s.reg.good r then s else s.refGone

/-- A source is good again after 10 ms of clean edges. -/
def State.refGood (s : State) (r : Bool) (cleanUs : Nat) : State :=
  if cleanUs < 10000 then s else { s with reg := if r then { s.reg with refclkOk := true } else { s.reg with ocxoOk := true } }

/-- Where the always-on count is lost with the reference, the ticks do not go on where time does: a pulse of 1PPS_OUT has ended in the gap, and
the next rises at the next whole second, with its full width (R241, R246). -/
def State.pulseKept (s : State) (counted : Bool) : State := { s with time := { s.time with pulse := if counted then s.time.pulse else none } }

/-- Number the first tick after a lock (R242): `aon` is the always-on count since the last edge in 40 ns units. -/
def State.renumber (s : State) (aon : Option Nat) : State :=
  if !s.tick.started then s
  else
    let base := s.tick.now + 1
    let n := match aon with | some u => if s.reg.aonLost then base else max base (s.tick.now + 40 * u / 250) | none => base
    let s := s.pulseKept (!s.reg.aonLost && aon.isSome)
    let s := { s with
      tick := { s.tick with next := n }, reg := { s.reg with skipped := s.reg.skipped + (n - base), aonLost := false }
      pwr := { s.pwr with uptimeTicks := s.pwr.uptimeTicks + 40 * aon.getD 0 / 250 } }
    if base < n then s.post 0x2705 noInst (beBytes 8 (n - base)) else s

/-- LOCK_S has risen through 2.0 V (R240): a rise that began below 0.5 V declares lock within its window of time, another one always. A lost
lock that is declared again is logged (R241). -/
def State.lockDeclared (s : State) (riseUs : Nat) (aon : Option Nat) : State :=
  if s.reg.locked then s
  else if s.reg.low && (decide (riseUs < 500) || decide (1500 < riseUs)) then
    { s with reg := { s.reg with filterRos := true, low := false } }.post 0x2702 noInst []
  else
    let s := if s.reg.gated then s.renumber aon else s
    let again := s.reg.slipped
    let s := { s with reg := { s.reg with locked := true, gated := false, slipped := false, low := false, lockA := true } }
    if again then s.post 0x2704 noInst [] else s

/-- LOCK_A is forced low for 2 ms after a slip (R241), in µs. -/
def lockALow : Nat := 2000
/-- The phase error of a reference cycle (R240, R241): within 1 ns it drives LOCK_A high, beyond 2 ns it is a slip, in a loop that is
re-acquiring too; `since`: µs since the last one. -/
def State.slip (s : State) (ps since : Nat) : State :=
  if ps ≤ 2000 then { s with reg := { s.reg with lockA := decide (ps ≤ 1000) && (!s.reg.slipped || decide (lockALow ≤ since)) } } else s.unlock false

/-- LOCK_S has fallen below 1.8 V: loss of lock is declared (R240); only a slip gates the outputs. -/
def State.lockLoss (s : State) (mv : Nat) : State :=
  if 1800 ≤ mv then s else { s with reg := { s.reg with locked := false, low := s.reg.low || decide (mv < 500) } }

/-! ### Retuning and ramps (R239, R243, R244) -/

/-- ±100 ppm and 20 ppm (R237, R239). -/
def smallLimit : Int := 100000
def smallStep : Int := 20000

/-- The regulator at a tick boundary: small steps toward its word, or the ramp in progress. -/
def State.regEdge (s : State) : State :=
  let g := s.reg
  if !g.ramp then { s with reg := { g with offs := g.offs + clampInt (-smallStep) smallStep (g.word - g.offs) } }
  else
    match g.rampRun with
    | none => s
    | some (from_, r, start) =>
      let len := 4 * r.duration
      let n := s.tick.now - start
      if len ≤ n then { s with reg := { g with offs := r.target * 10, rampRun := none } }
      else { s with reg := { g with offs := from_ + floorDiv ((r.target * 10 - from_) * n) len } }

/-- A queued ramp starts at the next boundary. -/
def State.rampStart (s : State) : State :=
  match s.reg.rampQ with
  | r :: rs =>
    if s.reg.ramp && s.reg.rampRun.isNone && s.ticking then
      { s with reg := { s.reg with rampQ := rs, rampRun := some (s.reg.offs, r, s.nextTick) } }
    else s
  | [] => s

/-- RAMP_BUSY: a ramp runs or is queued (R258). -/
def Reg.rampBusy (g : Reg) : Bool := g.rampRun.isSome || !g.rampQ.isEmpty

/-- What a write of RAMP_CMD answers when it is refused (R244). -/
def State.rampJudge (s : State) (w : Nat) : Option Ans :=
  let t := (BitVec.ofNat 24 (w / 2 ^ 32)).toInt
  if w / 2 ^ 56 ≠ 0xA1 || 200000 < |t| then some (Ans.st stRange)
  else if 8 ≤ s.reg.rampQ.length then some (Ans.st stBusy) else none
/-- Queue the ramp. -/
def State.rampPush (s : State) (w : Nat) : State :=
  { s with reg := { s.reg with rampQ := s.reg.rampQ ++ [⟨(BitVec.ofNat 24 (w / 2 ^ 32)).toInt, w % 2 ^ 32⟩] } }

/-- REG_STATUS (R258). -/
def State.regStatus (s : State) : Nat :=
  let g := s.reg
  b2n (g.locked && !g.gated) + 2 * b2n g.lockLostRos + 4 * b2n g.ramp + 8 * b2n g.refclk + 16 * b2n g.ocxoOk + 32 * b2n g.refclkOk +
    256 * b2n g.rampBusy + 512 * b2n (g.ramp && Config.clampActing s.tick.now) + 1024 * b2n g.refRos + 2048 * b2n g.filterRos

/-! ### Time states (R249, R250) -/

/-- The median of a list; of two middle values their mean, rounded down. -/
def medianInsert (x : Int) : List Int → List Int
  | [] => [x]
  | y :: ys => if x ≤ y then x :: y :: ys else y :: medianInsert x ys
def sortInts (l : List Int) : List Int := l.foldr medianInsert []
def median (l : List Int) : Int :=
  let m := sortInts l
  floorDiv (m.getD ((l.length - 1) / 2) 0 + m.getD (l.length / 2) 0) 2

/-- Change the time state with its cause, logged. In HOLDOVER and FREE the slew term is 0. -/
def State.timeSet (s : State) (st : TimeState) (cause : Nat) : State :=
  let old := s.time.state
  if old = st then s
  else
    let leave := old = .locked
    let s := { s with
      time := { s.time with
        state := st, holdSince := if st = TimeState.holdover then s.tick.now else s.time.holdSince, r := if leave then s.time.fEst else s.time.r, slewing := s.time.slewing && !leave }
      reg := { s.reg with word := if leave && !s.reg.ramp then clampInt (-smallLimit) smallLimit (floorDiv s.time.fEst 1000) else s.reg.word } }
    s.post 0x2706 noInst [BitVec.ofNat 8 old.code, BitVec.ofNat 8 st.code, BitVec.ofNat 8 cause]

/-- Enter HOLDOVER; HOLDOVER_MAX = 0 makes it FREE at once. -/
def State.holdover (s : State) (cause : Nat) : State :=
  if s.time.state ≠ .locked then s
  else
    let s := s.timeSet .holdover cause
    if s.cfgN Obj.HOLDOVER_MAX = 0 then s.timeSet .free 6 else s

/-- HOLDOVER_MAX has passed. -/
def State.holdoverExpired (s : State) (heldS : Nat) : State :=
  if s.time.state = .holdover && s.cfgN Obj.HOLDOVER_MAX ≤ heldS then s.timeSet .free 6 else s

/-- Eight consecutive measurements qualify: each lies within 1 µs of their median. -/
def TimeS.qualified (t : TimeS) : Bool :=
  t.offs8.length = 8 && t.offs8.all fun o => decide (|o - median t.offs8| ≤ 1000)

/-- Enter LOCKED; the first entry after power-up asks for the one step (R249). -/
def State.timeLock (s : State) : State :=
  let first := s.time.state = .free && !s.time.stepDone && s.time.stepPending.isNone
  let s := s.timeSet .locked 0
  if first then { s with time := { s.time with stepPending := some (median s.time.offs8) } } else s

/-- The servo on a new measurement (R250). -/
def State.servo (s : State) (intervalNs : Nat) (ratio : Int) : State :=
  let t := s.time
  let oF := median t.offs5
  let fEst := t.fEst + floorDiv ((ratio - t.fEst) * intervalNs) (10 ^ 9 * s.cfg Obj.PTP_FREQ_TAU)
  let lim := s.cfg Obj.SLEW_LIMIT * 100000
  let want := floorDiv (-oF * 1000) (s.cfg Obj.PTP_TAU)
  let r := fEst + clampInt (-lim) lim want
  { s with
    time := { t with oF := oF, fEst := fEst, r := r, slewing := decide (lim ≤ |want|), measured := true }
    reg := { s.reg with word := clampInt (-smallLimit) smallLimit (floorDiv r 1000) } }

/-- The PTP port runs (R386, R388); a wake from S3 enables it at W2, before its steps W3 to W5 (R381). -/
def State.ptpRuns (s : State) : Bool := (!s.domainOff .time || s.pwr.waking.isSome) && !s.portsOff

/-- The PTP port takes part: it is on, and the message is of its domain (R247). -/
def State.ptpHears (s : State) (domain : Nat) : Bool := s.cfgN Obj.PTP_MODE ≠ 0 && s.cfgN Obj.PTP_DOMAIN = domain && s.ptpRuns

/-- A Sync with its offset measurement: module time less master time, before the asymmetry of the link, and the measured rate ratio
less 1 (R248 to R250). -/
def State.ptpSync (s : State) (domain intervalNs : Nat) (measured ratio : Int) : State :=
  if !s.ptpHears domain || !s.time.gmPresent || s.time.master then s
  else
    let o := measured - s.cfg Obj.PTP_ASYM
    let t := s.time
    let s := { s with time := { t with offs8 := (o :: t.offs8).take 8, offs5 := (o :: t.offs5).take 5 } }
    if s.time.state = .locked then if s.reg.ramp then s else s.servo intervalNs ratio
    else if s.time.qualified && !s.reg.ramp then s.timeLock
    else s

/-- The one step of module time at a tick boundary (R249). -/
def State.stepEdge (s : State) : State :=
  match s.time.stepPending with
  | none => s
  | some m =>
    let from_ := s.timeOf s.tick.now
    let t := s.time
    { s with time := { t with
        epoch := t.epoch - m, stepPending := none, stepDone := true, stepFrom := from_, stepTo := from_ - m, stepTick := s.tick.now
        offs8 := [], offs5 := [] } }.post 0x2707 noInst (beBytes 8 (clampInt (-(2 ^ 63)) (2 ^ 63 - 1) (-m) % 2 ^ 64).toNat)

/-- What the module ranks itself by (R247). -/
def State.ownMaster (s : State) : PtpMaster :=
  { priority1 := s.cfgN Obj.PTP_PRIORITY1, clockClass := 248, accuracy := Config.clockAccuracy, variance := Config.clockVariance
    priority2 := s.cfgN Obj.PTP_PRIORITY2, gmIdentity := Config.clockIdentity, steps := 0 }

/-- The attributes in the order in which IEEE 1588 compares them. -/
def masterRank (m : PtpMaster) : List Nat := [m.priority1, m.clockClass, m.accuracy, m.variance, m.priority2, m.gmIdentity.toNat]
/-- The first of two lists of equal length is lower at the first place at which they differ. -/
def lexLower : List Nat → List Nat → Bool
  | x :: xs, y :: ys => decide (x < y) || (x == y && lexLower xs ys)
  | _, _ => false
/-- The better of two masters: of one grandmaster the nearer, else by rank (PRESUMED from IEEE 1588-2019, log entry 56). -/
def betterMaster (a b : PtpMaster) : Bool :=
  if a.gmIdentity = b.gmIdentity then decide (a.steps < b.steps) else lexLower (masterRank a) (masterRank b)

/-- The best master clock algorithm takes an Announce: it comes from the master selected, or from a better one. -/
def State.bestTaken (s : State) (a : Announce) : Bool :=
  match s.time.best with | none => true | some (p, m) => p = a.sender || betterMaster a.master m

/-- An Announce message (R245, R247, R249). A port that may be master is so while it ranks before the best master it hears. -/
def State.ptpAnnounce (s : State) (a : Announce) : State :=
  if !s.ptpHears a.domain || !s.bestTaken a then s
  else if !s.cfgB Obj.PTP_SLAVE_ONLY && betterMaster s.ownMaster a.master then
    { s with time := { s.time with best := some (a.sender, a.master), gmPresent := false, master := true } }
  else
    let t := s.time
    let gm := a.master.gmIdentity
    let new := t.gm ≠ 0 && gm ≠ t.gm
    let s := { s with time := { t with
      best := some (a.sender, a.master), gm := gm, gmPresent := true, master := false, utc := a.utcOffset, utcValid := a.utcValid
      gmRos := t.gmRos || new } }
    if new then s.post 0x2708 noInst (beBytes 8 gm.toNat) else s

/-- The port restarts (R257). -/
def State.ptpRestart (s : State) : State :=
  { s with time := { s.time with gmPresent := false, best := none, master := false, offs8 := [], offs5 := [], reqOut := 0 } }

/-- The announce receipt timeout: the master is lost, and a port that may does become master (R247, R249). -/
def State.announceTimeout (s : State) : State :=
  if s.cfgN Obj.PTP_MODE = 0 then s
  else
    let s := { s with time := { s.time with gmPresent := false, best := none, master := !s.cfgB Obj.PTP_SLAVE_ONLY } }
    s.holdover 2

/-- The port sends messages (R247, R248): over UDP/IPv4 from its address, with a UDP checksum of 0. -/
def State.ptpSend (s : State) (m : List PtpMsg) : State :=
  let udp := if s.cfgN Obj.PTP_TRANSPORT = 1 then some (BitVec.ofNat 32 (s.cfgN Obj.PTP_IPV4), 0) else none
  { s with time := { s.time with out := s.time.out ++ m.map fun x => ⟨x, udp⟩ } }

/-- The delay mechanism is peer-to-peer. -/
def State.peerDelay (s : State) : Bool := s.cfgN Obj.PTP_MODE = 1 || s.cfgN Obj.PTP_MODE = 3

/-- The request interval has passed. -/
def State.delayReqTx (s : State) : State :=
  if s.cfgN Obj.PTP_MODE = 0 || !s.ptpRuns then s
  else { s.ptpSend [if s.peerDelay then .pdelayReq else .delayReq] with
         time := { (s.ptpSend [if s.peerDelay then .pdelayReq else .delayReq]).time with reqOut := 1 } }

/-- A delay response completes the measurement that is out. -/
def State.delayResp (s : State) (domain mean : Nat) (peer : Bool) : State :=
  if s.ptpHears domain && s.peerDelay = peer && s.time.reqOut = 1 then { s with time := { s.time with path := mean, reqOut := 0 } } else s

/-- A Pdelay_Req is answered with its turnaround and a requestReceiptTimestamp of 0 (R248). -/
def State.pdelayReq (s : State) (domain : Nat) (requester : List Byte) (turnaround : Nat) : State :=
  if s.ptpHears domain && s.peerDelay then s.ptpSend [.pdelayResp requester turnaround 0] else s

/-- A port in MASTER sends a one-step Sync and an Announce (R247, R248): the departure lies at a free instant of the tick. -/
def State.masterTx (s : State) : State :=
  if s.cfgN Obj.PTP_MODE ≠ 0 && !s.cfgB Obj.PTP_SLAVE_ONLY && s.time.master && s.ptpRuns then
    let x := Config.openValue s.free % (250 * 2 ^ 16)
    let t := secNs (s.timeOf s.tick.now + x / 2 ^ 16)
    s.fresh.ptpSend [.sync t.1 t.2 (x % 2 ^ 16).toNat, .announce s.ownMaster s.time.utc s.time.utcValid]
  else s

/-- A management message is answered when it does not write (R247). -/
def State.management (s : State) (domain : Nat) (dataset : BitVec 16) (write : Bool) : State :=
  if s.ptpHears domain && !write then s.ptpSend [.management dataset] else s

/-- No Sync has come within three intervals (R249). -/
def State.syncTimeout (s : State) : State := if s.cfgN Obj.PTP_MODE = 0 then s else s.holdover 1

/-- PTP_MODE has been written (R249). -/
def State.ptpModeSet (s : State) (v : Nat) : State :=
  if v = 0 then s.timeSet .free 7 else s.holdover 3

/-- IN_TOL: o_f has been formed and lies within TIME_TOL as it stands (R250). -/
def State.inTol (s : State) : Bool := s.time.measured && decide (|s.time.oF| ≤ s.cfg Obj.TIME_TOL)

/-- TIME_STATUS (R259). -/
def State.timeStatus (s : State) : Nat :=
  let t := s.time
  b2n t.gmPresent + 2 * b2n t.master + 4 * t.state.code + 16 * b2n s.inTol + 32 * b2n t.slewing + 64 * b2n t.gmRos +
    128 * b2n t.utcValid + 256 * b2n t.stepDone + 512 * b2n s.sched.lateRos

/-- A mode change of the regulator (R243): a write of the mode in effect changes nothing. -/
def State.regMode (s : State) (ramp : Bool) : State :=
  if s.reg.ramp = ramp then s
  else
    let s := { s with reg := { s.reg with ramp := ramp, word := if ramp then s.reg.word else s.reg.offs } }
    if ramp then s.holdover 4 else s

end Sys2Proof.Machine
end

