-- ==== Sys2Proof/Machine/Chrono.lean ====
section
/-!
DEFINITION. The condition vector (R261), the chronograph and its records (R263 to R273, R276), and what the log does at a window's end
and under LOG_ACK (R280, R281).
-/
namespace Sys2Proof.Machine

/-! ### The condition vector (R261) -/

/-- The level bits of the vector, numbered as R261 numbers them; `demand` is bit 62. -/
def State.condLevels (s : State) (demand : Bool) : Nat :=
  bitsNat s.trips.filtered + 2 ^ 16 * bitsNat s.lim.filtered + 2 ^ 25 * b2n (s.winner ≠ 0) + 2 ^ 26 * b2n s.fus.frt +
    2 ^ 29 * b2n s.fus.dcfActive + 2 ^ 30 * b2n s.bal.freqClamp + 2 ^ 31 * b2n s.bal.eClamp + 2 ^ 32 * bitsNat s.mod.satPos +
    2 ^ 38 * bitsNat s.mod.satNeg + 2 ^ 45 * b2n (s.arms.short.any id) + 2 ^ 46 * b2n (s.arms.redLow.any id) +
    2 ^ 48 * b2n (s.gt.state = .coasting) + 2 ^ 50 * b2n (s.conv.state = .pr) + 2 ^ 51 * b2n (s.conv.state = .scs) +
    2 ^ 55 * b2n (!s.meas.vanaOk) + 2 ^ 58 * b2n s.set.permit + 2 ^ 61 * b2n (s.sigN 0x02C ≠ 0) + 2 ^ 62 * b2n demand

/-- Form the vector at the end of beat 3: the events since the last one, the levels, and the user words. -/
def State.formVector (s : State) (demand : Bool) : State :=
  let low := BitVec.ofNat 64 (s.condLevels demand) ||| s.cond.bits
  let v : BitVec 128 := BitVec.ofNat 128 (low.toNat + 2 ^ 64 * s.sigN 0x0A4 + 2 ^ 96 * s.sigN 0x0A5)
  { s with cond := { bits := 0, vec := v } }

/-- Its words are signals from the next edge (R262). -/
def State.condSignals (s : State) : State :=
  s.setSigs 0x0A0 ((List.range 4).map fun i => BitVec.ofNat 32 (s.cond.vec.toNat / 2 ^ (32 * i)))

/-! ### Conditions (R263) -/

/-- The objects of the chronograph that are written in its IDLE only (R269). -/
def isChrObj (i : Nat) : Bool := decide (0x2800 ≤ i) && decide (i ≤ 0x28FF) && i ≠ Obj.CHR_TRAIN_JOIN
/-- The state as the chronograph sees it: outside IDLE its configuration is the one fixed at the arming (R265, R269). -/
def State.chrView (s : State) : State := if s.chr.state = .idle then s else { s with objs := s.chr.fixed }

/-- Four words of an object row as a 128-bit number. -/
def State.cfg128 (s : State) (i : Nat) : Nat := ((List.range 4).map fun n => s.cfgN (i + n) * 2 ^ (32 * n)).sum

/-- The pattern holds. -/
def State.patHolds (s : State) : Bool :=
  let m := s.cfg128 Obj.CHR_PAT_MASK
  s.cond.vec.toNat &&& m = s.cfg128 Obj.CHR_PAT_VALUE &&& m

/-- The signal of threshold `i` (0 to 3), and its memory at arming: re-armed upward, re-armed downward. -/
def State.thX (s : State) (i : Nat) : Int := s.sigI (s.cfgN (Obj.TH_SIG + i))
def State.thLevel (s : State) (i : Nat) : Int := s.cfg (Obj.TH_LEVEL + i)
def State.thHyst (s : State) (i : Nat) : Int := s.cfg (Obj.TH_HYST + i)
def State.thBelow (s : State) (i : Nat) : Bool := decide (s.thX i < s.thLevel i - s.thHyst i)
def State.thAbove (s : State) (i : Nat) : Bool := decide (s.thLevel i + s.thHyst i < s.thX i)

/-- Upward and downward crossings of threshold `i`. -/
def State.thUp (s : State) (i : Nat) : Bool := flag s.chr.thPrev (2 * i) && decide (s.thLevel i ≤ s.thX i)
def State.thDown (s : State) (i : Nat) : Bool := flag s.chr.thPrev (2 * i + 1) && decide (s.thX i ≤ s.thLevel i)
/-- Threshold `i` is met in its direction. -/
def State.thMet (s : State) (i : Nat) : Bool :=
  match s.cfgN (Obj.TH_DIR + i) with | 1 => s.thUp i | 2 => s.thDown i | 3 => s.thUp i || s.thDown i | _ => false

/-- The rate of condition 5 + `i` holds: the sample RT_SPAN ticks ago lies far enough away. -/
def State.rtHolds (s : State) (i : Nat) : Bool :=
  match (s.chr.rtHist.getD i [])[s.cfgN (Obj.RT_SPAN + i) - 1]? with
  | some y => decide (s.cfg (Obj.RT_LEVEL + i) ≤ |s.sigI (s.cfgN (Obj.RT_SIG + i)) - y|)
  | none => false

/-- Conditions 0 to 6 met in this tick, as a bitmap of those enabled. -/
def State.localMet (s : State) : Nat :=
  let pat := s.patHolds && (!s.cfgB Obj.CHR_PAT_EDGE || !s.chr.patPrev)
  let ms := pat :: (List.range 4).map s.thMet ++ (List.range 2).map fun i => s.rtHolds i && !flag s.chr.rtPrev i
  bitsNat ms &&& s.cfgN Obj.CHR_TRIG_EN

/-- Advance the memory of every condition by one tick. -/
def State.condMemory (s : State) : State :=
  let v := s.chrView
  let th := (List.range 4).flatMap fun i =>
    [if v.thUp i then false else if v.thBelow i then true else flag s.chr.thPrev (2 * i),
     if v.thDown i then false else if v.thAbove i then true else flag s.chr.thPrev (2 * i + 1)]
  let hist := (List.range 2).map fun i => (v.sigI (v.cfgN (Obj.RT_SIG + i)) :: s.chr.rtHist.getD i []).take 256
  { s with chr := { s.chr with
      patPrev := v.patHolds, thPrev := th, rtPrev := (List.range 2).map v.rtHolds, rtHist := hist } }

/-! ### Slots and arming (R265 to R268) -/

/-- Rows a slot holds. -/
def State.slotRows (s : State) : Nat :=
  let bytes := 2 ^ 32 / s.cfgN Obj.CHR_SLOTS / 4096 * 4096
  (bytes - 1024) / (4 * s.cfgN Obj.CHR_NCH)

/-- A slot is held: by an armed ring or the record in progress. -/
def Chrono.holds (x : Chrono) : Bool := x.state = .armed || x.state = .recording
/-- No slot is free. -/
def State.noSlot (s : State) : Bool := decide (s.chrView.cfgN Obj.CHR_SLOTS ≤ s.chr.records.length + b2n s.chr.holds)
/-- The chronograph can take a slot (R268). -/
def State.canArm (s : State) : Bool := !s.noSlot || s.chrView.cfgB Obj.CHR_OVERWRITE_UNREAD

/-- The record with the lowest RECORD_ID. -/
def lowestId (rs : List Record) : Nat := (rs.map (·.id)).foldl min (rs.map (·.id)).sum

/-- Take a slot, from the lowest unread record when none is free. -/
def State.takeSlot (s : State) : State × Bool :=
  if !s.noSlot then (s, false)
  else
    let id := lowestId s.chr.records
    ({ s with chr := { s.chr with
        records := s.chr.records.filter fun r => r.id ≠ id, overwrites := s.chr.overwrites + 1, overRos := true } }.post 0x2804 noInst
      (beBytes 4 id), true)

/-- Arm: a slot, the row counts, the memory of the conditions, and the entry (R266, R267); the configuration is fixed for every record of the
arming (R269). -/
def State.armChrono (s : State) (armId : Nat) (rep master : Bool) : State :=
  let (s, over_) := s.takeSlot
  let v := s.chrView
  let c := v.slotRows
  let pre := v.cfgN Obj.CHR_PRE
  let post := v.cfgN Obj.CHR_POST
  let truncPost := decide (c - 1 < post)
  let truncPre := !truncPost && decide (c < pre + post + 1)
  let x := s.chr
  { s with chr := { x with
      state := .armed, repeatOpt := rep, armId := armId, master := master, force := false, armTick := s.tick.now
      preCount := if truncPost then 0 else if truncPre then c - 1 - post else pre
      postCount := if truncPost then c - 1 else post
      truncFlags := b2n truncPost + 2 * b2n truncPre, capacity := c, ring := [], cur := none, overwrote := over_
      fixed := v.objs.filter fun p => isChrObj p.1
      full := false, firePending := none, patPrev := v.patHolds
      thPrev := (List.range 4).flatMap fun i => [v.thBelow i, v.thAbove i]
      rtPrev := [false, false], rtHist := [[], []] } }.post 0x2801 noInst (beBytes 4 armId)

/-! ### Records (R266, R273) -/

/-- The channels of a record. -/
def State.chrChannels (s : State) : List (Nat × Nat × Nat) :=
  let v := s.chrView
  (List.range (v.cfgN Obj.CHR_NCH)).map fun i => (v.cfgN (Obj.CHR_CH_SIG + i), v.cfgN (Obj.CHR_CH_FMT + i), v.cfgN (Obj.CHR_CH_FS + i))
/-- The row of this tick: the channels' signals. -/
def State.chrRow (s : State) : List Word := s.chrChannels.map fun c => s.sigW c.1

/-- Ticks at which rows fall. -/
def State.rowTick (s : State) : Bool := s.tick.now % s.chrView.cfgN Obj.CHR_DEC = 0

/-- Rows that fall after tick `t` up to tick `n`. -/
def rowsBetween (dec t n : Nat) : Nat := n / dec - t / dec

/-- The lowest bit of a bitmap of eight. -/
def lowestBit (m : Nat) : Nat := ((List.range 8).find? m.testBit).getD 0

/-- This tick as a header gives it. -/
def State.moment (s : State) : Moment :=
  { tick := s.tick.now, time := s.timeOf s.tick.now, timeQ := s.time.state.code + 4 * b2n s.inTol + 8 * b2n s.time.utcValid, utc := s.time.utc
    cond := s.cond.vec }
/-- A tick as a header gives it. One that has not run, or that a loss of the feeds has effaced, has no condition vector: the rest is free (log
entry 57). -/
def State.momentOf (s : State) (t : Nat) : Moment :=
  match s.chr.past.find? fun m => m.tick == t with
  | some m => m
  | none => { tick := t, time := s.timeOf t, timeQ := s.freeNat % 16, utc := Config.openValue (s.free + 1) % 2 ^ 15
              cond := BitVec.ofInt 128 (Config.openValue (s.free + 2)) }

/-- The rows a record starts with (R266): the pre rows, the trigger row, and the post rows taken since; oldest first, with their ticks. -/
def Chrono.rowsAt (x : Chrono) (dec t : Nat) : List (Nat × List Word) × List (Nat × List Word) × List (Nat × List Word) :=
  let upto := x.ring.filter fun r => decide (r.1 ≤ t)
  (((upto.drop 1).take x.preCount).reverse, upto.take 1,
    (x.ring.filter fun r => decide (t < r.1) && decide (rowsBetween dec t r.1 ≤ x.postCount)).reverse)

/-- Start a record at a trigger tick (R264, R266). `fire` is the firing module of a FIRE accepted. -/
def State.trigger (s : State) (t cause : Nat) (fire : Option Nat) : State :=
  let x := s.chr
  let dec := s.chrView.cfgN Obj.CHR_DEC
  let m := s.momentOf t
  let (pre, trow, later) := x.rowsAt dec t
  let kept := pre ++ trow ++ later
  let flags := x.truncFlags + 4 * b2n (decide (pre.length < x.preCount)) + 16 * b2n fire.isSome + 32 * b2n trow.isEmpty +
    64 * b2n x.overwrote + 128 * b2n (m.timeQ % 4 ≠ 1)
  let r : Record := {
    id := x.nextId, armId := x.armId, nch := s.chrView.cfgN Obj.CHR_NCH, dec := dec, preActual := pre.length
    postActual := later.length, firstTick := (kept.head?.map (·.1)).getD t, trigTick := t, trigTime := m.time
    source := lowestBit cause, cause := cause, flags := flags, trainAddr := s.train.addr, fireAddr := fire.getD 0
    timeQ := m.timeQ, utc := m.utc, cond := m.cond, channels := s.chrChannels, rows := kept.map (·.2) }
  let send := cause &&& 0x7F ≠ 0 && fire.isNone && x.armId ≠ 0
  { s with
    chr := { x with
      state := .recording, cur := some r, nextId := x.nextId + 1, postLeft := x.postCount - rowsBetween dec t s.tick.now, ring := []
      force := false, firePending := none, fireTx := if send then some (x.armId, m.time) else x.fireTx }
    free := s.free + 3 }.post 0x2802 noInst (beBytes 4 r.id ++ [BitVec.ofNat 8 r.source, BitVec.ofNat 8 cause])

/-- The armed chronograph at the end of beat 3: its row, then its trigger (R264, R272). Under a train arming a FIRE may name an earlier tick. -/
def State.armedTick (s : State) (met : Nat) : State :=
  let x := s.chr
  let ring := if s.rowTick then ((s.tick.now, s.chrRow) :: x.ring).take x.capacity else x.ring
  let s := { s with chr := { x with ring := ring } }
  match s.chr.firePending with
  | some (t, a) =>
    if t ≤ s.tick.now then s.trigger t (0x80 ||| if t = s.tick.now then met else 0) (some a) else s
  | none =>
    let cause := met ||| if s.chr.force then 0x80 else 0
    if cause = 0 then s else s.trigger s.tick.now cause none

/-- A row is added to the record; the first one gives FIRST_TICK (R265). -/
def Record.addRow (r : Record) (tick : Nat) (row : List Word) : Record :=
  { r with rows := r.rows ++ [row], postActual := r.postActual + 1, firstTick := if r.rows.isEmpty then tick else r.firstTick }

/-- A row of the record in progress. -/
def State.recordTick (s : State) : State :=
  if !s.rowTick || s.chr.postLeft = 0 then s
  else { s with chr := { s.chr with cur := s.chr.cur.map (·.addRow s.tick.now s.chrRow), postLeft := s.chr.postLeft - 1 } }

/-- HOLD-OFF counts the ticks in which a condition is met (R267). -/
def State.holdTick (s : State) (met : Nat) : State :=
  if met = 0 then s
  else { s with chr := { s.chr with trigLost := s.chr.trigLost + 1, lostRos := true, eventsInHold := s.chr.eventsInHold + 1 } }

/-- The chronograph at the end of beat 3; what a header says of a tick is kept in every tick, armed or not (R261, R273). -/
def State.chronoTick (s : State) : State :=
  let met := s.chrView.localMet
  let s := s.condMemory
  let s := { s with chr := { s.chr with past := s.moment :: s.chr.past } }
  match s.chr.state with
  | .armed => if s.chr.armTick < s.tick.now then s.armedTick met else s
  | .recording => s.recordTick
  | .holdoff => s.holdTick met
  | .idle => s

/-- Tick of the last row; of a record without rows the trigger tick. -/
def Record.lastTick (r : Record) : Nat := if r.rows.isEmpty then r.trigTick else r.firstTick + (r.rows.length - 1) * r.dec

/-- Close the record in progress, cut or whole. In IDLE the chronograph is armed under nothing (R276). -/
def State.closeRecord (s : State) (cut : Bool) (st : ChrState) : State :=
  let armId := if st = .idle then 0 else s.chr.armId
  match s.chr.cur with
  | none => { s with chr := { s.chr with state := st, armId := armId } }
  | some r =>
    let r := { r with flags := r.flags + 8 * b2n cut }
    { s with chr := { s.chr with
        state := st, armId := armId, cur := none, records := s.chr.records ++ [r], lastId := r.id, closedTick := r.lastTick, eventsInHold := 0
        postLeft := 0 } }.post 0x2803 noInst (beBytes 4 r.id ++ beBytes 2 r.flags)

/-- CHR_RECORD_DONE: the last post row has been taken. -/
def State.recordDone (s : State) : State :=
  if s.chr.state = .recording && s.chr.postLeft = 0 then s.closeRecord false (if s.chr.repeatOpt then .holdoff else .idle) else s

/-- The pre rows are given up: a record whose trigger comes in the tick in which the tick stops has its trigger row only (R272). -/
def Record.rowOnly (r : Record) : Record :=
  { r with rows := r.rows.drop r.preActual, firstTick := r.firstTick + r.preActual * r.dec, preActual := 0 }

/-- Back to IDLE: by DISARM, or because the tick stops (R267, R270, R272). A record with its last post row is whole. -/
def State.chronoStop (s : State) : State :=
  let x := s.chr
  let cur := x.cur.map fun r => if r.trigTick = s.tick.now then r.rowOnly else r
  let cut := x.cur.any fun r => 0 < x.postLeft || r.trigTick = s.tick.now
  let s := if x.state = .recording then { s with chr := { x with cur := cur } }.closeRecord cut .idle else s
  { s with chr := { s.chr with
      state := .idle, ring := [], fixed := [], armId := 0, master := false, repeatOpt := false, force := false, full := false
      firePending := none, disarm := false } }

/-- DISARM acts at the next tick (R267). -/
def State.askDisarm (s : State) : State := if s.chr.state = .idle then s else { s with chr := { s.chr with disarm := true } }
def State.chronoEdge (s : State) : State := if s.chr.disarm then s.chronoStop else s

/-- The hold-off has expired for the next tick. -/
def State.holdoffDue (s : State) : Bool :=
  s.chr.state = .holdoff &&
    (if s.chrView.cfgN Obj.CHR_HOLDOFF_MODE = 1 then decide (s.chrView.cfgN Obj.CHR_HOLDOFF ≤ s.chr.eventsInHold)
     else decide (s.chr.closedTick + s.chrView.cfgN Obj.CHR_HOLDOFF * 4000 ≤ s.nextTick))

/-- Re-arm after the hold-off, or report once that no slot is free (R268). -/
def State.holdoffExpired (s : State) : State :=
  if !s.holdoffDue || s.chr.disarm then s
  else if s.canArm then s.armChrono s.chr.armId s.chr.repeatOpt s.chr.master
  else if s.chr.full then s
  else { s with chr := { s.chr with full := true } }.post 0x2805 noInst []

/-- Release a record (R268). -/
def State.releaseRecord (s : State) (id : Nat) : State :=
  { s with chr := { s.chr with records := s.chr.records.filter fun r => r.id ≠ id } }

/-- CHR_STATUS (R276). -/
def ChrState.code : ChrState → Nat
  | .idle => 0 | .armed => 1 | .recording => 2 | .holdoff => 3
def State.chrStatus (s : State) : Nat :=
  let x := s.chr
  x.state.code + 8 * b2n x.repeatOpt + 16 * b2n (x.state ≠ .idle && x.armId ≠ 0) + 32 * b2n (!x.records.isEmpty) + 64 * b2n s.noSlot +
    128 * b2n x.overRos + 256 * b2n x.lostRos + 512 * b2n x.fireRos

/-! ### The RAW part of a record (R273) -/

/-- Seconds and nanoseconds on the wire. -/
def timeBytes (t : Int) : List Byte := beBytes 6 (secNs t).1 ++ beBytes 4 (secNs t).2

/-- The RAW part. -/
def Record.raw (r : Record) : List Byte :=
  let chs := r.channels.flatMap fun c => beBytes 2 c.1 ++ beBytes 1 c.2.1 ++ [0] ++ beBytes 4 c.2.2
  beBytes 4 0x4C474352 ++ beBytes 2 1 ++ beBytes 2 r.nch ++ beBytes 4 r.id ++ beBytes 4 r.armId ++ beBytes 4 r.dec ++
    beBytes 4 r.preActual ++ beBytes 4 r.postActual ++ beBytes 4 r.rows.length ++ beBytes 8 r.firstTick ++ beBytes 8 r.trigTick ++
    timeBytes r.trigTime ++ beBytes 1 r.source ++ beBytes 1 r.cause ++ beBytes 2 r.flags ++ beBytes 1 r.trainAddr ++
    beBytes 1 r.fireAddr ++ beBytes 4 Config.serial.toNat ++ beBytes 1 r.timeQ ++ [0] ++ beBytes 2 (r.utc % 2 ^ 16).toNat ++
    beBytes 16 r.cond.toNat ++ List.replicate 168 0 ++ chs ++ List.replicate (512 - chs.length) 0 ++ List.replicate 256 0 ++
    r.rows.flatMap fun row => row.flatMap fun w => beBytes 4 w.toNat

/-! ### The log (R280, R281, R284) -/

/-- The end of a rate-limit window: one SUPPRESSED entry for each source that suppressed occurrences. -/
def State.logWindow (s : State) : State :=
  let s := s.log.acc.foldl
    (fun s a => if a.suppressed = 0 then s else
      s.takeIn { made := s.tick.now, tick := a.firstTick, time := s.timeOf a.firstTick, code := 0x2C01, cls := a.cls, inst := a.src
                 data := beBytes 2 a.firstCode ++ beBytes 2 a.lastCode, rpt := a.suppressed, lastTick := a.lastTick }) s
  { s with log := { s.log with acc := [] } }

/-- Ticks of a window. -/
def State.logLen (s : State) : Nat := s.cfgN Obj.LOG_PERIOD * 4000
/-- The next tick starts a rate-limit window. -/
def State.logWindowDue (s : State) : Bool := s.ticking && s.nextTick % s.logLen = 0
/-- The sequence number a host's 32-bit SEQ stands for: the newest one given that ends in it. -/
def LogS.fullSeq (l : LogS) (w : Nat) : Option Nat :=
  let base := l.seq / 2 ^ 32 * 2 ^ 32 + w
  if base < l.seq then some base else if 2 ^ 32 ≤ base then some (base - 2 ^ 32) else none

/-- LOG_ACK frees the safety entries up to a SEQ. -/
def State.logAck (s : State) (n : Nat) : State :=
  { s with log := { s.log with safety := s.log.safety.filter fun e => decide (n < e.seq) } }

/-- The 48 bytes of an entry (R278). -/
def LogEntry.bytes (e : LogEntry) : List Byte :=
  beBytes 4 e.seq ++ beBytes 8 e.tick ++ timeBytes e.time ++ beBytes 2 e.code ++ beBytes 2 e.source ++
    beBytes 1 (64 * e.cls + 32 * b2n e.merged + 16 * b2n e.sub + 8 * b2n e.deferred) ++ [0] ++ e.data.take 8 ++ List.replicate (8 - e.data.length) 0 ++
    beBytes 4 e.rpt ++ beBytes 8 e.lastTick

/-- LOG_STATUS (R284). -/
def LogS.status (l : LogS) : Nat :=
  b2n l.supRos + 2 * b2n (l.acc.any fun a => 0 < a.suppressed) + 4 * b2n l.overRos + 8 * b2n (!l.safety.isEmpty) +
    16 * b2n (decide (3072 ≤ l.safety.length)) + 32 * b2n l.defRos

/-- The oldest SEQ of a ring, the next one to be given when it is empty. -/
def LogS.oldest (l : LogS) (ring : List LogEntry) : Nat := (ring.head?.map (·.seq)).getD l.seq

end Sys2Proof.Machine
end

