-- ==== Sys2Proof/Machine/Comtrade.lean ====
section
/-!
DEFINITION. The COMTRADE parts of a record (R274). The places of the fields in the configuration file are those of IEEE C37.111-2013 (PRESUMED,
log entry 58), and so is the form of its reals and of the channels' names.
-/
namespace Sys2Proof.Machine

/-! ### Text -/

/-- The bytes of a text. -/
def ascii (t : String) : List Byte := t.toList.map fun c => BitVec.ofNat 8 c.toNat
/-- A number in decimal; a number with at least `n` digits. -/
def decText (x : Nat) : List Byte := (Nat.toDigits 10 x).map fun c => BitVec.ofNat 8 c.toNat
def padText (n x : Nat) : List Byte := List.replicate (n - (decText x).length) 0x30 ++ decText x
def intText (x : Int) : List Byte := if x < 0 then 0x2D :: decText x.natAbs else decText x.toNat
/-- The power of ten at which `num / den` has 16 digits before the point, `n` powers to try. -/
def realScale (num den : Nat) : Nat → Nat → Nat
  | 0, k => k
  | n + 1, k => if 10 ^ 15 * den ≤ num * 10 ^ k then k else realScale num den n (k + 1)
/-- The real `num / den`: a whole number as it is, any other to 16 digits, cut, with an exponent. -/
def realText (num den : Nat) : List Byte :=
  if num % den = 0 then decText (num / den)
  else
    let k := realScale num den 60 0
    decText (num * 10 ^ k / den) ++ ascii "E-" ++ decText k
/-- The name of a channel: its number, and of a status channel its bit behind a point. -/
def channelName (n : Nat) : List Byte := padText 2 n
def bitName (n b : Nat) : List Byte := channelName n ++ ascii "." ++ padText 2 b
/-- One line of fields. -/
def cfgLine (fields : List (List Byte)) : List Byte := List.flatten (fields.intersperse [0x2C]) ++ [0x0D, 0x0A]

/-! ### Dates -/

/-- Day, month and year of a day counted from 1 January 1970: the years in eras of 400 that begin in March. -/
def civil (days : Int) : Nat × Nat × Int :=
  let z := days + 719468
  let era := z / 146097
  let d := (z % 146097).toNat
  let y := (d - d / 1460 + d / 36524 - d / 146096) / 365
  let n := d - (365 * y + y / 4 - y / 100)
  let m := (5 * n + 2) / 153
  (n - (153 * m + 2) / 5 + 1, if m < 10 then m + 3 else m - 9, y + era * 400 + if m < 10 then 0 else 1)

/-- A date and a time of day to the nanosecond, as two fields. -/
def stampFields (ns : Int) : List (List Byte) :=
  let (d, m, y) := civil (ns / 86400000000000)
  let t := (ns % 86400000000000).toNat
  let s := t / 1000000000
  [padText 2 d ++ [0x2F] ++ padText 2 m ++ [0x2F] ++ intText y,
   padText 2 (s / 3600) ++ [0x3A] ++ padText 2 (s / 60 % 60) ++ [0x3A] ++ padText 2 (s % 60) ++ [0x2E] ++ padText 9 (t % 1000000000)]

/-! ### Channels -/

/-- Kind of a channel: 0 ANALOG, 1 ANGLE, 2 BITS. -/
def chKind (c : Nat × Nat × Nat) : Nat := c.2.1 / 64
/-- Unit of a channel (R275). -/
def chUnit (c : Nat × Nat × Nat) : List Byte :=
  ascii (if chKind c = 1 then "deg" else ["pu", "V", "kV", "A", "kA", "MW", "Mvar", "Hz", "deg"].getD (c.2.1 % 64) "none")
/-- The factor a: of an ANGLE 360 × 2^-32, else CHR_CH_FS × 0.001 × 2^-31. -/
def chFactor (c : Nat × Nat × Nat) : List Byte := if chKind c = 1 then realText 360 (2 ^ 32) else realText c.2.2 (1000 * 2 ^ 31)

/-- Channels of a record with their places. -/
def Record.analogs (r : Record) : List ((Nat × Nat × Nat) × Nat) := r.channels.zipIdx.filter fun p => chKind p.1 ≠ 2
def Record.statuses (r : Record) : List ((Nat × Nat × Nat) × Nat) := r.channels.zipIdx.filter fun p => chKind p.1 = 2

/-- The line of analogue channel `n`: its number, name, phase and circuit, unit, a, b, skew, min, max, primary, secondary and PS. -/
def analogLine (n : Nat) (p : (Nat × Nat × Nat) × Nat) : List Byte :=
  cfgLine [decText n, channelName p.2, [], [], chUnit p.1, chFactor p.1, ascii "0", ascii "0", ascii "-2147483648",
    ascii "2147483647", ascii "1", ascii "1", ascii "P"]
/-- The lines of the 32 status channels of a BITS channel, from number `n` on. -/
def statusLines (n : Nat) (p : (Nat × Nat × Nat) × Nat) : List Byte :=
  (List.range 32).flatMap fun b => cfgLine [decText (n + b), bitName p.2 b, [], [], ascii "0"]

/-! ### The parts -/

/-- The CFG part. Times are module time less UTC_OFFSET when UTC_VALID is 1. -/
def State.recordCfg (s : State) (r : Record) : List Byte :=
  let na := r.analogs.length
  let nd := 32 * r.statuses.length
  let time := if r.timeQ / 8 % 2 = 1 then r.trigTime - r.utc * 1000000000 else r.trigTime
  let first := time - ((r.trigTick : Int) - r.firstTick) * 250
  let tmq := ascii (if r.timeQ % 4 = 1 && r.timeQ / 4 % 2 = 1 then "0" else "F")
  cfgLine [ascii "LGF48-" ++ decText Config.serial.toNat ++ ascii "-A" ++ decText r.trainAddr, decText r.id, ascii "2013"] ++
    cfgLine [decText (na + nd), decText na ++ ascii "A", decText nd ++ ascii "D"] ++
    r.analogs.zipIdx.flatMap (fun p => analogLine (p.2 + 1) p.1) ++ r.statuses.zipIdx.flatMap (fun p => statusLines (32 * p.2 + 1) p.1) ++
    cfgLine [decText s.fNom] ++ cfgLine [ascii "1"] ++ cfgLine [realText 4000000 r.dec, decText r.rows.length] ++
    cfgLine (stampFields first) ++ cfgLine (stampFields time) ++ cfgLine [ascii "BINARY32"] ++ cfgLine [ascii "0.25"] ++
    cfgLine [ascii "+0h00", ascii "+0h00"] ++ cfgLine [tmq, ascii "0"]

/-- The DAT part: little-endian samples, analogue channels before status channels. -/
def Record.dat (r : Record) : List Byte :=
  let le := fun (x : Nat) => (beBytes 4 x).reverse
  (r.rows.zipIdx).flatMap fun p =>
    let t := p.2 * r.dec
    let cols := p.1.zip r.channels
    le (p.2 + 1) ++ le (if 4294967294 < t then 0xFFFFFFFF else t) ++
      (cols.filter fun c => chKind c.2 ≠ 2).flatMap (fun c => le c.1.toNat) ++
      (cols.filter fun c => chKind c.2 = 2).flatMap (fun c => le c.1.toNat)

end Sys2Proof.Machine
end

