-- ==== Sys2Proof/Machine/Trips.lean ====
section
/-!
DEFINITION. The trip inputs (R123 to R126) and the switching off of the modulator (R127).
-/
namespace Sys2Proof.Machine

/-- TRIP_ARMS in effect of an input. -/
def State.tripArms (s : State) (n : Nat) : Nat := s.cfgN (Obj.TRIP_ARMS + n)

/-- Sources of an input as TRIP_ON names them: pin, DC fault, redundancy, TRIP_REQ, VANA loss. -/
def State.tripSources (s : State) (n : Nat) : Nat := b2n (flag s.trips.pin n) + s.trips.intern.getD n 0

/-- The combined value of an input before its filter (R123). -/
def State.tripIn (s : State) (n : Nat) : Bool := s.tripSources n ≠ 0

/-- The internal sources as they stand at a tick edge (R123). -/
def State.internalSources (s : State) (n : Nat) : Nat :=
  2 * b2n (s.fus.dcfAssert.contains n) + 4 * b2n (s.arms.shortAssert.contains n) + 8 * b2n ((s.sigW 0x083).getLsbD n) +
    16 * b2n (s.meas.vanaAssert.contains n)

/-- Take them. -/
def State.takeInternal (s : State) : State :=
  { s with trips := { s.trips with intern := (List.range 16).map s.internalSources } }

/-- Take the pin of an input, after its polarity. -/
def State.takePin (s : State) (n : Nat) (level : Bool) : State :=
  { s with trips := { s.trips with pin := setFlag s.trips.pin n (level != (s.cfgN Obj.TRIP_POL).testBit n) } }

/-- What a trip whose mask is not 0 does to the cells and the converter (R124, R125); the arms of `sent` have just had their block command. -/
def State.tripActs (s : State) (n sent : Nat) : State :=
  if s.tripArms n = 0 then s
  else
    let new := s.tripArms n ^^^ (s.tripArms n &&& sent)
    let s := if new = 0 then s else s.blockArms new
    if s.conv.state = .run then { s with conv := { s.conv with tripMove := true } } else s

/-- The filtered active edge of an input (R124, R125). Edges of one filter sample, of which `same` tells, share one block command, and the lowest
of those that open an episode is its first (R133). The filter resolves 10 ns, so TRIP_ON carries the offset of its sample (R277), a free value
(log entry 57). -/
def State.tripActive (s : State) (n : Nat) (same : Bool) : State :=
  let t := s.trips
  let opens := !t.latch.any id || (same && t.sampleFirst)
  let sent := if same then t.sampleArms else 0
  let off := if same then t.sampleOff else 10 * (s.freeNat % 25)
  let s := if same then s else s.fresh
  let s := { s with trips := { t with
    filtered := setFlag t.filtered n true, latch := setFlag t.latch n true, count := t.count + 1
    first := if !t.latch.any id then n else if opens then min t.first n else t.first
    sampleFirst := opens, sampleOff := off, sampleArms := sent ||| s.tripArms n } }
  (s.tripActs n sent).postFine s.tick.now (if s.ticking then some off else none) 0x2302 n [BitVec.ofNat 8 (s.tripSources n)]

/-- TRIP_EDGE: the combined value has been active for a run of samples; `same`: in the same filter sample as the last TRIP_EDGE. -/
def State.tripEdge (s : State) (n : Nat) (pin : Bool) (run : Nat) (same : Bool) : State :=
  let s := s.takePin n pin
  if s.tripIn n && !flag s.trips.filtered n && s.cfgN (Obj.TRIP_FILT + n) ≤ run then s.tripActive n same else s

/-- TRIP_INACTIVE_EDGE. -/
def State.tripInactive (s : State) (n : Nat) (pin : Bool) (run : Nat) : State :=
  let s := s.takePin n pin
  if !s.tripIn n && flag s.trips.filtered n && s.cfgN (Obj.TRIP_FILT + n) ≤ run then
    { s with trips := { s.trips with filtered := setFlag s.trips.filtered n false } }
  else s

/-- A write of TRIP_CLEAR may act: every named input is inactive (R126). -/
def State.tripClearOk (s : State) (bm : Nat) : Bool := (List.range 16).all fun n => !(bm.testBit n && flag s.trips.filtered n)

/-- Clear the latches of a bitmap (R126). -/
def State.tripClear (s : State) (bm : Nat) : State :=
  let old := s.trips.latch
  let new := old.mapIdx fun n b => b && !bm.testBit n
  let cleared := bitsNat (old.mapIdx fun n b => b && bm.testBit n)
  let s := { s with trips := { s.trips with latch := new, first := if new.any id then s.trips.first else 255 } }
  if cleared = 0 then s else s.post 0x2303 noInst (beBytes 2 cleared)

/-- TRIP_ARMS of an input has been written (R125): a latched input whose mask is written non-zero acts, without a new
entry. -/
def State.tripArmsChanged (s : State) (n : Nat) : State := if flag s.trips.latch n then s.tripActs n 0 else s

/-- MOD_ENABLE has been written 0 (R127): every lane is blocked, and RUN ends at this boundary. -/
def State.modSwitchedOff (s : State) : State :=
  let s := s.blockAll
  if s.conv.state = .run then { s with conv := { s.conv with modDisMove := true } } else s

end Sys2Proof.Machine
end

