-- ==== Sys2Proof/Machine/Demand.lean ====
section
/-!
DEFINITION. The safety kernel (R285 to R318): demands and their sources, safety inputs, VIO, dark tests, the SCS monitor, safety
frames and the configuration session. Envelopes are in 0.0001 pu, times of its rows in microseconds or milliseconds.
-/
namespace Sys2Proof.Machine

/-! ### Safety inputs (R289, R290) -/

/-- The two channels of input n show demand. While the start-up test runs, a channel shows what it has been read as since the kernel's start;
the test covers both channels of every input, so each of them counts after it (log entry 40). -/
def State.siDemandA (s : State) (n : Nat) : Bool := (flag s.saf.readA n || !s.saf.startRunning) && !flag s.saf.chA n
def State.siDemandB (s : State) (n : Nat) : Bool :=
  (flag s.saf.readB n || !s.saf.startRunning) && (flag s.saf.chB n = (s.cfgN (Obj.SI_MODE + n) = 1))
/-- The input is in demand: a single channel suffices, and a latched discrepancy counts. -/
def State.siIn (s : State) (n : Nat) : Bool := s.siDemandA n || s.siDemandB n || flag s.saf.disc n
/-- SI_STATE (R312). -/
def State.siState (s : State) : Nat :=
  bitsNat ((List.range 8).map s.siIn) + 2 ^ 8 * bitsNat s.saf.disc + 2 ^ 16 * bitsNat s.saf.chA + 2 ^ 24 * bitsNat s.saf.chB
/-- An acknowledgement input is configured. -/
def State.ackConfigured (s : State) : Bool := (List.range 8).any fun n => s.cfgN (Obj.SI_FUNC + n) = 3

/-! ### Sources (R287) -/

/-- A producer is in SF_PRODUCERS. -/
def State.isProducer (s : State) (a : Nat) : Bool := (s.cfgN Obj.SF_PRODUCERS).testBit a
/-- A producer's account. -/
def State.producer (s : State) (a : Nat) : Producer := s.saf.producers.getD a {}

/-- Kernel-detected faults by number: core, tick, switch test, start-up test, engine without spare, feeds, failed start, VIO. -/
def State.kernelFaults (s : State) : List Bool :=
  let k := s.saf
  [k.faultCore, k.tickMissing, k.faultTest, k.faultStart, k.mainDie, k.feedsLost, k.startFailed, k.vioFault]
/-- KERNEL_FAULT of R314: a fault latched under R301 or R307. -/
def State.kernelFault (s : State) : Bool := s.saf.faultCore || s.saf.faultTest || s.saf.faultStart

/-- CONV_STATE PR waits for its boundary; CONV_STATE SCS does, in RUN. One to a standby will be refused and changes nothing (R32, R400). -/
def State.hostPr (s : State) : Bool := s.conv.reqs.any fun r => r.target = .pr
def State.hostScs (s : State) : Bool := s.conv.state = .run && s.pair.role ≠ .standby && s.conv.reqs.any fun r => r.target = .scs

/-- The active demands as kind, number and function of SAFETY_DEMAND (R315): 0 SI, 1 TI, 2 frame, 3 watchdog, 4 kernel fault,
5 host; function 0 PR, 1 SCS. -/
def State.demandSources (s : State) : List (Nat × Nat × Nat) :=
  let si := (List.range 8).filterMap fun n =>
    let f := s.cfgN (Obj.SI_FUNC + n)
    if s.siIn n && (f = 1 || f = 2) then some (0, n, f - 1) else none
  let ti := (List.range 16).filterMap fun n =>
    if (s.cfgN Obj.SF_TI_PR).testBit n && flag s.saf.ti n then some (1, n, 0) else none
  let ps := (List.range 32).filter s.isProducer
  let fr := ps.flatMap fun a =>
    (if (s.producer a).pr then [(2, a, 0)] else []) ++ (if (s.producer a).scs then [(2, a, 1)] else [])
  let wd := ps.filterMap fun a => if (s.producer a).watchdog then some (3, a, 0) else none
  let kf := (s.kernelFaults.zipIdx).filterMap fun p => if p.1 then some (4, p.2, 0) else none
  let ho := (if s.hostPr then [(5, 0, 0)] else []) ++ (if s.hostScs then [(5, 0, 1)] else [])
  si ++ ti ++ fr ++ wd ++ kf ++ ho

/-- A PR demand is active; an SCS demand is. -/
def State.prDemand (s : State) : Bool := s.conv.scsEnded || s.demandSources.any fun d => d.2.2 = 0
def State.scsDemand (s : State) : Bool := s.demandSources.any fun d => d.2.2 = 1
def State.anyDemand (s : State) : Bool := s.prDemand || s.scsDemand

/-- Cause of an entry into PR (R282): 0 host, 5 kernel-detected fault, 4 any other PR demand. -/
def State.prCause (s : State) : Nat :=
  if s.conv.scsEnded || s.demandSources.any (fun d => d.2.2 = 0 && decide (d.1 ≤ 3)) then 4
  else if s.demandSources.any (fun d => d.1 = 4) then 5 else 0

/-! ### Status (R314) -/

def State.emitterOn (s : State) : Bool := flag s.saf.switches 0 && flag s.saf.switches 1
def State.so1On (s : State) : Bool := flag s.saf.switches 2 && flag s.saf.switches 3
def State.so2On (s : State) : Bool := flag s.saf.switches 4 && flag s.saf.switches 5
/-- RESTART_PENDING. -/
def State.restartPending (s : State) : Bool := s.saf.ackPending && s.ackConfigured
/-- A producer's watchdog demands PR. -/
def State.watchdogActs (s : State) : Bool := (List.range 32).any fun a => s.isProducer a && (s.producer a).watchdog
/-- SAFETY_STATUS. -/
def State.safetyStatus (s : State) : Nat :=
  let k := s.saf
  bitsNat [s.emitterOn, s.so1On && s.so2On, s.prDemand, s.scsDemand, s.conv.state = .scs, s.restartPending, k.disc.any id, s.watchdogActs,
    k.rejectRos, k.testRos, k.preemptRos, s.kernelFault, k.startDone, k.vioOk, k.keyClosed, k.session]
/-- SF_RX_OK. -/
def State.sfRxOk (s : State) : Nat := bitsNat ((List.range 32).map fun a => s.isProducer a && !(s.producer a).watchdog)

/-! ### What a demand does (R287, R290, R293, R303) -/

/-- Post the entries of a demand source that has become active. -/
def State.demandEvent (s : State) (d : Nat × Nat × Nat) : State :=
  let s := if d.1 = 4 && decide (d.2.1 ≤ 6) then s.post 0x2909 noInst [BitVec.ofNat 8 (min d.2.1 4)] else s
  s.post 0x2901 (if d.1 ≤ 3 then d.2.1 else noInst) [BitVec.ofNat 8 d.1, BitVec.ofNat 8 d.2.2]

/-- Bits of WAKE_MASK (R389). -/
def wakeBit : WakeSource → Nat
  | .trip => 0 | .lim _ => 1 | .safety => 2 | .feed => 3 | .vana => 4
/-- A wake event notes itself in a sleep entry in progress (R388). -/
def State.noteWake (s : State) (w : WakeSource) : State :=
  match s.pwr.entry with
  | some e =>
    if e.wake.isNone && (s.cfgN Obj.WAKE_MASK).testBit (wakeBit w) then { s with pwr := { s.pwr with entry := some { e with wake := some w } } } else s
  | none => s

/-- Take the demand sources as they stand: entries for the new ones, and the acknowledgement that must follow. -/
def State.noteDemands (s : State) : State :=
  let now := s.demandSources
  let new := now.filter fun d => !s.saf.active.contains d
  let s := new.foldl State.demandEvent s
  let s := if new.isEmpty then s else s.noteWake .safety
  { s with saf := { s.saf with active := now, ackPending := s.saf.ackPending || s.anyDemand } }

/-- Pulse removal (R293): the modulator blocks every lane, and every switch opens. -/
def State.pulseRemoval (s : State) : State :=
  let s := s.blockAll
  { s with saf := { s.saf with switches := List.replicate 6 false } }

/-! ### Safety frames (R303 to R306) -/

/-- Outgoing demand bits: demands received in frames are never relayed. -/
def State.outPr (s : State) : Nat :=
  if s.conv.scsEnded || s.demandSources.any (fun d => d.1 ≠ 2 && d.2.2 = 0) then s.cfgN Obj.SF_TX_PR_GROUPS else 0
def State.outScs (s : State) : Nat :=
  if s.demandSources.any (fun d => d.1 ≠ 2 && d.2.2 = 1) then s.cfgN Obj.SF_TX_SCS_GROUPS else 0

/-- The configuration objects in ascending order (R309). -/
def safetyObjs : List Nat := ((List.range 0x41).map fun i => 0x2900 + i).filter fun i => (objDef i).isSome
/-- The parameter store: the set in effect, or the one that takes effect at the next tick. -/
def State.storeVal (s : State) (i : Nat) : Int :=
  match s.waiting.find? fun w => w.index == i && w.point == .setOnly with | some w => w.value | none => s.cfg i
/-- What the parameter store holds, as values in effect (R309, R383). -/
def State.storeObjs (s : State) : List (Nat × Int) :=
  (s.waiting.filter fun w => w.point == .setOnly).foldr (fun w o => objsSet o w.index w.value) s.objs
/-- CRC of a set. -/
def setCrc (get : Nat → Int) : Word := crc32c 0xFFFFFFFF (safetyObjs.flatMap fun i => beBytes 4 (get i).toNat)
/-- SF_PARAM_CRC. -/
def State.paramCrc (s : State) : Word := setCrc s.storeVal

/-- A frame's 46 bytes with NET and TX_TIME at given values (R304). -/
def sfPayload (net src serial boot seq kind pr scs sender : Nat) (time : List Byte) (param : Nat) (crc : Word) : List Byte :=
  beBytes 2 1 ++ beBytes 1 net ++ beBytes 1 src ++ beBytes 4 serial ++ beBytes 2 boot ++ beBytes 4 seq ++ beBytes 1 kind ++ beBytes 1 pr ++
    beBytes 1 scs ++ beBytes 1 sender ++ time ++ beBytes 4 param ++ beBytes 4 crc.toNat ++ List.replicate 10 0

/-- Bytes 0 to 31 with NET and TX_TIME taken as 0. -/
def sfMasked (p : List Byte) : List Byte := p.take 2 ++ [0] ++ (p.drop 3).take 15 ++ List.replicate 10 0 ++ (p.drop 28).take 4
/-- SAFETY_CRC of a payload. -/
def State.sfCrc (s : State) (p : List Byte) : Word := crc32c (BitVec.ofNat 32 (s.cfgN Obj.SF_SEED)) (sfMasked p)

/-- The IEEE 802.3 frame of a payload: destination, source, Ethertype (R304). -/
def sfFrame (p : List Byte) : List Byte := beBytes 6 0x034C47534600 ++ beBytes 6 Config.macAddress.toNat ++ beBytes 2 0x88B5 ++ p

/-- The payload that the kernel sends on a network (0 SNA, 1 SNB). Each copy departs at an instant of its own, free in the tick (R248; log
entry 3). -/
def State.sfOut (s : State) (kind net : Nat) : List Byte :=
  let k := s.saf
  let t := secNs (s.timeOf s.tick.now + Config.sfDeparture k.boot k.txSeq net % 250)
  let mk := sfPayload net s.train.addr Config.serial.toNat k.boot k.txSeq kind s.outPr s.outScs (convCode s.conv.state + 8 * b2n s.kernelFault)
    (beBytes 6 t.1 ++ beBytes 4 t.2) s.paramCrc.toNat
  mk (s.sfCrc (mk 0))

/-- Send a frame on both networks. -/
def State.sfSend (s : State) (kind : Nat) : State :=
  { s with saf := { s.saf with tx := [sfFrame (s.sfOut kind 0), sfFrame (s.sfOut kind 1)], txSeq := (s.saf.txSeq + 1) % 2 ^ 32 } }

/-- SF_PERIOD has passed since the last periodic frame, in ticks of 250 ns; while the tick is stopped the row itself says so (log entry 2). -/
def State.sfDue (s : State) : Bool := !s.ticking || s.saf.sfAt.all fun t => decide (t + 4 * s.cfgN Obj.SF_PERIOD ≤ s.pwr.uptimeTicks)

/-- A periodic frame (R303). -/
def State.sfPeriodic (s : State) : State :=
  if s.cfgB Obj.SF_ENABLE && s.sfDue then { s with saf := { s.saf with sfAt := some s.pwr.uptimeTicks } }.sfSend 0 else s

/-- A change of the outgoing bits sends an EVENT frame at once. -/
def State.sfEvent (s : State) : State :=
  if s.outPr = s.saf.txPr && s.outScs = s.saf.txScs then s
  else
    let s := { s with saf := { s.saf with txPr := s.outPr, txScs := s.outScs } }
    if s.cfgB Obj.SF_ENABLE then s.sfSend 1 else s

/-- Fields of a received payload. -/
def sfByte (p : List Byte) (off n : Nat) : Nat := beNat ((p.drop off).take n)
def sfSrc (p : List Byte) : Nat := sfByte p 3 1
def sfBoot (p : List Byte) : Nat := sfByte p 8 2
def sfSeq (p : List Byte) : Nat := sfByte p 10 4
/-- Change a producer's account. -/
def State.setProducer (s : State) (a : Nat) (f : Producer → Producer) : State :=
  { s with saf := { s.saf with producers := modifyAt s.saf.producers a f } }

/-- Discard one copy (R305): reasons 0 SINGLE, 1 DISAGREE, 2 CRC, 3 SEQUENCE. -/
def State.sfReject (s : State) (a reason : Nat) (snb : Bool) : State :=
  let k := s.saf
  ({ s with saf := { k with
      rejectRos := true
      rxSingle := k.rxSingle + b2n (reason = 0), rxDisagree := k.rxDisagree + b2n (reason = 1)
      rxCrc := k.rxCrc + b2n (reason = 2), rxSeq := k.rxSeq + b2n (reason = 3) } }.setProducer a fun p => { p with good := 0 }).post 0x2908 a
    [BitVec.ofNat 8 reason, BitVec.ofNat 8 (b2n snb)]

/-- SEQ lies ahead of the last accepted one, or the sender has started anew. -/
def Producer.ahead (x : Producer) (boot seq : Nat) : Bool :=
  !x.known || x.boot ≠ boot || (let d := (seq + 2 ^ 32 - x.seq) % 2 ^ 32; decide (1 ≤ d) && decide (d < 2 ^ 31))

/-- An accepted pair sets the producer's demands; three in a row end its watchdog. -/
def Producer.take (x : Producer) (p : List Byte) (groups : Nat) : Producer :=
  let n := x.good + 1
  { x with known := true, boot := sfBoot p, seq := sfSeq p, pr := sfByte p 15 1 &&& groups ≠ 0, scs := sfByte p 16 1 &&& groups ≠ 0,
           good := if x.watchdog && 3 ≤ n then 0 else n, watchdog := x.watchdog && n < 3 }

/-- A copy arrives; `since` is the time since the copy it pairs with. -/
def State.sfRx (s : State) (snb : Bool) (p : List Byte) (since : Nat) : State :=
  let a := sfSrc p
  if 32 ≤ a || !s.isProducer a then s
  else if sfByte p 32 4 ≠ (s.sfCrc p).toNat then s.sfReject a 2 snb
  else
    let x := s.producer a
    match x.waiting.find? fun w => w.1 != snb && sfSeq w.2 == sfSeq p with
    | none => s.setProducer a fun x => { x with waiting := x.waiting ++ [(snb, p)] }
    | some w =>
      let s := s.setProducer a fun x => { x with waiting := x.waiting.erase w }
      if s.cfgN Obj.SF_ACCEPT_WIN < since then
        (s.sfReject a 0 w.1).setProducer a fun x => { x with waiting := x.waiting ++ [(snb, p)] }
      else if sfMasked w.2 ≠ sfMasked p then (s.sfReject a 1 w.1).sfReject a 1 snb
      else if !x.ahead (sfBoot p) (sfSeq p) then (s.sfReject a 3 w.1).sfReject a 3 snb
      else s.setProducer a fun x => x.take p (s.cfgN Obj.SF_GROUPS)

/-- No matching copy came within SF_ACCEPT_WIN: the oldest copy is discarded. -/
def State.sfSingle (s : State) (a : Nat) : State :=
  match (s.producer a).waiting with
  | w :: ws => (s.setProducer a fun x => { x with waiting := ws }).sfReject a 0 w.1
  | [] => s

/-- A producer's watchdog (R306). -/
def State.sfWatch (s : State) (a us : Nat) : State :=
  if !s.isProducer a || us < s.cfgN Obj.SF_WATCHDOG || (s.producer a).watchdog then s
  else
    let s := s.setProducer a fun x => { x with watchdog := true, good := 0 }
    { s with saf := { s.saf with wdCount := s.saf.wdCount + 1 } }.post 0x2907 a (beBytes 4 (s.producer a).seq)

/-! ### Rows of the kernel -/

/-- A filtered channel of a safety input changes, or is read for the first time (R289). -/
def State.siChange (s : State) (n : Nat) (chB level : Bool) (run : Nat) : State :=
  let old := flag (if chB then s.saf.chB else s.saf.chA) n
  let known := flag (if chB then s.saf.readB else s.saf.readA) n
  if (old = level && known) || run < s.cfgN (Obj.SI_FILT + n) then s
  else
    let k := s.saf
    let s := { s with saf := if chB then { k with chB := setFlag k.chB n level, readB := setFlag k.readB n true }
                             else { k with chA := setFlag k.chA n level, readA := setFlag k.readA n true } }
    if !flag s.saf.disc n then s
    else if s.siDemandA n && s.siDemandB n then { s with saf := { s.saf with discBoth := setFlag s.saf.discBoth n true } }
    else if !s.siDemandA n && !s.siDemandB n && flag s.saf.discBoth n then
      { s with saf := { s.saf with disc := setFlag s.saf.disc n false, discBoth := setFlag s.saf.discBoth n false } }
    else s

/-- The channels have disagreed for longer than SI_DISC. -/
def State.siDiscrepancy (s : State) (n ms : Nat) : State :=
  if s.siDemandA n = s.siDemandB n || flag s.saf.disc n || ms ≤ s.cfgN (Obj.SI_DISC + n) then s
  else { s with saf := { s.saf with disc := setFlag s.saf.disc n true, discBoth := setFlag s.saf.discBoth n false } }.post 0x2904 n []

/-- A press of an acknowledgement input (R290). -/
def State.ackPress (s : State) (n ms : Nat) : State :=
  if s.cfgN (Obj.SI_FUNC + n) = 3 && decide (100 ≤ ms) && decide (ms ≤ 3000) && !s.anyDemand then
    { s with saf := { s.saf with ackPending := false } }
  else s

/-- The kernel's own filtered reading of a trip pin (R291). -/
def State.kernelTi (s : State) (n : Nat) (level : Bool) (run : Nat) : State :=
  if (s.cfgN Obj.SF_TI_PR).testBit n && flag s.saf.ti n ≠ level && s.cfgN Obj.SF_TI_FILT ≤ run then
    { s with saf := { s.saf with ti := setFlag s.saf.ti n level } }
  else s

/-- VIO (R292). -/
def State.vioLost (s : State) (mv ms : Nat) : State :=
  if s.saf.vioOk && decide (mv < 16000) && decide (1 ≤ ms) then
    { s with saf := { s.saf with vioOk := false, vioFault := true, vioMv := mv } }.post 0x290A noInst []
  else s
def State.vioPresent (s : State) (mv ms : Nat) : State :=
  if !s.saf.vioOk && decide (17000 < mv) && decide (10 ≤ ms) then
    { s with saf := { s.saf with vioOk := true, vioFault := false, vioMv := mv } }
  else s

/-- SCS ends for a reason (R297): a PR demand follows. -/
def State.scsEnd (s : State) (reason : Nat) : State :=
  if s.conv.state ≠ .scs || s.conv.scsEnded then s
  else { s with conv := { s.conv with scsEnded := true } }.post 0x2903 noInst
    (BitVec.ofNat 8 reason :: beBytes 4 (s.tick.now - s.saf.scsTick))

/-- I_ENV exceeds L(t). -/
def State.envelopeOut (s : State) (iEnv us : Nat) : Bool :=
  let fall := s.cfg Obj.SCS_RATE * max 0 ((us : Int) - 1000 * s.cfg Obj.SCS_GRACE)
  let line := (s.saf.iEnv0 + s.cfg Obj.SCS_MARGIN) * 100000 - fall
  decide (max line (s.cfg Obj.SCS_END_LEVEL * 100000) < iEnv * 100000)

/-- The microseconds of half a nominal cycle. -/
def State.halfCycleUs (s : State) : Nat := if s.fNom = 60 then 8333 else 10000
/-- The largest |i_arm| among the valid samples of one microsecond, or of none. -/
def armsPeak (x : ArmSamples) : Nat := (x.map fun p => p.2.natAbs).foldl max 0
/-- The envelope's microseconds once more samples have come, the oldest first. -/
def State.envAfter (s : State) (xs : List ArmSamples) : List Nat := (xs.reverse.map armsPeak ++ s.saf.env).take s.halfCycleUs

/-- The kernel's envelope, and in SCS its comparison (R297). -/
def State.scsMonitor (s : State) (xs : List ArmSamples) (us : Nat) : State :=
  if s.saf.linkLost then s
  else
    let env := s.envAfter xs
    let iEnv := env.foldl max 0
    let s := { s with saf := { s.saf with env := env, iEnv := iEnv, scsUs := if s.conv.state = .scs then us else s.saf.scsUs } }
    if s.conv.state ≠ .scs then s
    else if iEnv ≤ s.cfgN Obj.SCS_END_LEVEL then s.scsEnd 0
    else if s.envelopeOut iEnv us then s.scsEnd 1
    else if s.cfgN Obj.SCS_TMAX * 1000 ≤ us then s.scsEnd 2
    else s

/-- The kernel's link of arm-current samples. -/
def State.linkLost (s : State) (us : Nat) : State :=
  if us < 10 then s else { s with saf := { s.saf with linkLost := true, iEnv := 0, env := [] } }.scsEnd 4
def State.linkRestored (s : State) (ms : Nat) : State := if ms < 10 then s else { s with saf := { s.saf with linkLost := false } }

/-- A switch test fails (R301). -/
def State.testFail (s : State) (sw mv : Nat) : State :=
  { s with saf := { s.saf with faultTest := true, testFails := s.saf.testFails + 1, testRos := true } }.post 0x2905 sw (beBytes 2 mv)
/-- A demand has preempted a test: the switch under test is not closed again, until the entry into IDLE (R294, R300). -/
def State.testPreempt (s : State) (sw : Nat) : State :=
  { s with saf := { s.saf with switches := setFlag s.saf.switches sw false, preempts := s.saf.preempts + 1, preemptRos := true } }.post 0x2906 sw []

/-- The test of switch `sw`, whose output is `on`, at its scheduled point: not run while the output is off, unless the demand that came in its
pulse has opened it. `us` is the pulse (R299, R300). -/
def State.switchTest (s : State) (sw us : Nat) (on pass : Bool) (mv : Nat) (during : Bool) : State :=
  if !on && !(during && s.anyDemand) then s
  else
    let s := { s with saf := { s.saf with pulse := some (sw, us) } }
    if during then s.testPreempt sw else if pass then s else s.testFail sw mv

/-- An emitter switch: once per EM_TEST_PERIOD, half a period from the other. It costs the frames of 8 ticks, the most that R34 and R150 allow
(log entry 53). -/
def State.emitterTest (s : State) (x : EmitterPoint) (fallNs : Nat) (recovered : Bool) (mv : Nat) (during : Bool) : State :=
  let p := 1000 * s.cfgN Obj.EM_TEST_PERIOD
  if x.sinceMs < p || 2 * x.apartMs < p then s
  else
    let t := s.switchTest (b2n x.low) 1 s.emitterOn (fallNs ≤ 500 && recovered) mv during
    if s.emitterOn then { t with mod := { t.mod with gap := 8 } } else t
/-- An SO switch: once per SO_TEST_PERIOD, 10 ms from any other SO pulse. -/
def State.soTest (s : State) (x : SoPoint) (mv vio : Nat) (other during : Bool) : State :=
  if x.sinceMs < 1000 * s.cfgN Obj.SO_TEST_PERIOD || x.apartMs < 10 then s
  else
    s.switchTest (2 + x.sw.val) (s.cfgN Obj.SO_TEST_WIDTH) (if x.sw.val < 2 then s.so1On else s.so2On)
      ((if x.sw.val % 2 = 0 then decide (mv < 5000) else decide (vio < mv + 5000)) && !other) mv during

/-- Current at which an output opens, within R412. -/
def soTrip : Int := clampInt 3000 4500 Config.soLimit
/-- A short circuit of a safety output opens both its switches and is a test failure (R412). -/
def State.soShort (s : State) (so2 : Bool) (ma : Nat) : State :=
  if !(if so2 then s.so2On else s.so1On) || decide ((ma : Int) ≤ soTrip) then s
  else
    let sw := if so2 then 4 else 2
    let s := { s with saf := { s.saf with switches := setFlag (setFlag s.saf.switches sw false) (sw + 1) false } }
    s.fresh.testFail sw (Config.openValue s.free % 2 ^ 16).toNat

/-- The start-up test completes (R307); its SO part needs VIO. -/
def State.startTest (s : State) (pass : Bool) (item : Byte) : State :=
  if !s.saf.startRunning || (pass && !s.saf.vioOk) then s
  else if pass then
    { s with saf := { s.saf with
        startDone := true, startRunning := false, faultCore := false, faultTest := false, faultStart := false } }.post 0x290B noInst []
  else { s with saf := { s.saf with startRunning := false, faultStart := true } }.post 0x290C noInst [item]

/-- The kernel starts: its start-up test runs with every switch held open. -/
def Safety.start (k : Safety) : Safety :=
  { k with startDone := false, startRunning := true, readA := List.replicate 8 false, readB := List.replicate 8 false, switches := List.replicate 6 false, boot := k.boot + 1, txSeq := 1, sfAt := none }

/-! ### The configuration session (R309, R313) -/

/-- A staged value, or the one in the store. -/
def State.stagedVal (s : State) (i : Nat) : Int := ((s.saf.staged.find? fun p => p.1 == i).map (·.2)).getD (s.storeVal i)
/-- Stage a value. -/
def State.stage (s : State) (i : Nat) (v : Int) : State :=
  { s with saf := { s.saf with staged := (i, v) :: s.saf.staged.filter fun p => p.1 ≠ i } }

/-- Inputs that are asserted internally by the configuration. -/
def State.internalInputs (s : State) : List Nat := [s.cfgN Obj.DCF_TRIP_INPUT, s.cfgN Obj.REDUND_TRIP_INPUT, s.cfgN Obj.MEAS_TRIP_INPUT]
/-- The cross-checks of a set. -/
def State.crossCheck (s : State) : Bool :=
  let g := s.stagedVal
  decide (g Obj.SCS_RATE ≤ g Obj.SCS_CTL_RATE) && decide (2 * g Obj.SF_PERIOD + g Obj.SF_ACCEPT_WIN ≤ g Obj.SF_WATCHDOG) &&
    s.internalInputs.all fun n => !(16 > n && (g Obj.SF_TI_PR).toNat.testBit n)

/-- SAFETY_SESSION OPEN, COMMIT and CLOSE. -/
def State.sessionParams (s : State) : List Byte := beBytes 4 s.paramCrc.toNat ++ beBytes 4 s.saf.paramVersion
def State.sessionOpen (s : State) : State × Ans :=
  if !s.saf.keyClosed then (s, Ans.refuse rsSafetyKey)
  else if s.saf.session then (s, Ans.st stBusy)
  else
    let s := { s with saf := { s.saf with session := true, staged := [] } }.post 0x290D noInst []
    (s, Ans.ok s.sessionParams)
/-- COMMIT judges in the order of R309. -/
def State.sessionCommit (s : State) (crc : Word) : State × Ans :=
  if !s.saf.session then (s, Ans.st stState)
  else if s.conv.state ≠ .pr then (s, Ans.st stState)
  else if !s.crossCheck then (s, Ans.st stRange)
  else if setCrc s.stagedVal ≠ crc then (s, Ans.st stCrc)
  else
    let new : List Waiting := safetyObjs.map fun i => { index := i, value := s.stagedVal i, point := ApplyPoint.setOnly }
    let s := { s with waiting := s.waiting.filter (fun (w : Waiting) => w.point ≠ ApplyPoint.setOnly) ++ new,
                      saf := { s.saf with paramVersion := s.saf.paramVersion + 1 } }
    let s := s.post 0x290E noInst (beBytes 4 crc.toNat ++ beBytes 4 s.saf.paramVersion)
    (s, Ans.ok s.sessionParams)
def State.sessionClose (s : State) : State × Ans :=
  if !s.saf.session then (s, Ans.st stState)
  else
    let s := { s with saf := { s.saf with session := false, staged := [] } }.post 0x290F noInst []
    (s, Ans.ok s.sessionParams)
/-- The kernel aborts the session. -/
def State.sessionAbort (s : State) (reason : Nat) : State :=
  if s.saf.session then { s with saf := { s.saf with session := false, staged := [] } }.post 0x2910 noInst [BitVec.ofNat 8 reason] else s

/-- SAFETY_KEY changes state; its filter is 20 ms (R411). -/
def State.keyChange (s : State) (closed : Bool) (ms : Nat) : State :=
  if s.saf.keyClosed = closed || ms < 20 then s
  else
    let s := { s with saf := { s.saf with keyClosed := closed } }
    if closed then s else s.sessionAbort 0

end Sys2Proof.Machine
end

