-- ==== Sys2Proof/Machine/Train.lean ====
section
/-!
DEFINITION. The train (R319 to R329, R271): slots, frames, ports, roots, addresses and the chronograph messages.
-/
namespace Sys2Proof.Machine

/-! ### Slots (R320, R321) -/

/-- KIND, SEQ and payload of a slot block. -/
def slotKind (w : DWord) : Nat := DWord.bits w 63 60
def slotSeq (w : DWord) : Nat := DWord.bits w 59 56
def slotPay (w : DWord) : Nat := DWord.bits w 55 0
/-- A slot block. -/
def slotWord (kind seq pay : Nat) : DWord := BitVec.ofNat 64 (kind % 16 * 2 ^ 60 + seq % 16 * 2 ^ 56 + pay % 2 ^ 56)
/-- SEQ is 1 to 7 ahead of the value last taken; the first value of an address is newer than none. -/
def newerSlot (new old : DWord) : Bool :=
  slotKind new ≠ 0 && (slotKind old = 0 || (let d := (slotSeq new + 16 - slotSeq old) % 16; decide (1 ≤ d) && decide (d ≤ 7)))

/-- Payloads of JOIN and GRANT, of ARM and DISARM, and of the two FIRE fragments. -/
def joinPay (serial addr : Nat) : Nat := serial * 2 ^ 24 + addr * 2 ^ 19
def armPay (armId : Nat) (rep : Bool) : Nat := armId % 2 ^ 32 * 2 ^ 24 + b2n rep * 2 ^ 23
def fire1Pay (armId sec : Nat) : Nat := armId % 2 ^ 32 * 2 ^ 24 + sec % 2 ^ 16 * 2 ^ 8
def fire2Pay (ns : Nat) : Nat := ns % 2 ^ 32 * 2 ^ 24
/-- The 32 bits [55:24], and the address [23:19]. -/
def payWord (w : DWord) : Nat := DWord.bits w 55 24
def payAddr (w : DWord) : Nat := DWord.bits w 23 19

/-- This module's serial number. -/
def mySerial : Nat := Config.serial.toNat

/-- The train ports run in S0 and S1 (R386), out of reset (R382), up to step E3 of an entry into S3 (R388), and from W4 of a wake on (R381). -/
def State.trainRuns (s : State) : Bool := !s.pwr.inReset && !s.portsOff && (s.pwr.state = .s0 || s.pwr.state = .s1 || s.wokenTo 5)

/-- Newest value held for an address. -/
def Train.slot (t : Train) (a : Nat) : DWord := t.slots.getD a 0
/-- A module is present while a newer slot of its address has come within 8 ticks; this module is at its own. -/
def Train.isPresent (t : Train) (a : Nat) : Bool := a ≠ 0 && (a = t.addr || decide (t.ages.getD a 8 < 8))
/-- TRAIN_MEMBERS. -/
def Train.members (t : Train) : Nat := bitsNat ((List.range 32).map t.isPresent)
/-- How many. -/
def Train.memberCount (t : Train) : Nat := ((List.range 32).filter t.isPresent).length

/-- The root's table: the entry of an address is replaced. -/
def Train.learn (t : Train) (serial a : Nat) : Train := { t with table := t.table.filter (fun p => p.2 ≠ a) ++ [(serial, a)] }

/-- A FIRE of which one fragment is missing (R321). -/
def fireBroken (new old : DWord) : Bool :=
  (slotKind old = 6 || slotKind new = 7) && !(slotKind old = 6 && slotKind new = 7 && slotSeq new = (slotSeq old + 1) % 16)

/-- Take one slot of a checked frame (R322). A GRANT in passing shows the root's table (R326). -/
def Train.take (t : Train) (a : Nat) (w : DWord) : Train :=
  if a = 0 then { t with slots := t.slots.set 0 w, fresh := t.fresh.set 0 (slotKind w = 2) }
  else if a = t.addr || !newerSlot w (t.slot a) then t
  else
    let lost := fireBroken w (t.slot a)
    let t := { t with
      slots := t.slots.set a w, prev := t.prev.set a (t.slot a), ages := t.ages.set a 0, fresh := t.fresh.set a true
      msgLost := t.msgLost + b2n lost, msgRos := t.msgRos || lost }
    if slotKind w = 3 && 0 < payAddr w then t.learn (payWord w) (payAddr w) else t

/-- Take a message slot of an address: the one just taken from a frame, or a newer one; none when it is stale, or the train is full (R328). -/
def State.takeMsg (s : State) (a kind : Nat) (w : DWord) : Option State :=
  let t := s.train
  if slotKind w ≠ kind || a = 0 || a = t.addr || t.full then none
  else if t.slot a = w && flag t.fresh a then some { s with train := { t with fresh := t.fresh.set a false } }
  else if newerSlot w (t.slot a) then
    let t := t.take a w
    some { s with train := { t with fresh := t.fresh.set a false } }
  else none

/-! ### Frames as blocks (R320) -/

/-- A train frame as the module reads it (R320): SOF fields, time frame, 32 slot words, and whether it passed its check. -/
structure TrainFrame where
  rootSerial : Word
  west : Bool
  wrapped : Bool
  acting : Bool
  txSec : Nat
  txNs : Nat
  rootTick : Word
  slots : List DWord
  good : Bool
  deriving DecidableEq, Repr

/-- Blocks of a train frame, and of its slots. -/
def trainBlocks : Nat := 36
def trainSlots : Nat := 32

/-- The frame check: over the SOF payload and the data blocks. -/
def trainCheck (bs : List LaneBlock) : Word := crc32c 0xFFFFFFFF (bs.flatMap blockBytes)

/-- A frame passes its check when it has its 36 blocks, each of its kind, and the EOF holds the check of those before it. -/
def trainGood (bs : List LaneBlock) : Bool :=
  let body := bs.take (trainBlocks - 1)
  bs.length = trainBlocks && (body.take 1).all (blockIsControl · tySof) && (body.drop 1).all blockIsData &&
    (bs.drop (trainBlocks - 1)).all fun e => blockIsControl e tyEof && DWord.bits e.payload 55 24 = (trainCheck body).toNat

/-- Read a train frame from its blocks. Of a frame that fails its check the fields are what stands in the places. -/
def readTrain (bs : List LaneBlock) : TrainFrame :=
  let p := fun i => (bs.getD i (dataBlock 0)).payload
  { rootSerial := BitVec.ofNat 32 (DWord.bits (p 0) 55 24), west := (p 0).getLsbD 23, wrapped := (p 0).getLsbD 22, acting := (p 0).getLsbD 21
    txSec := DWord.bits (p 1) 63 16, txNs := DWord.bits (p 2) 63 32, rootTick := BitVec.ofNat 32 (DWord.bits (p 2) 31 0)
    slots := (List.range trainSlots).map fun a => p (3 + a), good := trainGood bs }

/-- The SOF payload of a train frame, and its blocks before the EOF. -/
def TrainFrame.sof (f : TrainFrame) : Nat :=
  f.rootSerial.toNat * 2 ^ 24 + b2n f.west * 2 ^ 23 + b2n f.wrapped * 2 ^ 22 + b2n f.acting * 2 ^ 21
def TrainFrame.body (f : TrainFrame) : List LaneBlock :=
  controlBlock tySof f.sof :: dataBlock (f.txSec % 2 ^ 48 * 2 ^ 16) :: dataBlock (f.txNs % 2 ^ 32 * 2 ^ 32 + f.rootTick.toNat) ::
    f.slots.map fun w => dataBlock w.toNat

/-- The blocks of a train frame. One that failed its check goes on with its check inverted (R322). -/
def TrainFrame.wire (f : TrainFrame) : List LaneBlock :=
  let crc := trainCheck f.body
  f.body ++ [controlBlock tyEof ((if f.good then crc else ~~~crc).toNat * 2 ^ 24)]

/-! ### Ports (R319, R323) -/

/-- A port is up. -/
def Train.portUp (t : Train) (west : Bool) : Bool := if west then t.westUp else t.eastUp

/-- Clear what one frame after another has told of a port. -/
def Train.setPort (t : Train) (west up : Bool) : Train :=
  if west then { t with westUp := up, badRunW := if up then 0 else t.badRunW, unwrappedW := false }
  else { t with eastUp := up, badRunE := if up then 0 else t.badRunE, unwrappedE := false }

/-- Frames in a row on a port that have failed their check. -/
def Train.badRun (t : Train) (west : Bool) : Nat := if west then t.badRunW else t.badRunE

/-- Failed frames in a row that take a port down (R323). -/
def trainBadRun : Nat := 8

/-- The ring is wrapped: written at the change (R323). -/
def State.ringWrapped (s : State) (west : Bool) : State :=
  let t := s.train
  if t.wrapped || (t.state = .none && !t.originating) then s
  else
    { s with train := { t with wrapped := true, closed := false, unwrappedE := false, unwrappedW := false, wraps := t.wraps + 1 } }.post
      0x2A06 noInst [BitVec.ofNat 8 (b2n west)]

/-- A port goes down, so the ring wraps at this module. -/
def State.portDown (s : State) (west : Bool) : State :=
  if s.train.portUp west then { s with train := s.train.setPort west false }.ringWrapped west else s

/-- A port comes up with its block lock (R323); one that failed frames or a miswire took down needs a frame that passes. -/
def State.portUp (s : State) (west : Bool) (good : Nat) : State :=
  let bad := trainBadRun ≤ s.train.badRun west || (if west then s.train.miswireW else s.train.miswireE)
  if s.trainRuns && !s.train.portUp west && (!bad || decide (1 ≤ good)) then
    let t := s.train.setPort west true
    { s with train := if west then { t with miswireW := false } else { t with miswireE := false } }
  else s

/-- A miswired link (R319). -/
def State.miswired (s : State) (west : Bool) : State :=
  let t := s.train
  let old := if west then t.miswireW else t.miswireE
  let s := { s with train := if west then { t with miswireW := true } else { t with miswireE := true } }.portDown west
  if old then s else s.post 0x2A09 noInst [BitVec.ofNat 8 (b2n west)]

/-- A module that hears unwrapped frames on both ports finds the ring closed (R323). -/
def State.ringHeal (s : State) : State :=
  let t := s.train
  if s.trainRuns && t.unwrappedE && t.unwrappedW && !t.closed && t.eastUp && t.westUp then
    { s with train := { t with closed := true, wrapped := false } }.post 0x2A07 noInst []
  else s

/-- RING_CLOSED: the root's part; a module that forwards finds it in the frames themselves (log entry 44). -/
def State.ringClosed (s : State) : State := if s.train.originating then s.ringHeal else s

/-! ### Roots (R322, R325, R326) -/

/-- The address of a serial number, if the table tells it. -/
def Train.addrOf (t : Train) (serial : Nat) : Option Nat := (t.table.find? fun p => p.1 == serial).map (·.2)

/-- The originator of a frame ranks above this module. Among acting roots the lower address does; of an originator whose address is not
known the serial numbers are compared (log entry 44). -/
def Train.outranked (t : Train) (f : TrainFrame) : Bool :=
  if t.acting then
    !f.acting || (match t.addrOf f.rootSerial.toNat with | some a => decide (a < t.addr) | none => decide (f.rootSerial.toNat < mySerial))
  else !f.acting && decide (f.rootSerial.toNat < mySerial)

/-- Stop originating: a strapped root joins as a member, an acting one is a member again (R325). -/
def State.rootYields (s : State) (winner : Word) : State :=
  let t := s.train
  if t.acting then { s with train := { t with originating := false, acting := false, state := .member } }
  else
    { s with train := { t with originating := false, state := .joining, stored := t.addr, addr := 0, conflictRos := true } }.post 0x2A02 noInst
      (beBytes 4 winner.toNat)

/-- Addresses that can still be granted for the first time. -/
def Train.neverGranted (t : Train) (a : Nat) : Bool := !(t.table.any fun p => p.2 == a) && !t.isPresent a

/-- The address a JOIN is granted (R327); 0 when the train is full. -/
def Train.grantFor (t : Train) (serial req : Nat) : Nat :=
  if req ≠ 0 && (t.table.contains (serial, req) || t.neverGranted req) then req
  else match ((List.range 32).drop 1).find? t.neverGranted with
    | some a => a
    | none => (((List.range 32).drop 1).find? fun a => !t.isPresent a).getD 0

/-- TRAIN_FORMED (log entry 44). -/
def State.formed (s : State) : State := s.post 0x2A01 noInst [BitVec.ofNat 8 s.train.memberCount]

/-- A strapped module becomes the root once its regulator is locked; its own address comes by the rules of R327 (log entry 44). -/
def State.rootStart (s : State) : State :=
  let t := s.train
  if t.strapped && t.state = .none && s.reg.locked && s.trainRuns then
    let a := t.grantFor mySerial t.stored
    let t := t.learn mySerial a
    { s with train := { t with state := .root, originating := true, addr := a, stored := a, rootSerial := mySerial, rootActing := false } }.formed
  else s

/-- A member that has heard no frame for 64 + 8a ticks originates (R326). -/
def State.actingRoot (s : State) : State :=
  let t := s.train
  if t.state = .member && s.trainRuns && decide (64 + 8 * t.addr ≤ t.quietTicks) then
    { s with train := { t with state := .root, originating := true, acting := true, rootSerial := mySerial, rootActing := true } }.post
      0x2A08 t.addr []
  else s

/-! ### Frames (R320, R322, R323, R329) -/

/-- A frame of this module's with a departure time. -/
def State.trainFrameAt (s : State) (west : Bool) (time : Int) (slots : List DWord) : TrainFrame :=
  let t := s.train
  { rootSerial := BitVec.ofNat 32 mySerial, west := west, wrapped := !(t.eastUp && t.westUp), acting := t.acting, txSec := (secNs time).1,
    txNs := (secNs time).2, rootTick := BitVec.ofNat 32 s.tick.now, slots := slots, good := true }

/-- The directions a root originates in: both, or one while the ring is wrapped. -/
def Train.directions (t : Train) : List Bool :=
  if t.wrapped then if t.eastUp then [false] else if t.westUp then [true] else []
  else [false, true].filter t.portUp

/-- Frames start at a block boundary at most one block (6.4 ns) after the edge; the departure is free in it. -/
def State.originate (s : State) : State :=
  if !s.train.originating || !s.trainRuns then s
  else
    let time := s.timeOf s.tick.now + clampInt 0 7 (Config.openValue s.free)
    let fs := s.train.directions.map fun w => (s.trainFrameAt w time (s.train.slots.set 0 0)).wire
    { s.fresh with train := { s.train with tx := s.train.tx ++ fs } }

/-- What a module that forwards a frame writes into its slots. -/
def Train.written (t : Train) (slots : List DWord) : List DWord :=
  if t.addr ≠ 0 then slots.set t.addr (t.slot t.addr)
  else if t.state = .joining && !t.full && slotKind (slots.getD 0 0) = 0 then slots.set 0 (slotWord 2 t.mySeq (joinPay mySerial t.stored))
  else slots

/-- Send a frame on in its direction, or back where that port is down (R322, R323): with the own slot and departure time and a check of its
own. The delay is free up to 48 ns. -/
def State.forward (s : State) (arrival : Int) (f : TrainFrame) (west : Bool) : State :=
  let t := s.train
  let back := !t.portUp west
  let time := arrival + clampInt 0 48 (Config.openValue s.free)
  let g := { f with
    west := west != back, wrapped := f.wrapped || back, txSec := (secNs time).1, txNs := (secNs time).2
    slots := t.written f.slots }
  { s.fresh with train := { t with tx := t.tx ++ [g.wire] } }

/-- A checked frame's slots, its time, and what it says of the ring. -/
def State.frameTaken (s : State) (west : Bool) (arrival : Int) (f : TrainFrame) : State :=
  let t := s.train
  let delta := arrival - ((f.txSec : Int) * 1000000000 + f.txNs)
  let t := if west then { t with badRunW := 0, deltaW := delta, unwrappedW := !f.wrapped } else
    { t with badRunE := 0, deltaE := delta, unwrappedE := !f.wrapped }
  let t := { t with rxThisTick := true, rootSerial := f.rootSerial.toNat, rootActing := f.acting }
  let t := if t.state = .none && !(t.strapped && !t.outranked f) then { t with state := .joining } else t
  let t := (f.slots.zipIdx).foldl (fun t p => t.take p.2 p.1) t
  let s := { s with train := t }
  if f.wrapped then s.ringWrapped west else if t.originating then s else s.ringHeal

/-- Where a frame goes next: a module that forwards sends it on toward the other port, a root ends it, or sends a wrapped one on once. -/
def State.frameOn (s : State) (west : Bool) (arrival : Int) (f : TrainFrame) : State :=
  let t := s.train
  if !t.originating then s.forward arrival f !west
  else if t.wrapped && f.good && f.rootSerial.toNat = mySerial && t.passed ≠ some f.rootTick then
    let s := { s with train := { t with passed := some f.rootTick } }
    if t.portUp !west then s.forward arrival f !west else s
  else s

/-- A frame that fails its check is sent on, and counted; the eighth in a row takes the port down (R322, R323). -/
def State.frameBad (s : State) (west : Bool) (arrival : Int) (f : TrainFrame) : State :=
  let s := s.frameOn west arrival f
  let t := { s.train with crcErr := s.train.crcErr + 1 }
  let s := { s with train := if west then { t with badRunW := t.badRunW + 1 } else { t with badRunE := t.badRunE + 1 } }
  if trainBadRun ≤ s.train.badRun west then s.portDown west else s

/-- TRAIN_FRAME_RX. A root of lower rank yields at the next tick (R325). -/
def State.trainFrame (s : State) (west : Bool) (arrival : Int) (bs : List LaneBlock) : State :=
  let f := readTrain bs
  if !s.trainRuns || !s.train.portUp west then s
  else if !f.good then s.frameBad west arrival f
  else if f.west = west then s.miswired west
  else
    let s := s.frameTaken west arrival f
    let s := s.frameOn west arrival f
    if s.train.originating && f.rootSerial.toNat ≠ mySerial && s.train.outranked f then
      { s with train := { s.train with yieldTo := some f.rootSerial } }
    else s

/-! ### Addresses (R327, R328) -/

/-- A message to send in this module's slot. -/
def State.sendMsg (s : State) (kind pay : Nat) : State := { s with train := { s.train with outMsg := s.train.outMsg ++ [(kind, pay)] } }

/-- The root takes a JOIN. One whose GRANT waits to be sent is not answered again (log entry 44). -/
def State.trainJoin (s : State) (w : DWord) : State :=
  let t := s.train
  if !s.trainRuns || !t.originating || slotKind w ≠ 2 || (t.outMsg.any fun m => m.1 == 3 && m.2 / 2 ^ 24 == payWord w) then s
  else
    let a := t.grantFor (payWord w) (payAddr w)
    let s := s.sendMsg 3 (joinPay (payWord w) a)
    if a = 0 then s else { s with train := s.train.learn (payWord w) a }.post 0x2A03 a (beBytes 4 (payWord w))

/-- A joining module takes its GRANT: it stores the address, and is a member from the next tick. -/
def State.trainGrant (s : State) (w : DWord) : State :=
  let t := s.train
  if !s.trainRuns || t.state ≠ .joining || t.full || slotKind w ≠ 3 || payWord w ≠ mySerial then s
  else
    let a := payAddr w
    if a = 0 then { s with train := { t with full := true } }.post 0x2A05 noInst (beBytes 4 mySerial)
    else
      let differs := t.stored ≠ 0 && t.stored ≠ a
      let req := t.stored
      let s := { s with train := { t with joins := some a, stored := a, addrRos := t.addrRos || differs } }
      if differs then s.post 0x2A04 noInst [BitVec.ofNat 8 req, BitVec.ofNat 8 a] else s

/-- A joining module that has its address becomes a member at the edge. -/
def State.joinEdge (s : State) : State :=
  match s.train.joins with
  | some a => if s.train.state = .joining then { s with train := { s.train with joins := none, state := .member, addr := a } }.formed else s
  | none => s

/-- A root that has received a frame of a root of higher rank stops at the edge. -/
def State.yieldEdge (s : State) : State :=
  match s.train.yieldTo with
  | some w => if s.train.originating then { s with train := { s.train with yieldTo := none } }.rootYields w else s
  | none => s

/-! ### Chronograph messages (R271) -/

/-- The entry in progress has passed AP4: no abort point is left, and it ends in its sleep state (R388). -/
def State.pastAp4 (s : State) : Bool := s.pwr.entry.any fun e => decide (4 < e.step)

/-- ARM; a sleeping module ignores it as one that is not in IDLE does (R271, R394), and so does one that no abort point can keep awake (log entry
60). With no slot to take the module does not arm (log entry 44). -/
def State.trainArm (s : State) (src : Nat) (w : DWord) : State :=
  match (if s.trainRuns then s.takeMsg src 4 w else none) with
  | none => s
  | some s =>
    if !s.cfgB Obj.CHR_TRAIN_JOIN then s
    else if s.chr.state ≠ .idle || s.pwr.state ≠ .s0 || s.pastAp4 then s.post 0x2806 noInst (beBytes 4 (payWord w))
    else if !s.canArm then s
    else s.armChrono (payWord w) (w.getLsbD 23) false

/-- DISARM. -/
def State.trainDisarm (s : State) (src : Nat) (w : DWord) : State :=
  match (if s.trainRuns then s.takeMsg src 5 w else none) with
  | none => s
  | some s => if s.chr.state ≠ .idle && s.chr.armId = payWord w && s.chr.armId ≠ 0 then s.askDisarm else s

/-- The seconds nearest to a module time whose 16 low bits match. -/
def nearestSec (now : Int) (low : Nat) : Int :=
  let d := (low - now) % 2 ^ 16
  if 2 ^ 15 ≤ d then now + d - 2 ^ 16 else now + d

/-- The record in progress has its trigger, a local one, in tick `k`. -/
def State.sameTick (s : State) (k : Nat) : Bool := s.chr.state = .recording && s.chr.cur.any fun r => r.trigTick == k && !r.flags.testBit 4

/-- Take both fragments of a FIRE (R321): the second after the first, which has come in a frame before it or comes with it. -/
def State.takeFire (s : State) (a : Nat) (w1 w2 : DWord) : Option State :=
  let t := s.train
  if t.slot a = w2 && flag t.fresh a then if t.prev.getD a 0 = w1 then s.takeMsg a 7 w2 else none
  else if t.slot a = w1 then s.takeMsg a 7 w2
  else (s.takeMsg a 6 w1).bind fun s => s.takeMsg a 7 w2

/-- FIRE of both fragments. One that carries the tick of a local trigger joins its CAUSE (R272). -/
def State.trainFire (s : State) (src : Nat) (w1 w2 : DWord) : State :=
  if slotKind w1 ≠ 6 || slotSeq w2 ≠ (slotSeq w1 + 1) % 16 then s
  else match (if s.trainRuns then s.takeFire src w1 w2 else none) with
    | none => s
    | some s =>
      let now := s.timeOf s.tick.now / 1000000000
      let t := nearestSec now (DWord.bits w1 23 8) * 1000000000 + payWord w2
      let k := (floorDiv (t - s.time.epoch) 250).toNat
      let mine := s.chr.armId = payWord w1 && s.chr.armId ≠ 0 && (s.chrView.cfgN Obj.CHR_TRIG_EN).testBit 7
      if mine && s.chr.state = .armed then { s with chr := { s.chr with firePending := some (k, src) } }
      else if mine && s.sameTick k then { s with chr := { s.chr with cur := s.chr.cur.map fun r => { r with cause := r.cause ||| 0x80 } } }
      else { s with chr := { s.chr with fireIgnored := s.chr.fireIgnored + 1, fireRos := true } }

/-! ### The tick -/

/-- At an edge: what has been heard, a root that yields, a module that joins, a strapped root's start, and the root's frames. -/
def State.trainEdge (s : State) : State :=
  if !s.trainRuns then s
  else
    let t := s.train
    let s := { s with train := { t with
      tx := [], quietTicks := if t.rxThisTick then 0 else t.quietTicks + 1, rxThisTick := false, ages := t.ages.map (· + 1)
      unwrappedE := false, unwrappedW := false } }
    s.yieldEdge.joinEdge.rootStart.originate

/-- TRAIN_STATUS (R348). -/
def Train.status (t : Train) : Nat :=
  bitsNat [t.closed, t.wrapped, t.eastUp, t.westUp, t.conflictRos, t.miswireE || t.miswireW, t.full, t.acting, t.addrRos, t.msgRos]
/-- TRAIN_STATE. -/
def TrainState.code : TrainState → Nat
  | .none => 0 | .joining => 1 | .member => 2 | .root => 3

end Sys2Proof.Machine
end

