-- ==== Sys2Proof/Machine/Pair.lean ====
section
/-!
DEFINITION. The module pair (R330 to R339): heartbeats, readiness, takeover, abdication and reversion, and this module's own slot.
-/
namespace Sys2Proof.Machine

/-! ### The heartbeat (R331) -/

def hbRole (w : DWord) : Nat := DWord.bits w 55 54
def hbAbdicate (w : DWord) : Bool := w.getLsbD 49
def hbReady (w : DWord) : Bool := w.getLsbD 48
def hbPartner (w : DWord) : Nat := DWord.bits w 46 42
def hbLanes (w : DWord) : Nat := DWord.bits w 41 36
def hbPreferred (w : DWord) : Bool := w.getLsbD 33
def hbTable (w : DWord) : Nat := DWord.bits w 31 0
/-- Converter state of a code. -/
def convOf (n : Nat) : ConvState :=
  match n with | 0 => .idle | 1 => .precharge | 2 => .ready | 3 => .run | 4 => .scs | _ => .pr
def hbState (w : DWord) : ConvState := convOf (DWord.bits w 53 51)

/-- The partner's address. -/
def State.partner (s : State) : Nat := s.cfgN Obj.PAIR_PARTNER
/-- Lanes whose cluster unit follows this module's input, as its last status says. -/
def State.lanesFollowing (s : State) : Nat :=
  ((List.range 48).filter fun l => (s.lane l).state ≠ .off && (s.lane l).heard && followsCode (s.lane l).status = 1).length
/-- Shadow lanes of a standby: every lane in UP whose cluster unit follows the partner's crowned input (R332), in the arm map or not, as
`lanesFollowing` counts them. -/
def State.shadowLanes (s : State) : Nat := ((List.range 48).filter fun l => (s.lane l).shadowUp).length

/-- Payload of this module's heartbeat. -/
def State.heartbeatPay (s : State) : Nat :=
  let p := s.pair
  p.role.code * 2 ^ 54 + convCode s.conv.state * 2 ^ 51 + b2n p.crown * 2 ^ 50 + b2n p.abdicating * 2 ^ 49 + b2n p.ready * 2 ^ 48 +
    b2n s.prDemand * 2 ^ 47 + s.partner * 2 ^ 42 + s.lanesFollowing * 2 ^ 36 + s.time.state.code * 2 ^ 34 +
    b2n (s.cfgB Obj.PAIR_PREFERRED) * 2 ^ 33 + s.esc.active.id.toNat

/-- Write this module's slot (R321): a message, and in at least every fourth tick a heartbeat; FIRE_2 follows FIRE_1 at once. -/
def State.writeSlot (s : State) (kind pay : Nat) : State :=
  let t := s.train
  { s with train := { t with slots := t.slots.set t.addr (slotWord kind (t.mySeq + 1) pay), mySeq := (t.mySeq + 1) % 16 } }

/-- The FIRE of a record of an armed chronograph (R271) becomes its two messages. -/
def State.fireOut (s : State) : State :=
  match s.chr.fireTx with
  | none => s
  | some (id, t) =>
    ({ s with chr := { s.chr with fireTx := none } }.sendMsg 6 (fire1Pay id (secNs t).1)).sendMsg 7 (fire2Pay (secNs t).2)

/-- This module's slot at the end of beat 3 (R324). Without an address it writes none. -/
def State.slotBeat (s : State) : State :=
  let s := s.fireOut
  if s.train.addr = 0 || !s.trainRuns then s
  else match s.train.outMsg with
    | m :: ms =>
      if s.train.msgRun < (if m.1 = 6 then 2 else 3) then
        { s with train := { s.train with outMsg := ms, msgRun := s.train.msgRun + 1 } }.writeSlot m.1 m.2
      else { s with train := { s.train with msgRun := 0 } }.writeSlot 1 s.heartbeatPay
    | [] => { s with train := { s.train with msgRun := 0 } }.writeSlot 1 s.heartbeatPay

/-! ### Conditions (R332, R333) -/

/-- Ticks since a newer slot of the partner came. -/
def State.sinceHb (s : State) : Nat := s.train.ages.getD s.partner 8
/-- Ticks after which the heartbeat is lost, and condition H has expired. -/
def hbTicks : Nat := 8
def hbGone : Nat := 4008

/-- Lanes of the arm map on which the partner's input is not VALID and CROWNED. -/
def State.lanesAbsent (s : State) : Nat :=
  ((List.range 48).filter fun l => s.laneInUse l && (s.lane l).state ≠ .off && (s.lane l).heard && !otherCrowned (s.lane l).status).length
def State.condA (s : State) : Bool := decide (s.cfgN Obj.PAIR_LOF_LANES ≤ s.lanesAbsent)
def State.condH (s : State) : Bool := s.pair.hbLost && decide (s.sinceHb ≤ hbGone)
def State.condB (s : State) : Bool := hbAbdicate s.pair.partner

/-- A pair can act: the partner has been heard, and names this module. -/
def State.paired (s : State) : Bool := s.pair.seen && !s.pair.mismatch

/-- The standby is READY. A lost heartbeat ends it once H has expired (log entry 45). -/
def State.standbyReady (s : State) : Bool :=
  s.pair.role = .standby && s.paired && s.conv.state = s.pair.reported && s.esc.active.id.toNat = hbTable s.pair.partner && !s.prDemand &&
    s.meas.vanaOk && s.rolesSet 1 11 && s.reg.locked && !s.reg.gated && !s.reg.ramp && decide (hbLanes s.pair.partner ≤ s.shadowLanes) &&
    (!s.pair.hbLost || s.condH)

/-- The partner's last heartbeat carries READY. -/
def State.partnerReady (s : State) : Bool := s.paired && hbReady s.pair.partner

/-- This module wins the pairing (R330). -/
def State.wins (s : State) : Bool :=
  let me := s.cfgB Obj.PAIR_PREFERRED
  let other := hbPreferred s.pair.partner
  if me = other then decide (s.train.addr < s.partner) else me

/-! ### The crown (R128, R330, R335, R338, R339) -/

/-- Inserted set of an arm from the reported states, and whether it is negative (R128). Where the reports hold both polarities the one with more
cells is taken, positive when equal: the model's choice (log entry 60). -/
def State.reportedSet (s : State) (arm : Nat) : List Nat × Bool :=
  let cs := (List.range 3072).filter fun c => s.cellArm c = arm && s.cellInUse c
  let p := cs.filter fun c => (s.cell c).applied = .insertPos
  let n := cs.filter fun c => (s.cell c).applied = .insertNeg
  if p.length < n.length then (n, true) else (p, false)

/-- The modulator starts from the reported cell states (R128), which it neither drops nor moves as edges of its own (R113). -/
def State.takeReported (s : State) : State :=
  let sets := (List.range 6).map s.reportedSet
  { s with
    cells := s.cells.map fun x => { x with cmd := x.applied, wish := x.applied, pend := none, since := 0, prev := x.applied, prevSince := 0 }
    mod := { s.mod with
      inserted := sets.map (·.1), negative := sets.map (·.2)
      nIns := sets.map fun p => if p.2 then -(p.1.length : Int) else p.1.length } }

/-- This module leads from its next tick edge. -/
def State.lead (s : State) : State :=
  let s := s.setRole .leader
  { s with pair := { s.pair with crown := true, abdicating := false, ready := false } }.takeReported

/-- It takes the crown (R339): causes 0 heartbeat lost, 1 abdicated, 2 CONV_STATE IDLE. In a takeover it goes on in the state that the leader last
reported, from the next edge on (R32). -/
def State.takeCrown (s : State) (cause : Nat) : State :=
  let n := s.lanesAbsent
  let s := s.lead
  let p := s.pair
  { s with
    pair := { p with inherits := cause ≠ 2, tookRos := true, takeovers := p.takeovers + 1, takeoverTick := s.nextTick }
    lanes := s.lanes.map fun (x : Lane) => { x with grace := if x.shadow then 40 else 0 } }.post 0x2A11 s.partner [BitVec.ofNat 8 cause, BitVec.ofNat 8 n]

/-- It follows from now on. -/
def State.follow (s : State) : State :=
  let s := s.setRole .standby
  { s with pair := { s.pair with crown := false, abdicating := false } }

/-- PAIR_FORMED, once. -/
def State.pairFormed (s : State) (role : Nat) : State :=
  if s.pair.formed then s else { s with pair := { s.pair with formed := true } }.post 0x2A10 s.partner [BitVec.ofNat 8 role]

/-- Two leaders (R338): the other one keeps the crown. -/
def State.losesCrown (s : State) : Bool :=
  let other := hbLanes s.pair.partner
  decide (s.lanesFollowing < other) || (s.lanesFollowing = other && !s.wins)

/-- The partner's heartbeat is back (R336). -/
def State.linkBack (s : State) : State :=
  let p := s.pair
  let s := { s with pair := { p with hbLost := false, linkLost := false } }
  if p.linkLost then s.post 0x2A16 s.partner [] else s

/-- TRAIN_HEARTBEAT_RX: a newer heartbeat of the partner. -/
def State.heartbeat (s : State) (w : DWord) : State :=
  match (if s.trainRuns then s.takeMsg s.partner 1 w else none) with
  | none => s
  | some s =>
    let bad := hbPartner w ≠ s.train.addr
    let s := { s with pair := { s.pair with seen := true, partner := w, mismatch := bad } }.linkBack
    if bad then s
    else
      let s := { s with pair := { s.pair with reported := hbState w } }
      if hbRole w ≠ 1 then s
      else if s.pair.role = .standby then s.pairFormed 2
      else if s.pair.abdicating then s.follow
      else if s.losesCrown then { s.follow with pair := { s.follow.pair with crownLostRos := true } }.post 0x2A14 s.partner []
      else s

/-- The heartbeat is lost (R331). With the cluster units following the leader both modules flag it (R336; log entry 45). -/
def State.linkFlag (s : State) : State :=
  if s.pair.linkLost then s else { s with pair := { s.pair with linkLost := true } }.post 0x2A15 s.partner []
def State.heartbeatLost (s : State) : State :=
  if s.pair.role = .solo || !s.pair.seen || s.pair.hbLost || decide (s.sinceHb < hbTicks) then s
  else
    let s := { s with pair := { s.pair with hbLost := true } }
    if (if s.pair.role = .leader then decide (0 < s.lanesFollowing) else !s.condA) then s.linkFlag else s
/-- H expires (R333). -/
def State.pairLinkLost (s : State) : State :=
  if s.pair.hbLost && decide (hbGone ≤ s.sinceHb) then { s.linkFlag with pair := { s.linkFlag.pair with ready := false } } else s

/-- TAKEOVER at the next edge (R333). -/
def State.takeoverDue (s : State) : Bool :=
  s.pair.role = .standby && s.paired && s.ticking && s.condA && (s.condH || s.condB) && s.pair.reported ≠ .pr && !s.prDemand && s.pair.ready
def State.takeover (s : State) : State := if s.takeoverDue then s.takeCrown (if s.condH then 0 else 1) else s

/-- This module may abdicate (R295, R335). -/
def State.mayAbdicate (s : State) : Bool :=
  s.pair.role = .leader && !s.pair.abdicating && s.partnerReady && s.conv.state ≠ .pr
/-- It abdicates: causes 0 host, 1 lanes, 2 feeds, 3 reversion. -/
def State.abdicate (s : State) (cause : Nat) : State :=
  let p := s.pair
  { s with pair := { p with
      abdicating := true, crown := false, abdicateTick := s.nextTick, abdicateFeeds := cause = 2, abdicateRevert := cause = 3
      revertFrom := if cause = 3 then some s.nextTick else p.revertFrom } }.post 0x2A12 noInst [BitVec.ofNat 8 cause]

/-- Lanes of the arm map with no valid uplink frame for 8 ticks. -/
def State.lanesSilent (s : State) : Nat := ((List.range 48).filter fun l => s.laneInUse l && decide (8 ≤ (s.lane l).silent)).length
def State.leaderLanesLost (s : State) : State :=
  if s.mayAbdicate && decide (s.cfgN Obj.PAIR_LOF_LANES ≤ s.lanesSilent) then s.abdicate 1 else s

/-- No answer within 64 ticks (R335); a reversion that ends so waits for another PAIR_REVERT_DELAY (R337). -/
def State.abdicateFailed (s : State) : State :=
  let p := s.pair
  if p.abdicating && !p.abdicateFeeds && decide (p.abdicateTick + 64 ≤ s.nextTick) then
    { s with pair := { p with abdicating := false, crown := true, revertFrom := if p.abdicateRevert then some s.nextTick else p.revertFrom } }.post 0x2A13 noInst []
  else s

/-- Ticks of PAIR_REVERT_DELAY. -/
def State.revertTicks (s : State) : Nat := s.cfgN Obj.PAIR_REVERT_DELAY * 4000000
/-- The reversion timer runs (R337). -/
def State.revertPending (s : State) : Bool :=
  s.cfgB Obj.PAIR_REVERT && !s.cfgB Obj.PAIR_PREFERRED && hbPreferred s.pair.partner && s.pair.role = .leader && !s.pair.abdicating && s.partnerReady
/-- REVERSION (R337). -/
def State.reversion (s : State) (readyS : Nat) : State :=
  let rested := match s.pair.revertFrom with | some t => decide (t + s.revertTicks ≤ s.nextTick) | none => true
  if s.revertPending && s.mayAbdicate && s.conv.state ≠ .scs && decide (s.cfgN Obj.PAIR_REVERT_DELAY ≤ readyS) && rested then
    (s.post 0x2A19 noInst []).abdicate 3
  else s

/-- After the grace of R339, R154 applies. -/
def State.graceExpired (s : State) : State :=
  if s.pair.takeovers = 0 || decide (s.nextTick < s.pair.takeoverTick + 40) then s
  else
    let s := { s with lanes := s.lanes.map fun (x : Lane) => { x with grace := 0 } }
    (List.range 48).foldl (fun s l => if (s.lane l).state = .up && (s.lane l).heard then s.laneFollow l (s.lane l).status else s) s

/-! ### The tick -/

/-- The entries of a standby that needs the crown and does not take it (R333). -/
def State.standbyEntries (s : State) : State :=
  let need := s.condH || s.condB
  let absent := s.condA && (!need || s.pair.reported = .pr)
  let unready := s.condA && need && s.pair.reported ≠ .pr && (s.prDemand || !s.pair.ready)
  let p := s.pair
  let s := { s with pair := { p with absentEp := absent, notReadyEp := unready, notReadyRos := p.notReadyRos || unready } }
  let s := if absent && !p.absentEp then s.post 0x2A18 s.partner [BitVec.ofNat 8 s.lanesAbsent] else s
  if unready && !p.notReadyEp then s.post 0x2A17 noInst [] else s

/-- At an edge: the pairing (R330), which gives no crown to a module whose own kernel holds PR (R295) nor to a standby in ramp mode (R397, M9), what the standby logs (R333) and its readiness (R332). -/
def State.pairEdge (s : State) : State :=
  if s.pair.role = .solo then s
  else
    let s := if s.pair.hbLost && decide (s.sinceHb < hbTicks) then s.linkBack else s
    if s.pair.role ≠ .standby then s
    else if s.paired && !s.pair.hbLost && hbRole s.pair.partner = 2 && s.wins && !s.prDemand && !s.reg.ramp then s.lead.pairFormed 1
    else
      let s := s.standbyEntries
      { s with pair := { s.pair with ready := s.standbyReady } }

/-- PAIR_STATUS (R349). -/
def State.pairStatus (s : State) : Nat :=
  let p := s.pair
  bitsNat [p.seen, p.hbLost, p.linkLost, p.seen && hbReady p.partner, p.ready, p.abdicating, p.role = .standby && s.condA, p.tookRos,
    p.crownLostRos, p.notReadyRos, p.mismatch, s.revertPending]

end Sys2Proof.Machine
end

