-- ==== Sys2Proof/Machine/Verifier.lean ====
section
/-!
DEFINITION. The verifier (R176 to R179, with R27 and R68) and table images (R183).
-/
namespace Sys2Proof.Machine

/-- One entry of the report (R178). -/
structure RepEntry where
  code : Nat
  engine : Nat := 0xFF
  step : Nat := 0xFFFF
  beat : Nat := 0xFF
  levels : Nat := 0xF
  signal : Nat := 0xFFFF
  deriving DecidableEq, Repr

/-- The eight bytes of an entry. -/
def RepEntry.bytes (e : RepEntry) : List Byte :=
  beBytes 1 e.code ++ beBytes 1 e.engine ++ beBytes 2 e.step ++ beBytes 1 e.beat ++ beBytes 1 e.levels ++ beBytes 2 e.signal

/-- Reserved cycles and beat length of a level (R22). -/
def levelRes (p : Nat) : Nat := [10, 12, 10, 12].getD p 12
def levelBeat (p : Nat) : Nat := [60, 47, 35, 22].getD p 22

/-- One executed step: its beat, its place in the beat, its index and its word. -/
structure Exe where
  beat : Nat
  pos : Nat
  step : Nat
  word : DWord
  deriving DecidableEq, Repr

/-- The steps a table executes in one tick, in order (R163). -/
def EngTable.executed (t : EngTable) : List Exe :=
  (List.range 4).flatMap fun k =>
    (List.range (min (t.entry k).2 60)).map fun i =>
      { beat := k, pos := i, step := (t.entry k).1 + i, word := t.steps.getD ((t.entry k).1 + i) 0 }

/-- Cycle of a step at a level (R163). -/
def Exe.cycle (p : Nat) (x : Exe) : Nat := levelRes p + x.beat * levelBeat p + x.pos

/-! ### Encoding (0x01) and constant references (0x03) -/

/-- Fields an opcode uses: A, B, D, IMM; none for an undefined opcode (R165, R168). -/
def opFields (op : Nat) : Option (Bool × Bool × Bool × Bool) :=
  if op ∈ [0x01, 0x02, 0x03, 0x0A, 0x0B, 0x0F, 0x19] then some (true, true, false, false)
  else if op ∈ [0x04, 0x0E] then some (true, false, false, true)
  else if op ∈ [0x05, 0x06, 0x07, 0x08, 0x09, 0x10, 0x11, 0x12, 0x18] then some (true, false, false, false)
  else if op ∈ [0x00, 0x0C, 0x0D] then some (false, false, false, false)
  else if op ∈ [0x20, 0x21, 0x22] then some (false, false, true, false)
  else none

/-- An operand field that may be read (R166). -/
def readable (f : Nat) : Bool :=
  match opSpace f with | 0 => true | 1 => decide (opAddr f < 256) | 2 => decide (opAddr f < 1024) | _ => decide (opAddr f < 2)

/-- The step is a constant step. -/
def isConst (w : DWord) : Bool := stepOp w = 0x3F

/-- The encoding of a step is legal (R165 to R168). -/
def encodingOk (w : DWord) : Bool :=
  if isConst w then w.toNat / 2 ^ 32 % 2 ^ 21 = 0
  else
    match opFields (stepOp w) with
    | none => false
    | some (a, b, d, i) =>
      (if a then readable (stepA w) else stepA w = 0) && (if b then readable (stepB w) else stepB w = 0) &&
        (if d then opSpace (stepD w) ≠ 3 && readable (stepD w) else stepD w = 0) &&
        (i || stepImm w = 0) && w.toNat % 2 ^ 8 = 0 && (stepOp w ≠ 0x07 || opSpace (stepA w) = 1) &&
        (stepOp w ≠ 0x21 || opSpace (stepD w) = 1)

/-- The operand fields a step reads. -/
def readFields (w : DWord) : List Nat :=
  match opFields (stepOp w) with
  | some (a, b, _, _) => (if a then [stepA w] else []) ++ (if b then [stepB w] else [])
  | none => []

/-- An operand field names a step. -/
def namesStep (f : Nat) : Bool := opSpace f = 2 && readable f

/-- A constant reference that is broken (0x03). -/
def constRefBad (t : EngTable) (w : DWord) : Bool :=
  !isConst w && ((readFields w).any (fun f => namesStep f && !isConst (t.steps.getD (opAddr f) 0)) ||
    (stepOp w ∈ [0x20, 0x21, 0x22] && namesStep (stepD w)))

/-! ### Directory (0x02) -/

/-- Two beat ranges overlap. -/
def rangesMeet (x y : Nat × Nat) : Bool := decide (x.1 < y.1 + y.2) && decide (y.1 < x.1 + x.2) && 0 < x.2 && 0 < y.2

/-- The entry of beat `k` breaks the directory rule. -/
def EngTable.dirBad (t : EngTable) (k : Nat) : Bool :=
  let x := t.entry k
  decide (60 < x.2) || decide (1024 ≤ x.1) || decide (1024 < x.1 + x.2) || (List.range k).any (fun j => rangesMeet (t.entry j) x)

/-- The constant steps inside a beat range. -/
def EngTable.constsRun (t : EngTable) : List Exe := t.executed.filter fun e => isConst e.word

/-- The directory is not empty. -/
def EngTable.nonEmpty (t : EngTable) : Bool := t.dir.any fun x => 0 < x.2

/-! ### Hazards (0x05) and long steps (0x06) -/

/-- Local registers a step reads and writes. -/
def localReads (w : DWord) : List Nat :=
  (((readFields w).filter fun f => opSpace f = 1).map opAddr) ++ (if stepOp w = 0x07 then [opAddr (stepA w) + 1] else [])
def localWrites (w : DWord) : List Nat :=
  if stepOp w ∈ [0x20, 0x22] && opSpace (stepD w) = 1 then [opAddr (stepD w)]
  else if stepOp w = 0x21 then [opAddr (stepD w), opAddr (stepD w) + 1] else []

/-- LDA64 or WB64 names an odd register. -/
def oddPair (w : DWord) : Bool :=
  (stepOp w = 0x07 && opAddr (stepA w) % 2 = 1) || (stepOp w = 0x21 && opAddr (stepD w) % 2 = 1)

/-- A level mask of a predicate. -/
def levelMask (f : Nat → Bool) : Nat := bitsNat ((List.range 4).map f)

/-- Levels at which a step reads a local register too soon after its write. -/
def hazardLevels (xs : List Exe) (y : Exe) : Nat :=
  if oddPair y.word then 0xF
  else levelMask fun p => xs.any fun x =>
    decide (x.cycle p < y.cycle p) && decide (y.cycle p ≤ x.cycle p + 2) &&
      (localWrites x.word).any fun n => (localReads y.word).contains n

/-- Levels at which a step other than NOP lies in the shadow of a long step. -/
def shadowLevels (xs : List Exe) (y : Exe) : Nat :=
  if stepOp y.word = 0 then 0
  else levelMask fun p => xs.any fun x =>
    (stepOp x.word = 0x18 || stepOp x.word = 0x19) && decide (x.cycle p < y.cycle p) && decide (y.cycle p ≤ x.cycle p + 7)

/-! ### Writers (0x07), beats (0x08), the latency path (0x09), the fusee (0x0A) -/

/-- The shared signal a step writes. -/
def sigWrite (w : DWord) : Option Nat :=
  if stepOp w ∈ [0x20, 0x22] && opSpace (stepD w) = 0 then some (opAddr (stepD w)) else none

/-- Signals that no step may write (R161 and the interface tables of R44, R71, R88, R129, R214, R262, R312). -/
def fixedSignal (x : Nat) : Bool :=
  decide (x < 0x043) || (decide (0x044 ≤ x) && decide (x ≤ 0x048)) || x = 0x05E || (decide (0x066 ≤ x) && decide (x ≤ 0x078)) || x = 0x07F ||
    (decide (0x084 ≤ x) && decide (x ≤ 0x08A)) || x = 0x098 || (decide (0x0A0 ≤ x) && decide (x ≤ 0x0A3)) || x = 0x0B0 || x = 0x0B1 ||
    (decide (0x0F0 ≤ x) && decide (x ≤ 0x1FF))

/-- The beat an interface signal must be written in, where its chapter names one. -/
def signalBeat (x : Nat) : Option Nat :=
  if (decide (0x049 ≤ x) && decide (x ≤ 0x04C)) || x = 0x04F || x = 0x05F || x = 0x07E || (decide (0x090 ≤ x) && decide (x ≤ 0x097)) then some 0
  else if x = 0x04D || x = 0x04E then some 1
  else if (decide (0x079 ≤ x) && decide (x ≤ 0x07D)) || (decide (0x080 ≤ x) && decide (x ≤ 0x082)) then some 2
  else if decide (0x060 ≤ x) && decide (x ≤ 0x065) then some 3
  else none

/-- A write of a shared signal by a table. -/
structure SigUse where
  engine : Nat
  exe : Exe
  sig : Nat
  deriving DecidableEq, Repr

/-- All writes of shared signals. -/
def sigUses (ts : List EngTable) : List SigUse :=
  (ts.zipIdx).flatMap fun p => p.1.executed.filterMap fun e => (sigWrite e.word).map fun x => ⟨p.2, e, x⟩

/-- Entry of a write. -/
def SigUse.entry (u : SigUse) (code : Nat) : RepEntry :=
  { code := code, engine := u.engine, step := u.exe.step, beat := u.exe.beat, signal := u.sig }

/-- What a fast-path sample read before beat 3 has reached: the accumulator, the tag, local registers; and the arm-reference writes it has
reached in the tick. -/
structure Taint where
  acc : Bool := false
  tag : Bool := false
  regs : List Nat := []
  bad : List Exe := []
  deriving DecidableEq, Repr

/-- An operand field carries a sample read before beat 3. -/
def Taint.field (t : Taint) (beat f : Nat) : Bool :=
  match opSpace f with
  | 0 => decide (beat < 3) && decide (opAddr f < 0x02C)
  | 1 => t.regs.contains (opAddr f)
  | 3 => opAddr f = 1 && t.acc
  | _ => false

/-- One step of the tracing (R27). A step before beat 3 is a step of a latency path when what it computes reaches an arm
reference through the engine's own registers; a shared signal written between ends the path. -/
def Taint.step (t : Taint) (e : Exe) : Taint :=
  let w := e.word
  let op := stepOp w
  let ins := (readFields w).any (t.field e.beat) || (op = 0x07 && t.regs.contains (opAddr (stepA w) + 1))
  let setRegs := fun (b : Bool) (ns : List Nat) =>
    let rs := t.regs.filter fun r => !ns.contains r
    if b then ns ++ rs else rs
  if op ∈ [0x01, 0x07, 0x0F, 0x18, 0x19] then { t with acc := ins }
  else if op = 0x04 then { t with acc := ins, tag := false }
  else if op ∈ [0x02, 0x03, 0x05, 0x06, 0x08, 0x09, 0x0A, 0x0B, 0x10, 0x11, 0x12] then { t with acc := t.acc || ins }
  else if op = 0x0E then { t with acc := t.acc || ins, tag := t.tag || t.acc || ins }
  else if op ∈ [0x20, 0x21, 0x22] then
    let src := if op = 0x22 then t.tag else t.acc
    let x := { t with regs := setRegs src (localWrites w) }
    match sigWrite w with
    | some s => if decide (0x060 ≤ s) && decide (s ≤ 0x065) && src then { x with bad := x.bad ++ [e] } else x
    | none => x
  else t

/-- One tick of a table. -/
def Taint.tick (t : Taint) (xs : List Exe) : Taint := xs.foldl Taint.step { t with bad := [] }

/-- Ticks until nothing more is reached: what a tick leaves in the engine's registers stands in the next. Each tick but the last reaches
a register more, or the accumulator, or the tag. -/
def Taint.settle (xs : List Exe) : Nat → Taint → Taint
  | 0, t => t
  | n + 1, t =>
    let u := t.tick xs
    if u.acc = t.acc && u.tag = t.tag && u.regs.all t.regs.contains then u else settle xs n u

/-- A step writes an arm reference. -/
def Exe.writesRef (e : Exe) : Bool := match sigWrite e.word with | some s => decide (0x060 ≤ s) && decide (s ≤ 0x065) | none => false

/-- Arm-reference writes of one table that break R27: outside beat 3, or reached by a latency path outside beat 3. The entry names the step that
writes (log entry 61). -/
def latencyBad (t : EngTable) : List Exe :=
  let xs := t.executed
  if xs.any Exe.writesRef then
    let bad := (Taint.settle xs 300 {}).bad
    xs.filter fun e => e.writesRef && (e.beat ≠ 3 || bad.contains e)
  else []

/-- The selection sequence's engine and beat: those of the step that writes FUSEE_M_WIN (R68). -/
def selectionAt (us : List SigUse) : Option (Nat × Nat) :=
  (us.find? fun u => u.sig = 0x058).map fun u => (u.engine, u.exe.beat)

/-- A write that breaks R68. The writers of FUSEE_M_WIN to FUSEE_TRK_CEIL stand for the sequence with its back-calculation, which acts on local
registers (log entry 61). -/
def fuseeBad (us : List SigUse) (u : SigUse) : Bool :=
  if decide (0x058 ≤ u.sig) && decide (u.sig ≤ 0x05D) then selectionAt us != some (u.engine, u.exe.beat)
  else if decide (0x050 ≤ u.sig) && decide (u.sig ≤ 0x057) then
    match selectionAt us with | some (_, b) => decide (b ≤ u.exe.beat) | none => false
  else false

/-! ### The report -/

/-- The tables and bindings under verification, with SPARES. -/
structure Image where
  tables : List EngTable
  binds : List Bind
  id : Nat
  deriving DecidableEq, Repr

/-- A binding that is broken (0x0B): an undefined coefficient, a step that is no constant, or a step bound to another one too. -/
def bindBad (s : State) (im : Image) (b : Bind) : Bool :=
  (derive s b.obj b.sub).isNone || decide (1024 ≤ b.step) || decide (16 ≤ b.engine) ||
    !isConst ((im.tables.getD b.engine {}).steps.getD b.step 0) ||
    im.binds.any fun c => c.engine = b.engine && c.step = b.step && (c.obj ≠ b.obj || c.sub ≠ b.sub)

/-- Order of the report within one code: by engine, then by step. -/
def repInsert (e : RepEntry) : List RepEntry → List RepEntry
  | [] => [e]
  | x :: xs => if x.engine * 2 ^ 16 + x.step ≤ e.engine * 2 ^ 16 + e.step then x :: repInsert e xs else e :: x :: xs
def repSort (l : List RepEntry) : List RepEntry := l.foldl (fun acc e => repInsert e acc) []

/-- Entries of one code over the steps of every table. -/
def overSteps (im : Image) (code : Nat) (f : EngTable → DWord → Bool) : List RepEntry :=
  (im.tables.zipIdx).flatMap fun p =>
    (p.1.steps.zipIdx).filterMap fun q =>
      if f p.1 q.1 then some { code := code, engine := p.2, step := q.2, beat := (p.1.beatOf q.2).getD 0xFF } else none

/-- Entries of one code over steps that tables execute. -/
def overExes (im : Image) (code : Nat) (f : EngTable → List Exe) : List RepEntry :=
  (im.tables.zipIdx).flatMap fun p => (f p.1).map fun e =>
    { code := code, engine := p.2, step := e.step, beat := e.beat, signal := (sigWrite e.word).getD 0xFFFF }

/-- Entries of a check made per level. -/
def overLevels (im : Image) (code : Nat) (f : List Exe → Exe → Nat) : List RepEntry :=
  (im.tables.zipIdx).flatMap fun p =>
    p.1.executed.filterMap fun e =>
      let m := f p.1.executed e
      if m = 0 then none else some { code := code, engine := p.2, step := e.step, beat := e.beat, levels := m }

/-- A write of a signal another step writes too: each but the first, in the order of the engines and their beats (log entry 61). -/
def secondWriter (us : List SigUse) (u : SigUse) : Bool := (us.filter fun v => v.sig = u.sig).head? != some u

/-- The verifier's report (R177, R178). -/
def verifyReport (s : State) (im : Image) (spares : Nat) : List RepEntry :=
  let us := sigUses im.tables
  let beats := fun (code : Nat) (f : EngTable → Nat → Bool) (lv : EngTable → Nat → Nat) =>
    (im.tables.zipIdx).flatMap fun p => (List.range 4).filterMap fun k =>
      if f p.1 k then some { code := code, engine := p.2, beat := k, levels := lv p.1 k : RepEntry } else none
  let uses := fun (code : Nat) (f : SigUse → Bool) => (us.filter f).map fun u => u.entry code
  let all : List (List RepEntry) :=
    [overSteps im 0x01 fun _ w => !encodingOk w, beats 0x02 EngTable.dirBad (fun _ _ => 0xF) ++ overExes im 0x02 EngTable.constsRun,
     overSteps im 0x03 constRefBad,
     (im.tables.zipIdx).filterMap fun p => if p.1.nonEmpty && 15 - spares < p.2 then some { code := 0x04, engine := p.2 } else none,
     overLevels im 0x05 hazardLevels, overLevels im 0x06 shadowLevels] ++
    [uses 0x07 fun u => fixedSignal u.sig || secondWriter us u,
     uses 0x08 fun u => match signalBeat u.sig with | some b => u.exe.beat ≠ b | none => false,
     overExes im 0x09 latencyBad,
     uses 0x0A (fuseeBad us),
     (im.binds.filter (bindBad s im)).map fun b =>
       { code := 0x0B, engine := b.engine, step := b.step, beat := ((im.tables.getD b.engine {}).beatOf b.step).getD 0xFF },
     beats 0x0C (fun t k => levelBeat 3 < (t.entry k).2) (fun t k => levelMask fun p => levelBeat p < (t.entry k).2)]
  (all.map repSort).flatten

/-- A report rejects the table: it fails a check other than those made per level (R176). -/
def repRejects (r : List RepEntry) : Bool := r.any fun e => e.code ≠ 0x05 && e.code ≠ 0x06 && e.code ≠ 0x0C
/-- The FIT mask of a report. -/
def repFit (r : List RepEntry) : Nat :=
  0xF - (r.filter fun e => e.code = 0x05 || e.code = 0x06 || e.code = 0x0C).foldl (fun m e => m ||| e.levels) 0

/-! ### Table images (R183) -/

/-- A big-endian field of a list of bytes. -/
def fieldAt (bs : List Byte) (off n : Nat) : Nat := beNat ((bs.drop off).take n)

/-- CRC of the whole image with its field set to 0. -/
def imageCrcOk (bs : List Byte) : Bool :=
  (crc32c 0xFFFFFFFF (bs.take 0x3C ++ List.replicate 4 0 ++ bs.drop 0x40)).toNat = fieldAt bs 0x3C 4

/-- Length of the image its header announces. -/
def imageLen (bs : List Byte) : Nat :=
  64 + 8208 * ((List.range 16).filter (fieldAt bs 6 2).testBit).length + 8 * fieldAt bs 0x0C 2

/-- MAGIC, FORMAT, IMAGE_LEN and N_BIND are valid. -/
def imageHeaderOk (bs : List Byte) : Bool :=
  decide (64 ≤ bs.length) && fieldAt bs 0 4 = 0x4C475442 && fieldAt bs 4 2 = 1 && fieldAt bs 8 4 = bs.length && imageLen bs = bs.length &&
    decide (fieldAt bs 0x0C 2 ≤ 1024)

/-- One engine section. -/
def imageTable (bs : List Byte) : EngTable :=
  { dir := (List.range 4).map fun k => (fieldAt bs (4 * k) 2, fieldAt bs (4 * k + 2) 2)
    steps := (List.range 1024).map fun j => BitVec.ofNat 64 (fieldAt bs (16 + 8 * j) 8) }

/-- The image's tables and bindings. -/
def imageOf (bs : List Byte) : Image :=
  let es := (List.range 16).filter (fieldAt bs 6 2).testBit
  let at_ := fun n => 64 + 8208 * ((es.filter fun m => m < n).length)
  let b0 := 64 + 8208 * es.length
  { tables := (List.range 16).map fun n => if es.contains n then imageTable (bs.drop (at_ n)) else {}
    binds := (List.range (fieldAt bs 0x0C 2)).map fun i =>
      { obj := fieldAt bs (b0 + 8 * i) 2, sub := fieldAt bs (b0 + 8 * i + 2) 1, engine := fieldAt bs (b0 + 8 * i + 3) 1,
        step := fieldAt bs (b0 + 8 * i + 4) 2 }
    id := fieldAt bs 0x10 4 }

end Sys2Proof.Machine
end

