-- ==== Sys2Proof/Machine/Escapement.lean ====
section
/-!
DEFINITION. The escapement beside its engines (R176, R184 to R198): table loads, coefficient groups and their queue, bank swaps,
engine faults, spares and migration.
-/
namespace Sys2Proof.Machine

/-! ### Banks -/

/-- The active bank; the other one. -/
def Esc.setInactive (e : Esc) (b : Bank) : Esc := if e.activeB then { e with bankA := b } else { e with bankB := b }

/-- BANK_STATUS (R197). -/
def Bank.status (b : Bank) (active : Bool) : Nat := b2n b.loaded + 2 * b2n b.verified + 4 * (b.fit % 16) + 2 ^ 6 * b2n active

/-- A bank holds no table. -/
def Bank.isEmpty (b : Bank) : Bool := !b.loaded

/-- The active table, and the inactive one if one is loaded, fit a level (R28). -/
def Esc.fits (e : Esc) (level : Nat) : Bool :=
  e.active.fit.testBit level && (!e.inactive.loaded || e.inactive.fit.testBit level)

/-- ESC_STATUS (R198). -/
def Esc.status (e : Esc) : Nat :=
  b2n e.activeB + 2 * b2n e.migration.isSome + 4 * b2n e.swap.isSome + 8 * b2n (16 ≤ e.groups.length) + 16 * b2n e.wbSatRos +
    32 * b2n e.accSatRos + 64 * b2n e.spareFaultRos + 128 * b2n e.noSpareRos

/-! ### Table loads (R176, R184) -/

/-- A load is refused as busy: a swap pending, a migration in progress, another load being verified. -/
def Esc.loadBusy (e : Esc) : Bool := e.swap.isSome || e.migration.isSome || !e.waiting.isEmpty || e.verify.isSome

/-- Write every step a bank's directory binds from the present objects (R180). -/
def State.bindAll (s : State) (b : Bank) : Bank :=
  b.binds.foldl
    (fun b x => match derive s x.obj x.sub with | some q => b.setStep x.engine x.step (constWord (quantize q)) | none => b) b

/-- Response parameters of the last fragment (R371): FIT, TOTAL and up to 120 entries. -/
def reportParams (fit : Nat) (r : List RepEntry) : List Byte :=
  beBytes 1 fit ++ beBytes 2 r.length ++ (r.take 120).flatMap RepEntry.bytes

/-- The first entry of a report as VERIFY_FIRST keeps it. -/
def firstEntry (r : List RepEntry) : DWord := match r with | e :: _ => BitVec.ofNat 64 (beNat e.bytes) | [] => 0

/-- Verification of a loaded image is complete (R176, R184). An image without a step in any beat counts as the empty table, whatever constants and
bindings it has: the model's choice (log entry 60). -/
def State.verifyDone (s : State) : State :=
  match s.esc.verify with
  | none => s
  | some v =>
    let s := { s with esc := { s.esc with verify := none } }
    let idBytes := beBytes 4 (fieldAt v.image 0x10 4)
    if !imageHeaderOk v.image then (s.post 0x2D02 noInst idBytes).replyTo v.reply (Ans.st stRange)
    else if !imageCrcOk v.image then (s.post 0x2D02 noInst idBytes).replyTo v.reply (Ans.st stCrc)
    else
      let im := imageOf v.image
      let r := verifyReport s im (s.cfgN Obj.SPARES)
      let fit := repFit r
      let s := { s with esc := { s.esc with verifyFails := r.length, verifyFirst := firstEntry r } }
      if repRejects r then
        ({ s with esc := s.esc.setInactive {} }.post 0x2D02 noInst idBytes).replyTo v.reply
          { status := stRefused, reason := rsVerifier, params := reportParams fit r }
      else
        let b : Bank := { tables := im.tables, binds := im.binds, loaded := im.tables.any EngTable.nonEmpty, verified := true, fit := fit,
                          id := BitVec.ofNat 32 im.id, sigs := im.tables.map EngTable.signature, conforms := v.conforms }
        ({ s with esc := s.esc.setInactive (s.bindAll b) }.post 0x2D01 noInst idBytes).replyTo v.reply (Ans.ok (reportParams fit r))

/-- Verify a bank again for a number of spares (R176). -/
def State.reverify (s : State) (b : Bank) : Bank × List RepEntry :=
  let r := verifyReport s ⟨b.tables, b.binds, b.id.toNat⟩ (s.cfgN Obj.SPARES)
  ({ b with fit := repFit r, verified := !repRejects r }, r)

/-- SPARES has changed: both banks are verified again, the inactive one last, which returns to the empty table when it is rejected. -/
def State.reverifyAll (s : State) : State :=
  let a := s.reverify s.esc.active
  let i := s.reverify s.esc.inactive
  let ib := if repRejects i.2 then {} else i.1
  let e := s.esc
  { s with esc := { e with
      bankA := if e.activeB then ib else a.1, bankB := if e.activeB then a.1 else ib
      verifyFails := i.2.length, verifyFirst := firstEntry i.2 } }

/-- A write of SPARES would leave content on a new spare (R196). -/
def State.sparesRefused (s : State) (n : Nat) : Bool :=
  [s.esc.bankA, s.esc.bankB].any fun b => b.loaded && (b.tables.zipIdx.any fun p => p.1.nonEmpty && decide (15 - n < p.2))

/-! ### Coefficient groups (R185, R186) -/

/-- The queue is full. -/
def State.queueFull (s : State) : Bool := decide (16 ≤ s.esc.groups.length)
/-- Queue a group. -/
def State.pushGroup (s : State) (g : Group) : State := { s with esc := { s.esc with groups := s.esc.groups ++ [g] } }

/-- The steps bound to an object or to one that takes it in: bank, engine and step. -/
def State.boundSteps (s : State) (i : Nat) : List (Bool × Nat × Nat) :=
  [(false, s.esc.bankA), (true, s.esc.bankB)].flatMap fun p =>
    (p.2.binds.filter fun b => (i :: coefOwners i).contains b.obj).map fun b => (p.1, b.engine, b.step)

/-- The steps that an item writes. -/
def State.itemSteps (s : State) : Item → List (Bool × Nat × Nat)
  | .coef b e k _ => [(b, e, k)]
  | .obj i _ => s.boundSteps i
  | .target a _ _ _ => s.boundSteps (axisTarget a)
  | .action _ _ => []
/-- The engines whose steps an item writes. -/
def State.itemEngines (s : State) (i : Item) : List Nat := (s.itemSteps i).map fun x => x.2.1

/-- The first item with which a group would hold more than 256 steps (R186). -/
def State.groupOver (s : State) (items : List Item) : Option Nat :=
  (List.range items.length).find? fun n => decide (256 < ((items.take (n + 1)).flatMap s.itemSteps).eraseDups.length)

/-- Logical engines under migration or waiting for one. -/
def Esc.migrates (e : Esc) : List Nat := (match e.migration with | some m => [m.logical] | none => []) ++ e.waiting.map (·.logical)
/-- Engines whose groups wait for a spare (R193, R199): under migration, waiting for one, or left without one. -/
def Esc.heldEngines (e : Esc) : List Nat := e.migrates ++ e.noSpare

/-- A group waits for an engine under migration. -/
def State.groupHeld (s : State) (g : Group) : Bool := g.items.any fun i => (s.itemEngines i).any s.esc.heldEngines.contains

/-- The group that applies at the next boundary: the first that is two ticks old and does not wait for a migration. -/
def State.groupDue (s : State) : Option Group :=
  if s.esc.groupTick = some s.nextTick then none
  else (s.esc.groups.find? fun g => !s.groupHeld g).bind fun g => if g.acc + 2 ≤ s.nextTick then some g else none

/-- Take the first copy of a group out of the queue, and note the tick whose slot it takes. -/
def State.dropGroup (s : State) (g : Group) : State :=
  { s with esc := { s.esc with groups := s.esc.groups.erase g, groupTick := some s.nextTick } }

/-- Write one constant step (R185). -/
def State.putCoef (s : State) (bankB : Bool) (engine step : Nat) (w : DWord) : State :=
  { s with esc := if bankB then { s.esc with bankB := s.esc.bankB.setStep engine step w }
                  else { s.esc with bankA := s.esc.bankA.setStep engine step w } }

/-- What a write of COEF_WRITE answers before it is queued (R185); none when it is accepted. -/
def State.coefJudge (s : State) (w : DWord) : Option Ans :=
  let bankB := w.getLsbD 63
  let eng := DWord.bits w 62 59
  let step := DWord.bits w 57 48
  let b := if bankB then s.esc.bankB else s.esc.bankA
  let loading := s.esc.verify.isSome && (bankB != s.esc.activeB)
  if DWord.bits w 47 37 ≠ 0 || w.getLsbD 58 then some (Ans.st stRange)
  else if loading then some (Ans.st stBusy)
  else if !isConst ((b.tables.getD eng {}).steps.getD step 0) then some (Ans.st stRange)
  else if b.binds.any fun x => x.engine = eng && x.step = step then some (Ans.refuse rsBinding)
  else if s.queueFull then some (Ans.st stBusy)
  else none

/-- The item of COEF_WRITE. -/
def coefItem (w : DWord) : Item :=
  .coef (w.getLsbD 63) (DWord.bits w 62 59) (DWord.bits w 57 48)
    (constWord ⟨(w.setWidth 32).toInt, (BitVec.ofNat 5 (DWord.bits w 36 32)).toInt⟩)

/-! ### Bank swap (R188) -/

/-- The level that a change in progress leads to. -/
def State.levelNext (s : State) : Nat := match s.pwr.plTarget with | some (level, _, _) => level | none => s.pwr.pl

/-- What TABLE_SWAP answers when it cannot be made pending; the bank must fit the level that a change in progress leads to as well (R400). -/
def State.swapJudge (s : State) : Option Ans :=
  if !(s.esc.inactive.fit.testBit s.pwr.pl && s.esc.inactive.fit.testBit s.levelNext) then some (Ans.refuse rsFit)
  else if s.esc.loadBusy then some (Ans.st stBusy)
  else none

/-- Make a swap pending for a tick. -/
def State.pendSwap (s : State) (due : Nat) (r : Option Reply) : State := { s with esc := { s.esc with swap := some ⟨due, r⟩ } }

/-- A swap may apply at the next boundary: no migration runs or waits (R188), and the tick has had none (R256). -/
def State.swapFree (s : State) : Bool :=
  s.esc.migration.isNone && s.esc.waiting.isEmpty && (s.esc.swapTick ≠ s.nextTick || s.esc.swapCount = 0)

/-- The pending swap acts at the next boundary: no migration holds it. -/
def State.swapDue (s : State) : Option Swap :=
  if !s.swapFree then none
  else s.esc.swap.bind fun w => if w.due ≤ s.nextTick then some w else none

/-- Make the inactive bank active (R188). -/
def State.doSwap (s : State) (w : Swap) : State :=
  ({ s with esc := { s.esc with activeB := !s.esc.activeB, swap := none, swapCount := s.esc.swapCount + 1,
                                swapTick := s.nextTick } }.postAt s.nextTick 0x2D03 noInst (beBytes 8 w.due)).replyTo w.reply
    (Ans.ok (beBytes 8 s.nextTick))

/-! ### Faults, spares and migration (R192 to R195) -/

/-- Spare slots, E15 first. -/
def State.spareSlots (s : State) : List Nat := (List.range (s.cfgN Obj.SPARES)).map fun i => 15 - i
/-- A logical engine is one that tables use: not a spare slot. -/
def State.isLogical (s : State) (n : Nat) : Bool := decide (n ≤ 15 - s.cfgN Obj.SPARES)
/-- Slots whose engine is in service and not being filled. -/
def State.freeSlots (s : State) : List Nat :=
  s.spareSlots.filter fun n => !(s.esc.engine (s.esc.phys n)).failed && !(match s.esc.migration with | some m => m.slot == n | none => false)
/-- The logical engine or slot a physical engine stands in. -/
def Esc.logicalOf (e : Esc) (p : Nat) : Nat := e.map.idxOf p

/-- Change one physical engine. -/
def State.setEngine (s : State) (p : Nat) (f : Engine → Engine) : State :=
  { s with esc := { s.esc with engines := modifyAt s.esc.engines p f } }

/-- An engine leaves service. -/
def State.outOfService (s : State) (p : Nat) : State := s.setEngine p fun e => { e with failed := true }

/-- Start a migration, or find no spare (R193, R194). An engine in service is mirrored first, its last signature having passed (R192). -/
def State.startMigration (s : State) (n : Nat) (byCommand : Bool) (r : Option Reply) : State :=
  match s.freeSlots with
  | slot :: _ =>
    let s := (s.mirrorOne n).outOfService (s.esc.phys n)
    { s with
      esc := { s.esc with
        migration := some { logical := n, slot := slot, start := s.nextTick, byCommand := byCommand, reply := r } } }.postAt s.nextTick
      0x2D05 n [BitVec.ofNat 8 (b2n byCommand)]
  | [] =>
    if byCommand then s.replyTo r (Ans.refuse rsSpare)
    else { s with esc := { s.esc with noSpare := s.esc.noSpare ++ [n], noSpareRos := true },
                  saf := { s.saf with mainDie := true } }.postAt s.nextTick 0x2D08 (s.esc.phys n) []

/-- Ask for a migration: it waits while another one runs. -/
def State.askMigration (s : State) (n : Nat) (byCommand : Bool) (r : Option Reply) : State :=
  if s.esc.migration.isSome then { s with esc := { s.esc with waiting := s.esc.waiting ++ [⟨n, byCommand, r⟩] } }
  else s.startMigration n byCommand r

/-- A spare fails (R194): it is out of service; a migration that fills it goes to the next spare. -/
def State.spareFails (s : State) (p : Nat) : State :=
  let s := s.outOfService p
  let s := { s with esc := { s.esc with spareFaultRos := true } }.post 0x2D07 p []
  match s.esc.migration with
  | some m =>
    if s.esc.phys m.slot = p then { s with esc := { s.esc with migration := none } }.startMigration m.logical m.byCommand m.reply else s
  | none => s

/-- An engine that runs a logical engine fails a check in the tick the next edge begins (R192). -/
def State.engineFails (s : State) (p kind step : Nat) (stop : Option Nat) : State :=
  let n := s.esc.logicalOf p
  let s := s.setEngine p fun e => { e with failed := true, failAt := some s.nextTick, stopAt := stop }
  let s := { s with esc := { s.esc with
    residueCount := s.esc.residueCount + b2n (kind = 0), sigCount := s.esc.sigCount + b2n (kind = 1) } }
  ((s.condEvent 52).postAt s.nextTick 0x2D04 p (BitVec.ofNat 8 kind :: beBytes 2 step)).askMigration n false none

/-- A physical engine is checked: it is in service and the tick runs. -/
def State.checked (s : State) (p : Nat) : Bool := s.ticking && p < 16 && !(s.esc.engine p).failed

/-- Opcodes with a residue check: multiplies, accumulations, write-backs, SQRT and DIV (R191). -/
def residueOps : List Nat := [0x01, 0x02, 0x03, 0x04, 0x05, 0x06, 0x0C, 0x0D, 0x18, 0x19, 0x20, 0x21, 0x22]
/-- A logical engine executes a step that carries a residue check; one that saturates in the tick is exempt (R191). -/
def State.residueAt (s : State) (n : Nat) (x : ResidueStep) : Bool :=
  let t := s.esc.active.tables.getD n {}
  (t.beatOf x.step).isSome && residueOps.contains (stepOp (t.steps.getD x.step 0)) && !x.saturates

/-- A residue error stops the engine at a step of the next tick; what its last signature passed is mirrored. -/
def State.residueError (s : State) (p : Nat) (x : ResidueStep) : State :=
  let n := s.esc.logicalOf p
  if !s.checked p then s
  else if !s.isLogical n then s.spareFails p
  else if s.residueAt n x then (s.mirrorOne n).engineFails p 0 x.step (some x.step)
  else s

/-- A signature mismatch suppresses the whole of the next tick; the mirror keeps the tick before. The signature held is one that is not
the expected one. -/
def State.signatureError (s : State) (p : Nat) : State :=
  if !s.checked p then s
  else if !s.isLogical (s.esc.logicalOf p) then s.spareFails p
  else (s.setEngine p fun e => { e with sig := e.want }).engineFails p 1 0xFFFF none

/-- SPARE_FAULT: an idle spare fails its built-in test table. -/
def State.spareFault (s : State) (p : Nat) : State :=
  if s.checked p && !s.isLogical (s.esc.logicalOf p) then s.spareFails p else s

/-- The spare has received everything: 73 ticks after the fault (R193). -/
def State.migrateDue (s : State) : Option Migration :=
  s.esc.migration.bind fun m => if m.start + 73 ≤ s.nextTick then some m else none

/-- The spare takes the logical engine over with the state of the mirror; the failed engine is left in the spare's slot. -/
def State.migrateTo (s : State) (m : Migration) : State :=
  let old := s.esc.phys m.logical
  let new := s.esc.phys m.slot
  let src := s.esc.engine old
  let s := (s.setEngine new fun e => { e with locals := src.mLocals, tag := src.mTag, mLocals := src.mLocals, mTag := src.mTag }).restoreLaws
    m.logical
  { s with esc := { s.esc with
      map := (s.esc.map.set m.logical new).set m.slot old, vacant := m.slot :: s.esc.vacant.filter (· ≠ m.slot), migration := none
      migrateCount := s.esc.migrateCount + 1 } }.postAt s.nextTick 0x2D06 m.logical [BitVec.ofNat 8 (b2n m.byCommand)]

/-- Every logical engine with a directory runs in service: ENGINE_NO_SPARE ends (R287). -/
def State.sparesSettled (s : State) : State :=
  let used := fun n => [s.esc.bankA, s.esc.bankB].any fun b => (b.tables.getD n {}).nonEmpty
  let still := s.esc.noSpare.filter fun n => !s.esc.runs n
  let s := { s with esc := { s.esc with noSpare := still } }
  if s.saf.mainDie && (List.range 16).all (fun n => !used n || s.esc.runs n) then { s with saf := { s.saf with mainDie := false } } else s

/-- Start the migrations that wait, until one runs. -/
def State.nextMigration (s : State) : List MigWait → State
  | [] => s
  | w :: ws =>
    if s.esc.migration.isSome then s
    else
      let s := { s with esc := { s.esc with waiting := ws } }
      (s.startMigration w.logical w.byCommand w.reply).nextMigration ws

/-- ENGINE_SPARE MIGRATE (R195): what it answers at once, none when the migration is asked for. -/
def State.migrateJudge (s : State) (n : Nat) : Option Ans :=
  if !s.isLogical n then some (Ans.st stRange)
  else if s.esc.migrates.contains n then some (Ans.st stBusy)
  else if s.freeSlots.isEmpty then some (Ans.refuse rsSpare)
  else none

/-- ENGINE_SPARE RETEST (R195), the test passed: the engine resumes the logical engine it still carries, or takes the first slot that a
migration left; else it stays out until reset release. -/
def State.retested (s : State) (p : Nat) : State :=
  let n := s.esc.logicalOf p
  if s.isLogical n then
    (s.setEngine p fun e => { e with locals := e.mLocals, tag := e.mTag, failed := false }).restoreLaws n
  else if s.esc.vacant.isEmpty then s.setEngine p fun e => { e with barred := true }
  else
    let slot := s.esc.vacant.foldl max 0
    let s := s.setEngine p fun e => { e with failed := false }
    { s with esc := { s.esc with map := (s.esc.map.set n (s.esc.phys slot)).set slot p, vacant := s.esc.vacant.filter (· ≠ slot) } }

/-- The test failed: the engine stays out of service until reset release. -/
def State.retestFailed (s : State) (p : Nat) : State := s.setEngine p fun e => { e with barred := true }

/-- ENGINE_MAP. -/
def Esc.mapWord (e : Esc) : Nat := (e.map.zipIdx.map fun p => p.1 * 2 ^ (4 * p.2)).sum

end Sys2Proof.Machine
end

