-- ==== Sys2Proof/Machine/Sched.lean ====
section
/-!
DEFINITION. The scheduler (R252 to R256): keys, angle positions, acceptance, and which action acts at the next boundary.
Positions are in 2^-32 turn.
-/
namespace Sys2Proof.Machine

/-! ### Keys (R252) -/

/-- Kinds of key. -/
def keyNow (k : SchedKey) : Bool := k.ty = 0
def keyAngle (k : SchedKey) : Bool := k.ty = 3 || k.ty = 4
def keyDiscard (k : SchedKey) : Bool := k.options.getLsbD 0
def keyNext (k : SchedKey) : Bool := k.options.getLsbD 1
def keyHold (k : SchedKey) : Bool := k.options.getLsbD 2

/-- A defined TYPE and OPTIONS, with NEXT for angles only. -/
def keyLegal (k : SchedKey) : Bool := decide (k.ty.toNat ≤ 4) && decide (k.options.toNat < 8) && (!keyNext k || keyAngle k)

/-- VALUE of a TIME key in ns, of a TICK key, and turn and angle of a THETA key. Nanoseconds of 10^9 or more, which R14 has not, are added as they
stand: the model's choice (log entry 60). -/
def keyTime (k : SchedKey) : Int := (k.value.toNat / 2 ^ 48) * 1000000000 + (k.value.toNat / 2 ^ 16 % 2 ^ 32)
def keyTickValue (k : SchedKey) : Nat := k.value.toNat / 2 ^ 32
def keyValuePos (k : SchedKey) : Int := k.value.toNat

/-! ### Positions (R254) -/

/-- P of an angle at the last edge: θg of a THETA_G key, else θv. -/
def State.position (s : State) (g : Bool) : Int :=
  if g then floorDiv s.sched.turnG (2 ^ 32) else s.sched.turnV * 2 ^ 32 + s.thetaV.toNat
/-- P of θg without the jump that has come last. -/
def State.unjumped (s : State) : Int :=
  floorDiv (s.sched.turnG - ((s.gt.theta - s.gt.jumpFrom).toInt - s.gt.jumpFwd)) (2 ^ 32)
/-- P at the next edge; `fwd` leaves out a jump. -/
def State.positionNext (s : State) (g fwd : Bool) : Int :=
  if !g then floorDiv (s.sched.turnV * 2 ^ 64 + s.bal.acc.toNat + (s.phaseStep (s.sigI 0x043)).toNat) (2 ^ 32)
  else if s.gt.jumpEdge then
    if fwd then s.unjumped else s.position true
  else floorDiv (s.sched.turnG + (s.gtStep.2 - s.gt.theta).toInt) (2 ^ 32)

/-- The position a key fires at: its own, or with NEXT the (SKIP + 1)-th forward pass of its angle from now. -/
def State.keyPosition (s : State) (k : SchedKey) : Int :=
  if keyNext k then
    let p := s.position (k.ty = 4)
    let a := (k.value.toNat % 2 ^ 32 : Int)
    p + ((a - p - 1) % 2 ^ 32 + 1) + k.skip.toNat * 2 ^ 32
  else keyValuePos k

/-- The due tick of a TIME or TICK key (R253). -/
def State.keyTick (s : State) (k : SchedKey) : Option Nat :=
  if k.ty = 1 then some (-(floorDiv (-(keyTime k - s.time.epoch)) 250)).toNat else if k.ty = 2 then some (keyTickValue k) else none

/-! ### Acceptance (R252, R255) -/

/-- What a key answers before its command is looked at. -/
def State.keyJudge (s : State) (k : SchedKey) : Option Ans :=
  if !keyLegal k then some (Ans.st stRange)
  else if k.ty = 1 && !s.time.stepDone && s.cfgN Obj.PTP_MODE ≠ 0 then some (Ans.refuse rsTime)
  else if !keyNow k && decide (64 ≤ s.sched.pending.length) then some (Ans.st stBusy)
  else none

/-- The action of an accepted command. -/
def State.newAction (s : State) (k : SchedKey) (c : HostCmd) : Action :=
  let pos := s.keyPosition k
  { id := s.sched.nextId, key := k, cmd := c, acc := s.tick.now, due := s.keyTick k, pos := if keyAngle k then some pos else none,
    hold := false, reached := if keyAngle k && !keyNext k && decide (pos ≤ s.position (k.ty = 4)) then some s.tick.now else none,
    jump := false, coasted := false }

/-- It is late at acceptance: it cannot act at its due tick. -/
def Action.lateAtOnce (a : Action) : Bool :=
  a.reached.isSome || (match a.due with | some d => decide (d < a.acc + 2) | none => false)

/-- Count a late or dropped action (R255). -/
def State.countLate (s : State) : State := { s with sched := { s.sched with lateCount := s.sched.lateCount + 1, lateRos := true } }
def State.countDiscard (s : State) : State := { s with sched := { s.sched with discardCount := s.sched.discardCount + 1, lateRos := true } }

/-- Put an action into the scheduler and answer its command, or drop it late. -/
def State.schedule (s : State) (k : SchedKey) (c : HostCmd) (r : Option Reply) : State :=
  let a := s.newAction k c
  if keyDiscard k && a.lateAtOnce then s.countDiscard.replyTo r (Ans.st stLate)
  else
    { s with sched := { s.sched with pending := s.sched.pending ++ [a], nextId := s.sched.nextId + 1 } }.replyTo r
      (Ans.ok (beBytes 4 a.id ++ beBytes 8 (a.due.getD 0)))

/-! ### Cancelling (R256) -/

/-- The action is due within 2 ticks. -/
def State.dueSoon (s : State) (a : Action) : Bool :=
  match a.due with
  | some d => decide (d ≤ s.tick.now + 2)
  | none =>
    let g := a.key.ty = 4
    a.reached.isSome || decide (a.pos.getD 0 ≤ s.position g + 2 * (s.positionNext g false - s.position g))

/-- What SCHED_CANCEL answers when it refuses. -/
def State.cancelJudge (s : State) (id : Nat) : Option Ans :=
  match s.sched.pending.find? fun a => a.id == id with
  | none => some (Ans.st stRange)
  | some a => if s.dueSoon a then some (Ans.refuse rsSched) else none
/-- Remove the pending action. -/
def State.cancel (s : State) (id : Nat) : State :=
  { s with sched := { s.sched with pending := s.sched.pending.filter fun a => a.id != id } }

/-! ### What falls due (R253 to R256) -/

/-- An action as it stands for the next boundary: the tick it is due at, when it may act there. -/
def State.actDue (s : State) (a : Action) : Option Nat :=
  if s.nextTick < a.acc + 2 then none
  else match a.due with
    | some d => if d ≤ s.nextTick then some d else none
    | none =>
      let d := match a.reached with
        | some t => some t
        | none => if a.pos.getD 0 ≤ s.positionNext (a.key.ty = 4) false then some s.nextTick else none
      if a.key.ty = 4 && keyHold a.key && s.gt.state ≠ .locked then none else d

/-- An action that applies a group; one that swaps banks. -/
def Action.isGroup (a : Action) : Bool := match a.cmd with | .objWriteSet _ _ => true | .handsTarget _ _ _ _ => true | _ => false
def Action.isSwap (a : Action) : Bool := match a.cmd with | .tableSwap _ => true | _ => false

/-- The slot of its kind is free in the next tick (R256); a swap waits for a migration to end (R188). -/
def State.slotFree (s : State) (a : Action) : Bool :=
  (!a.isGroup || s.esc.groupTick ≠ some s.nextTick) &&
    (!a.isSwap || s.swapFree)

/-- The earlier of two actions by due tick, then by identifier. -/
def earlier (x y : Nat × Action) : Nat × Action := if y.1 < x.1 || (y.1 == x.1 && decide (y.2.id < x.2.id)) then y else x

/-- The actions that may act at the next boundary, with their due ticks. -/
def State.dueActions (s : State) : List (Nat × Action) := (s.sched.pending.filter s.slotFree).filterMap fun a => (s.actDue a).map fun d => (d, a)

/-- A scheduled group is due: it takes the tick's slot ahead of the queue (R256). -/
def State.schedGroupDue (s : State) : Bool := s.dueActions.any fun x => x.2.isGroup

/-- The action that acts next, with its due tick (R256): a group first; a swap only after the tick's group. -/
def State.nextAction (s : State) : Option (Nat × Action) :=
  let xs := s.dueActions
  let first := xs.filter fun x => x.2.isGroup
  match (if first.isEmpty then xs.filter fun x => !x.2.isSwap || s.groupDue.isNone else first) with
  | [] => none
  | x :: xs => some (xs.foldl earlier x)

/-- Flags of SCHED_DONE: LATE, JUMP, COASTED. -/
def State.actionFlags (s : State) (d : Nat) (a : Action) : Nat :=
  let g := a.key.ty = 4
  let jump := g && s.gt.jumpEdge && a.reached.isNone && decide (s.positionNext true true < a.pos.getD 0)
  b2n (d < s.nextTick) + 2 * b2n (jump || a.jump) + 4 * b2n (g && (s.gt.state ≠ .locked || a.coasted))

/-- The lateness of an action due at `d` that acts at the next boundary. -/
def State.lateness (s : State) (d : Nat) (a : Action) : Lateness :=
  ⟨s.nextTick - d, if d < s.nextTick then match a.pos with | some p => s.positionNext (a.key.ty = 4) false - p | none => 0 else 0⟩

/-- The entry an action ends with, in tick `t`: SCHED_DONE with its flags, or SCHED_LATE with the lateness in ticks (R256, R282). The lateness in
turns of a THETA key, and the flags of a late action, for which R282 leaves SCHED_LATE no byte, are recorded beside it (R255, R260; log entry 56). -/
def State.actionDone (s : State) (t id flags : Nat) (late : Lateness) : State :=
  let s := s.condEvent 57
  if 0 < late.ticks then
    { s.countLate with sched := { s.countLate.sched with lateTurn := late.turn, lateFlags := flags } }.postAt t 0x270A noInst
      (beBytes 4 id ++ beBytes 4 late.ticks)
  else s.postAt t 0x2709 noInst (beBytes 4 id ++ [BitVec.ofNat 8 flags])
/-- SCHED_FAILED; a late action is counted (R255). -/
def State.actionFailed (s : State) (t id late : Nat) (st : Byte) : State :=
  (if 0 < late then s.countLate else s).postAt t 0x270C noInst (beBytes 4 id ++ [st])

/-- At an edge, note the keys whose angle has been reached, and how (R254). A NEXT key is never late: reached before its action can act, it
counts as reached then. -/
def State.schedEdge (s : State) : State :=
  let note := fun (a : Action) =>
    if a.pos.isNone || a.reached.isSome then a
    else if a.pos.getD 0 ≤ s.position (a.key.ty = 4) then
      { a with reached := some (if keyNext a.key then max s.tick.now (a.acc + 2) else s.tick.now), coasted := a.key.ty = 4 && s.gt.state ≠ .locked,
               jump := a.key.ty = 4 && (s.sigW 0x048).getLsbD 2 && decide (s.unjumped < a.pos.getD 0) }
    else a
  { s with sched := { s.sched with pending := s.sched.pending.map note } }

/-- The step of module time re-maps the pending TIME keys (R253). -/
def State.remapKeys (s : State) : State :=
  { s with sched := { s.sched with pending := s.sched.pending.map fun a => if a.key.ty = 1 then { a with due := s.keyTick a.key } else a } }

end Sys2Proof.Machine
end

