-- ==== Sys2Proof/Machine/Sessions.lean ====
section
/-!
DEFINITION. Host-link sessions (R353 to R355, R363, R373): closing them, the release of mailboxes, and the start of the supervisor.
-/
namespace Sys2Proof.Machine

/-- A mailbox is released when its session has closed and its last command has been answered or discarded (R363). -/
def Mailbox.release (open_ : Word → Bool) (m : Mailbox) : Mailbox :=
  match m.owner with
  | some o => if !open_ o && m.queue.isEmpty && m.running.isNone then { m with owner := none } else m
  | none => m

/-- A session identifier names an open session. -/
def State.isOpen (s : State) (id : Word) : Bool := (s.session id).isSome

/-- Release every mailbox that may be. -/
def State.releaseMbs (s : State) : State :=
  { s with host := { s.host with mbs := s.host.mbs.map (Mailbox.release s.isOpen) } }

/-- Close one session (R355, R376): causes 0 CLOSE, 1 timeout, 2 supervisor start, 3 address change. -/
def State.closeSession (s : State) (id : Word) (cause : Nat) : State :=
  if s.isOpen id then
    let s := { s with host := { s.host with sessions := s.host.sessions.filter (fun x => x.id ≠ id)
                                            gone := s.host.gone ++ s.host.sessions.filter fun (x : Session) => x.id = id } }
    s.releaseMbs.post 0x1F02 noInst (beBytes 4 id.toNat ++ [BitVec.ofNat 8 cause])
  else s

/-- Close every session (R373, R375). -/
def State.closeAll (s : State) (cause : Nat) : State := s.host.sessions.foldl (fun s x => s.closeSession x.id cause) s

/-- What a start of the supervisor empties (R373): sessions, mailboxes, and the transfers in progress. -/
def HostLink.restarted (h : HostLink) : HostLink :=
  { h with sessions := [], gone := [], pendings := [], mbs := List.replicate 8 {}, fwSup := none, fwSk := none, supEpoch := h.supEpoch + 1,
           starting := false }

/-- The supervisor starts (R373). A reset release that is not yet written is written now (R382). -/
def State.supStart (s : State) : State :=
  let s := s.closeAll 2
  let s := { s with host := s.host.restarted, esc := { s.esc with load := none, verify := none } }
  if s.pwr.releasePending then { s with pwr := { s.pwr with releasePending := false } }.post 0x2B08 noInst (beBytes 4 s.pwr.heldMs) else s

/-- Sessions and sessions that await their proof (R354): at most 4. -/
def State.sessionsHeld (s : State) : Nat := s.host.sessions.length + s.host.pendings.length

/-- An identifier is not 0, which stands for no session, and no session has it (R353). -/
def State.unusedId (s : State) (id : Word) : Bool :=
  id ≠ 0 && !(s.host.sessions.any fun x => x.id == id) && !(s.host.pendings.any fun x => x.id == id)
/-- The identifier of a new session: free among those (log entry 3). With fewer than four held one of five neighbours is. -/
def State.newSession (s : State) : Word :=
  (((List.range 5).map fun k => Config.sessionId s.free + BitVec.ofNat 32 k).find? s.unusedId).getD 1
/-- The module's nonce of 16 bytes: free (log entry 3). -/
def State.newNonce (s : State) : List Byte := beBytes 16 (Config.nonce s.free).toNat

/-- A datagram without a session comes from `p`, where its answer goes (R353). -/
def State.asked (s : State) (p : Peer) : State := { s with host := { s.host with asker := p } }

/-- HELLO (R354): a challenge, or BUSY when four sessions are held. KEY_SLOT is 0 OP or 1 RO; another slot counts as a bad frame. -/
def State.hello (s : State) (x : HelloFrame) (slot : Byte) : State :=
  let s := s.asked x.peer
  if 1 < slot.toNat then { s with host := { s.host with rxBad := s.host.rxBad + 1 } }
  else if 4 ≤ s.sessionsHeld then s.emit (.error 0 stBusy)
  else
    let id := s.newSession
    let nm := s.newNonce
    let p : PendingSession := { id := id, ro := slot = 1, nh := x.nh, nm := nm }
    { s.fresh with host := { s.host with pendings := s.host.pendings ++ [p] } }.emit (.challenge id nm)

/-- The text of R354's three codes. -/
def proveText : List Byte := [0x50, 0x52, 0x4F, 0x56, 0x45]
def welcomeText : List Byte := [0x57, 0x45, 0x4C, 0x43, 0x4F, 0x4D, 0x45]
def sessionText : List Byte := [0x53, 0x45, 0x53, 0x53, 0x49, 0x4F, 0x4E]

/-- The key of a slot. -/
def HostLink.key (h : HostLink) (ro : Bool) : List Byte := if ro then h.keyRo else h.keyOp
/-- What PROVE must carry, what WELCOME carries, and the session key (R354). -/
def State.proveMac (s : State) (p : PendingSession) : List Byte := hmac (s.host.key p.ro) (proveText ++ p.nh ++ p.nm)
def State.welcomeMac (s : State) (p : PendingSession) : List Byte := hmac (s.host.key p.ro) (welcomeText ++ p.nm ++ p.nh)
def State.sessionKey (s : State) (p : PendingSession) : List Byte :=
  hmac (s.host.key p.ro) (sessionText ++ p.nh ++ p.nm ++ beBytes 4 p.id.toNat)

/-- Drop a session that awaits its proof. -/
def State.dropPending (s : State) (id : Word) : State :=
  { s with host := { s.host with pendings := s.host.pendings.filter fun p => p.id ≠ id } }

/-- PROVE (R354). A proof that no session awaits is a bad frame; a wrong one is answered AUTH and ends the opening. -/
def State.prove (s : State) (id : Word) (mac : List Byte) (src : Peer) : State :=
  let s := s.asked src
  match s.host.pendings.find? fun p => p.id == id with
  | none => { s with host := { s.host with rxBad := s.host.rxBad + 1 } }
  | some p =>
    let s1 := s.dropPending id
    if mac ≠ s.proveMac p then
      ({ s1 with host := { s1.host with authFail := s1.host.authFail + 1 } }.emit (.error id stAuth)).post 0x1F03 noInst (beBytes 4 src.ip.toNat)
    else
      let x : Session := { id := id, ro := p.ro, key := s.sessionKey p, lastSeq := 0, peer := src }
      ({ s1 with host := { s1.host with sessions := s1.host.sessions ++ [x] } }.emit (.welcome id (s.welcomeMac p))).post 0x1F01 noInst
        (beBytes 4 id.toNat ++ [BitVec.ofNat 8 (b2n p.ro)])

/-! ### What the module sends (R353) -/

/-- TYPE, SESSION, MB, RETRANSMIT and payload of a frame. The payloads of ERROR and REG_WRITE_RESP are log entry 59. -/
def HostOut.type : HostOut → Byte
  | .challenge .. => 0x02 | .welcome .. => 0x04 | .regReadResp .. => 0x11 | .regWriteResp .. => 0x13 | .mbResp .. => 0x21 | .error .. => 0x3F
def HostOut.session : HostOut → Word
  | .challenge id _ | .welcome id _ | .error id _ | .regReadResp id _ _ | .regWriteResp id _ | .mbResp id _ _ _ => id
def HostOut.mb : HostOut → Nat
  | .mbResp _ mb _ _ => mb.val
  | _ => 0
def HostOut.flags : HostOut → Nat
  | .mbResp _ _ _ again => b2n again
  | _ => 0
/-- A response message: opcode, TAG, length of the parameters, STATUS, REASON (R362, R364). -/
def Response.bytes (r : Response) : List Byte :=
  beBytes 2 r.opcode.toNat ++ beBytes 2 r.tag.toNat ++ beBytes 2 r.params.length ++ [r.status, r.reason] ++ r.params
def HostOut.payload : HostOut → List Byte
  | .challenge _ nonce => nonce
  | .welcome _ mac => mac
  | .error _ status => [status]
  | .regReadResp _ addr words => beBytes 4 addr.toNat ++ beBytes 2 words.length ++ words.flatMap fun w => beBytes 4 w.toNat
  | .regWriteResp _ addr => beBytes 4 addr.toNat
  | .mbResp _ _ r _ => r.bytes
/-- The opening frames carry no AUTH_TAG (R354). -/
def HostOut.opening : HostOut → Bool
  | .challenge .. | .welcome .. => true
  | _ => false

/-- Header and payload of a frame with a SEQ. -/
def HostOut.body (o : HostOut) (seq : Nat) : List Byte :=
  beBytes 2 0x4C48 ++ [0x01, o.type] ++ beBytes 4 o.session.toNat ++ beBytes 4 seq ++ beBytes 2 o.payload.length ++
    [BitVec.ofNat 8 o.mb, BitVec.ofNat 8 o.flags] ++ o.payload

/-- The tagged frames of a session among those given, and how many it had been sent before them. -/
def taggedOf (id : Word) (out : List HostOut) : Nat := (out.filter fun o => !o.opening && o.session = id).length
def HostLink.sentBefore (h : HostLink) (id : Word) : Nat := ((h.sent.find? fun p => p.1 == id).map (·.2)).getD 0
/-- A command of a session still executes: its response is yet to go out under the session's key. -/
def HostLink.owes (h : HostLink) (id : Word) : Bool := h.mbs.any fun m => match m.running with | some (r, _) => r.session == id | none => false
/-- The frames in the outbox have gone: count them. -/
def HostLink.outGone (h : HostLink) : HostLink :=
  { h with out := [], gone := h.gone.filter fun x => h.owes x.id,
           sent := (h.sessions ++ h.gone).map fun x => (x.id, h.sentBefore x.id + taggedOf x.id h.out) }

/-- UDP port of the module (R353). -/
def hlPort : BitVec 16 := 47210
/-- A datagram that the module sends. -/
structure Datagram where
  src  : Peer
  dst  : Peer
  data : List Byte
  deriving DecidableEq, Repr

/-- The session under whose key a frame goes out. -/
def HostLink.sender (h : HostLink) (o : HostOut) : Option Session := (h.sessions ++ h.gone).find? fun x => x.id == o.session

/-- The datagram of a frame, with those before it in the outbox: in a session it carries the next SEQ, from 1 on, and the AUTH_TAG under the
session's key (R353, R354); outside a session SEQ is 0, and there is no tag. -/
def HostLink.datagram (h : HostLink) (before : List HostOut) (o : HostOut) : List Byte :=
  match (if o.opening then none else h.sender o) with
  | some x =>
    let b := o.body (h.sentBefore x.id + taggedOf x.id before + 1)
    b ++ hmac x.key b
  | none => o.body 0
/-- Where a frame goes: to the source of the datagram it answers (R353). A response, sent again or not, answers its command; every other frame
answers the last datagram of its session, or the last without one. -/
def HostLink.target (h : HostLink) (o : HostOut) : Peer :=
  match o with
  | .mbResp _ _ r _ => r.peer
  | _ => if o.opening then h.asker else ((h.sender o).map (·.peer)).getD h.asker
/-- The datagrams of a step, from the module's address and port. -/
def State.datagrams (s : State) : List Datagram :=
  let h := s.host
  h.out.mapIdx fun i o =>
    { src := ⟨BitVec.ofInt 32 (s.cfg Obj.HL_IPV4), hlPort⟩
      dst := h.target o
      data := h.datagram (h.out.take i) o }

/-- A bad datagram (R353, R355). -/
def State.badFrame (s : State) (why : BadFrame) : State :=
  let h := s.host
  match why with
  | .format => { s with host := { h with rxBad := h.rxBad + 1 } }
  | .noSession => { s with host := { h with rxBad := h.rxBad + 1 } }
  | .oldSeq => { s with host := { h with replay := h.replay + 1 } }
  | .authTag => { s with host := { h with authFail := h.authFail + 1 } }

end Sys2Proof.Machine
end

