-- ==== Sys2Proof/Machine/Writes.lean ====
section
/-!
DEFINITION. Object writes (R18, R19, R39, R57, R58, R76, R78, R81, R84, R106, R131, R157, R196, R223, R229, R235, R238, R239, R243, R257, R275,
R309, R313, R330, R370, R375): what a write is judged by, what follows when its value comes into effect, and the values that wait.
-/
namespace Sys2Proof.Machine

/-! ### A value comes into effect -/

/-- PAIR_PARTNER has been written (R330): 0 makes the module SOLO with the crown; another address makes it a STANDBY that has seen
no heartbeat of that partner. -/
def State.partnerSet (s : State) (v : Int) : State :=
  let s := s.setRole (if v = 0 then .solo else .standby)
  let p := s.pair
  { s with pair := { p with
      crown := v = 0, seen := false, mismatch := false, partner := 0, hbLost := false
      linkLost := false, ready := false, abdicating := false, absentEp := false, notReadyEp := false
      formed := false, revertFrom := none } }

/-- What follows at the boundary at which an object's value comes into effect, beside the steps bound to it. -/
def State.hook (s : State) (i : Nat) (old v : Int) : State :=
  match targetAxis i with
  | some a => s.axisDirect a v
  | none =>
    if i = Obj.F_NOM then
      if decide (s.cfg Obj.F_SET < v * 950) || decide (v * 1050 < s.cfg Obj.F_SET) then s.putDirect Obj.F_SET (v * 1000) else s
    else if i = Obj.CCS_HARM then s.harmCleared
    else if i = Obj.MOD_ENABLE then if v = 0 then s.modSwitchedOff else s
    else if inRow i Obj.TRIP_ARMS 16 then if v = 0 then s else s.tripArmsChanged (i - Obj.TRIP_ARMS)
    else if inRow i Obj.LANE_EN 48 then s.laneEnabled (i - Obj.LANE_EN) (v ≠ 0)
    else if inRow i Obj.CELL_COUNT 48 then s.laneCounted (i - Obj.CELL_COUNT)
    else if inRow i Obj.ARM_MAP 48 then if v = old then s else s.laneAges (i - Obj.ARM_MAP)
    else if inRow i Obj.CARR_PER_CYCLE 4 then { s with mod := { s.mod with reload := true } }
    else if i = Obj.WIN_ANGLE ∨ i = Obj.WIN_ANCHOR then if v = old then s else s.discardWindow
    else if i = Obj.SPARES then if v = old then s else s.reverifyAll
    else if i = Obj.REG_MODE then s.regMode (v ≠ 0)
    else if i = Obj.REG_REF then s.refWrite (v ≠ 0)
    else if i = Obj.REG_TRIM then { s with reg := { s.reg with word := v } }
    else if i = Obj.PTP_MODE then if v = old then s else s.ptpRestart.ptpModeSet v.toNat
    else if inRow i Obj.PTP_MODE 7 then if v = old then s else s.ptpRestart
    else if inRow i Obj.HL_IPV4 3 then s.closeAll 3
    else if i = Obj.PAIR_PARTNER then s.partnerSet v
    else s

/-- An object's value comes into effect. -/
def State.writeObj (s : State) (i : Nat) (v : Int) : State := (s.putObj i v).hook i (s.cfg i) v

/-- The same for a value as the wire carries it: the keys are strings (R375). -/
def State.writeVal (s : State) (i : Nat) : ObjVal → State
  | .num v => s.writeObj i v
  | .time _ _ => s
  | .str bs =>
    if i = Obj.HL_KEY_OP then { s with host := { s.host with keyOp := bs } }
    else if i = Obj.HL_KEY_RO then { s with host := { s.host with keyRo := bs } }
    else s

/-! ### Values that wait (R18) -/

/-- Let a value wait; an earlier one for the same object and point is replaced. -/
def State.addWaiting (s : State) (i : Nat) (v : Int) (p : ApplyPoint) : State :=
  { s with waiting := s.waiting.filter (fun (w : Waiting) => !(w.index == i && w.point == p)) ++ [{ index := i, value := v, point := p }] }

/-- Put in effect every value that waits for a point. -/
def State.applyWaiting (s : State) (p : ApplyPoint) : State :=
  let due := s.waiting.filter fun (w : Waiting) => w.point == p
  let s := { s with waiting := s.waiting.filter fun (w : Waiting) => w.point != p }
  due.foldl (fun (s : State) (w : Waiting) => s.writeObj w.index w.value) s

/-- The safety set that a COMMIT has accepted takes effect (R309); a producer no longer in SF_PRODUCERS is forgotten. -/
def State.applySafety (s : State) : State :=
  if s.waiting.any fun (w : Waiting) => w.point == .setOnly then
    let s := s.applyWaiting .setOnly
    { s with saf := { s.saf with producers := s.saf.producers.mapIdx fun a x => if s.isProducer a then x else {} } }
  else s

/-- Take one value on its way to effect: at once at the boundary, or at its own point (R370). -/
def State.land (s : State) (i : Nat) (v : ObjVal) : State :=
  match objDef i, v with
  | some d, .num n => if d.point = .nextTick || d.point = .setOnly then s.writeObj i n else s.addWaiting i n d.point
  | _, _ => s.writeVal i v

/-! ### Judging (R19, R370, R400) -/

/-- What a group writes to an object, the last of its entries. -/
def itemsVal (items : List Item) (i : Nat) : Option Int :=
  items.foldl (fun a x => match x with
    | .obj j (.num v) => if j = i then some v else a
    | .target ax v _ _ => if axisTarget ax = i then some v else a
    | _ => a) none

/-- The last value that the groups in the queue write to an object. -/
def State.queuedNew (s : State) (i : Nat) : Option Int :=
  s.esc.groups.foldl (fun a g => match itemsVal g.items i with | some v => some v | none => a) none

/-- The value an object will hold when the groups in the queue have applied. -/
def State.queuedVal (s : State) (i : Nat) : Int := (s.queuedNew i).getD (s.cfg i)

/-- The F_NOM that a written F_SET is checked against (R57): that of its own set, else the one written last that has not taken effect, which
stands in the queue before it waits for its state change, else the one in effect. -/
def State.fNomFor (s : State) (own : Option Int) : Int :=
  (own.or (s.queuedNew Obj.F_NOM)).getD
    (((s.waiting.find? fun (w : Waiting) => w.index == Obj.F_NOM).map (·.value)).getD (s.cfg Obj.F_NOM))

/-- The configuration objects of the safety kernel (R309). -/
def isSafetyObj (i : Nat) : Bool := decide (0x2900 ≤ i) && decide (i ≤ 0x2940)

/-- A value against its row: TYPE, width and range; keys have exactly 32 bytes (R19, R369, R375). -/
def State.valueOk (s : State) (d : ObjDef) (fNom : Int) (e : ObjEntry) : Bool :=
  e.ty.toNat = d.ty && tyFits d.ty e.value &&
    (match e.value with
     | .num v => d.inRange (s.setCfg Obj.F_NOM fNom) v && (e.index.toNat ≠ Obj.FUSEE_ENABLE || v % 4 = 3)
     | .str bs => bs.length = 32
     | .time _ _ => false)

/-- What an entry answers by its form alone, whatever the state; none when it may go on. -/
def State.entryForm (s : State) (fNom : Int) (inSet : Bool) (e : ObjEntry) : Option Ans :=
  let i := e.index.toNat
  match objDef i with
  | none => some (Ans.st stBadObject)
  | some d =>
    if s.domainOff (objDomain i) then some (Ans.st stDomainOff)
    else if d.acc = .ro then some (Ans.refuse rsReadOnly)
    else if isSafetyObj i then
      if inSet || !s.saf.session then some (Ans.refuse rsSafetySession)
      else if s.valueOk d fNom e then none else some (Ans.st stRange)
    else if !inSet && d.point = .setOnly then some (Ans.refuse rsSetOnly)
    else if inSet && i = Obj.COEF_WRITE then some (Ans.refuse rsNotInSet)
    else if s.valueOk d fNom e then none else some (Ans.st stRange)

/-- The converter state REG_MODE is judged by: a standby's followed state (R397). -/
def State.rampState (s : State) : ConvState :=
  if s.pair.role = .standby && (s.pair.reported = .run || s.pair.reported = .scs) then s.pair.reported else s.conv.state

/-- REG_MODE RAMP is not accepted in this state (R243). -/
def State.rampBarred (s : State) : Bool := s.rampState ≠ .idle && s.rampState ≠ .precharge && s.rampState ≠ .ready

/-- Objects that are written in IDLE or PR only (R58, R157, R196, R330). -/
def idlePrObjs : List Nat :=
  [Obj.F_NOM, Obj.S_BASE, Obj.V_AC_BASE, Obj.V_DC_BASE, Obj.EXEC_DELAY, Obj.SPARES, Obj.PAIR_PARTNER, Obj.PAIR_PREFERRED, Obj.HL_KEY_OP, Obj.HL_KEY_RO]

/-- Another input has the role. -/
def roleTaken (get : Nat → Int) (n : Nat) (v : Int) : Bool :=
  v ≠ 0 && (List.range 24).any fun m => m ≠ n && get (Obj.AI_ROLE + m) = v

/-- More than eight lanes would serve one arm (R84). -/
def armFull (get : Nat → Int) (v : Int) : Bool := v < 6 && 8 < ((List.range 48).filter fun l => get (Obj.ARM_MAP + l) = v).length

/-- Pairs of objects of which the second must not be below, or must lie above, the first (R81). -/
def orderedOk (get : Nat → Int) (i : Nat) : Bool :=
  if i = Obj.I_TH_SHORT ∨ i = Obj.I_TH_CONT then decide (get Obj.I_TH_CONT ≤ get Obj.I_TH_SHORT)
  else if i = Obj.DCV_LOW ∨ i = Obj.DCV_HIGH then decide (get Obj.DCV_LOW < get Obj.DCV_HIGH)
  else if i = Obj.W_LOW ∨ i = Obj.W_HIGH then decide (get Obj.W_LOW < get Obj.W_HIGH)
  else true

/-- A lane serves an arm and has cells, by the values `get`. -/
def inUseBy (get : Nat → Int) (l : Nat) : Bool := get (Obj.ARM_MAP + l) < 6 && 0 < get (Obj.CELL_COUNT + l)

/-- What an entry answers by the state (R400), with `old` the values before it applies and `get` those that will hold when it has; none when it
is accepted. -/
def State.entryState (s : State) (old get : Nat → Int) (i : Nat) (v : Int) : Option Ans :=
  let cs := s.conv.state
  let state : Option Ans := some (Ans.st stState)
  let range : Option Ans := some (Ans.st stRange)
  if idlePrObjs.contains i && cs ≠ .idle && cs ≠ .pr then state
  else if i = Obj.PAIR_PARTNER && v ≠ 0 && (s.pwr.state ≠ .s0 || s.pwr.entry.isSome) then state
  else if i = Obj.SPARES && s.sparesRefused v.toNat then some (Ans.refuse rsSpare)
  else if (i = Obj.D || i = Obj.AC_ROLE) && get Obj.D = 0 && get Obj.AC_ROLE = 1 then some (Ans.refuse rsDamping)
  else if i = Obj.DCF_MODE && s.fus.dcfActive then state
  else if i = Obj.DCF_MODE && v = 1 && !s.rideCarriedBy get then some (Ans.refuse rsFbCells)
  else if !orderedOk get i then range
  else if inRow i Obj.ARM_MAP 48 && armFull get v then range
  else if inRow i Obj.CELL_TYPE 48 && v ≠ old i && inUseBy get (i - Obj.CELL_TYPE) && cs ≠ .ready && cs ≠ .idle then state
  else if inRow i Obj.AI_ROLE 24 && roleTaken get (i - Obj.AI_ROLE) v then range
  else if inRow i Obj.AI_ROLE 24 && v ≠ old i && (cs = .precharge || cs = .run || cs = .scs) then state
  else if (i = Obj.REF_SEL || i = Obj.REF_IN_NOM) && cs ≠ .idle && cs ≠ .ready && cs ≠ .pr then state
  else if i = Obj.REG_TRIM && get Obj.PTP_MODE ≠ 0 then some (Ans.refuse rsPtp)
  else if i = Obj.REG_MODE && v = 1 && s.rampBarred then state
  else if i = Obj.REG_MODE && v = 0 && (s.reg.rampBusy || decide (smallLimit < |s.reg.offs|)) then some (Ans.refuse rsRamp)
  else if i = Obj.REFCLK_IN_FREQ && (if get Obj.REG_REF = s.cfg Obj.REG_REF then s.reg.refclk else get Obj.REG_REF ≠ 0) then state
  else if (i = Obj.PTP_TRANSPORT || i = Obj.PTP_MODE) && get Obj.PTP_TRANSPORT = 1 && get Obj.PTP_MODE = 1 then range
  else if isChrObj i && s.chr.state ≠ .idle && !s.chr.disarm then state
  else if i = Obj.CHR_SLOTS && !s.chr.records.isEmpty then some (Ans.refuse rsChrono)
  else if (i = Obj.DCF_TRIP_INPUT || i = Obj.REDUND_TRIP_INPUT || i = Obj.MEAS_TRIP_INPUT) && 0 ≤ v && v < 16 &&
      (s.storeVal Obj.SF_TI_PR).toNat.testBit v.toNat then some (Ans.refuse rsSafety)
  else none

/-- A value as a number; a string counts as 0. -/
def valNum : ObjVal → Int | .num v => v | _ => 0
/-- The value of an entry as a number. -/
def entryNum (e : ObjEntry) : Int := valNum e.value

/-- The values that hold when a set of entries has applied after the groups before it. -/
def State.withEntries (s : State) (es : List ObjEntry) (i : Nat) : Int :=
  match es.reverse.find? fun e => e.index.toNat == i with | some e => (entryNum e) | none => s.queuedVal i

/-- The objects whose outcome is decided when they apply (R370). -/
def actionObjs : List Nat :=
  [Obj.TRIP_CLEAR, Obj.CELL_READMIT, Obj.CELL_EXCLUDE, Obj.LIM_CHAT_CLEAR, Obj.DRIFT_CLEAR, Obj.SET_END, Obj.DCF_RECOVER, Obj.PAIR_YIELD,
   Obj.FEED_TEST, Obj.TRAIN_ADDR_CLEAR, Obj.LANE_CNT_CLEAR, Obj.SCHED_CANCEL, Obj.LOG_ACK, Obj.RAMP_CMD]
def isAction (i : Nat) : Bool := actionObjs.contains i

/-- An F_NOM among the entries. -/
def entriesFNom (es : List ObjEntry) : Option Int := (es.reverse.find? fun e => e.index.toNat == Obj.F_NOM).map entryNum

/-- The item an accepted entry becomes. -/
def entryItem (e : ObjEntry) : Item := if isAction e.index.toNat then .action e.index.toNat (entryNum e) else .obj e.index.toNat e.value

/-- The point at which a written object takes effect. -/
def pointOf (i : Nat) : ApplyPoint := match objDef i with | some d => d.point | none => .never
/-- The value of an object takes effect with its group; another one waits for a point of its own (R18). -/
def atGroup (i : Nat) : Bool := pointOf i = .nextTick || pointOf i = .setOnly

/-- The converter may change its state before a group that is accepted now applies. -/
def State.csOpen (s : State) : Bool :=
  !s.conv.reqs.isEmpty || s.conv.tripMove || s.conv.modDisMove || s.conv.prechg || (s.prDemand && s.conv.state ≠ .pr) ||
    (s.scsDemand && s.conv.state = .run) || (s.pair.role = .standby && s.conv.state ≠ s.pair.reported) ||
    s.sched.pending.any fun a => match a.cmd with | .convState _ _ => true | _ => false
/-- What an entry is judged by may change before it applies: the state, or for a write of REG_MODE the ramps. -/
def State.unsettled (s : State) (i : Nat) : Bool := s.csOpen || (i = Obj.REG_MODE && s.reg.rampBusy)

/-- What an entry answers by the state when it is accepted. It is judged where it applies (R400), so one whose state is not settled until then
is not refused here: its group judges it (log entry 61). -/
def State.entryNow (s : State) (get : Nat → Int) (i : Nat) (v : Int) : Option Ans :=
  if atGroup i && s.unsettled i then none else s.entryState s.queuedVal get i v

/-- The first entry that fails, with its position (R370); `state` gives what one answers by the state. -/
def State.entriesJudge (s : State) (es : List ObjEntry) (state : Nat → Int → Option Ans) : Option (Nat × Ans) :=
  let fNom := s.fNomFor (entriesFNom es)
  (es.zipIdx).findSome? fun p =>
    let e := p.1
    let twice := (es.take p.2).any fun x => x.index == e.index
    match s.entryForm fNom true e with
    | some a => some (p.2, a)
    | none =>
      if twice then some (p.2, Ans.st stRange)
      else if isAction e.index.toNat then none
      else (state e.index.toNat (entryNum e)).map fun a => (p.2, a)

/-- What a set answers as it arrives: `states` says whether state conditions are judged too. -/
def State.judgeEntries (s : State) (es : List ObjEntry) (states : Bool) : Option (Nat × Ans) :=
  s.entriesJudge es fun i v => if states then s.entryNow (s.withEntries es) i v else none

/-- What a single OBJ_WRITE answers before it is queued; none when it is accepted. -/
def State.judgeWrite (s : State) (e : ObjEntry) : Option Ans :=
  match s.entryForm (s.fNomFor none) false e with
  | some a => some a
  | none => if isAction e.index.toNat || isSafetyObj e.index.toNat then none else s.entryNow (s.withEntries [e]) e.index.toNat (entryNum e)

end Sys2Proof.Machine
end

