-- ==== Sys2Proof/Machine/Converter.lean ====
section
/-!
DEFINITION. The converter state machine (R29 to R32, R50, R79, R80, R95, R105, R127, R293 to R296, R308, R367): what a request is judged
by, what a transition does, and which cause acts at a tick boundary.
-/
namespace Sys2Proof.Machine

/-! ### Judging a request -/

/-- The first unmet condition of PR → IDLE (R308). -/
def State.idleBar (s : State) : Option Byte :=
  if !s.saf.startDone || s.kernelFault then some rsSafety
  else if s.anyDemand then some rsSafety
  else if !s.saf.vioOk then some rsVio
  else if s.restartPending then some rsRestartAck
  else if s.saf.session then some rsSafetySession
  else if !(s.reg.locked && !s.reg.gated) then some rsReg
  else none

/-- No trip is latched. -/
def State.noTrip (s : State) : Bool := !s.trips.latch.any id

/-- The first unmet condition of IDLE → PRECHARGE. -/
def State.prechargeBar (s : State) : Option Byte :=
  if !(List.range 48).all (fun l => !s.laneInUse l || s.laneUp l) then some rsLanes
  else if !s.noTrip then some rsTrip
  else none

/-- ENRG_EN as it will be after the next state change (R400). -/
def State.enrgNext (s : State) : Int :=
  match s.waiting.find? fun (w : Waiting) => w.index == Obj.ENRG_EN with | some w => w.value | none => s.cfg Obj.ENRG_EN

/-- The first unmet condition of READY → RUN, in the order of R367. -/
def State.runBar (s : State) : Option Byte :=
  if s.anyDemand then some rsSafety
  else if !s.noTrip then some rsTrip
  else if !(s.meas.vanaOk && s.pwr.anaOk) then some rsVana
  else if !(s.rolesSet 1 11 && s.pwr.fastOk) then some rsMeas
  else if !(s.reg.locked && !s.reg.gated) then some rsReg
  else if s.reg.ramp then some rsRamp
  else if s.esc.active.isEmpty then some rsTable
  else if !(s.esc.fits s.pwr.pl && s.esc.active.verified && s.esc.inactive.verified) then some rsBank
  else if !(List.range 6).all (fun j => decide (s.cfg Obj.REDUND_MIN ≤ s.redund j)) then some rsRedund
  else if !s.cfgB Obj.MOD_ENABLE then some rsModEnable
  else if s.enrgNext = 1 && s.cfg Obj.AC_ROLE = 0 then some rsAcRole
  else none

/-- What a request answers that names no condition. -/
def barAns (b : Option Byte) : Option Ans := b.map Ans.refuse

/-- What a request for a target answers in the present state; none when it may act (R30, R32, R287). -/
def State.convJudge (s : State) (target : ConvState) : Option Ans :=
  if target = .pr then none
  else if s.pair.role = .standby then
    if target = .idle && s.conv.state = .pr then barAns s.idleBar else some (Ans.refuse rsStandby)
  else match s.conv.state, target with
    | .pr, .idle => barAns s.idleBar
    | .idle, .precharge => barAns s.prechargeBar
    | .precharge, .idle => none
    | .ready, .idle => none
    | .ready, .run => barAns s.runBar
    | .run, .ready => none
    | .run, .scs => none
    | _, _ => some (Ans.st stState)

/-! ### What a transition does -/

/-- The balance is released in a state (R49, R50). -/
def releasedIn (c : ConvState) : Bool := c = .run || c = .scs

/-- The energisation ramp at entry into RUN (R79, R80): a step ends as it begins. -/
def State.enrgStart (s : State) : State :=
  if s.cfg Obj.ENRG_EN = 0 then s
  else if s.cfg Obj.AC_ROLE = 1 && s.gt.state ≠ .locked && decide (s.sigPu 0x05F 2 < s.cfgPu Obj.GT_ABSENT_LEVEL 10000) then
    let s := { s with bal := { s.bal with iv := 0 } }
    if s.cfg Obj.ENRG_TIME = 0 then s.post 0x2108 noInst []
    else { s with fus := { s.fus with enrgRamp := true, enrgTicks := 0 } }
  else s.post 0x2109 noInst []

/-- What an entry into RUN releases (R50, R74, R95, R117). In a held fault I_WS stays frozen, and resumes from its value (R77, R91). -/
def State.enterRun (s : State) : State :=
  { s with
    loops := if s.fus.dcfActive then { iWs := s.loops.iWs } else {}
    set := { s.set with dw := if s.set.active then 0 else s.set.dw, dv := if s.set.active then 0 else s.set.dv }
    fus := { s.fus with dcfArmed := true, dcfLow := 0, dcfHigh := 0 }
    mod := { s.mod with
      dir := List.replicate 6 true, inserted := List.replicate 6 [], negative := List.replicate 6 false, nIns := List.replicate 6 0
      hybCell := List.replicate 6 none, hybF := List.replicate 6 0 } }.enrgStart

/-- What an entry into SCS sets (R111, R296, R297). -/
def State.enterScs (s : State) : State :=
  let c := s.sigPu 0x058 2
  let k := s.saf
  let s := { s with
    fus := { s.fus with scsCeil := c }
    mod := { s.mod with dir := List.replicate 6 true }
    saf := { k with iEnv0 := k.iEnv, scsUs := 0, scsTick := s.tick.now, scsCount := k.scsCount + 1 } }
  let s := s.post 0x2902 noInst (beBytes 2 k.iEnv ++ beBytes 4 (s.sigN 0x058))
  if k.linkLost then s.scsEnd 4 else s

/-- What an entry into PRECHARGE begins (R104, R105). -/
def State.enterPrecharge (s : State) : State :=
  { s with arms := { s.arms with prechgDone := false }, mod := { s.mod with dir := List.replicate 6 true } }

/-- The kernel closes its switches at the entry into IDLE (R294); the outputs need VIO (R292). -/
def State.closeSwitches (s : State) : State :=
  { s with saf := { s.saf with switches := [true, true, s.saf.vioOk, s.saf.vioOk, s.saf.vioOk, s.saf.vioOk] } }

/-- What an entry into PR does (R293). -/
def State.enterPr (s : State) : State :=
  let s := s.pulseRemoval
  { s with conv := { s.conv with scsEnded := false }, saf := { s.saf with prCount := s.saf.prCount + 1 } }

/-- The entry into a state. -/
def State.enter (s : State) (old new : ConvState) : State :=
  let s := if convBlocked new then s.parkedOff else s
  let s := if old = .pr then s.closeSwitches else s
  match new with
  | .run => if old = .scs then s else s.enterRun
  | .scs => s.enterScs
  | .precharge => s.enterPrecharge
  | .pr => s.enterPr
  | _ => s

/-- The leaving of a state. -/
def State.leave (s : State) (old new : ConvState) : State :=
  let s := if releasedIn old && !releasedIn new then { s with fus := { s.fus with enrgRamp := false } } else s
  if (old = .ready || old = .run) && !(new = .ready || new = .run) then s.setAbort 4 else s

/-- Put in effect what waits for a state change; DC_ROLE and MOD_MODE keep their values in a sleep state, as which a sleep entry counts (R395,
R396). -/
def State.applyChange (s : State) : State :=
  let kept := if s.pwr.state = .s0 && s.pwr.entry.isNone then [] else s.waiting.filter fun (w : Waiting) => w.index == Obj.DC_ROLE || w.index == Obj.MOD_MODE
  let t := { s with waiting := s.waiting.filter fun (w : Waiting) => !kept.contains w }.applyWaiting .stateChange
  { t with waiting := t.waiting ++ kept }

/-- A transition (R30, R31): its entry names the cause; values that wait for a state change take effect. -/
def State.convTo (s : State) (new : ConvState) (cause : Nat) : State :=
  let old := s.conv.state
  if old = new then s
  else
    let s := if old = .scs then s.scsEnd 3 else s
    let s := ({ s with conv := { s.conv with state := new, tripMove := false, modDisMove := false } }.condEvent 49).post 0x1001 noInst
      [BitVec.ofNat 8 (convCode old), BitVec.ofNat 8 (convCode new), BitVec.ofNat 8 cause]
    (s.leave old new).applyChange.enter old new

/-! ### Requests -/

/-- Answer a request, or end its scheduled action (R256). -/
def State.answerReq (s : State) (r : ConvReq) (a : Ans) : State :=
  let s := s.replyTo r.reply { a with params := [BitVec.ofNat 8 (convCode s.conv.state)] }
  match r.sched with
  | none => s
  | some (id, flags, late) => if a.status = stOk then s.actionDone s.tick.now id flags late else s.actionFailed s.tick.now id late.ticks a.status

/-- Cause of a transition that a request makes: 0 host, 7 scheduled. -/
def ConvReq.cause (r : ConvReq) : Nat := if r.sched.isSome then 7 else 0

/-- Keep a request for the next boundary. -/
def State.keepReq (s : State) (r : ConvReq) : State := { s with conv := { s.conv with reqs := s.conv.reqs ++ [r] } }

/-- A standby in PR whose partner's heartbeat is lost takes the crown when CONV_STATE IDLE is accepted (R333), but never in ramp mode (R397, M9). -/
def State.crownByIdle (s : State) : State :=
  if s.pair.role = .standby && s.pair.hbLost && !s.reg.ramp then s.takeCrown 2 else s

/-- Take the requests in order: the first that may act acts, unless a transition has been made at this boundary; the others are
judged against the state it has produced (R31). -/
def State.takeReqs : List ConvReq → Bool → State → State
  | [], _, s => s
  | r :: rs, made, s =>
    match s.convJudge r.target with
    | some a => State.takeReqs rs made (s.answerReq r a)
    | none =>
      if made then State.takeReqs rs true (s.keepReq r)
      else
        let s := if r.target = .idle then s.crownByIdle else s
        State.takeReqs rs true ((s.convTo r.target r.cause).answerReq r Ans.ok)

/-- Requests taken out of the list. -/
def State.splitReqs (s : State) (t : ConvState) : List ConvReq × State :=
  (s.conv.reqs.filter (fun (r : ConvReq) => r.target = t),
   { s with conv := { s.conv with reqs := s.conv.reqs.filter fun (r : ConvReq) => r.target ≠ t } })

/-- Answer a list of requests OK. -/
def State.answerAll (s : State) (rs : List ConvReq) : State := rs.foldl (fun s r => s.answerReq r Ans.ok) s

/-- The cause of an entry into PR: a scheduled request gives its own. -/
def State.prCauseOf (s : State) : Nat :=
  if s.prCause = 0 && s.conv.reqs.any (fun (r : ConvReq) => r.target = .pr && r.sched.isSome) then 7 else s.prCause

/-- A PR demand is active: the converter goes to PR, and the requests for PR are answered. -/
def State.goPr (s : State) : State :=
  let c := s.prCauseOf
  let (rs, s) := s.splitReqs .pr
  (s.convTo .pr c).answerAll rs

/-- An SCS demand in RUN: host requests for SCS are answered (cause 0), a safety source gives cause 3 (R282). -/
def State.goScs (s : State) : State :=
  let safe := s.demandSources.any fun d => d.2.2 = 1 && d.1 ≠ 5
  let (rs, s) := s.splitReqs .scs
  let c := if safe then 3 else if rs.any (fun (r : ConvReq) => r.sched.isSome) then 7 else 0
  (s.convTo .scs c).answerAll rs

/-- The state a standby follows, and one that has just taken the crown (R32, R332): the leader's last reported one, out of PR only when its own
kernel permits it. -/
def State.follows (s : State) : Option ConvState :=
  if !(s.pair.role = .standby || s.pair.inherits) || !s.pair.seen || s.conv.state = s.pair.reported then none
  else if s.conv.state = .pr && s.idleBar.isSome then none
  else some s.pair.reported

/-- What acts at a tick boundary (R31): PR demand, SCS demand, trip or disabling of the modulator, the followed state, the automatic
PRECHARGE → READY, then requests. A followed PRECHARGE → READY leaves the standby's own PRECHG_DONE as it is: the model's choice (log entry 60). -/
def State.resolve (s : State) : State :=
  let before := s.conv.state
  let s :=
    if s.prDemand then s.goPr
    else match s.follows with
      | some c => s.convTo c 1
      | none =>
        if s.pair.role = .standby then s
        else if s.scsDemand && s.conv.state = .run then s.goScs
        else if s.conv.tripMove && s.conv.state = .run then s.convTo .ready 2
        else if s.conv.modDisMove && s.conv.state = .run then s.convTo .ready 6
        else if s.conv.prechg && s.conv.state = .precharge then
          { s with arms := { s.arms with prechgDone := true } }.convTo .ready 1
        else s
  let rs := s.conv.reqs
  let s := { s with conv := { s.conv with reqs := [], tripMove := false, modDisMove := false, prechg := false },
                     pair := { s.pair with inherits := false } }
  s.takeReqs rs (decide (s.conv.state ≠ before))

/-- A request arrives. While the tick is stopped no boundary comes: what it would be refused is answered at once. -/
def State.convRequest (s : State) (r : ConvReq) : State :=
  match (if s.ticking then none else s.convJudge r.target) with
  | some a => s.answerReq r a
  | none => s.keepReq r

/-- PRECHARGE_COMPLETE: the next boundary takes the automatic transition, unless a cause above it acts there (R30, R31, R105). -/
def State.prechargeDone (s : State) : State :=
  if s.conv.state = .precharge && s.ticking && s.pair.role ≠ .standby && s.precharged then { s with conv := { s.conv with prechg := true } }
  else s

/-! ### What every step of the module ends with -/

/-- The converter acts on a demand without a boundary: the tick has stopped, as the kernel too may find, or the module is not in S0 (R287, R293,
R386). -/
def State.noBoundary (s : State) : Bool := !s.ticking || s.saf.tickMissing || s.pwr.state ≠ .s0

/-- After any step: a stopped tick ends a recording (R270); new demands are noted; a PR demand removes the pulses at once and moves the
converter where no boundary will; a change of the outgoing bits sends its frame (R287, R293, R303). -/
def State.settle (s : State) (ticked : Bool) : State :=
  let s := if ticked && !s.ticking then s.chronoStop else s
  let s := s.noteDemands
  let s := if s.prDemand && s.saf.switches.any id then s.pulseRemoval else s
  let s := if s.prDemand && s.noBoundary && (s.conv.state ≠ .pr || s.hostPr) then s.goPr else s
  s.sfEvent

end Sys2Proof.Machine
end

