-- ==== Sys2Proof/Machine/Feed.lean ====
section
/-!
DEFINITION. The power feeds (R340 to R343, R350): presence, switch-over, hold-up and load tests.
-/
namespace Sys2Proof.Machine

/-- A feed is present; false names A, true B. -/
def Feed.present (f : Feed) (b : Bool) : Bool := if b then f.bPresent else f.aPresent
/-- Note a feed's presence and voltage. -/
def Feed.note (f : Feed) (b present : Bool) (mv : Nat) : Feed :=
  if b then { f with bPresent := present, bMv := mv } else { f with aPresent := present, aMv := mv }
/-- Code of a feed in IN_USE. -/
def feedCode (b : Bool) : Nat := b2n b

/-- The hold-up starts to recharge: it is full after a time the spec bounds by 200 ms and leaves open (R410, log entry 46). -/
def State.recharge (s : State) : State :=
  { s.fresh with feed := { s.feed with charged := true, chargedAt := s.tick.now + (Config.openValue s.free % 800001).toNat } }

/-- IN_USE outside a load test: the feed that carries the load, and carries it again after the test (R342). -/
def Feed.carrier (f : Feed) : Nat := match f.test with | some t => t.back | none => f.inUse
/-- Give the load to a feed; a test in progress goes on and returns the load to it. -/
def Feed.carriedBy (f : Feed) (b : Bool) : Feed :=
  { f with inUse := feedCode b, test := f.test.map fun t => { t with back := feedCode b } }

/-- FEED_PRESENT (R340): a feed takes the load where no feed carries it; feed A waits for its test while B does. -/
def State.feedPresent (s : State) (b : Bool) (mv ms : Nat) : State :=
  let f := s.feed
  if f.present b || mv < 8800 || 75000 < mv || ms < 10 then s
  else
    let idle := f.inUse = 2 || !f.present !b
    let f := { f.note b true mv with handed := false, takeback := f.takeback || (!b && !idle && f.carrier = 1) }
    let s := { s with feed := if idle then f.carriedBy b else f }
    if idle then s.recharge else s

/-- Both feeds are lost (R343). -/
def State.feedsLostBoth (s : State) : State :=
  let s := { s with feed := { s.feed with inUse := 2, charged := false } }.post 0x2A23 noInst []
  if s.mayAbdicate then { s.abdicate 2 with feed := { (s.abdicate 2).feed with handed := true } } else s

/-- FEED_ABSENT (R340, R343); `otherMv` is the other feed's voltage as it takes the load. A feed under test that does not carry the load outside
its test gives the load back (R342). -/
def State.feedAbsent (s : State) (b : Bool) (mv us otherMv : Nat) : State :=
  let f := s.feed
  if !f.present b || (8500 ≤ mv && mv ≤ 78000) || us < 20 then s
  else
    let g := f.note b false mv
    let s := { s with feed := if b then g else { g with takeback := false, retest := false } }
    if f.carrier ≠ feedCode b then { s with feed := { s.feed with inUse := if f.inUse = feedCode b then f.carrier else f.inUse } }
    else if !f.present !b then s.feedsLostBoth
    else
      let g := s.feed
      let s := ({ s with feed := { g.carriedBy (!b) with takeback := false, retest := false, switches := g.switches + 1, switchRos := true } }.recharge.noteWake .feed).post
        0x2A20 noInst (BitVec.ofNat 8 (feedCode !b) :: beBytes 4 mv)
      if otherMv < 8500 then { s with feed := s.feed.note (!b) false otherMv }.feedsLostBoth else s

/-- FEED_LOSS_PR_DELAY: the main die signals the kernel, unless this module has abdicated for the feeds (R343). -/
def State.feedLossPr (s : State) : State :=
  if s.feed.inUse = 2 && !s.feed.handed then { s with saf := { s.saf with feedsLost := true } } else s

/-- A FEED_HEALTH word (R350): results 1 PASS, 2 FAIL, 3 ABSENT. -/
def feedHealth (result cause vmin imax : Nat) : Word :=
  BitVec.ofNat 32 (result * 2 ^ 30 + cause * 2 ^ 28 + min 4095 (vmin / 25) * 2 ^ 16 + min 65535 imax)

/-- Record the result of a test. -/
def State.feedResult (s : State) (b : Bool) (result cause vmin imax : Nat) : State :=
  let h := feedHealth result cause vmin imax
  let f := s.feed
  { s with feed := if b then { f with healthB := h, bFailed := result = 2 } else { f with healthA := h, aFailed := result = 2 } }.post
    0x2A22 (feedCode b) (beBytes 4 h.toNat)

/-- Begin the next test of a queue: the feed carries the whole load; one that is absent is reported ABSENT (R342). -/
def State.feedNext (s : State) (cause : Nat) : List Bool → State
  | [] => { s with feed := { s.feed with test := none } }
  | b :: bs =>
    if s.feed.present b then { s with feed := { s.feed with inUse := feedCode b, test := some ⟨b :: bs, cause, s.feed.inUse⟩ } }
    else (s.feedResult b 3 cause 0 0).feedNext cause bs

/-- Where the load goes after a test of feed `b` (R341, R342): a recovery that passes gives it to feed A; after any other pass it returns to
the feed that carried it; after a failure it goes to the other feed, and a feed A that carried it waits for its recovery test. -/
def State.testReturn (s : State) (b : Bool) (cause back : Nat) (pass : Bool) : State :=
  let f := s.feed
  if f.inUse = 2 then s
  else if pass && cause = 2 && f.aPresent then { s with feed := { f with inUse := 0, takeback := false, retest := false } }.post 0x2A21 noInst []
  else if pass || !f.present (!b) then { s with feed := { f with inUse := back } }
  else { s with feed := { f with inUse := feedCode !b, takeback := !b && (f.takeback || back = 0), retest := f.retest || (!b && cause = 2) } }

/-- FEED_TEST_DONE: a test has ended, and the next one of its queue begins. -/
def State.feedTestDone (s : State) (vmin imax : Nat) : State :=
  match s.feed.test with
  | some ⟨b :: bs, cause, back⟩ =>
    let pass := decide (8800 ≤ vmin)
    ((s.feedResult b (if pass then 1 else 2) cause vmin imax).testReturn b cause back pass).feedNext cause bs
  | _ => s

/-- FEED_RECOVERY_TEST (R341): after 10 s, and after a failure each further 60 s. -/
def State.feedRecovery (s : State) (presentS : Nat) : State :=
  let f := s.feed
  if f.takeback && f.aPresent && f.inUse = 1 && f.test.isNone && decide ((if f.retest then 60 else 10) ≤ presentS) then s.feedNext 2 [false] else s

/-- FEED_STARTUP_TEST (R342): both feeds have been present for 10 s; one that is absent at its turn is reported ABSENT. -/
def State.feedStartup (s : State) : State :=
  let f := s.feed
  if f.startTested || f.test.isSome || !(f.aPresent && f.bPresent) then s
  else { s with feed := { f with startTested := true } }.feedNext 0 [false, true]

/-- What a write of FEED_TEST answers; none when the tests start (R342). -/
def State.feedTestJudge (s : State) (bm : Nat) : Option Ans :=
  let f := s.feed
  if (bm.testBit 0 && !f.bPresent) || (bm.testBit 1 && !f.aPresent) then some (Ans.refuse rsFeed)
  else if f.test.isSome then some (Ans.st stBusy)
  else none
def State.feedTestStart (s : State) (bm : Nat) : State :=
  s.feedNext 1 ((if bm.testBit 0 then [false] else []) ++ if bm.testBit 1 then [true] else [])

/-- FEED_STATUS (R350). -/
def State.feedStatus (s : State) : Nat :=
  let f := s.feed
  b2n f.aPresent + 2 * b2n f.bPresent + 4 * f.inUse + 32 * b2n (f.charged && f.chargedAt ≤ s.tick.now) + 64 * b2n f.test.isSome + 128 * b2n f.switchRos +
    256 * b2n f.aFailed + 512 * b2n f.bFailed + 1024 * b2n f.takeback

end Sys2Proof.Machine
end

