-- ==== Sys2Proof/Machine/Apply.lean ====
section
/-!
DEFINITION. What applies at a tick boundary (R185, R186, R193, R202, R252, R256, R370): action objects, coefficient groups with their
responses, and scheduled actions.
-/
namespace Sys2Proof.Machine

/-! ### Action objects (R370) -/

/-- The converter is in IDLE or PR. -/
def State.idleOrPr (s : State) : Bool := s.conv.state = .idle || s.conv.state = .pr

/-- A retired cell, by its number. -/
def State.isRetired (s : State) (c : Nat) : Bool := (s.cell c).retired.isSome
/-- The cell is eligible again, and enters its orders on its next valid report (R101); its age goes on (R99), and that it has been ranked since
its lane came up stands (R109). -/
def Cell.readmitted (x : Cell) : Cell := if x.retired.isSome then { x with retired := none, retiring := none } else x
/-- CELL_READMIT. -/
def State.readmit (s : State) (n : Nat) : State :=
  if n = 0xFFFF then { s with cells := s.cells.map Cell.readmitted } else s.setCell n Cell.readmitted

/-- A condition that names a status alone. -/
def stateUnless (b : Bool) : Option Ans := if b then none else some (Ans.st stState)

/-- What an action refuses with; none when it acts. -/
def State.actionJudge (s : State) (i : Nat) (v : Int) : Option Ans :=
  let n := v.toNat
  if i = Obj.TRIP_CLEAR then if s.tripClearOk n then none else some (Ans.refuse rsTrip)
  else if i = Obj.CELL_READMIT then
    if !s.idleOrPr then some (Ans.st stState) else if n = 0xFFFF || s.isRetired n then none else some (Ans.st stRange)
  else if i = Obj.LIM_CHAT_CLEAR then (s.chatBusy n).map fun k => Ans.refuse (rsLim k)
  else if i = Obj.DRIFT_CLEAR then stateUnless (s.idleOrPr || s.conv.state = .ready)
  else if i = Obj.SET_END then stateUnless s.set.active
  else if i = Obj.DCF_RECOVER then stateUnless (v = 0 || s.fus.dcfActive)
  else if i = Obj.PAIR_YIELD then if s.mayAbdicate then none else some (Ans.refuse rsPair)
  else if i = Obj.FEED_TEST then s.feedTestJudge n
  else if i = Obj.TRAIN_ADDR_CLEAR then stateUnless s.idleOrPr
  else if i = Obj.SCHED_CANCEL then s.cancelJudge n
  else if i = Obj.LOG_ACK then if (s.log.fullSeq n).isSome then none else some (Ans.st stRange)
  else if i = Obj.RAMP_CMD then s.rampJudge n
  else none

/-- The action acts. A second DCF_RECOVER during the ramp starts it again from 0 (log entry 52); one of 0 does nothing (log entry 61). -/
def State.actionDo (s : State) (i : Nat) (v : Int) : State :=
  let n := v.toNat
  if i = Obj.TRIP_CLEAR then s.tripClear n
  else if i = Obj.CELL_READMIT then s.readmit n
  else if i = Obj.CELL_EXCLUDE then s.markRetire n .excluded
  else if i = Obj.LIM_CHAT_CLEAR then s.chatClear n
  else if i = Obj.DRIFT_CLEAR then s.driftClear n
  else if i = Obj.SET_END then if v = 1 then s.setClosed else s.setAbort 1
  else if i = Obj.DCF_RECOVER then if v = 0 then s else { s with fus := { s.fus with dcfRecovering := true, dcfU := 0 } }
  else if i = Obj.PAIR_YIELD then s.abdicate 0
  else if i = Obj.FEED_TEST then s.feedTestStart n
  else if i = Obj.TRAIN_ADDR_CLEAR then { s with train := { s.train with stored := 0 } }
  else if i = Obj.LANE_CNT_CLEAR then { s with lanes := s.lanes.mapIdx fun l x => if n.testBit l then x.clearCounts else x }
  else if i = Obj.SCHED_CANCEL then s.cancel n
  else if i = Obj.LOG_ACK then s.logAck ((s.log.fullSeq n).getD 0)
  else if i = Obj.RAMP_CMD then s.rampPush n
  else s

/-- The counter of a refused action. -/
def State.actionRefused (s : State) (i : Nat) : State :=
  if i = Obj.TRIP_CLEAR then { s with trips := { s.trips with clearRefused := s.trips.clearRefused + 1 } }
  else if i = Obj.LIM_CHAT_CLEAR then { s with lim := { s.lim with clearRefused := s.lim.clearRefused + 1 } }
  else s

/-! ### Groups (R186) -/

/-- The values that hold once the items have applied. -/
def State.itemsGet (s : State) (items : List Item) (i : Nat) : Int := (itemsVal items i).getD (s.cfg i)

/-- The first item of a group that refuses as it applies: its place, its object and its answer. The actions, and the writes by the state then
reached (R397, R400). -/
def State.itemsJudge (s : State) (items : List Item) : Option (Nat × Nat × Ans) :=
  (items.zipIdx).findSome? fun p => match p.1 with
    | .action i v => (s.actionJudge i v).map fun a => (p.2, i, a)
    | .obj i v => (s.entryState s.cfg (s.itemsGet items) i (valNum v)).map fun a => (p.2, i, a)
    | _ => none

/-- One item takes effect; `id` is the move a target belongs to. -/
def State.itemDo (s : State) (id : Nat) : Item → State
  | .obj i v => s.land i v
  | .action i v => s.actionDo i v
  | .coef b e k w => s.putCoef b e k w
  | .target a v sigma coord => s.axisGo a v sigma coord id

/-- Every item takes effect in the tick the next boundary begins. -/
def State.itemsDo (s : State) (items : List Item) (move : Option (Nat × Nat)) : State :=
  let s := items.foldl (State.itemDo · ((move.map (·.1)).getD 0)) s
  let s := { s with esc := { s.esc with coefLast := s.nextTick } }
  match move with
  | some (_, len) => { s with hands := { s.hands with eta := s.nextTick + len } }
  | none => s

/-- What a group that has applied answers. -/
def State.groupAns (s : State) (move : Option (Nat × Nat)) : Ans :=
  match move with
  | some (id, len) => Ans.ok (beBytes 4 id ++ beBytes 8 (s.nextTick + len))
  | none => Ans.ok (beBytes 8 s.nextTick)

/-- Apply a group taken from the queue: an item that refuses leaves all of it undone. -/
def State.applyGroup (s : State) (g : Group) : State :=
  match s.itemsJudge g.items with
  | some (n, i, a) => (s.actionRefused i).replyTo g.reply { a with params := if g.isSet then beBytes 2 n else [] }
  | none =>
    let s := s.itemsDo g.items g.move
    s.replyTo g.reply (s.groupAns g.move)

/-- COEF_GROUP_APPLY: a scheduled group that is due takes the tick's slot ahead of the queue (R256). -/
def State.groupStep (s : State) : State :=
  match (if s.ticking && !s.schedGroupDue then s.groupDue else none) with
  | some g => (s.dropGroup g).applyGroup g
  | none => s

/-! ### HANDS_TARGET (R202 to R205) -/

/-- What its arguments answer by their form: AXES, OPTIONS, one target for each axis, each in its range. -/
def State.handsForm (s : State) (axes options : Nat) (ts : List Int) : Option Ans :=
  let as := axesOf axes
  let inside := (as.zip ts).all fun p =>
    match objDef (axisTarget p.1) with | some d => d.inRange (s.setCfg Obj.F_NOM (s.fNomFor none)) p.2 | none => false
  if axes % 32 = 0 || 32 ≤ axes || 2 ≤ options || ts.length ≠ as.length || !inside then some (Ans.st stRange) else none

/-- A named axis held by a limit input. -/
def State.handsHeld (s : State) (axes : Nat) : Option Ans := ((axesOf axes).findSome? s.heldBy).map fun n => Ans.refuse (rsLim n)

/-- The items of a move and its planned length in ticks, that of its slowest axis. -/
def State.handsItems (s : State) (axes options : Nat) (ts : List Int) : List Item × Nat :=
  let xs := (axesOf axes).zip ts
  let taus := xs.map fun p => s.axisTau p.1 p.2
  let coord := options % 2 = 1
  let σs := sigmas coord taus
  ((xs.zip σs).map fun p => .target p.1.1 p.1.2 p.2 coord,
    moveEta 0 (((xs.zip σs).zip taus).map fun p => s.axisPlan p.1.1.1 p.1.1.2 p.1.2 p.2 (if coord then some (taus.foldl max 0) else none)))

/-- An accepted move takes its identifier and writes its entry; a COORD move with a named axis in motion is approximate (R205). -/
def State.handsBegin (s : State) (axes options : Nat) : State × Nat :=
  let id := s.hands.moveId + 1
  let approx := options % 2 = 1 && (axesOf axes).any fun a => (s.axis a).moving
  ({ s with hands := { s.hands with moveId := id, coordRos := s.hands.coordRos || approx } }.post 0x2501 noInst (beBytes 4 id ++ [BitVec.ofNat 8 axes]), id)

/-! ### Scheduled actions (R252 to R256) -/

/-- A scheduled group takes the slot of the next tick. -/
def State.takeSlotOf (s : State) : State := { s with esc := { s.esc with groupTick := some s.nextTick } }

/-- A scheduled group acts or fails. -/
def State.schedGroup (s : State) (id flags : Nat) (late : Lateness) (items : List Item) (move : Option (Nat × Nat)) : State :=
  match s.itemsJudge items with
  | some (_, i, a) => (s.actionRefused i).actionFailed s.nextTick id late.ticks a.status
  | none =>
    if (s.groupOver items).isSome then s.actionFailed s.nextTick id late.ticks stRange
    else (s.takeSlotOf.itemsDo items move).actionDone s.nextTick id flags late

/-- A due action acts, with its flags and lateness. A set is judged by the values in effect and its own (R400): the groups in the queue apply after
it (R256). -/
def State.schedAct (s : State) (d : Nat) (a : Action) : State :=
  let flags := s.actionFlags d a
  let late := s.lateness d a
  match a.cmd with
  | .objWriteSet _ es =>
    match s.entriesJudge es (s.entryState s.cfg (s.itemsGet (es.map entryItem))) with
    | some (_, x) => s.actionFailed s.nextTick a.id late.ticks x.status
    | none => s.schedGroup a.id flags late (es.map entryItem) none
  | .handsTarget _ ax op ts =>
    match (s.handsForm ax.toNat op.toNat ts).or (s.handsHeld ax.toNat) with
    | some x => s.actionFailed s.nextTick a.id late.ticks x.status
    | none =>
      let items := s.handsItems ax.toNat op.toNat ts
      let (s, id) := s.handsBegin ax.toNat op.toNat
      s.schedGroup a.id flags late items.1 (some (id, items.2))
  | .tableSwap _ =>
    match s.swapJudge with
    | some x => s.actionFailed s.nextTick a.id late.ticks x.status
    | none => (s.doSwap ⟨d, none⟩).actionDone s.nextTick a.id flags late
  | .convState _ t => s.keepReq { target := convOf t.toNat, reply := none, sched := some (a.id, flags, late) }
  | _ => s

/-- SCHED_ACTION_DUE: the action that is due at the next boundary acts, or is dropped late. -/
def State.schedDue (s : State) : State :=
  match (if s.ticking then s.nextAction else none) with
  | none => s
  | some (d, a) =>
    let s := s.cancel a.id
    if keyDiscard a.key && decide (d < s.nextTick) then s.countDiscard.postAt s.nextTick 0x270B noInst (beBytes 4 a.id)
    else s.schedAct d a

/-! ### Migration (R193) and swap (R188) -/

/-- MIGRATE_END: the spare goes live, the failed engine's queued groups apply, and the next migration starts. -/
def State.migrateEnd (s : State) : State :=
  match (if s.ticking then s.migrateDue else none) with
  | none => s
  | some m =>
    let held := s.esc.groups.filter fun g => s.groupHeld g
    let s := s.migrateTo m
    let now := held.filter fun g => !s.groupHeld g && decide (g.acc + 2 ≤ s.nextTick)
    let s := now.foldl (fun s g => { s with esc := { s.esc with groups := s.esc.groups.erase g } }.applyGroup g) s
    let s := s.sparesSettled
    (s.nextMigration s.esc.waiting).replyTo m.reply (Ans.ok [BitVec.ofNat 8 (s.esc.phys m.logical)])

/-- TABLE_SWAP_APPLY; a group of the same tick goes first (R186, R199). -/
def State.swapStep (s : State) : State :=
  match (if s.ticking then s.swapDue else none) with
  | some w => if w.due ≤ s.nextTick && s.groupDue.isNone then s.doSwap w else s
  | none => s

end Sys2Proof.Machine
end

