-- ==== Sys2Proof/Machine/Power.lean ====
section
/-!
DEFINITION. Supplies, reset and power states (R28, R379 to R394): starts and their failures, reset, performance levels, sleep entries
with their abort points, and wakes.
-/
namespace Sys2Proof.Machine

/-- Code of a power state (R357). -/
def PowerState.code : PowerState → Nat
  | .s0 => 0 | .s1 => 1 | .s2 => 2 | .s3 => 3 | .wakeFail => 4
/-- The sleep state of a target 1 to 3. -/
def sleepOf (n : Nat) : PowerState := match n with | 1 => .s1 | 2 => .s2 | 3 => .s3 | _ => .s0
/-- STATE and LEVEL of a PSTATE_REQ response. -/
def State.psParams (s : State) : List Byte := [BitVec.ofNat 8 s.pwr.state.code, BitVec.ofNat 8 s.pwr.pl]
/-- Answer a PSTATE_REQ. -/
def State.psReply (s : State) (r : Reply) (a : Ans) : State := s.reply r { a with params := s.psParams }

/-- Ready flags that no operand gives: free (log entry 3). -/
def freeFlags (n : Nat) : StartFlags :=
  let b := fun (k : Nat) => (Config.openValue n).toNat.testBit k
  { ocxoOk := b 0, railOk := b 1, regLocked := b 2, anaOk := b 3, fastOk := b 4, escOk := b 5, badRise := b 6 }

/-- A free duration from 1 to a bound, in ticks. -/
def State.freeTicks (s : State) (most : Nat) : Nat := max 1 (min most (Config.entryTicks s.free))

/-! ### Levels (R28, R385) -/

/-- A change to a level is refused by. -/
def State.levelBar (s : State) (level : Nat) : Option Byte :=
  if !s.esc.fits level then some rsEscapement
  else if level = 3 && s.cfgN Obj.MOD_MODE = 1 && s.conv.state = .run && !s.esc.active.fit.testBit 3 then some rsConverter
  else none

/-- PSTATE_REQ S0 in S0. The ramp of the core voltage takes a free time of at most 150 µs. -/
def State.levelStart (s : State) (r : Reply) (level : Nat) : State :=
  if level = s.pwr.pl then s.psReply r Ans.ok
  else if s.pwr.plTarget.isSome then s.psReply r (Ans.st stBusy)
  else match s.levelBar level with
    | some c => { s with pwr := { s.pwr with plRefused := s.pwr.plRefused + 1 } }.psReply r (Ans.refuse c)
    | none => { s.fresh with pwr := { s.pwr with plTarget := some (level, r, s.tick.now + s.freeTicks 600) } }

/-- The engine clock changes. -/
def State.levelTo (s : State) (level : Nat) : State :=
  if level = s.pwr.pl then s
  else
    { s with pwr := { s.pwr with pl := level, plChanges := s.pwr.plChanges + 1 } }.post 0x2B07 noInst
      [BitVec.ofNat 8 s.pwr.pl, BitVec.ofNat 8 level]

/-- Answer requests of S0 in their order; one that changes the level holds up those behind it. -/
def State.answerEach (s : State) : List (Reply × Nat) → State
  | [] => { s with pwr := { s.pwr with wakeReply := [] } }
  | (r, level) :: rest =>
    let t := s.levelStart r level
    if t.pwr.plTarget.isSome then { t with pwr := { t.pwr with wakeReply := rest } } else t.answerEach rest

/-- The responses to the requests of S0 that the module has held, with the level changes that follow them (R388, R389). -/
def State.wakeAnswer (s : State) : State := s.answerEach s.pwr.wakeReply

/-- A level change at an edge: lowered at once and then ramped, raised after the ramp. -/
def State.levelEdge (s : State) : State :=
  match s.pwr.plTarget with
  | none => s
  | some (level, r, due) =>
    if due ≤ s.tick.now then
      let s := { s.levelTo level with pwr := { (s.levelTo level).pwr with plTarget := none } }
      (s.psReply r Ans.ok).wakeAnswer
    else if s.pwr.pl < level then s.levelTo level
    else s

/-! ### Starts (R381, R390) -/

/-- The first fatal flag that is false, as its step: 0 P, 1 to 6 W0 to W5. REF_OK: the source REG_REF names or the other is good (R238). -/
def State.failStep (s : State) (first : Nat) (f : StartFlags) : Option Nat :=
  ([(0, f.ocxoOk), (1, s.reg.ocxoOk || s.reg.refclkOk), (2, f.railOk), (3, f.regLocked), (6, f.escOk)].find? fun p =>
    decide (first ≤ p.1) && !p.2).map (·.1)

/-- Number the first tick after the ticks not run (R242); the up-time goes on before the first tick too (R356). -/
def State.resumeTick (s : State) (skip : Nat) : State :=
  if !s.tick.started then { s with pwr := { s.pwr with uptimeTicks := s.pwr.uptimeTicks + skip } }
  else
    let n := if s.reg.aonLost then 0 else skip
    let s := s.pulseKept (!s.reg.aonLost)
    let s := { s with
      tick := { s.tick with next := s.tick.now + 1 + n }, reg := { s.reg with skipped := s.reg.skipped + n, aonLost := false }
      pwr := { s.pwr with uptimeTicks := s.pwr.uptimeTicks + skip } }
    if 0 < n then s.post 0x2705 noInst (beBytes 8 n) else s

/-- The time state after a sleep in S3 (R389): the time in holdover, the sleep included, may have reached HOLDOVER_MAX. -/
def State.timeAfterSleep (s : State) (skip : Nat) : State :=
  if s.time.state = .holdover && decide (s.cfgN Obj.HOLDOVER_MAX * 4000000 ≤ s.tick.now - s.time.holdSince + skip) then s.timeSet .free 6 else s

/-- Lanes in keep-alive are up again; those that may leave OFF do (R152, R155). -/
def State.lanesWake (s : State) : State :=
  ((List.range 48).foldl (fun s l => if (s.lane l).state = .keepalive then s.laneTo l .up 0 else s) s).lanesAdmit

/-- W2 has passed: the loop is locked, and the tick runs (R242). -/
def State.relocked (s : State) (skip : Nat) : State :=
  let s := s.resumeTick skip
  ({ s with reg := { s.reg with locked := true, gated := false, slipped := false, low := false, lockA := true } }).timeAfterSleep skip
/-- W3 has checked ANA_OK: the analogue rail is up where its supply is (R394). -/
def State.anaChecked (s : State) (f : StartFlags) : State := { s with pwr := { s.pwr with anaOk := f.anaOk && s.meas.vanaOk } }
/-- W4 has checked FAST_OK. -/
def State.fastChecked (s : State) (f : StartFlags) : State :=
  { s with pwr := { s.pwr with fastOk := f.fastOk }, meas := { s.meas with fastOn := f.fastOk } }
/-- W5 has passed, and with it the start. -/
def State.startEnds (s : State) : State :=
  { s with
    pwr := { s.pwr with state := .s0, started := true, coreRail := true, ioRail := true, escGated := false }
    saf := { s.saf with startFailed := false, feedsLost := false } }.lanesWake.wakeAnswer

/-- A start from step `first` has passed. -/
def State.startOk (s : State) (first : Nat) (f : StartFlags) (skip : Nat) : State :=
  let s := if first ≤ 3 then s.relocked skip else s
  let s := if first ≤ 4 then s.anaChecked f else s
  (if first ≤ 5 then s.fastChecked f else s).startEnds

/-- It has failed at a step; after the fourth attempt the module stays in WAKE_FAIL, and the requests that wait are answered STATE. An analogue
rail that the start had turned on goes off with its window. -/
def State.startFails (s : State) (first k : Nat) : State :=
  let s := if 4 < first then s else s.discardWindow
  let p := s.pwr
  let cold := !p.started
  let s := { s with
    pwr := { p with
      state := .wakeFail, wakeFailRos := true, wakeFails := p.wakeFails + 1, wakeFailLast := k * 2 ^ 8 + p.attempt
      coreRail := p.coreRail && !cold, ioRail := p.ioRail && !cold
      anaOk := p.anaOk && 4 < first, fastOk := p.fastOk && 5 < first }
    reg := if first ≤ 3 then { s.reg with locked := false, gated := true } else s.reg
    meas := { s.meas with fastOn := s.meas.fastOn && 5 < first }
    saf := { s.saf with startFailed := true } }
  let s := s.post 0x2B05 noInst [BitVec.ofNat 8 p.attempt, BitVec.ofNat 8 k]
  if p.attempt < 4 then s
  else
    let s := s.post 0x2B06 noInst [BitVec.ofNat 8 k]
    let s := s.pwr.wakeReply.foldl (fun s x => s.psReply x.1 (Ans.st stState)) s
    { s with pwr := { s.pwr with wakeReply := [] } }

/-- W0: the loop's reference is the one REG_REF names, or with it lost the other, by the fall-back of R238. -/
def State.selectRef (s : State) : State :=
  let r := s.cfgB Obj.REG_REF
  let t := { s with reg := { s.reg with refclk := r } }
  if !s.reg.good r && s.reg.good (!r) then t.refSwitch (!r) else t

/-- What P, W0 and W2 do in a start that gets there: the OCXO's flag, the reference, and a rise of LOCK_S outside its window (R240). -/
def State.startSteps (s : State) (first : Nat) (f : StartFlags) : State :=
  let s := if first = 0 then { s with reg := { s.reg with ocxoOk := f.ocxoOk } } else s
  let upTo := (s.failStep first f).getD 7
  let s := if first ≤ 1 && 2 ≤ upTo then s.selectRef else s
  if first ≤ 3 && 3 ≤ upTo && f.badRise then { s with reg := { s.reg with filterRos := true } }.post 0x2702 noInst [] else s

/-- Run a start; `skip` counts the ticks not run before it. Only a failing series counts its attempts (R392). -/
def State.startRun (s : State) (first attempt : Nat) (f : StartFlags) (skip : Nat) : State :=
  let s := s.startSteps first f
  match s.failStep first f with
  | some k => { s with pwr := { s.pwr with attempt := attempt, retryFrom := first } }.startFails first k
  | none => (if attempt = 1 then s else { s with pwr := { s.pwr with attempt := attempt } }).startOk first f skip

/-- WAKE_RETRY: the same start once more. -/
def State.wakeRetry (s : State) (f : StartFlags) : State :=
  if s.pwr.state = .wakeFail && s.pwr.attempt < 4 then s.fresh.startRun s.pwr.retryFrom (s.pwr.attempt + 1) f s.freeNat else s

/-! ### Reset (R382, R383) -/

/-- Objects kept across a reset: the safety set, and the addresses of the host link. -/
def keptObj (i : Nat) : Bool := isSafetyObj i || inRow i Obj.HL_IPV4 3

/-- What is left when both feeds have failed: the non-volatile stores, and the feeds as they are (R343, R383); the tick, the time, the log and
the records are lost. -/
def State.powerLost (s : State) : State :=
  { pending := s.pending
    objs := s.storeObjs.filter fun p => keptObj p.1
    saf := { paramVersion := s.saf.paramVersion, boot := s.saf.boot }
    train := { stored := s.train.stored, table := s.train.table, strapped := s.train.strapped }
    feed := { aPresent := s.feed.aPresent, bPresent := s.feed.bPresent, aMv := s.feed.aMv, bMv := s.feed.bMv, inUse := s.feed.inUse }
    host := { keyOp := s.host.keyOp, keyRo := s.host.keyRo, supRunning := s.host.supRunning, supInactive := s.host.supInactive
              supStaged := s.host.supStaged, supFallback := s.host.supFallback, skRunning := s.host.skRunning, skStaged := s.host.skStaged }
    pwr := { inReset := true, lastReset := 2, resetLow := s.pwr.resetLow }
    gt := { draw := s.gt.draw }
    free := s.free }

/-- What RESET_N keeps beside them (R383): the tick, the epoch, the log with its accounts, the closed records, among them the one in progress,
cut (R270), the always-on registers, and what the monitor of the references and the always-on count have found (log entry 61). -/
def State.resetKept (s : State) : State :=
  let c := s.chronoStop
  let k := s.powerLost
  { k with
    tick := s.tick
    time := { epoch := s.time.epoch, stepDone := s.time.stepDone }
    log := c.log
    chr := { records := c.chr.records, lastId := c.chr.lastId, nextId := c.chr.nextId, past := c.chr.past }
    feed := { k.feed with charged := s.feed.charged, chargedAt := s.feed.chargedAt }
    reg := { ocxoOk := s.reg.ocxoOk, refclkOk := s.reg.refclkOk, aonLost := s.reg.aonLost }
    host := { k.host with accessErr := s.host.accessErr, accessErrAddr := s.host.accessErrAddr }
    pwr := { inReset := true, lastReset := 1, resetLow := true, heldMs := s.pwr.heldMs, uptimeTicks := s.pwr.uptimeTicks } }

/-- RESET_ASSERT: a low of at least 1 ms. A module whose feeds have failed is in reset already and finds the level at its power-up. -/
def State.resetAssert (s : State) (lowUs : Nat) : State :=
  if lowUs < 1000 then s else if s.pwr.inReset then { s with pwr := { s.pwr with resetLow := true } } else s.resetKept

/-- A feed is present. -/
def State.anyFeed (s : State) : Bool := s.feed.aPresent || s.feed.bPresent
/-- The module has power: a feed, or the hold-up. -/
def State.powered (s : State) : Bool := s.anyFeed || s.feed.inUse = 2
/-- It has no power behind it, and waits for a power-up. -/
def State.coldState (s : State) : Bool := if s.pwr.inReset then s.pwr.lastReset = 2 else !s.pwr.started && s.pwr.state = .s0

/-- What every start from reset begins with: the kernel and the supervisor start, and the converter is in PR. -/
def State.leaveReset (s : State) : State :=
  { s with pwr := { s.pwr with inReset := false }, saf := s.saf.start, host := { s.host with starting := true } }.post 0x1001 noInst [0xFF, 5, 1]

/-- RESET_RELEASE. A module without power starts at its power-up. -/
def State.resetRelease (s : State) (held : Nat) (strapped : Bool) (f : StartFlags) : State :=
  if s.pwr.inReset && s.pwr.lastReset = 1 && s.powered then
    let s' := s.leaveReset
    ({ s'.fresh with
        pwr := { s'.pwr with resetLow := false, heldMs := min held (2 ^ 32 - 1), releasePending := true }
        train := { s'.train with strapped := strapped } }).startRun 1 1 f (4000 * held + s.freeNat)
  else { s with pwr := { s.pwr with resetLow := false, inReset := s.pwr.inReset && s.pwr.lastReset ≠ 1 } }

/-- POWER_UP: the first start since the feeds came; after their loss one has been present for 100 ms (R343). While RESET_N is low, the always-on
rail alone starts, and the release starts the module. -/
def State.powerUp (s : State) (x : PowerOn) : State :=
  if !(s.anyFeed && s.coldState && (!s.pwr.inReset || decide (100 ≤ x.presentMs))) then s
  else if s.pwr.resetLow then { s with pwr := { s.pwr with inReset := true, lastReset := 1 } }
  else
    let s' := s.leaveReset
    ({ s'.fresh with train := { s'.train with strapped := x.strapped } }).startRun 0 1 x.flags s.freeNat

/-- HOLDUP_EXPIRED (R343): it ends a module that RESET_N holds as well. -/
def State.holdupExpired (s : State) : State :=
  if s.feed.inUse = 2 && !(s.pwr.inReset && s.pwr.lastReset = 2) then s.powerLost else s

/-- VANA_ORDER (R379), once a power-up. -/
def State.vanaOrder (s : State) : State :=
  if s.meas.vanaOk || s.pwr.lateVana || !s.anyFeed then s
  else { s with pwr := { s.pwr with lateVana := true, vanaOrderRos := true } }.post 0x2B09 noInst []

/-- FAULT_N is driven low. -/
def State.faultLow (s : State) : Bool := s.kernelFault || s.feed.inUse = 2 || s.pwr.state = .wakeFail || s.pwr.inReset

/-! ### Refusers of a sleep (R387) -/

/-- Another mailbox holds a command. -/
def State.othersBusy (s : State) (mb : Nat) : Bool :=
  (s.host.mbs.zipIdx).any fun p => p.2 ≠ mb && (!p.1.queue.isEmpty || p.1.running.isSome)

/-- The first refuser of a target. -/
def State.sleepBar (s : State) (target mb : Nat) : Option Byte :=
  let c := s.conv.state
  if !(c = .pr || (c = .idle && target ≠ 3)) then some rsConverter
  else if s.saf.session || !s.saf.startDone then some rsSafety
  else if s.chr.state ≠ .idle then some rsChrono
  else if s.pair.role ≠ .solo || (2 ≤ target && s.train.originating && 1 < s.train.memberCount) then some rsTrain
  else if s.esc.load.isSome || s.host.fwSup.isSome || s.host.fwSk.isSome || !s.sched.pending.isEmpty || s.othersBusy mb then some rsHost
  else if s.lanes.any fun x => x.state = .sync then some rsLane
  else if s.esc.loadBusy || !s.esc.groups.isEmpty then some rsEscapement
  else none

/-- A refused entry. -/
def State.sleepRefused (s : State) (r : Reply) (target : Nat) (c : Byte) : State :=
  let n := c.toNat - 1
  ({ s with pwr := { s.pwr with refuse := modifyAt s.pwr.refuse n (· + 1), refusedRos := true } }.post 0x2B02 noInst
    [BitVec.ofNat 8 target, c]).psReply r (Ans.refuse c)

/-! ### Sleep entry (R388) -/

/-- Change the entry in progress. -/
def State.setEntry (s : State) (e : Option SleepEntry) : State := { s with pwr := { s.pwr with entry := e } }

/-- Begin an entry: AP1 lies at the next boundary. -/
def State.entryBegin (s : State) (r : Reply) (target : Nat) : State :=
  s.setEntry (some { target := target, step := 1, left := 1, reply := r, wake := none, wakeHost := none, ana := s.pwr.anaOk,
                     fast := s.meas.fastOn })

/-- REASON of a wake source. -/
def wakeReason : WakeSource → Byte
  | .trip => rsTrip | .lim n => rsLim n.val | .safety => rsSafety | .feed => rsFeed | .vana => rsVana

/-- What an abort point finds: kind (0 wake event, 1 refuser) and REASON. -/
def State.abortCause (s : State) (e : SleepEntry) : Option (Nat × Byte) :=
  match e.wake with
  | some w => some (0, wakeReason w)
  | none => if e.wakeHost.isSome then some (0, rsHost) else (s.sleepBar e.target e.reply.mb.val).map fun c => (1, c)

/-- Undo the steps taken, in reverse order; only step E3 of S3 has turned off the analogue rail. -/
def State.entryUndo (s : State) (e : SleepEntry) : State :=
  let s := if 3 < e.step then
      { s with
        pwr := { s.pwr with escGated := false, anaOk := if e.target = 3 then e.ana && s.meas.vanaOk else s.pwr.anaOk, fastOk := e.fast }
        meas := { s.meas with fastOn := e.fast } }
    else s
  (if 2 < e.step then s.lanesWake else s).setEntry none

/-- Abandon the entry at its abort point. -/
def State.entryAbort (s : State) (e : SleepEntry) (kind : Nat) (c : Byte) : State :=
  let s := s.entryUndo e
  let p := s.pwr
  let s := { s with pwr := { p with
    aborts := p.aborts + 1, abortLast := e.step * 2 ^ 16 + kind * 2 ^ 8 + c.toNat, abortedRos := true } }.post 0x2B03 noInst
      [BitVec.ofNat 8 e.target, BitVec.ofNat 8 e.step, BitVec.ofNat 8 kind, c]
  (s.psReply e.reply (Ans.refuse c)).wakeAnswer

/-- The tick stops for S3: queued and running ramps are discarded (M14). -/
def State.stopTick (s : State) : State := { s with reg := { s.reg with locked := false, gated := true, rampQ := [], rampRun := none } }

/-! ### Wake (R389) -/

/-- The first step of a wake. -/
def wakeFirst : PowerState → Nat
  | .s1 => 6 | .s2 => 5 | _ => 1

/-- The delay of a step W3 to W5, in ticks. -/
def wakeDelay (step : Nat) : Nat := if step = 4 then 4000 else if step = 5 then 8000 else 400
/-- A step W3 to W5 of a wake begins; W4 releases the lanes at once. -/
def State.wakeGo (s : State) (first step : Nat) (f : StartFlags) : State :=
  let s := { s with pwr := { s.pwr with waking := some ⟨first, step, wakeDelay step, f⟩ } }
  if step = 5 then s.lanesAdmit else s
/-- A wake fails at a step, in the first attempt of its series; lanes that W4 has released go off with their rail (R390). -/
def State.wakeFailed (s : State) (first k : Nat) : State :=
  let s := { s with pwr := { s.pwr with waking := none, attempt := 1, retryFrom := first } }
  (if first ≤ 5 then (List.range 48).foldl (fun s l => s.laneTo l .off 0) s else s).startFails first k
/-- The step that runs checks its flag at the end of its delay (R381). -/
def State.wakeStep (s : State) (w : Waking) : State :=
  if w.step = 4 then (s.anaChecked w.flags).wakeGo w.first 5 w.flags
  else if w.step = 5 then (s.fastChecked w.flags).wakeGo w.first 6 w.flags
  else if w.flags.escOk then { s with pwr := { s.pwr with waking := none } }.startEnds
  else s.wakeFailed w.first 6
/-- A wake in progress at the end of a tick. -/
def State.wakeEdge (s : State) : State :=
  match s.pwr.waking with
  | none => s
  | some w => if 1 < w.left then { s with pwr := { s.pwr with waking := some { w with left := w.left - 1 } } } else s.wakeStep w

/-- Wake the module; `bit` is the WAKE_MASK bit or 0xFF for the host. The time asleep in S3 is the always-on count, free here. The steps from W3
on last their ticks; no tick runs in W0 to W2 (log entry 34). -/
def State.wakeUp (s : State) (bit : Nat) (f : StartFlags) : State :=
  let from_ := s.pwr.state
  let skip := if from_ = .s3 then s.freeNat else 0
  let ms := (s.tick.now - s.pwr.sleepTick + skip) / 4000
  let s := { s.fresh with pwr := { s.pwr with wakes := s.pwr.wakes + 1, sleepMs := ms } }.post 0x2B04 noInst
    (BitVec.ofNat 8 from_.code :: BitVec.ofNat 8 bit :: beBytes 4 ms)
  let first := wakeFirst from_
  let s := s.startSteps first f
  match (s.failStep first f).filter (· < 4) with
  | some k => s.wakeFailed first k
  | none => (if first ≤ 3 then s.relocked skip else s).wakeGo first (max 4 first) f

/-- The module sleeps, and no wake is in progress. -/
def State.asleep (s : State) : Bool := (s.pwr.state = .s1 || s.pwr.state = .s2 || s.pwr.state = .s3) && s.pwr.waking.isNone

/-- Hold a request of S0 until the module is in S0. -/
def State.holdHost (s : State) (r : Reply) (level : Nat) : State := { s with pwr := { s.pwr with wakeReply := s.pwr.wakeReply ++ [(r, level)] } }
/-- PSTATE_REQ S0 wakes it. -/
def State.hostWake (s : State) (r : Reply) (level : Nat) (f : StartFlags) : State :=
  (s.holdHost r level).wakeUp 0xFF f

/-- A source wakes the module when WAKE_MASK enables it. -/
def State.wakeBy (s : State) (bit : Nat) (f : StartFlags) : State := if (s.cfgN Obj.WAKE_MASK).testBit bit then s.wakeUp bit f else s

/-- A pin's new level behind the always-on filter of 1 ms and its polarity, where it differs from the one held (R389). -/
def aonEdge (held : List Bool) (pol n : Nat) (pin : Bool) (runUs : Nat) : Option Bool :=
  let level := pin != pol.testBit n
  if runUs < 1000 || level = flag held n then none else some level

/-- WAKE_EVENT: an active edge of a TI pin, either edge of a LIM pin, or another source's event. -/
def State.wakeEvent (s : State) (w : WakeFact) (f : StartFlags) : State :=
  if !s.asleep then s
  else match w with
    | .trip n pin run =>
      match aonEdge s.pwr.aonTi (s.cfgN Obj.TRIP_POL) n.val pin run with
      | some l =>
        let s := { s with pwr := { s.pwr with aonTi := setFlag s.pwr.aonTi n.val l } }
        if l then s.wakeBy 0 f else s
      | none => s
    | .lim n pin run =>
      match aonEdge s.pwr.aonLim (s.cfgN Obj.LIM_POL) n.val pin run with
      | some l => { s with pwr := { s.pwr with aonLim := setFlag s.pwr.aonLim n.val l } }.wakeBy 1 f
      | none => s
    | .safety => s.wakeBy 2 f
    | .feed => s.wakeBy 3 f
    | .vana => s.wakeBy 4 f

/-- A wake event that came after AP4 wakes the module again. -/
def State.wakeAgain (s : State) (e : SleepEntry) : State :=
  match e.wakeHost, e.wake with
  | some f, _ => s.wakeUp 0xFF f
  | none, some w => s.fresh.wakeUp (wakeBit w) (freeFlags s.free)
  | none, none => s

/-- The entry is complete. -/
def State.entryDone (s : State) (e : SleepEntry) : State :=
  let s := s.setEntry none
  let s := { s with pwr := { s.pwr with
    state := sleepOf e.target, entries := s.pwr.entries + 1, sleepTick := s.tick.now, noTick := e.target = 3
    aonTi := s.trips.pin, aonLim := s.lim.filtered } }.post 0x2B01 noInst [BitVec.ofNat 8 e.target]
  let s := s.psReply e.reply Ans.ok
  (if e.target = 3 then s.stopTick else s).wakeAgain e

/-- Step E3 beside the engine clock: S2 turns the fast path off, and the window in progress is its last (R236); S3 turns off the analogue
rail too, and with it the window and the converter of a fall-back window. -/
def State.entryOff (s : State) (target : Nat) : State :=
  if target = 1 then s
  else
    let s := { s with pwr := { s.pwr with fastOk := false }, meas := { s.meas with fastOn := false, winS2 := target = 2 && s.meas.winOpen } }
    if target = 2 then s
    else
      let s := s.discardWindow.holdover 5
      { s with pwr := { s.pwr with anaOk := false }, meas := { s.meas with fbPowered := false } }

/-- The step behind an abort point that is clear; E4 of S3 ends the tick, so the entry completes with it. -/
def State.entryStep (s : State) (e : SleepEntry) : State :=
  let go := fun (s : State) (most : Nat) => (s.setEntry (some { e with step := e.step + 1, left := s.freeTicks most })).fresh
  match e.step with
  | 1 => go s 1
  | 2 =>
    let s := (List.range 48).foldl (fun s l =>
      if e.target = 1 then if (s.lane l).state = .up then s.laneTo l .keepalive 0 else s else s.laneTo l .off 0) s
    go s 16
  | 3 =>
    go ({ s with pwr := { s.pwr with escGated := true } }.entryOff e.target) (if e.target = 3 then 4000 else 4)
  | _ => if e.target = 3 then s.entryDone e else go s 1

/-- A sleep entry at an edge. -/
def State.entryEdge (s : State) : State :=
  match s.pwr.entry with
  | none => s
  | some e =>
    if 1 < e.left then s.setEntry (some { e with left := e.left - 1 })
    else if 4 < e.step then s.entryDone e
    else match s.abortCause e with
      | some (kind, c) => s.entryAbort e kind c
      | none => s.entryStep e

/-- MB_CMD_BOUND of a sleep entry: BUSY, with no effect. -/
def State.entryBound (s : State) (e : SleepEntry) : State := ((s.entryUndo e).psReply e.reply (Ans.st stBusy)).wakeAnswer

/-! ### PSTATE_REQ (R386 to R389) -/

/-- PSTATE_REQ as its turn comes. -/
def State.pstateReq (s : State) (r : Reply) (state level : Nat) (f : StartFlags) : State :=
  if 3 < state || (state = 0 && 3 < level) then s.psReply r (Ans.st stRange)
  else match s.pwr.entry with
    | some e =>
      if state = 0 then (s.setEntry (some { e with wakeHost := some (e.wakeHost.getD f) })).holdHost r level else s.psReply r (Ans.st stBusy)
    | none =>
      if state = 0 then
        if s.pwr.state = .s0 then s.levelStart r level
        else if s.asleep then s.hostWake r level f
        else if s.pwr.waking.isSome then s.holdHost r level
        else (s.fresh.holdHost r level).startRun s.pwr.retryFrom 1 f s.freeNat
      else if s.pwr.waking.isSome then s.psReply r (Ans.st stBusy)
      else if s.pwr.state ≠ .s0 then s.psReply r (Ans.st stState)
      else match s.sleepBar state r.mb.val with
        | some c => s.sleepRefused r state c
        | none => if s.pwr.plTarget.isSome then s.psReply r (Ans.st stBusy) else s.entryBegin r state

/-- PS_STATUS (R392), and POWER. -/
def State.power (s : State) : Nat := if s.pwr.entry.isSome then 5 else if s.pwr.waking.isSome then 6 else s.pwr.state.code
def State.psStatus (s : State) : Nat :=
  let p := s.pwr
  s.power + 8 * b2n p.fastOk + 16 * p.pl + 64 * b2n p.coreRail + 128 * b2n p.ioRail + 256 * b2n p.anaOk + 512 * p.attempt +
    4096 * b2n p.wakeFailRos + 8192 * b2n p.refusedRos + 16384 * b2n p.abortedRos + 32768 * b2n p.vanaOrderRos

end Sys2Proof.Machine
end

