-- ==== Sys2Proof/Machine/Flags.lean ====
section
/-!
DEFINITION. Status words that no block's own file gives: MOD_STATUS (R132), LANE_STATUS (R158), MODULE_STATUS (R357) and AON_STATUS (R359),
and what reading a status word clears (00, ROS).
-/
namespace Sys2Proof.Machine

/-- MOD_STATUS (R132). -/
def State.modStatus (s : State) : Nat :=
  bitsNat s.mod.satPos + 2 ^ 8 * bitsNat s.mod.satNeg + 2 ^ 14 * (s.cfgN Obj.MOD_MODE % 4) + 2 ^ 16 * b2n (s.trips.latch.any id) +
    2 ^ 17 * b2n s.mod.dropRos + 2 ^ 18 * b2n s.mod.spillRos + 2 ^ 19 * b2n (!s.cfgB Obj.MOD_ENABLE) +
    2 ^ 20 * b2n (s.pair.role = .standby)

/-- LOF and LOL of the input that is not this module's, in the last cluster status word (R146). -/
def otherLof (w : DWord) : Bool := w.getLsbD (if statusInput w = 1 then 39 else 43)
def otherLol (w : DWord) : Bool := w.getLsbD (if statusInput w = 1 then 38 else 42)

/-- LANE_STATUS (R158). -/
def Lane.statusWord (x : Lane) : Nat :=
  x.state.code + 2 ^ 4 * (x.reason % 16) + 2 ^ 8 * b2n (x.status.getLsbD 48) + 2 ^ 9 * (if x.heard then followsCode x.status else 0) +
    2 ^ 11 * b2n x.conflictRos + 2 ^ 12 * b2n (x.status.getLsbD 36) + 2 ^ 13 * b2n (x.status.getLsbD 35) +
    2 ^ 14 * b2n (otherLof x.status) + 2 ^ 15 * b2n (otherLol x.status) + 2 ^ 16 * b2n x.lateRos + 2 ^ 17 * b2n x.dtgRos +
    2 ^ 18 * b2n x.typeRos

/-- MODULE_STATUS (R357). -/
def State.moduleStatus (s : State) : Nat :=
  convCode s.conv.state + 2 ^ 3 * s.chr.state.code + 2 ^ 5 * s.pair.role.code + 2 ^ 7 * s.power + 2 ^ 10 * (s.pwr.pl % 4) +
    2 ^ 12 * (s.cfgN Obj.MOD_MODE % 4) + 2 ^ 14 * (s.cfgN Obj.AC_ROLE % 2) + 2 ^ 15 * (s.cfgN Obj.DC_ROLE % 4) +
    2 ^ 17 * s.time.state.code + 2 ^ 19 * b2n (s.reg.locked && !s.reg.gated) + 2 ^ 20 * b2n s.reg.ramp +
    2 ^ 21 * b2n (s.trips.latch.any id) + 2 ^ 22 * b2n s.anyDemand + 2 ^ 23 * b2n s.kernelFault + 2 ^ 24 * b2n (!s.log.safety.isEmpty) +
    2 ^ 25 * b2n (!s.chr.records.isEmpty) + 2 ^ 26 * b2n s.faultLow

/-- AON_STATUS (R359). -/
def State.aonStatus (s : State) : Nat :=
  2 ^ 3 * b2n s.feed.aPresent + 2 ^ 4 * b2n s.feed.bPresent + 2 ^ 5 * b2n (s.feed.inUse = 2) + 2 ^ 6 * b2n (s.pwr.state = .wakeFail) +
    2 ^ 7 * b2n s.host.accessErr + 2 ^ 8 * (s.pwr.lastReset % 8)

/-- The lane that LANE_SEL names. -/
def State.laneSel (s : State) : Nat := s.cfgN Obj.LANE_SEL

/-- Reading a status object clears its ROS fields (00, ROS); every other read leaves the state as it is. -/
def State.clearRos (s : State) (i : Nat) : State :=
  if i = Obj.BAL_STATUS then { s with gt := { s.gt with jumpRos := false } }
  else if i = Obj.FUSEE_STATUS then { s with fus := { s.fus with slipRos := false, rideLostRos := false } }
  else if i = Obj.ARM_STATUS then { s with arms := { s.arms with retiredNew := false } }
  else if i = Obj.MOD_STATUS then { s with mod := { s.mod with dropRos := false, spillRos := false } }
  else if i = Obj.LANE_STATUS then
    s.setLane s.laneSel fun (x : Lane) => { x with typeRos := false, dtgRos := false, lateRos := false, conflictRos := false }
  else if i = Obj.ESC_STATUS then
    { s with esc := { s.esc with noSpareRos := false, spareFaultRos := false, accSatRos := false, wbSatRos := false } }
  else if i = Obj.HANDS_STATUS then { s with hands := { s.hands with coordRos := false } }
  else if i = Obj.SET_STATUS then { s with set := { s.set with permitLostRos := false, abortedRos := false } }
  else if i = Obj.MEAS_STATUS then
    { s with meas := { s.meas with energyRos := false, discardRos := false, ovrRos := false, driftRos := false, refLostRos := false } }
  else if i = Obj.REG_STATUS then { s with reg := { s.reg with filterRos := false, refRos := false, lockLostRos := false } }
  else if i = Obj.TIME_STATUS then { s with time := { s.time with gmRos := false }, sched := { s.sched with lateRos := false } }
  else if i = Obj.CHR_STATUS then { s with chr := { s.chr with fireRos := false, lostRos := false, overRos := false } }
  else if i = Obj.LOG_STATUS then { s with log := { s.log with defRos := false, overRos := false, supRos := false } }
  else if i = Obj.SAFETY_STATUS then { s with saf := { s.saf with preemptRos := false, testRos := false, rejectRos := false } }
  else if i = Obj.TRAIN_STATUS then { s with train := { s.train with msgRos := false, addrRos := false, conflictRos := false } }
  else if i = Obj.PAIR_STATUS then { s with pair := { s.pair with notReadyRos := false, crownLostRos := false, tookRos := false } }
  else if i = Obj.FEED_STATUS then { s with feed := { s.feed with switchRos := false } }
  else if i = Obj.PS_STATUS then
    { s with pwr := { s.pwr with vanaOrderRos := false, abortedRos := false, refusedRos := false, wakeFailRos := false } }
  else s

end Sys2Proof.Machine
end

