-- ==== Sys2Proof/Machine/Operands.lean ====
section
/-!
DEFINITION. What reading an object gives (R57, R81, R106, R131, R157, R199, R217, R235, R259, R276, R283, R317, R350, R351, R375, R394),
each value in its unit and TYPE (R369): the forms an operand of OBJ_READ can take.
-/
namespace Sys2Proof.Machine

/-! ### Units -/

/-- A per-unit quantity in 0.0001, a half upward. -/
def perMyriad (x : Int) : Int := roundDiv (x * 10000) pu
/-- Values limited to their type. -/
def u16 (x : Int) : ObjVal := .num (clampInt 0 65535 x)
def u32 (x : Int) : ObjVal := .num (clampInt 0 (2 ^ 32 - 1) x)
def i32 (x : Int) : ObjVal := .num (sat32 x)
/-- Counters, modulo 2^32 and 2^64 (log entry 9). -/
def count32 (n : Nat) : ObjVal := .num ((n % 2 ^ 32 : Nat) : Int)
def count64 (n : Nat) : ObjVal := .num ((n % 2 ^ 64 : Nat) : Int)
/-- A time of the PTP timescale. -/
def timeVal (t : Int) : ObjVal := .time (secNs t).1 (secNs t).2

/-- Signals the host reads in 0.0001 pu. -/
def State.sigMyriad (s : State) (a : Nat) (fs : Int) : Int := perMyriad (s.sigPu a fs)

/-! ### Blocks of objects -/

/-- Block 0x1000 (R375). -/
def State.read10 (s : State) (i : Nat) : ObjVal :=
  match i with
  | 0x1000 => .str ([0x4A, 0x56, 0x2D, 0x4C, 0x47, 0x46, 0x34, 0x38, 0x2D] ++ [if Config.partT then 0x54 else 0x41])
  | 0x1001 => count32 Config.serial.toNat
  | 0x1002 => count32 Config.hwRev.toNat
  | 0x1003 => count32 s.host.supRunning.toNat
  | 0x1004 => count32 s.host.supInactive.toNat
  | 0x1020 => count32 s.host.rxBad
  | 0x1021 => count32 s.host.authFail
  | 0x1022 => count32 s.host.replay
  | 0x1023 => count32 s.host.discards
  | 0x1024 => count32 s.host.accessErrs
  | 0x1025 => .num s.host.sessions.length
  | _ => .num 0

/-- Block 0x2000 (R57). -/
def State.read20 (s : State) (i : Nat) : ObjVal :=
  match i with
  | 0x2060 => u32 s.fV
  | 0x2061 => .num s.thetaV.toNat
  | 0x2062 => u32 s.fG
  | 0x2063 => .num s.thetaG.toNat
  | 0x2064 => .num (match s.gt.state with | .acquiring => 0 | .locked => 1 | .coasting => 2)
  | 0x2065 => i32 (s.sigMyriad 0x049 2)
  | 0x2066 => i32 (s.sigMyriad 0x04A 2)
  | 0x2067 => u16 (perMyriad (sqrtPu (s.sigPu 0x04B 4)))
  | 0x2068 => u16 (s.sigMyriad 0x04C 2)
  | 0x2069 => .num s.balStatus
  | 0x206A => i32 s.gt.jumpLast
  | 0x206B => count32 s.gt.jumpCount
  | 0x206C => count32 s.bal.freqClampCount
  | _ => .num 0

/-- Block 0x2100 (R81). Under a table that is run step by step TH_STATE and TH_HOT show the heat of the last conforming one (log entry 61). -/
def State.read21 (s : State) (i : Nat) : ObjVal :=
  match i with
  | 0x2170 => .num (s.sigN 0x05A % 8)
  | 0x2171 => .num (if s.interprets then s.sigI 0x059 else s.fus.k)
  | 0x2172 => .num s.fuseeStatus
  | 0x2173 => count32 s.fus.winChanges
  | 0x2174 => count32 s.fus.frtCount
  | 0x2175 => count32 s.fus.dcfCount
  | 0x2176 => count32 s.fus.slipCount
  | 0x2177 => u32 (perMyriad s.fus.heat)
  | _ => .num 0

/-- Block 0x2200 (R106). -/
def State.read22 (s : State) (i : Nat) : ObjVal :=
  if inRow i Obj.N_RANK 6 then .num (s.nRank (i - Obj.N_RANK))
  else if inRow i Obj.N_FB 6 then .num (s.nFb (i - Obj.N_FB))
  else if inRow i Obj.W_ARM 6 then u16 (s.sigMyriad (0x066 + (i - Obj.W_ARM)) 2)
  else match i with
    | 0x2262 => u16 (s.sigMyriad 0x078 2)
    | 0x2263 => i32 (s.sigMyriad 0x079 2)
    | 0x2264 => i32 (s.sigMyriad 0x07E 2)
    | 0x2265 => .num s.armStatus
    | 0x2266 => u16 (s.cells.countP fun (c : Cell) => c.retired.isSome)
    | 0x2267 => u16 s.arms.staleNow
    | 0x2268 => count32 s.arms.staleEvents
    | 0x2269 => count32 s.arms.retireCount
    | _ => .num 0

/-- Block 0x2300 (R131). -/
def State.read23 (s : State) (i : Nat) : ObjVal :=
  if inRow i Obj.N_INS 6 then .num (s.mod.nIns.getD (i - Obj.N_INS) 0)
  else match i with
    | 0x2350 => .num (bitsNat s.trips.filtered)
    | 0x2351 => .num (bitsNat s.trips.latch)
    | 0x2352 => .num s.trips.first
    | 0x2353 => count32 s.trips.count
    | 0x2354 => count32 s.trips.clearRefused
    | 0x2355 => .num s.modStatus
    | 0x235C => count32 s.mod.satCount
    | 0x235D => count32 s.mod.dropCount
    | 0x235E => count32 s.mod.spillCount
    | _ => .num 0

/-- Block 0x2400 (R157); the diagnostic objects show the lane of LANE_SEL. -/
def State.read24 (s : State) (i : Nat) : ObjVal :=
  let x := s.lane s.laneSel
  if inRow i Obj.LANE_STATE 48 then .num (s.lane (i - Obj.LANE_STATE)).state.code
  else if inRow i Obj.LANE_DELAY 48 then count32 (s.lane (i - Obj.LANE_DELAY)).delayPs
  else match i with
    | 0x24F3 => .num x.statusWord
    | 0x24F4 => count32 x.rxCrc
    | 0x24F5 => count32 x.rxSync
    | 0x24F6 => count32 x.rxMiss
    | 0x24F7 => count32 x.cuCrc
    | 0x24F8 => count32 x.cuLate
    | 0x24F9 => count32 x.cuDtg
    | 0x24FA => count32 x.downCount
    | 0x24FB => count32 x.product
    | 0x24FC => count32 x.serial
    | 0x24FD => .num s.lanesUp
    | _ => .num 0

/-- Block 0x2500 (R217). -/
def State.read25 (s : State) (i : Nat) : ObjVal :=
  match i with
  | 0x2510 => .num s.handsStatus
  | 0x2511 => i32 (axisRound 0 (s.axis 0).x)
  | 0x2512 => i32 (axisRound 1 (s.axis 1).x)
  | 0x2513 => i32 (axisRound 2 (s.axis 2).x)
  | 0x2514 => u32 (axisRound 3 (s.axis 3).x)
  | 0x2515 => u16 (axisRound 4 (s.axis 4).x)
  | 0x2516 => count64 s.hands.eta
  | 0x2517 => count32 s.hands.moveId
  | 0x2540 => .num (bitsNat s.lim.filtered)
  | 0x2541 => .num (bitsNat s.lim.chatter)
  | 0x2542 => count32 s.lim.changeCount
  | 0x2543 => count32 s.lim.clearRefused
  | 0x2560 => .num s.setStatus
  | 0x2561 => .num s.set.abortReason
  | 0x2562 => .num (angDiff s.thetaG s.thetaV)
  | 0x2563 => u16 (perMyriad s.gt.fitMag)
  | 0x2564 => count32 s.set.abortCount
  | _ => .num 0

/-- The input that AI_SEL names. -/
def State.aiSel (s : State) : Nat := s.cfgN Obj.AI_SEL
/-- Block 0x2600 (R235); the per-input results show the input of AI_SEL. -/
def State.read26 (s : State) (i : Nat) : ObjVal :=
  let m := s.meas
  let a := m.results.getD s.aiSel {}
  match i with
  | 0x2660 => .num s.measStatus
  | 0x2661 => u16 m.vanaMv
  | 0x2662 => count64 m.winCount
  | 0x2663 => count32 m.winLen
  | 0x2664 => count32 m.fWin
  | 0x2665 => i32 (perMyriad m.winP)
  | 0x2666 => i32 (perMyriad m.winQ)
  | 0x2667 => u16 (perMyriad m.winVac)
  | 0x2668 => i32 (perMyriad m.winVdc)
  | 0x2669 => count64 (energyWh m.expE)
  | 0x266A => count64 (energyWh m.impE)
  | 0x266B => count32 m.fbWindows
  | 0x266C => count32 m.discardCount
  | 0x266D => count32 m.driftCount
  | 0x2670 => .num a.mean.toInt
  | 0x2671 => .num a.ip.toInt
  | 0x2672 => .num a.qd.toInt
  | 0x2673 => u32 a.trms
  | 0x2674 => i32 (roundDiv (m.offs.getD s.aiSel 0) 1000)
  | 0x2675 => u32 (roundDiv (m.gain.getD s.aiSel 0 * 1000000) pu)
  | 0x2676 => count32 (m.ovrCount.getD s.aiSel 0)
  | _ => .num 0

/-- Block 0x2700 (R259). -/
def State.read27 (s : State) (i : Nat) : ObjVal :=
  let t := s.time
  match i with
  | 0x2740 => .num s.regStatus
  | 0x2741 => i32 s.reg.offs
  | 0x2742 => .num t.state.code
  | 0x2743 => timeVal (s.timeOf s.tick.now)
  | 0x2744 => count64 s.tick.now
  | 0x2745 => timeVal t.epoch
  | 0x2746 => i32 t.oF
  | 0x2747 => i32 (floorDiv t.r 1000)
  | 0x2748 => u32 t.path
  | 0x2749 => .num t.gm.toNat
  | 0x274A => .num (clampInt (-(2 ^ 15)) (2 ^ 15 - 1) t.utc)
  | 0x274B => timeVal t.stepFrom
  | 0x274C => timeVal t.stepTo
  | 0x274D => count64 t.stepTick
  | 0x274E => .num s.timeStatus
  | 0x2750 => count64 s.reg.skipped
  | 0x2751 => count32 s.reg.lockLoss
  | 0x2752 => count32 s.reg.refSwitches
  | 0x2753 => count64 s.sched.turnV
  | 0x2754 => .num ((floorDiv s.sched.turnG (2 ^ 64)) % 2 ^ 64)
  | 0x2755 => .num s.sched.pending.length
  | 0x2756 => count32 s.sched.lateCount
  | 0x2757 => count32 s.sched.discardCount
  | _ => .num 0

/-- Block 0x2800 (R276). -/
def State.read28 (s : State) (i : Nat) : ObjVal :=
  match i with
  | 0x2838 => .num s.chr.state.code
  | 0x2839 => .num s.chrStatus
  | 0x283A => .num s.chr.records.length
  | 0x283B => count32 s.chr.lastId
  | 0x283C => count32 s.chr.armId
  | 0x283D => count32 s.chr.trigLost
  | 0x283E => count32 s.chr.overwrites
  | 0x283F => count32 s.chr.fireIgnored
  | _ => .num 0

/-- Block 0x2900 (R317). -/
def State.read29 (s : State) (i : Nat) : ObjVal :=
  let k := s.saf
  match i with
  | 0x2950 => .num s.safetyStatus
  | 0x2951 => .num s.siState
  | 0x2952 => .num s.sfRxOk
  | 0x2953 => count32 k.rxSingle
  | 0x2954 => count32 k.rxDisagree
  | 0x2955 => count32 k.rxCrc
  | 0x2956 => count32 k.rxSeq
  | 0x2957 => count32 k.wdCount
  | 0x2958 => count32 k.preempts
  | 0x2959 => count32 k.testFails
  | 0x295A => .num s.paramCrc.toNat
  | 0x295B => count32 k.paramVersion
  | 0x295C => .num s.host.skRunning.toNat
  | 0x295D => u16 k.iEnv
  | 0x295E => count32 k.scsCount
  | 0x295F => count32 k.prCount
  | _ => .num 0

/-- Block 0x2A00 (R350). -/
def State.read2A (s : State) (i : Nat) : ObjVal :=
  let t := s.train
  match i with
  | 0x2A10 => .num t.addr
  | 0x2A11 => .num t.state.code
  | 0x2A12 => .num t.status
  | 0x2A13 => .num t.members
  | 0x2A14 => count32 t.rootSerial
  | 0x2A15 => i32 t.deltaE
  | 0x2A16 => i32 t.deltaW
  | 0x2A17 => count32 t.crcErr
  | 0x2A18 => count32 t.msgLost
  | 0x2A19 => count32 t.wraps
  | 0x2A20 => .num s.pair.role.code
  | 0x2A21 => .num s.pairStatus
  | 0x2A22 => count32 s.pair.takeovers
  | 0x2A23 => count64 s.pair.takeoverTick
  | 0x2A30 => count32 s.feed.aMv
  | 0x2A31 => count32 s.feed.bMv
  | 0x2A32 => .num s.feedStatus
  | 0x2A33 => .num s.feed.healthA.toNat
  | 0x2A34 => .num s.feed.healthB.toNat
  | 0x2A35 => count32 s.feed.switches
  | 0x2A40 => count32 s.host.supRestarts
  | _ => .num 0

/-- Block 0x2B00 (R394). -/
def State.read2B (s : State) (i : Nat) : ObjVal :=
  let p := s.pwr
  if inRow i 0x2B11 7 then count32 (p.refuse.getD (i - 0x2B11) 0)
  else match i with
    | 0x2B10 => .num s.psStatus
    | 0x2B18 => count32 p.aborts
    | 0x2B19 => count32 p.abortLast
    | 0x2B1A => count32 p.entries
    | 0x2B1B => count32 p.wakes
    | 0x2B1C => count32 p.wakeFails
    | 0x2B1D => count32 p.wakeFailLast
    | 0x2B1E => count32 p.sleepMs
    | 0x2B20 => count32 p.plChanges
    | 0x2B21 => count32 p.plRefused
    | 0x2B22 => count32 s.saf.vioMv
    | 0x2B23 => count32 p.heldMs
    | _ => .num 0

/-- Block 0x2C00 (R283). -/
def State.read2C (s : State) (i : Nat) : ObjVal :=
  let l := s.log
  match i with
  | 0x2C10 => count32 l.seq
  | 0x2C11 => count32 (l.oldest l.general)
  | 0x2C12 => count32 (l.oldest l.safety)
  | 0x2C13 => u16 l.safety.length
  | 0x2C14 => count32 l.overwritten
  | 0x2C15 => count32 l.suppressed
  | 0x2C16 => count32 l.deferred
  | 0x2C17 => count32 l.merged
  | 0x2C18 => .num l.status
  | _ => .num 0

/-- A step word of a bank. -/
def Bank.step (b : Bank) (engine k : Nat) : DWord := (b.tables.getD engine {}).steps.getD k 0
/-- The step that STEP_SEL names, the register that LOCAL_SEL names. -/
def State.stepRead (s : State) : DWord :=
  let w := s.cfgN Obj.STEP_SEL
  (if w.testBit 20 then s.esc.bankB else s.esc.bankA).step (w / 2 ^ 16 % 16) (w % 1024)
def State.localValue (s : State) : Word :=
  let w := s.cfgN Obj.LOCAL_SEL
  (s.esc.engine (s.esc.phys (w / 256 % 16))).locals.getD (w % 256) 0

/-- Block 0x2D00 (R198). -/
def State.read2D (s : State) (i : Nat) : ObjVal :=
  let e := s.esc
  match i with
  | 0x2D04 => .num s.stepRead.toNat
  | 0x2D06 => .num (s.sigN (s.cfgN Obj.SIGNAL_SEL))
  | 0x2D08 => .num s.localValue.toNat
  | 0x2D10 => .num (b2n e.activeB)
  | 0x2D11 => .num (e.bankA.status (!e.activeB))
  | 0x2D12 => .num (e.bankB.status e.activeB)
  | 0x2D13 => .num e.bankA.id.toNat
  | 0x2D14 => .num e.bankB.id.toNat
  | 0x2D15 => count32 e.swapCount
  | 0x2D16 => count64 e.swapTick
  | 0x2D17 => u16 e.verifyFails
  | 0x2D18 => .num e.verifyFirst.toNat
  | 0x2D20 => count64 e.mapWord
  | 0x2D21 => .num e.failedWord
  | 0x2D22 => .num s.freeSlots.length
  | 0x2D23 => count32 e.migrateCount
  | 0x2D24 => count32 e.residueCount
  | 0x2D25 => count32 e.sigCount
  | 0x2D26 => count32 e.wbSat
  | 0x2D27 => count32 e.accSat
  | 0x2D28 => .num e.groups.length
  | 0x2D29 => count64 e.coefLast
  | 0x2D2A => .num e.status
  | _ => .num 0

/-- The value of a read-only object, by its block. -/
def State.readOnly (s : State) (i : Nat) : ObjVal :=
  match i / 256 with
  | 0x10 => s.read10 i
  | 0x20 => s.read20 i
  | 0x21 => s.read21 i
  | 0x22 => s.read22 i
  | 0x23 => s.read23 i
  | 0x24 => s.read24 i
  | 0x25 => s.read25 i
  | 0x26 => s.read26 i
  | 0x27 => s.read27 i
  | 0x28 => s.read28 i
  | 0x29 => s.read29 i
  | 0x2A => s.read2A i
  | 0x2B => s.read2B i
  | 0x2C => s.read2C i
  | 0x2D => s.read2D i
  | _ => .num 0

/-- What a read of an object gives (R18, R370): the value in effect; a write-only object reads as 0. -/
def State.objVal (s : State) (d : ObjDef) (i : Nat) : ObjVal :=
  match d.acc with
  | .rw => .num (if i = Obj.DCF_RECOVER then b2n s.fus.dcfRecovering else s.cfg i)
  | .wo => if d.ty = 13 then .str [] else .num 0
  | .ro => s.readOnly i

end Sys2Proof.Machine
end

