-- ==== Sys2Proof/Machine/Host.lean ====
section
/-!
DEFINITION. The host's side of the module: the register block (R356 to R361), what each command of the Asrov set does when its turn comes
(R185, R188, R195, R202, R210, R252, R269, R274, R309, R310, R368 to R374), and the pump that starts the commands of the mailboxes in turn (R363).
-/
namespace Sys2Proof.Machine

/-! ### Registers (R356, R359) -/

/-- A register lies in region 0x0200, which CORE serves (R356, R360). -/
def regCore (a : Nat) : Bool := decide (0x200 ≤ a) && decide (a < 0x300)

/-- The word of a register address; an address the table does not name reads as 0. -/
def State.regValue (s : State) (a : Nat) : Nat :=
  if 0x310 ≤ a ∧ a ≤ 0x32C then (s.mbox ((a - 0x310) / 4)).word
  else match a with
    | 0x000 => 0x4C474634
    | 0x004 => b2n Config.partT
    | 0x008 => Config.serial.toNat
    | 0x00C => Config.hwRev.toNat
    | 0x010 => s.host.supRunning.toNat
    | 0x014 => 1
    | 0x018 => s.host.supEpoch
    | 0x100 => s.moduleStatus
    | 0x104 => s.host.supEpoch
    | 0x200 => s.tick.now / 2 ^ 32
    | 0x204 => s.tick.now
    | 0x208 => s.escState
    | 0x20C => s.sigN 0x05A
    | 0x210 => bitsNat s.trips.latch
    | 0x400 => s.aonStatus
    | 0x404 => s.pwr.heldMs
    | 0x408 => s.host.accessErrAddr
    | 0x40C => s.pwr.uptimeTicks / 4000000
    | _ => 0
/-- A register of a domain that is off reads 0 (R361). -/
def State.regWord (s : State) (a : Nat) : Word := if regCore a && s.domainOff .core then 0 else BitVec.ofNat 32 (s.regValue a)

/-- The addresses of a read. -/
def regAddrs (a n : Nat) : List Nat := (List.range n).map fun i => a + 4 * i
/-- ADDR is a multiple of 4 and COUNT is 1 to 64. -/
def regReadOk (a n : Nat) : Bool := a % 4 = 0 && decide (1 ≤ n) && decide (n ≤ 64)

/-- A REG_READ: its words, all of one boundary; a read of AON_STATUS clears ACCESS_ERR; a word of a domain that is off is one access
error. -/
def State.regReadDo (s : State) (id : Word) (addr : Word) (n : Nat) : State :=
  let as := regAddrs addr.toNat n
  let s1 := s.emit (.regReadResp id addr (as.map s.regWord))
  let s2 := if as.contains 0x400 then { s1 with host := { s1.host with accessErr := false } } else s1
  match (if s.domainOff .core then as.find? regCore else none) with
  | some a => s2.accessErr 0 a
  | none => s2

/-- REG_READ in a session, or of the identity registers without one (R353, R356). -/
def State.regRead (s : State) (id : Word) (f : FrameNo) (addr : Word) (n : Nat) : State :=
  if id = 0 then
    if !s.serves then s
    else if 0xFF < addr.toNat + 4 * (n - 1) then { s with host := { s.host with rxBad := s.host.rxBad + 1 } }
    else if regReadOk addr.toNat n then (s.asked f.peer).regReadDo 0 addr n
    else (s.asked f.peer).emit (.error 0 stRange)
  else s.frame id f fun _ s => if regReadOk addr.toNat n then s.regReadDo id addr n else s.emit (.error id stRange)

/-- One mailbox at a DOORBELL write of its owner. -/
def Mailbox.doorbell (m : Mailbox) (id : Word) (ack flush : Bool) : Mailbox :=
  if m.owner = some id then { m with unacked := if ack then m.unacked.drop 1 else m.unacked, queue := if flush then [] else m.queue } else m

/-- DOORBELL (R359); an RO session may write ACK only (R355). -/
def State.doorbell (s : State) (x : Session) (v : Nat) : State :=
  if x.ro && v / 2 ^ 16 % 256 ≠ 0 then s.emit (.error x.id stAuth)
  else
    { s with host := { s.host with mbs := s.host.mbs.mapIdx fun n (m : Mailbox) => m.doorbell x.id (v.testBit n) (v.testBit (16 + n)) } }.emit
      (.regWriteResp x.id 0x300)

/-- REG_WRITE (R356): only DOORBELL can be written; any other address is acknowledged and ignored. -/
def State.regWrite (s : State) (id : Word) (f : FrameNo) (addr : Word) (v : Nat) : State :=
  s.frame id f fun x s =>
    if addr = 0x300 then s.doorbell x v
    else if x.ro then s.emit (.error id stAuth)
    else
      let s := s.emit (.regWriteResp id addr)
      if regCore addr.toNat && s.domainOff .core then s.accessErr 0 addr.toNat else s

/-! ### What closes a command while the module falls asleep (R388) -/

/-- The domain is one that the sleep entry in progress turns off. -/
def State.closing (s : State) (d : Domain) : Bool :=
  match s.pwr.entry with
  | some e => { s with pwr := { s.pwr with state := sleepOf e.target } }.domainOff d
  | none => false
/-- The coefficient queue and the scheduler are closed to new entries. -/
def State.coefClosed (s : State) : Bool := match s.pwr.entry with | some e => decide (1 < e.step) | none => false

/-! ### Objects (R370) -/

/-- What OBJ_READ carries for one index. -/
def State.readEntry (s : State) (i : Nat) : State × List Byte :=
  match objDef i with
  | none => (s, beBytes 2 i ++ [stBadObject, 0])
  | some d =>
    let ty : Byte := BitVec.ofNat 8 d.ty
    if s.domainOff (objDomain i) then (s.accessErr 1 i, beBytes 2 i ++ [stDomainOff, ty])
    else (s.clearRos i, beBytes 2 i ++ [stOk, ty] ++ valBytes d.ty (s.objVal d i))

/-- Bytes of parameters a message may carry (R362). -/
def paramBytes : Nat := 1016

/-- The entries that fit, in order; TRUNCATED when not all do. -/
def State.readAll (s : State) : List Nat → List Byte → State × Ans
  | [], bs => (s, Ans.ok bs)
  | i :: is, bs =>
    let (t, b) := s.readEntry i
    if bs.length + b.length ≤ paramBytes then t.readAll is (bs ++ b) else (s, { status := stTruncated, params := bs })

/-- OBJ_READ. -/
def State.startObjRead (s : State) (r : Reply) (is : List (BitVec 16)) : State :=
  if is.length < 1 || 64 < is.length then s.reply r (Ans.st stRange)
  else
    let (s, a) := s.readAll (is.map (·.toNat)) []
    s.reply r a

/-- An entry whose domain is off counts as an access (R361). -/
def State.entryRefused (s : State) (i : Nat) (a : Ans) : State := if a.status = stDomainOff then s.accessErr 1 i else s

/-- Queue a group. -/
def State.queueGroup (s : State) (r : Reply) (items : List Item) (isSet : Bool) (move : Option (Nat × Nat)) : State :=
  s.pushGroup { acc := s.tick.now, items := items, isSet := isSet, reply := some r, move := move }

/-- OBJ_WRITE (R18, R185, R186, R309, R370). -/
def State.startObjWrite (s : State) (r : Reply) (e : ObjEntry) : State :=
  let i := e.index.toNat
  let v := entryNum e
  match s.judgeWrite e with
  | some a => (s.entryRefused i a).reply r a
  | none =>
    if s.closing (objDomain i) then s.reply r (Ans.st stBusy)
    else if isSafetyObj i then (s.stage i v).reply r (Ans.ok (beBytes 8 0))
    else if pointOf i ≠ .nextTick then (s.addWaiting i v (pointOf i)).reply r (Ans.ok (beBytes 8 0))
    else match (if i = Obj.COEF_WRITE then s.coefJudge (BitVec.ofInt 64 v) else none) with
      | some a => s.reply r a
      | none =>
        let items := [if i = Obj.COEF_WRITE then coefItem (BitVec.ofInt 64 v) else entryItem e]
        if s.coefClosed || s.queueFull then s.reply r (Ans.st stBusy)
        else if (s.groupOver items).isSome then s.reply r (Ans.st stRange)
        else s.queueGroup r items false none

/-- The values of a set wait for their points. -/
def State.waitEntries (s : State) (es : List ObjEntry) : State :=
  es.foldl (fun s e => s.addWaiting e.index.toNat (entryNum e) (pointOf e.index.toNat)) s

/-- OBJ_WRITE_SET (R252, R370). A set of which every value waits for a point of its own is answered at once, as such a write is. -/
def State.startObjWriteSet (s : State) (r : Reply) (k : SchedKey) (es : List ObjEntry) : State :=
  if es.length < 1 || 64 < es.length then s.reply r (Ans.st stRange)
  else match s.keyJudge k with
    | some a => s.reply r a
    | none =>
      match s.judgeEntries es (keyNow k) with
      | some (n, a) => (s.entryRefused ((es[n]?.map fun e => e.index.toNat).getD 0) a).reply r { a with params := beBytes 2 n }
      | none =>
        if s.coefClosed || es.any fun e => s.closing (objDomain e.index.toNat) then s.reply r (Ans.st stBusy)
        else match s.groupOver (es.map entryItem) with
          | some n => s.reply r { status := stRange, params := beBytes 2 n }
          | none =>
            if !keyNow k then s.schedule k (.objWriteSet k es) (some r)
            else if es.all fun e => !atGroup e.index.toNat then (s.waitEntries es).reply r (Ans.ok (beBytes 8 0))
            else if s.queueFull then s.reply r (Ans.st stBusy)
            else s.queueGroup r (es.map entryItem) true none

/-! ### The escapement's commands (R188, R195, R371) -/

/-- The largest image (R371). -/
def imageMost : Nat := 139584

/-- Take a fragment into the transfer; the last one starts verification, and the command stays until TABLE_VERIFY_DONE. -/
def State.takeFragment (s : State) (r : Reply) (t : Transfer) (f : Fragment) : State :=
  let bytes := t.bytes ++ f.data
  if f.flags.getLsbD 1 then
    { s with esc := { s.esc with load := none, verify := some { image := bytes, conforms := f.conforms, reply := some r, before := s.esc.load } } }
  else { s with esc := { s.esc with load := some { t with bytes := bytes } } }.reply r (Ans.ok (beBytes 4 bytes.length))

/-- TABLE_LOAD. -/
def State.startTableLoad (s : State) (r : Reply) (f : Fragment) : State :=
  let mb := r.mb.val
  if 4 ≤ f.flags.toNat || f.data.length < 1 || 1008 < f.data.length then s.reply r (Ans.st stRange)
  else if f.flags.getLsbD 0 then
    if (match s.esc.load with | some t => decide (t.mb ≠ mb) | none => false) || s.esc.loadBusy then s.reply r (Ans.st stBusy)
    else if f.offset ≠ 0 then s.reply r (Ans.st stRange)
    else s.takeFragment r { id := f.transfer.toNat, mb := mb, length := imageMost, bytes := [] } f
  else match s.esc.load with
    | none => s.reply r (Ans.st stRange)
    | some t =>
      if t.mb ≠ mb || t.id ≠ f.transfer.toNat || f.offset ≠ t.bytes.length || imageMost < t.bytes.length + f.data.length then
        s.reply r (Ans.st stRange)
      else if f.flags.getLsbD 1 && s.esc.loadBusy then s.reply r (Ans.st stBusy)
      else s.takeFragment r t f

/-- TABLE_SWAP. -/
def State.startTableSwap (s : State) (r : Reply) (k : SchedKey) : State :=
  match s.keyJudge k with
  | some a => s.reply r a
  | none =>
    if s.coefClosed then s.reply r (Ans.st stBusy)
    else if !keyNow k then s.schedule k (.tableSwap k) (some r)
    else match s.swapJudge with
      | some a => s.reply r a
      | none => s.pendSwap s.nextTick (some r)

/-- Groups that were held apply together when nothing holds them any more (R193). -/
def State.releaseGroups (s : State) (held : List Group) : State :=
  let now := held.filter fun g => !s.groupHeld g && decide (g.acc + 2 ≤ s.nextTick)
  now.foldl (fun s g => { s with esc := { s.esc with groups := s.esc.groups.erase g } }.applyGroup g) s

/-- RETEST of a failed physical engine (R195): whether its self-test passes is a free value. -/
def State.retest (s : State) (r : Reply) (p : Nat) : State :=
  if 16 ≤ p || !(s.esc.engine p).failed then s.reply r (Ans.st stRange)
  else if !s.idleOrPr then s.reply r (Ans.st stState)
  else
    let pass := Config.selfTestPass s.free && !(s.esc.engine p).barred
    let s := s.fresh
    if pass then
      let held := s.esc.groups.filter s.groupHeld
      let n := s.esc.logicalOf p
      let s := s.retested p
      let s := if s.isLogical n then
          { s with esc := { s.esc with noSpare := s.esc.noSpare.filter (· ≠ n), waiting := s.esc.waiting.filter fun w => w.logical ≠ n } }
        else s
      (s.releaseGroups held).sparesSettled.reply r (Ans.ok [BitVec.ofNat 8 p])
    else (s.retestFailed p).reply r (Ans.ok [BitVec.ofNat 8 p])

/-- ENGINE_SPARE. -/
def State.startEngineSpare (s : State) (r : Reply) (mode engine : Nat) : State :=
  if mode = 1 then s.retest r engine
  else if mode ≠ 0 then s.reply r (Ans.st stRange)
  else match s.migrateJudge engine with
    | some a => s.reply r a
    | none => s.askMigration engine true (some r)

/-! ### The converter's commands (R30, R202, R210) -/

/-- The state that a response of CONV_STATE carries. -/
def State.convAns (s : State) (a : Ans) : Ans := { a with params := [BitVec.ofNat 8 (convCode s.conv.state)] }

/-- CONV_STATE. -/
def State.startConvState (s : State) (r : Reply) (k : SchedKey) (t : Nat) : State :=
  if 5 < t then s.reply r (s.convAns (Ans.st stRange))
  else match s.keyJudge k with
    | some a => s.reply r (s.convAns a)
    | none =>
      if keyNow k then s.convRequest { target := convOf t, reply := some r, sched := none }
      else if s.coefClosed then s.reply r (s.convAns (Ans.st stBusy))
      else s.schedule k (.convState k (BitVec.ofNat 8 t)) (some r)

/-- HANDS_TARGET. -/
def State.startHandsTarget (s : State) (r : Reply) (k : SchedKey) (axes options : Nat) (ts : List Int) : State :=
  match (s.keyJudge k).or (s.handsForm axes options ts) with
  | some a => s.reply r a
  | none =>
    if s.coefClosed then s.reply r (Ans.st stBusy)
    else if !keyNow k then s.schedule k (.handsTarget k (BitVec.ofNat 8 axes) (BitVec.ofNat 8 options) ts) (some r)
    else match s.handsHeld axes with
      | some a => s.reply r a
      | none =>
        if s.queueFull then s.reply r (Ans.st stBusy)
        else
          let x := s.handsItems axes options ts
          if (s.groupOver x.1).isSome then s.reply r (Ans.st stRange)
          else
            let (s, id) := s.handsBegin axes options
            s.queueGroup r x.1 false (some (id, x.2))

/-- A limit input that holds setting (R208). -/
def State.settingHeld (s : State) : Option Nat := (List.range 8).find? fun n => s.limHolds n 5

/-- What SETTING_START answers when it is refused (R210). -/
def State.settingJudge (s : State) : Option Ans :=
  let c := s.conv.state
  if c ≠ .ready && c ≠ .run then some (Ans.st stState)
  else if s.gt.state ≠ .locked then some (Ans.refuse rsGt)
  else if c = .ready && !s.cfgB Obj.PREALIGN then some (Ans.refuse rsPrealign)
  else match s.settingHeld with
    | some n => some (Ans.refuse (rsLim n))
    | none => if s.set.active || s.set.starting then some (Ans.refuse rsSetting) else none

/-- SETTING_START: setting becomes active at the next boundary. -/
def State.startSetting (s : State) (r : Reply) : State :=
  match s.settingJudge with
  | some a => s.reply r a
  | none => { s with set := { s.set with starting := true } }.reply r Ans.ok

/-! ### The chronograph and the log (R269, R271, R274, R280) -/

/-- The ARM_ID a master gives: its train address and a number of its own (R271). -/
def State.nextArmId (s : State) : Nat := s.train.addr * 2 ^ 24 + (s.chr.armSeq + 1) % 2 ^ 24

/-- ARM; during an entry the module counts as asleep (R395). -/
def State.chronoArm (s : State) (r : Reply) (rep train : Bool) : State :=
  if s.chr.state ≠ .idle || s.pwr.state ≠ .s0 || s.pwr.entry.isSome then s.reply r (Ans.st stState)
  else if !s.canArm then s.reply r (Ans.refuse rsChronoFull)
  else if train then
    let id := s.nextArmId
    let s := { s with chr := { s.chr with armSeq := s.chr.armSeq + 1 } }
    ((s.armChrono id rep true).sendMsg 4 (armPay id rep)).reply r (Ans.ok (beBytes 4 id))
  else (s.armChrono 0 rep false).reply r (Ans.ok (beBytes 4 0))

/-- DISARM; with TRAIN on the master it disarms the train. -/
def State.chronoDisarm (s : State) (r : Reply) (train : Bool) : State :=
  let id := s.chr.armId
  let s := if train && s.chr.master && s.chr.state ≠ .idle then s.sendMsg 5 (armPay id false) else s
  s.askDisarm.reply r (Ans.ok (beBytes 4 id))

/-- CHRONO_ARM. -/
def State.startChronoArm (s : State) (r : Reply) (o : Byte) : State :=
  if 16 ≤ o.toNat then s.reply r (Ans.st stRange)
  else if o.getLsbD 3 then
    if s.chr.state ≠ .armed then s.reply r (Ans.st stState)
    else { s with chr := { s.chr with force := true } }.reply r (Ans.ok (beBytes 4 s.chr.armId))
  else if o.getLsbD 0 then s.chronoArm r (o.getLsbD 1) (o.getLsbD 2)
  else s.chronoDisarm r (o.getLsbD 2)

/-- An entry of the directory of records. -/
def Record.entry (x : Record) : List Byte := beBytes 4 x.id ++ beBytes 2 x.flags ++ [1, 0] ++ beBytes 4 x.rows.length

/-- A part of a record. -/
def State.recordPart (s : State) (x : Record) (part : Nat) : List Byte :=
  match part with | 0 => x.raw | 1 => s.recordCfg x | _ => x.dat

/-- The piece of a part that a read gives. -/
def partAns (bytes : List Byte) (offset length : Nat) : Ans :=
  { status := if bytes.length < offset + length then stTruncated else stOk,
    params := beBytes 8 bytes.length ++ beBytes 8 offset ++ (bytes.drop offset).take length }

/-- CHRONO_READ. -/
def State.startChronoRead (s : State) (r : Reply) (id part options offset length : Nat) : State :=
  if 2 < part || 1 < options || 1000 < length || (id = 0 && options = 1) then s.reply r (Ans.st stRange)
  else if id = 0 then s.reply r (partAns (s.chr.records.flatMap Record.entry) offset length)
  else if (match s.chr.cur with | some x => decide (x.id = id) | none => false) && options = 1 then s.reply r (Ans.st stBusy)
  else match s.chr.records.find? fun x => x.id == id with
    | none => s.reply r (Ans.st stRange)
    | some x =>
      let a := partAns (s.recordPart x part) offset length
      (if options = 1 then s.releaseRecord id else s).reply r a

/-- The entries of a ring from a SEQ on. -/
def LogS.entriesFrom (l : LogS) (safety : Bool) (n most : Nat) : List LogEntry :=
  ((if safety then l.safety else l.general).filter fun e => decide (n ≤ e.seq)).take most

/-- A SEQ of the general ring from which an entry has been overwritten (R279). -/
def LogS.gone (l : LogS) (n : Nat) : Bool := l.overSeq.any fun o => decide (n ≤ o)

/-- LOG_READ. -/
def State.startLogRead (s : State) (r : Reply) (ring most from_ : Nat) : State :=
  if 1 < ring || most < 1 || 20 < most then s.reply r (Ans.st stRange)
  else
    let n := s.log.fullSeq from_
    let es := match n with | some n => s.log.entriesFrom (ring = 1) n most | none => []
    let next := match es.getLast? with | some e => e.seq + 1 | none => from_
    let st := if ring = 0 && n.any s.log.gone then stTruncated else stOk
    s.reply r { status := st, params := [BitVec.ofNat 8 es.length, 0, 0, 0] ++ beBytes 4 next ++ es.flatMap LogEntry.bytes }

/-! ### Firmware (R310, R372, R374) -/

/-- The transfer of a target: 0 supervisor, 1 kernel. -/
def HostLink.fw (h : HostLink) (kernel : Bool) : Option Transfer := if kernel then h.fwSk else h.fwSup
def HostLink.setFw (h : HostLink) (kernel : Bool) (t : Option Transfer) : HostLink := if kernel then { h with fwSk := t } else { h with fwSup := t }
/-- The longest image of a target: 8 MiB and 1 MiB. -/
def fwMost (kernel : Bool) : Nat := if kernel then 2 ^ 20 else 2 ^ 23
/-- The target whose transfer a mailbox holds, the last one begun first. -/
def HostLink.fwOf (h : HostLink) (mb : Nat) : Option (Bool × Transfer) :=
  let k : Bool := h.fwTarget = 1
  match h.fw k, h.fw (!k) with
  | some t, o => if t.mb = mb then some (k, t) else match o with | some u => if u.mb = mb then some (!k, u) else none | none => none
  | none, some u => if u.mb = mb then some (!k, u) else none
  | none, none => none
/-- The kernel accepts update commands inside an open safety session in PR only (R310). -/
def State.fwClosed (s : State) (kernel : Bool) : Bool := kernel && (!s.saf.session || s.conv.state ≠ .pr)

/-- FW_BEGIN. -/
def State.startFwBegin (s : State) (r : Reply) (target length : Nat) : State :=
  let k : Bool := target = 1
  if 1 < target then s.reply r (Ans.st stRange)
  else if s.fwClosed k then s.reply r (Ans.st stState)
  else if fwMost k < length then s.reply r (Ans.st stRange)
  else if (match s.host.fw k with | some t => decide (t.mb ≠ r.mb.val) | none => false) then s.reply r (Ans.st stBusy)
  else
    let t : Transfer := { id := 0, mb := r.mb.val, length := length, bytes := [] }
    { s with host := { s.host.setFw k (some t) with fwTarget := target } }.reply r Ans.ok

/-- FW_DATA. -/
def State.startFwData (s : State) (r : Reply) (offset : Nat) (data : List Byte) : State :=
  match s.host.fwOf r.mb.val with
  | none => s.reply r (Ans.st stState)
  | some (k, t) =>
    let n := t.bytes.length + data.length
    if s.fwClosed k then s.reply r (Ans.st stState)
    else if data.length < 1 || 1008 < data.length || offset ≠ t.bytes.length || t.length < n then s.reply r (Ans.st stRange)
    else { s with host := s.host.setFw k (some { t with bytes := t.bytes ++ data }) }.reply r (Ans.ok (beBytes 4 n))

/-- A verified image is staged in the target's inactive slot. -/
def HostLink.staged (h : HostLink) (kernel : Bool) (v : Word) : HostLink :=
  if kernel then { h with skStaged := some v } else { h with supInactive := v, supStaged := true, supFallback := none }

/-- FW_END: the transfer ends; the signature decides whether its image is staged. -/
def State.startFwEnd (s : State) (r : Reply) : State :=
  match s.host.fwOf r.mb.val with
  | none => s.reply r (Ans.st stState)
  | some (k, t) =>
    if s.fwClosed k then s.reply r (Ans.st stState)
    else if t.bytes.length ≠ t.length then s.reply r (Ans.st stRange)
    else
      let h := s.host.setFw k none
      if t.length < 104 || !Config.signatureValid k t.bytes then { s with host := h }.reply r (Ans.st stAuth)
      else
        let v := Config.imageVersion t.bytes
        ({ s with host := h.staged k v }.post 0x1F06 (b2n k) (beBytes 4 v.toNat)).reply r (Ans.ok (beBytes 4 v.toNat))

/-- The supervisor starts from the staged slot; the slot it ran from is kept for a fall-back. -/
def HostLink.activated (h : HostLink) : HostLink :=
  { h with supRunning := h.supInactive, supInactive := h.supRunning, supFallback := some h.supRunning, wdRuns := 0, newSince := none, starting := true }

/-- FW_ACTIVATE: answered OK before the start it causes. -/
def State.startFwActivate (s : State) (r : Reply) (target : Nat) : State :=
  if 1 < target then s.reply r (Ans.st stRange)
  else if target = 1 then
    match s.host.skStaged with
    | none => s.reply r (Ans.st stState)
    | some v =>
      if s.fwClosed true then s.reply r (Ans.st stState)
      else
        let s := s.reply r Ans.ok
        { s with host := { s.host with skRunning := v, skStaged := none }, saf := s.saf.start }.post 0x2911 noInst (beBytes 4 v.toNat)
  else if !s.host.supStaged then s.reply r (Ans.st stState)
  else
    let s := s.reply r Ans.ok
    { s with host := s.host.activated }

/-- SUP_START: what a start of the supervisor does, and FW_ACTIVATED when it starts a new image (R373, R374). -/
def State.supStarted (s : State) : State :=
  let new := s.host.supStaged && s.host.supFallback.isSome
  let s := s.supStart
  if new then { s with host := { s.host with supStaged := false, newSince := some s.pwr.uptimeTicks } }.post 0x1F07 0 (beBytes 4 s.host.supRunning.toNat) else s

/-- A new image has started within the last 60 s (R374). -/
def State.newImage (s : State) : Bool := s.host.newSince.any fun t => decide (s.pwr.uptimeTicks ≤ t + 240000000)

/-- SUP_WATCHDOG_EXPIRY (R345): the supervisor restarts. -/
def State.supWatchdog (s : State) : State :=
  if s.serves then
    { s with host := { s.host with
      supRestarts := s.host.supRestarts + 1, wdRuns := s.host.wdRuns + b2n s.newImage, starting := true } }.post 0x2A30 noInst []
  else s

/-- FW_FALLBACK (R374): a new image does not start, or its watchdog has expired three times, and the previous slot starts. -/
def State.fwFallback (s : State) : State :=
  match s.host.supFallback with
  | none => s
  | some v =>
    if (s.host.starting && s.host.supStaged) || 3 ≤ s.host.wdRuns then
      let failed := s.host.supRunning
      { s with host := { s.host with
          supRunning := v, supInactive := failed, supFallback := none, supStaged := false, wdRuns := 0, newSince := none, starting := true } }.post 0x1F08 noInst
        (beBytes 4 failed.toNat ++ beBytes 4 v.toNat)
    else s

/-! ### SAFETY_SESSION (R309) -/

/-- The three sub-functions. -/
def State.startSession (s : State) (r : Reply) (sub : Nat) (crc : Word) : State :=
  if sub ≠ 2 && crc ≠ 0 then s.reply r (Ans.st stRange)
  else match sub with
    | 1 => s.sessionOpen.1.reply r s.sessionOpen.2
    | 2 => (s.sessionCommit crc).1.reply r (s.sessionCommit crc).2
    | 3 => s.sessionClose.1.reply r s.sessionClose.2
    | _ => s.reply r (Ans.st stRange)

/-! ### A command's turn (R361, R363) -/

/-- The domain of a command (R360). CONV_STATE PR reaches the always-on part of the converter in every power state (R398). -/
def cmdDomain : HostCmd → Domain
  | .tableLoad _ => .core
  | .tableSwap _ => .core
  | .engineSpare _ _ => .core
  | .convState _ t => if t = 5 then .sup else .core
  | .handsTarget _ _ _ _ => .core
  | .settingStart => .core
  | .chronoArm _ => .recd
  | .chronoRead _ _ _ _ _ => .recd
  | _ => .sup

/-- What a command does when it starts in its domain. -/
def State.perform (s : State) (r : Reply) (c : HostCmd) : State :=
  match c with
  | .objRead is => s.startObjRead r is
  | .objWrite e => s.startObjWrite r e
  | .objWriteSet k es => s.startObjWriteSet r k es
  | .tableLoad f => s.startTableLoad r f
  | .tableSwap k => s.startTableSwap r k
  | .engineSpare mode e => s.startEngineSpare r mode.toNat e.toNat
  | .convState k t => s.startConvState r k t.toNat
  | .handsTarget k ax op ts => s.startHandsTarget r k ax.toNat op.toNat ts
  | .settingStart => s.startSetting r
  | .chronoArm o => s.startChronoArm r o
  | .chronoRead id part op off len => s.startChronoRead r id part.toNat op.toNat off len
  | .logRead ring most from_ => s.startLogRead r ring.toNat most.toNat from_.toNat
  | .pstateReq st lv f => s.pstateReq r st.toNat lv.toNat f
  | .fwBegin t n => s.startFwBegin r t.toNat n
  | .fwData off d => s.startFwData r off d
  | .fwEnd => s.startFwEnd r
  | .fwActivate t => s.startFwActivate r t.toNat
  | .safetySession sub crc => s.startSession r sub.toNat crc
  | .bad st => s.reply r (Ans.st st)

/-- A command starts: DOMAIN_OFF and BUSY by its domain first. -/
def State.startCmd (s : State) (r : Reply) (c : HostCmd) : State :=
  if s.domainOff (cmdDomain c) then (s.accessErr 2 r.opcode.toNat).reply r (Ans.st stDomainOff)
  else if s.closing (cmdDomain c) then s.reply r (Ans.st stBusy)
  else s.perform r c

/-- A mailbox that executes nothing starts its next command. -/
def State.startNext (s : State) (n : Nat) : State :=
  match (s.mbox n).running, (s.mbox n).queue with
  | none, (r, c) :: rest => (s.setMbox n fun m => { m with running := some (r, c), queue := rest }).startCmd r c
  | _, _ => s

/-- One turn: one start per mailbox, while the supervisor serves. -/
def State.turn (s : State) : State := if s.serves then (List.range 8).foldl State.startNext s else s

/-- Turns until the queues, of at most four commands each, wait for nothing but what they execute; then release what may be. -/
def State.pump (s : State) : State := s.turn.turn.turn.turn.releaseMbs

/-! ### Responses that wait (R364, R365) -/

/-- The owner of a mailbox whose session is open. -/
def State.ownerOf (s : State) (n : Nat) : Option Word := match (s.mbox n).owner with | some o => if s.isOpen o then some o else none | none => none

/-- MB_RESP_RETRANSMIT: an unacknowledged response is sent again, 100 ms after it was sent last. -/
def State.resend (s : State) (x : UnackedAt) : State :=
  match (s.mbox x.mb.val).unacked[x.k]?, s.ownerOf x.mb.val with
  | some r, some id => s.emit (.mbResp id x.mb r true)
  | _, _ => s

/-- MB_RESP_DISCARD. -/
def State.discardResp (s : State) (mb : Nat) : State :=
  match (s.mbox mb).unacked with
  | r :: rs =>
    { s.setMbox mb (fun m => { m with unacked := rs }) with
      host := { (s.setMbox mb (fun m => { m with unacked := rs })).host with discards := s.host.discards + 1 } }.post 0x1F04 mb
      (beBytes 2 r.opcode.toNat ++ beBytes 2 r.tag.toNat)
  | [] => s

/-- MB_CMD_BOUND: a command that waits for a shared resource is answered BUSY and leaves nothing behind; a transfer expects its last fragment
again. -/
def State.cmdBound (s : State) (mb : Nat) : State :=
  match (s.mbox mb).running with
  | some (r, .tableLoad _) =>
    let load := match s.esc.verify with | some v => v.before | none => s.esc.load
    { s with esc := { s.esc with load := load, verify := none } }.reply r (Ans.st stBusy)
  | some (r, .pstateReq _ _ _) =>
    match s.pwr.entry with
    | some e => if e.reply = r then s.entryBound e else s
    | none => s
  | _ => s

end Sys2Proof.Machine
end

