-- ==== Sys2Proof/WellFormed.lean ====
section
/-!
DEFINITION. Which commands have the shape their wire formats and pins give: list lengths only, since every other operand
has a type of its own range. A meaning answers with a fault where this check fails.
-/
namespace Sys2Proof

/-- Number of analogue inputs AI00 to AI23 (R219). -/
def aiCount : Nat := 24
/-- Fast samples of one input in one tick (R220). -/
def samplesPerTick : Nat := 5
/-- Payload bytes of a safety frame (R304). -/
def safetyBytes : Nat := 46
/-- Bytes of a nonce and of a message authentication code (R354). -/
def nonceBytes : Nat := 16
def macBytes : Nat := 32
/-- Bytes of a PTP port identity. -/
def portIdBytes : Nat := 10

/-- 24 inputs of 5 samples each (R220). -/
def TickInputs.wf (x : TickInputs) : Bool := x.samples.length = aiCount && x.samples.all fun l => l.length = samplesPerTick

/-- The command has the shape of its row. -/
def Instr.wf : Instr → Bool
  | .tickEdge x => x.wf
  | .windowResult ovl ai => ovl.length = aiCount && ai.length = aiCount
  | .sfFrameRx _ p _ => p.length = safetyBytes
  | .hello n _ => n.nh.length = nonceBytes
  | .prove _ m _ => m.length = macBytes
  | .ptpPdelayReqRx _ r _ => r.length = portIdBytes
  | _ => true

end Sys2Proof
end

