-- ==== Sys2Proof/Machine/Run.lean ====
section
/-!
DEFINITION. How a command answers (log entries 2 and 4): it empties the outboxes, has its effect, and ends with what every step of the module
ends with. In reset nothing but the rows of reset and of the feeds acts (R382).
-/
namespace Sys2Proof.Machine

/-- Empty the outboxes: what a step leaves in them is what that step sends. -/
def State.clearOut (s : State) : State := { s with host := s.host.outGone, time := { s.time with out := [] } }

/-- The state an effect leaves, unless the module is held in reset. -/
def State.unlessReset (s : State) (f : State → State) : State := if s.pwr.inReset then s.clearOut else f s.clearOut

/-- A command after which demands are noted (R287, R293). -/
def runSafe (ok : Bool) (s : State) (f : State → State) : Host.Outcome State Fault Refusal :=
  guarded ok (s.unlessReset fun t => (f t).settle t.ticking)

/-- A command of the host: the mailboxes take their turns. -/
def runHost (ok : Bool) (s : State) (f : State → State) : Host.Outcome State Fault Refusal :=
  guarded ok (s.unlessReset fun t => (f t).pump.settle t.ticking)

/-- A command that acts in reset too. -/
def runAlways (ok : Bool) (s : State) (f : State → State) : Host.Outcome State Fault Refusal :=
  let t := f s.clearOut
  guarded ok (if t.pwr.inReset then t else t.settle s.ticking)

/-- A row of a fixed unit that works by the tick: it acts while the tick runs and its condition holds (log entry 2). -/
def State.whenDue (s : State) (due : Bool) (f : State → State) : State := if s.ticking && due then f s else s

/-- A rate-limit window ends, and the values that wait for the next one take effect (R281, R283). -/
def State.logWindowEnd (s : State) : State := s.logWindow.applyWaiting .logWindow
/-- A start of a window lies among the ticks not run (R242) between tick `from_` and the present one: the window before it has ended. -/
def State.logGap (s : State) (from_ : Nat) : State :=
  if from_ + 1 < s.tick.now && from_ / s.logLen < (s.tick.now - 1) / s.logLen then s.logWindowEnd else s

/-- When an integrating window has started, the values that wait for one take effect, the reference among them (R18, R230). -/
def State.windowStarts (before s : State) : State :=
  if s.meas.winOpen && !(before.meas.winOpen && before.meas.winStart = s.meas.winStart) then
    let t := (s.applyWaiting .window).takeReference
    { t with meas := { t.meas with winRefUns := !t.meas.refSettled } }
  else s

end Sys2Proof.Machine
end

