-- ==== Sys2Proof/Machine/ControlRows.lean ====
section
/-!
DEFINITION. The rows of the converter's control (R29 to R133, R207 to R213): precharge, fault ride-through, DC fault, energisation, the grid
angle tracker, cells, setting, limit inputs and trip inputs.
-/
namespace Sys2Proof.Machine

/-! ### Fault ride-through, DC fault, energisation (R72, R74, R78, R79) -/

/-- FRT begins in the next tick. -/
def State.frtBegin (s : State) : State :=
  { s with fus := { s.fus with frt := true, frtCount := s.fus.frtCount + 1, frtStart := s.nextTick, frtHigh := 0 } }.postAt s.nextTick 0x2102
    noInst []
/-- FRT ends, with its duration in ticks. -/
def State.frtEnd (s : State) : State :=
  { s with fus := { s.fus with frt := false, frtLow := 0 } }.postAt s.nextTick 0x2103 noInst (beBytes 8 (s.nextTick - s.fus.frtStart))
/-- The DC-fault detector is armed again. -/
def State.dcfRearm (s : State) : State := { s with fus := { s.fus with dcfArmed := true, dcfLow := 0 } }
/-- The DC-voltage recovery ramp is complete. -/
def State.dcfEnd (s : State) : State := { s with fus := { s.fus with dcfActive := false, dcfRecovering := false } }.post 0x2107 noInst []
/-- The energisation ramp is complete at the coming edge: the voltage loop's correction is released, its integrator at 0. -/
def State.enrgEnd (s : State) : State := { s with fus := { s.fus with enrgRamp := false } }.postAt s.nextTick 0x2108 noInst []

def execPrechargeComplete (s : State) : Host.Outcome State Fault Refusal := runSafe true s State.prechargeDone
def execFrtStart (s : State) : Host.Outcome State Fault Refusal := runSafe true s fun s => s.whenDue s.frtStartDue State.frtBegin
def execFrtEnd (s : State) : Host.Outcome State Fault Refusal := runSafe true s fun s => s.whenDue s.frtEndDue State.frtEnd
def execDcfDetect (s : State) : Host.Outcome State Fault Refusal := runSafe true s fun s => s.whenDue s.dcfDue State.dcfDetect
def execDcfRearm (s : State) : Host.Outcome State Fault Refusal := runSafe true s fun s => s.whenDue s.dcfRearmDue State.dcfRearm
def execDcfEnd (s : State) : Host.Outcome State Fault Refusal := runSafe true s fun s => s.whenDue s.dcfEndDue State.dcfEnd
def execEnrgEnd (s : State) : Host.Outcome State Fault Refusal := runSafe true s fun s => s.whenDue s.enrgEndDue State.enrgEnd

/-! ### The grid angle tracker (R52, R53) -/

/-- The tracker enters COASTING; from LOCKED it withdraws the close permit and ends setting (R54, R213). -/
def State.gtCoast (s : State) : State :=
  let was := s.gt.state
  let s := { s with gt := { s.gt with state := .coasting, frozen := s.gt.meanAtFall, coasted := true, absentTicks := 0, qualTicks := 0 } }.post
    0x2003 noInst []
  if was = .locked then s.permitLost.setAbort 3 else s
/-- The tracker enters ACQUIRING from COASTING. -/
def State.gtAcquire (s : State) : State := { s with gt := { s.gt with state := .acquiring, absentTicks := 0, qualTicks := 0 } }
/-- The magnitude has returned in COASTING. -/
def State.acquireDue (s : State) : Bool := s.gt.state = .coasting && s.gridBack

def execGtCoastStart (s : State) : Host.Outcome State Fault Refusal := runSafe true s fun s => s.whenDue s.coastDue State.gtCoast
def execGtAcquireStart (s : State) : Host.Outcome State Fault Refusal := runSafe true s fun s => s.whenDue s.acquireDue State.gtAcquire
def execGtReacquired (fit : FitRounding) (s : State) : Host.Outcome State Fault Refusal :=
  runSafe true s fun s => s.whenDue true fun s => s.reacquire fit

/-! ### Cells (R99, R100) -/

/-- A cell that has become stale leaves the ranking and is counted once. -/
def State.cellStale (s : State) (c : Nat) : State :=
  if s.cellInUse c && s.stale c && !(s.cell c).staleSeen then
    let s := s.setCell c fun (x : Cell) => { x with staleSeen := true }
    { s with arms := { s.arms.drop c with staleEvents := s.arms.staleEvents + 1 } }
  else s
/-- A cell has been stale for CELL_FAIL_TIME: STALE_TICKS + CELL_FAIL_TIME since its last report; 0 means never. -/
def State.cellLostDue (s : State) (c : Nat) : Bool :=
  s.cfg Obj.CELL_FAIL_TIME ≠ 0 && s.cellInUse c && (s.cell c).retired.isNone && s.stale c &&
    (match (s.cell c).age with | some a => decide (s.cfgN Obj.STALE_TICKS + s.cfgN Obj.CELL_FAIL_TIME ≤ a) | none => false)

/-- A cell's number: lane × 64 + index. -/
def cellNumber (l : LaneId) (i : CellIx) : Nat := l.val * 64 + i.val

def execCellStale (lane : LaneId) (cell : CellIx) (s : State) : Host.Outcome State Fault Refusal :=
  runSafe true s fun s => s.whenDue true fun s => s.cellStale (cellNumber lane cell)
def execCellLost (lane : LaneId) (cell : CellIx) (s : State) : Host.Outcome State Fault Refusal :=
  runSafe true s fun s => s.whenDue (s.cellLostDue (cellNumber lane cell)) fun s => s.retire (cellNumber lane cell) .lost

/-! ### Setting (R211, R213) -/

/-- The close permit is given. -/
def State.permitGiven (s : State) : State := { s with set := { s.set with permit := true, everPermit := true } }.post 0x2507 noInst []

def execSetPermit (s : State) : Host.Outcome State Fault Refusal := runSafe true s fun s => s.whenDue s.permitDue State.permitGiven
def execSetTimeout (s : State) : Host.Outcome State Fault Refusal := runSafe true s fun s => s.whenDue s.setTimeoutDue fun s => s.setAbort 2

/-! ### Limit inputs (R207 to R209, R213) -/

/-- The changes of an input that an interval of LIM_CHAT_W ending now contains. -/
def State.recentChanges (s : State) (n : Nat) : List Nat :=
  (s.lim.changes.getD n []).filter fun t => decide (s.tick.now ≤ t + 4000 * s.cfgN Obj.LIM_CHAT_W)

/-- Input `n` acts on setting: an active or chatter-latched input with bit 5 of its LIM_AXES ends it. -/
def State.limOnSetting (s : State) (n : Nat) : State := if s.limOnAxis n 5 then s.setAbort (0x10 + n) else s

/-- A filtered change of a limit input. -/
def State.limChanged (s : State) (n : Nat) (active : Bool) : State :=
  let l := s.lim
  let recent := s.tick.now :: s.recentChanges n
  let most := s.cfgN Obj.LIM_CHAT_N
  let s := { s with lim := { l with
    filtered := setFlag l.filtered n active, quiet := setFlag l.quiet n (!active && s.cfg (Obj.LIM_QUIET + n) ≠ 0)
    changes := l.changes.set n recent, changeCount := l.changeCount + 1 } }
  let s := s.post (if active then 0x2503 else 0x2504) n []
  let s := if most ≠ 0 && most < recent.length && !flag l.chatter n then
      { s with lim := { s.lim with chatter := setFlag s.lim.chatter n true } }.post 0x2505 n []
    else s
  (s.limOnSetting n).noteWake (.lim (Fin.ofNat 8 n))

/-- LIM_EDGE: a run of samples of a level, after LIM_POL. -/
def State.limEdge (s : State) (n : Nat) (level : Bool) (samples : Nat) : State :=
  let active := level != (s.cfgN Obj.LIM_POL).testBit n
  if active = flag s.lim.filtered n || samples < max 1 (s.cfgN (Obj.LIM_FILT + n)) then s else s.limChanged n active

/-- The quiet time of an input has passed since its last filtered change. -/
def State.quietDue (s : State) (n : Nat) : Bool :=
  flag s.lim.quiet n && !flag s.lim.filtered n &&
    decide ((s.lim.changes.getD n []).headD 0 + 4000 * s.cfgN (Obj.LIM_QUIET + n) ≤ s.tick.now)

def execLimEdge (n : Fin 8) (level : Bool) (run : Nat) (s : State) : Host.Outcome State Fault Refusal :=
  runSafe true s fun s => s.whenDue true fun s => s.limEdge n.val level run
def execLimQuietExpired (n : Fin 8) (s : State) : Host.Outcome State Fault Refusal :=
  runSafe true s fun s => s.whenDue (s.quietDue n.val) fun s => { s with lim := { s.lim with quiet := setFlag s.lim.quiet n.val false } }

/-! ### Trip inputs (R123 to R126, R389) -/

/-- An active pin that has latched is a wake event. -/
def State.tripWake (s : State) (n : Nat) (t : State) : State :=
  if !flag s.trips.filtered n && flag t.trips.filtered n && flag t.trips.pin n then t.noteWake .trip else t

def execTripEdge (n : TripIn) (pin : Bool) (run : TripRun) (s : State) : Host.Outcome State Fault Refusal :=
  runSafe true s fun s => s.tripWake n.val (s.tripEdge n.val pin run.samples run.same)
def execTripInactiveEdge (n : TripIn) (pin : Bool) (run : Nat) (s : State) : Host.Outcome State Fault Refusal :=
  runSafe true s fun s => s.tripInactive n.val pin run

end Sys2Proof.Machine
end

