-- ==== Sys2Proof/Machine/EscapementRows.lean ====
section
/-!
DEFINITION. The rows of the escapement, the scheduler, the chronograph and the log (R176, R185 to R194, R252 to R256, R267, R281).
-/
namespace Sys2Proof.Machine

def execEngineResidueError (phys : EngineId) (step : ResidueStep) (s : State) : Host.Outcome State Fault Refusal :=
  runSafe true s fun s => s.residueError phys.val step
def execEngineSignatureError (phys : EngineId) (s : State) : Host.Outcome State Fault Refusal := runSafe true s fun s => s.signatureError phys.val
def execMigrateEnd (s : State) : Host.Outcome State Fault Refusal := runSafe true s State.migrateEnd
def execSpareFault (phys : EngineId) (s : State) : Host.Outcome State Fault Refusal := runSafe true s fun s => s.spareFault phys.val
def execCoefGroupApply (s : State) : Host.Outcome State Fault Refusal := runSafe true s State.groupStep
def execTableSwapApply (s : State) : Host.Outcome State Fault Refusal := runSafe true s State.swapStep
def execTableVerifyDone (s : State) : Host.Outcome State Fault Refusal := runSafe true s State.verifyDone
def execSchedActionDue (s : State) : Host.Outcome State Fault Refusal := runSafe true s State.schedDue
def execChrRecordDone (s : State) : Host.Outcome State Fault Refusal := runSafe true s State.recordDone
def execChrHoldoffExpired (s : State) : Host.Outcome State Fault Refusal := runSafe true s State.holdoffExpired

def execLogWindowEnd (s : State) : Host.Outcome State Fault Refusal := runSafe true s fun s => s.whenDue s.logWindowDue State.logWindowEnd

end Sys2Proof.Machine
end

