-- ==== Sys2Proof/Machine/HostRows.lean ====
section
/-!
DEFINITION. The rows of the host link and of the mailboxes (R353 to R366), and one row for each command of the Asrov set (R368).
-/
namespace Sys2Proof.Machine

/-! ### Sessions (R353 to R355) -/

def execHello (nonce : HelloFrame) (slot : Byte) (s : State) : Host.Outcome State Fault Refusal :=
  runHost (Instr.wf (.hello nonce slot)) s fun s => if s.serves then s.hello nonce slot else s
def execProve (session : Word) (mac : List Byte) (srcIp : Peer) (s : State) : Host.Outcome State Fault Refusal :=
  runHost (Instr.wf (.prove session mac srcIp)) s fun s => if s.serves then s.prove session mac srcIp else s
def execProveTimeout (session : Word) (s : State) : Host.Outcome State Fault Refusal :=
  runHost true s fun s => if s.serves then s.dropPending session else s
/-- The session has been idle for HL_SESSION_TIMEOUT. -/
def State.sessionIdle (s : State) (id : Word) (idleS : Nat) : State :=
  if s.serves && s.cfgN Obj.HL_SESSION_TIMEOUT ≤ idleS then s.closeSession id 1 else s
def execHlSessionTimeout (session : Word) (idleS : Nat) (s : State) : Host.Outcome State Fault Refusal :=
  runHost true s fun s => s.sessionIdle session idleS
def execHlClose (session : Word) (seq : FrameNo) (s : State) : Host.Outcome State Fault Refusal :=
  runHost true s fun s => s.frame session seq fun _ s => s.closeSession session 0
def execHlRxBadFrame (_session : Word) (why : BadFrame) (_srcIp : Word) (s : State) : Host.Outcome State Fault Refusal :=
  runHost true s fun s => if s.serves then s.badFrame why else s

/-! ### Registers and mailboxes (R356, R359, R364, R365) -/

def execRegRead (session : Word) (seq : FrameNo) (addr : Word) (count : Nat) (s : State) : Host.Outcome State Fault Refusal :=
  runHost true s fun s => s.regRead session seq addr count
def execRegWriteOther (session : Word) (seq : FrameNo) (addr value : Word) (s : State) : Host.Outcome State Fault Refusal :=
  runHost true s fun s => s.regWrite session seq addr value.toNat
def execDoorbellAck (session : Word) (seq : FrameNo) (bits : Byte) (s : State) : Host.Outcome State Fault Refusal :=
  runHost true s fun s => s.regWrite session seq 0x300 bits.toNat
def execDoorbellFlush (session : Word) (seq : FrameNo) (bits : Byte) (s : State) : Host.Outcome State Fault Refusal :=
  runHost true s fun s => s.regWrite session seq 0x300 (bits.toNat * 2 ^ 16)
def execMbRespRetransmit (mb : UnackedAt) (s : State) : Host.Outcome State Fault Refusal :=
  runHost true s fun s => if s.serves then s.resend mb else s
def execMbRespDiscard (mb : Fin 8) (s : State) : Host.Outcome State Fault Refusal :=
  runHost true s fun s => if s.serves then s.discardResp mb.val else s
def execMbCmdBound (mb : Fin 8) (s : State) : Host.Outcome State Fault Refusal := runHost true s fun s => s.cmdBound mb.val

/-! ### The command set (R368) -/

/-- A command arrives in a mailbox; `ro` says that an RO session may send it. -/
def hostMsg (s : State) (m : Msg) (opcode : BitVec 16) (ro : Bool) (c : HostCmd) : Host.Outcome State Fault Refusal :=
  runHost true s fun s => s.acceptMsg m opcode ro c

def execObjRead (m : Msg) (indices : List (BitVec 16)) (s : State) : Host.Outcome State Fault Refusal :=
  hostMsg s m 0x0101 true (.objRead indices)
def execObjWrite (m : Msg) (e : ObjEntry) (s : State) : Host.Outcome State Fault Refusal := hostMsg s m 0x0102 false (.objWrite e)
def execObjWriteSet (m : Msg) (key : SchedKey) (es : List ObjEntry) (s : State) : Host.Outcome State Fault Refusal :=
  hostMsg s m 0x0103 false (.objWriteSet key es)
def execTableLoad (m : Msg) (f : Fragment) (s : State) : Host.Outcome State Fault Refusal := hostMsg s m 0x0201 false (.tableLoad f)
/-- A transfer without a fragment for 10 s is abandoned (R371). -/
def execTableLoadAbandon (s : State) : Host.Outcome State Fault Refusal := runHost true s fun s => { s with esc := { s.esc with load := none } }
def execTableSwap (m : Msg) (key : SchedKey) (s : State) : Host.Outcome State Fault Refusal := hostMsg s m 0x0202 false (.tableSwap key)
def execEngineSpareMigrate (m : Msg) (engine : Byte) (s : State) : Host.Outcome State Fault Refusal :=
  hostMsg s m 0x0203 false (.engineSpare 0 engine)
def execEngineSpareRetest (m : Msg) (engine : Byte) (s : State) : Host.Outcome State Fault Refusal :=
  hostMsg s m 0x0203 false (.engineSpare 1 engine)
def execConvState (m : Msg) (key : SchedKey) (target : Byte) (s : State) : Host.Outcome State Fault Refusal :=
  hostMsg s m 0x0301 false (.convState key target)
def execHandsTarget (m : Msg) (key : SchedKey) (axes options : Byte) (targets : List Int) (s : State) : Host.Outcome State Fault Refusal :=
  hostMsg s m 0x0401 false (.handsTarget key axes options targets)
def execSettingStart (m : Msg) (s : State) : Host.Outcome State Fault Refusal := hostMsg s m 0x0402 false .settingStart
/-- The option byte of CHRONO_ARM (R269): ARM, REPEAT, TRAIN, FORCE. -/
def armOptions (arm rep train force : Bool) : Byte := BitVec.ofNat 8 (bitsNat [arm, rep, train, force])
def execChronoArm (m : Msg) (repeatOpt trainOpt : Bool) (s : State) : Host.Outcome State Fault Refusal :=
  hostMsg s m 0x0501 false (.chronoArm (armOptions true repeatOpt trainOpt false))
def execChronoDisarm (m : Msg) (trainOpt : Bool) (s : State) : Host.Outcome State Fault Refusal :=
  hostMsg s m 0x0501 false (.chronoArm (armOptions false false trainOpt false))
def execChronoForce (m : Msg) (s : State) : Host.Outcome State Fault Refusal :=
  hostMsg s m 0x0501 false (.chronoArm (armOptions false false false true))
def execChronoRead (m : Msg) (recordId : Nat) (part options : Byte) (offset length : Nat) (s : State) : Host.Outcome State Fault Refusal :=
  hostMsg s m 0x0502 (!options.getLsbD 0) (.chronoRead recordId part options offset length)
def execLogRead (m : Msg) (ring max : Byte) (fromSeq : Word) (s : State) : Host.Outcome State Fault Refusal :=
  hostMsg s m 0x0601 true (.logRead ring max fromSeq)
def execFwBegin (m : Msg) (target : Byte) (length : Nat) (s : State) : Host.Outcome State Fault Refusal :=
  hostMsg s m 0x0801 false (.fwBegin target length)
def execFwData (m : Msg) (offset : Nat) (data : List Byte) (s : State) : Host.Outcome State Fault Refusal :=
  hostMsg s m 0x0802 false (.fwData offset data)
def execFwEnd (m : Msg) (s : State) : Host.Outcome State Fault Refusal := hostMsg s m 0x0803 false .fwEnd
def execFwActivate (m : Msg) (target : Byte) (s : State) : Host.Outcome State Fault Refusal := hostMsg s m 0x0804 false (.fwActivate target)
def execSafetySessionOpen (m : Msg) (s : State) : Host.Outcome State Fault Refusal := hostMsg s m 0x0901 false (.safetySession 1 0)
def execSafetySessionCommit (m : Msg) (crc : Word) (s : State) : Host.Outcome State Fault Refusal :=
  hostMsg s m 0x0901 false (.safetySession 2 crc)
def execSafetySessionClose (m : Msg) (s : State) : Host.Outcome State Fault Refusal := hostMsg s m 0x0901 false (.safetySession 3 0)
/-- An opcode the table does not hold is answered BAD_OPCODE whatever the session's key (R366). -/
def execMbMsgBadOpcode (m : Msg) (opcode : BitVec 16) (s : State) : Host.Outcome State Fault Refusal :=
  hostMsg s m opcode true (.bad stBadOpcode)

end Sys2Proof.Machine
end

