-- ==== Sys2Proof/Machine/MeasureRows.lean ====
section
/-!
DEFINITION. The rows of measurement and of the lanes (R142 to R157, R225 to R236, R379).
-/
namespace Sys2Proof.Machine

/-! ### Windows (R225, R226, R232) -/

/-- θw passes WIN_ANCHOR in this tick, once. -/
def State.boundaryDue (s : State) : Bool :=
  s.integRuns && s.anchorPassed && (s.meas.lastBound = 0 || decide (s.meas.lastBound < (s.tick.now - 1) * tickUnits))

def execWindowBoundary (up : Bool) (s : State) : Host.Outcome State Fault Refusal :=
  runSafe true s fun s => s.whenDue s.boundaryDue fun s => s.windowStarts (s.boundary up)
def execWindowResult (ovl : List Bool) (ai : List AiWindow) (s : State) : Host.Outcome State Fault Refusal :=
  runSafe (Instr.wf (.windowResult ovl ai)) s fun s => s.whenDue true fun s => s.windowResult ovl ai
def execFallbackPowerUp (s : State) : Host.Outcome State Fault Refusal := runSafe true s State.fbPowerUp

/-! ### VANA and the reference (R231, R233, R379, R389) -/

/-- A change of VANA_OK is a wake event. -/
def State.vanaWake (s t : State) : State := if s.meas.vanaOk = t.meas.vanaOk then t else t.noteWake .vana
/-- VANA is present: the analogue rail is up in a module whose start has reached it and which has not taken it off again (R380, R381); a wake
from S3 has reached it past W3, and an entry into S3 past its step E3 finds it up if it is undone. -/
def State.anaRail (s : State) : State :=
  let p := s.pwr
  if !(s.meas.vanaOk && p.started) || (p.state = .s3 && !s.wokenTo 5) || (p.state = .wakeFail && p.retryFrom < 5) then s
  else if s.portsOff then { s with pwr := { p with entry := p.entry.map fun e => { e with ana := true } } }
  else { s with pwr := { p with anaOk := true } }

def execVanaLost (mv ticks : Nat) (s : State) : Host.Outcome State Fault Refusal := runSafe true s fun s => s.vanaWake (s.vanaLost mv ticks)
def execVanaPresent (mv ticks : Nat) (s : State) : Host.Outcome State Fault Refusal :=
  runSafe true s fun s =>
    let t := s.vanaPresent mv ticks
    if s.meas.vanaOk = t.meas.vanaOk then t else s.vanaWake t.anaRail
def execVanaLowChange (mv ticks : Nat) (s : State) : Host.Outcome State Fault Refusal := runSafe true s fun s => s.vanaLowChange mv ticks
def execRefMonitorCheck (reading : Int) (s : State) : Host.Outcome State Fault Refusal :=
  runSafe true s fun s => if s.integRuns then s.refCheck reading else s
def execVanaOrder (s : State) : Host.Outcome State Fault Refusal := runSafe true s State.vanaOrder

/-! ### Lanes (R142, R147, R152) -/

def execUplinkFrameRx (lane : LaneId) (f : LaneRx) (s : State) : Host.Outcome State Fault Refusal :=
  runSafe true s fun s => s.uplinkBlocks lane.val f.arrival f.blocks
def execLaneDelaySet (lane : LaneId) (s : State) : Host.Outcome State Fault Refusal := runSafe true s fun s => s.delaySet lane.val
def execLaneRxTimeout (lane : LaneId) (s : State) : Host.Outcome State Fault Refusal := runSafe true s fun s => s.rxTimeout lane.val
def execDelayStep (lane : LaneId) (s : State) : Host.Outcome State Fault Refusal := runSafe true s fun s => s.delayStep lane.val

end Sys2Proof.Machine
end

