-- ==== Sys2Proof/Machine/ObjectRows.lean ====
section
/-!
DEFINITION. The rows that are an OBJ_WRITE of one object with an action or an effect of its own (R100, R101, R126, R127, R152, R157, R185, R196, R209,
R213, R229, R238, R239, R243, R244, R256, R280, R327, R335, R342).
-/
namespace Sys2Proof.Machine

/-- An OBJ_WRITE of an index with its TYPE. -/
def objWriteOf (s : State) (m : Msg) (index ty : Nat) (v : Int) : Host.Outcome State Fault Refusal :=
  hostMsg s m 0x0102 false (.objWrite { index := BitVec.ofNat 16 index, ty := BitVec.ofNat 8 ty, value := .num v })

def execCoefWrite (m : Msg) (value : DWord) (s : State) : Host.Outcome State Fault Refusal := objWriteOf s m Obj.COEF_WRITE 4 value.toNat
def execTripClear (m : Msg) (bitmap : BitVec 16) (s : State) : Host.Outcome State Fault Refusal := objWriteOf s m Obj.TRIP_CLEAR 2 bitmap.toNat
def execTripArmsWrite (m : Msg) (n : TripIn) (mask : Byte) (s : State) : Host.Outcome State Fault Refusal :=
  objWriteOf s m (Obj.TRIP_ARMS + n.val) 1 mask.toNat
def execCellExclude (m : Msg) (number : BitVec 16) (s : State) : Host.Outcome State Fault Refusal :=
  objWriteOf s m Obj.CELL_EXCLUDE 2 number.toNat
def execCellReadmit (m : Msg) (number : BitVec 16) (s : State) : Host.Outcome State Fault Refusal :=
  objWriteOf s m Obj.CELL_READMIT 2 number.toNat
def execLimChatClear (m : Msg) (bitmap : Byte) (s : State) : Host.Outcome State Fault Refusal := objWriteOf s m Obj.LIM_CHAT_CLEAR 1 bitmap.toNat
def execDriftClear (m : Msg) (bitmap : Word) (s : State) : Host.Outcome State Fault Refusal := objWriteOf s m Obj.DRIFT_CLEAR 3 bitmap.toNat
def execSetEndClosed (m : Msg) (s : State) : Host.Outcome State Fault Refusal := objWriteOf s m Obj.SET_END 12 1
def execSetEndCancel (m : Msg) (s : State) : Host.Outcome State Fault Refusal := objWriteOf s m Obj.SET_END 12 2
def execDcfRecover (m : Msg) (s : State) : Host.Outcome State Fault Refusal := objWriteOf s m Obj.DCF_RECOVER 0 1
def execPairYield (m : Msg) (s : State) : Host.Outcome State Fault Refusal := objWriteOf s m Obj.PAIR_YIELD 0 1
def execFeedTest (m : Msg) (bitmap : Byte) (s : State) : Host.Outcome State Fault Refusal := objWriteOf s m Obj.FEED_TEST 1 bitmap.toNat
def execTrainAddrClear (m : Msg) (s : State) : Host.Outcome State Fault Refusal := objWriteOf s m Obj.TRAIN_ADDR_CLEAR 0 1
def execLaneCntClear (m : Msg) (bitmap : DWord) (s : State) : Host.Outcome State Fault Refusal := objWriteOf s m Obj.LANE_CNT_CLEAR 4 bitmap.toNat
def execSchedCancel (m : Msg) (id : Word) (s : State) : Host.Outcome State Fault Refusal := objWriteOf s m Obj.SCHED_CANCEL 3 id.toNat
def execLogAck (m : Msg) (seqNo : Word) (s : State) : Host.Outcome State Fault Refusal := objWriteOf s m Obj.LOG_ACK 3 seqNo.toNat
def execRampCmd (m : Msg) (value : DWord) (s : State) : Host.Outcome State Fault Refusal := objWriteOf s m Obj.RAMP_CMD 4 value.toNat
def execModEnableWrite (m : Msg) (value : Bool) (s : State) : Host.Outcome State Fault Refusal := objWriteOf s m Obj.MOD_ENABLE 0 (b2n value)
def execLaneEnWrite (m : Msg) (lane : LaneId) (value : Bool) (s : State) : Host.Outcome State Fault Refusal :=
  objWriteOf s m (Obj.LANE_EN + lane.val) 0 (b2n value)
def execRegModeWrite (m : Msg) (ramp : Bool) (s : State) : Host.Outcome State Fault Refusal := objWriteOf s m Obj.REG_MODE 12 (b2n ramp)
def execRegRefWrite (m : Msg) (refclk : Bool) (s : State) : Host.Outcome State Fault Refusal := objWriteOf s m Obj.REG_REF 12 (b2n refclk)
def execRegTrimWrite (m : Msg) (value : Int) (s : State) : Host.Outcome State Fault Refusal := objWriteOf s m Obj.REG_TRIM 6 value
def execSparesWrite (m : Msg) (n : Byte) (s : State) : Host.Outcome State Fault Refusal := objWriteOf s m Obj.SPARES 1 n.toNat

end Sys2Proof.Machine
end

