-- ==== Sys2Proof/Machine/SafetyRows.lean ====
section
/-!
DEFINITION. The rows of the safety kernel (R285 to R309, R412).
-/
namespace Sys2Proof.Machine

/-- A mismatch of the lockstep cores is latched; the demand it makes opens every switch and blocks every lane (R285, R287, R293). -/
def State.coreMismatch (s : State) : State := { s with saf := { s.saf with faultCore := true } }
/-- The kernel sees no tick edge for 2 µs outside S3 (R287). -/
def State.tickLost (s : State) (us : Nat) : State :=
  if us < 2 || s.pwr.noTick then s else { s with saf := { s.saf with tickMissing := true } }

def execSafetyInputChange (n : Fin 8) (chB level : Bool) (runUs : Nat) (s : State) : Host.Outcome State Fault Refusal :=
  runSafe true s fun s => s.siChange n.val chB level runUs
def execSiDiscrepancy (n : Fin 8) (ms : Nat) (s : State) : Host.Outcome State Fault Refusal := runSafe true s fun s => s.siDiscrepancy n.val ms
def execRestartAckPress (n : Fin 8) (ms : Nat) (s : State) : Host.Outcome State Fault Refusal := runSafe true s fun s => s.ackPress n.val ms
def execKernelTiChange (n : TripIn) (level : Bool) (runUs : Nat) (s : State) : Host.Outcome State Fault Refusal :=
  runSafe true s fun s => s.kernelTi n.val level runUs
def execVioLost (mv ms : Nat) (s : State) : Host.Outcome State Fault Refusal := runSafe true s fun s => s.vioLost mv ms
def execVioPresent (mv ms : Nat) (s : State) : Host.Outcome State Fault Refusal := runSafe true s fun s => s.vioPresent mv ms
def execScsMonitorCheck (samples : List ArmSamples) (us : Nat) (s : State) : Host.Outcome State Fault Refusal :=
  runSafe true s fun s => s.scsMonitor samples us
def execSampleLinkLost (us : Nat) (s : State) : Host.Outcome State Fault Refusal := runSafe true s fun s => s.linkLost us
def execSampleLinkRestored (ms : Nat) (s : State) : Host.Outcome State Fault Refusal := runSafe true s fun s => s.linkRestored ms
def execEmitterTest (low : EmitterPoint) (fallNs : Nat) (recovered : Bool) (readMv : Nat) (demandDuring : Bool) (s : State) :
    Host.Outcome State Fault Refusal :=
  runSafe true s fun s => s.emitterTest low fallNs recovered readMv demandDuring
def execSoTest (sw : SoPoint) (readMv vioMv : Nat) (otherChanged demandDuring : Bool) (s : State) : Host.Outcome State Fault Refusal :=
  runSafe true s fun s => s.soTest sw readMv vioMv otherChanged demandDuring
def execSfPeriodicTx (s : State) : Host.Outcome State Fault Refusal := runSafe true s State.sfPeriodic
def execSfFrameRx (snb : Bool) (payload : List Byte) (sinceUs : Nat) (s : State) : Host.Outcome State Fault Refusal :=
  runSafe (Instr.wf (.sfFrameRx snb payload sinceUs)) s fun s => s.sfRx snb payload sinceUs
def execSfAcceptTimeout (addr : Fin 32) (s : State) : Host.Outcome State Fault Refusal := runSafe true s fun s => s.sfSingle addr.val
def execSfWatchdog (addr : Fin 32) (us : Nat) (s : State) : Host.Outcome State Fault Refusal := runSafe true s fun s => s.sfWatch addr.val us
def execStartTestDone (pass : Bool) (item : Byte) (s : State) : Host.Outcome State Fault Refusal := runSafe true s fun s => s.startTest pass item
def execCoreMismatch (s : State) : Host.Outcome State Fault Refusal := runSafe true s State.coreMismatch
def execTickMissing (us : Nat) (s : State) : Host.Outcome State Fault Refusal := runSafe true s fun s => s.tickLost us
def execSafetyKeyChange (closed : Bool) (ms : Nat) (s : State) : Host.Outcome State Fault Refusal := runSafe true s fun s => s.keyChange closed ms
def execSessionInactivity (s' : Nat) (s : State) : Host.Outcome State Fault Refusal :=
  runSafe true s fun s => if s' < 600 then s else s.sessionAbort 1
def execSoOvercurrent (so2 : Bool) (ma : Nat) (s : State) : Host.Outcome State Fault Refusal := runSafe true s fun s => s.soShort so2 ma

end Sys2Proof.Machine
end

