-- ==== Sys2Proof/Machine/SupplyRows.lean ====
section
/-!
DEFINITION. The rows of the feeds, the supervisor's watchdog and start, supplies, reset and power states (R340 to R345, R373, R374, R381 to R390).
-/
namespace Sys2Proof.Machine

/-! ### Feeds (R340 to R343) -/

def execFeedPresent (b : Bool) (mv ms : Nat) (s : State) : Host.Outcome State Fault Refusal := runAlways true s fun s => s.feedPresent b mv ms
def execFeedAbsent (b : Bool) (mv us otherMv : Nat) (s : State) : Host.Outcome State Fault Refusal :=
  runAlways true s fun s => s.feedAbsent b mv us otherMv
def execFeedLossPrDelay (s : State) : Host.Outcome State Fault Refusal := runAlways true s State.feedLossPr
def execHoldupExpired (s : State) : Host.Outcome State Fault Refusal := runAlways true s State.holdupExpired
def execFeedRecoveryTest (presentS : Nat) (s : State) : Host.Outcome State Fault Refusal := runAlways true s fun s => s.feedRecovery presentS
def execFeedStartupTest (s : State) : Host.Outcome State Fault Refusal := runAlways true s State.feedStartup
def execFeedTestDone (vminMv imaxMa : Nat) (s : State) : Host.Outcome State Fault Refusal := runAlways true s fun s => s.feedTestDone vminMv imaxMa

/-! ### The supervisor (R345, R373, R374) -/

def execSupWatchdogExpiry (s : State) : Host.Outcome State Fault Refusal := runSafe true s State.supWatchdog
/-- A start comes only while one is awaited. -/
def execSupStart (s : State) : Host.Outcome State Fault Refusal := runSafe true s fun s => if s.host.starting then s.supStarted else s
def execFwFallback (s : State) : Host.Outcome State Fault Refusal := runSafe true s State.fwFallback

/-! ### Start, reset and power states (R381 to R390) -/

def execPowerUp (x : PowerOn) (s : State) : Host.Outcome State Fault Refusal := runAlways true s fun s => s.powerUp x
def execWakeRetry (flags : StartFlags) (s : State) : Host.Outcome State Fault Refusal := runSafe true s fun s => s.wakeRetry flags
def execResetAssert (lowUs : Nat) (s : State) : Host.Outcome State Fault Refusal := runAlways true s fun s => s.resetAssert lowUs
def execResetRelease (heldMs : Nat) (strapped : Bool) (flags : StartFlags) (s : State) : Host.Outcome State Fault Refusal :=
  runAlways true s fun s => s.resetRelease heldMs strapped flags
def execWakeEvent (src : WakeFact) (flags : StartFlags) (s : State) : Host.Outcome State Fault Refusal :=
  runSafe true s fun s => s.wakeEvent src flags

/-- PSTATE_REQ's opcode (R368). -/
def opPstate : BitVec 16 := 0x0701
/-- PSTATE_REQ to S1, S2 or S3, which STATE names. -/
def execPstateReqSleep (m : Msg) (state : Byte) (s : State) : Host.Outcome State Fault Refusal :=
  runHost true s fun s => s.fresh.acceptMsg m opPstate false (.pstateReq state 0 (freeFlags s.free))
/-- PSTATE_REQ S0 from a sleep state, with the flags the start meets. -/
def execPstateReqWake (m : Msg) (level : Byte) (flags : StartFlags) (s : State) : Host.Outcome State Fault Refusal :=
  runHost true s fun s => s.acceptMsg m opPstate false (.pstateReq 0 level flags)
/-- PSTATE_REQ S0 with a LEVEL in S0. -/
def execPstateReqLevel (m : Msg) (level : Byte) (s : State) : Host.Outcome State Fault Refusal :=
  runHost true s fun s => s.fresh.acceptMsg m opPstate false (.pstateReq 0 level (freeFlags s.free))

end Sys2Proof.Machine
end

