-- ==== Sys2Proof/Machine/TickEdge.lean ====
section
/-!
DEFINITION. TICK_EDGE (R14, R21 to R25, R36 to R51, R64 to R95, R96 to R114, R136, R160, R203, R212, R220, R244, R249, R261, R277): the tick edge
with its fixed units, then engine beats 0 to 3, and what ends the tick.
-/
namespace Sys2Proof.Machine

/-- The edge numbers its tick (R14, R242); the kernel sees it (R287). -/
def State.numberTick (s : State) : State :=
  { s with tick := { now := s.tick.next, next := s.tick.next + 1, started := true }, saf := { s.saf with tickMissing := false }
           pwr := { s.pwr with noTick := false } }.logGap s.tick.now

/-- What acts at the edge before the converter's transitions: the safety set, module time, the regulator, the mirrors, train and pair. -/
def State.edgeFirst (s : State) : State :=
  s.chronoEdge.applySafety.stepEdge.ppsEdge.remapKeys.regEdge.mirrorEdge.trainEdge.pairEdge

/-- The angles, the scheduler's keys and the escapement's signals (R43, R51, R162, R254). -/
def State.edgeAngles (s : State) : State := s.phaseEdge.trackerEdge.schedEdge.escSignals

/-- The units that watch at an edge: windows, ranking, internal trip sources, limit inputs, kernel signals, ramps, setting and slip. -/
def State.edgeUnits (s : State) : State :=
  let s := s.windowEdge.rankEdge.rideCheck.takeInternal
  let s := (s.setSigN 0x098 s.limIn).scsCeilEdge.dcfEdge
  (s.setSigN 0x0B1 (s.safetyStatus % 2 ^ 16)).enrgEdge.settingEdge.slipEdge

/-- The modulator and the frames of the tick (R109, R136), the lanes' counts, and the condition signals. -/
def State.edgeFrames (s : State) : State :=
  let m := s.modulate
  let s := m.1.frameLanes m.2
  { s with lanes := s.lanes.map Lane.tickEdge }.condSignals

/-- The tick edge. -/
def State.atEdge (s : State) : State := s.numberTick.edgeFirst.resolve.edgeAngles.edgeUnits.edgeFrames

/-- A law that logical engine `n` carries in beat `k`. -/
def State.law (s : State) (k n : Nat) (f : State → State) : State := if s.live n k then f s else s

/-- Beat 0: the hands and setting, the DC-voltage loop, the swing equation, droop and the voltage loop, which R44 has write V_SQ and E_MAG in
beat 0; it takes this tick's V_ref, which no signal carries (log entry 51). -/
def State.beat0 (o : State) : State :=
  let s := o.tableBeat 0
  let s := s.law 0 0 fun s => o.dcVoltageLoop (o.settingBeat s.handsBeat)
  let s := s.law 0 1 fun s => let s := o.vInst (o.swing s).swingSignals
                            s.setSigN 0x04F (s.balStatus % 256)
  (s.law 0 2 (State.qvDroop o)).law 0 3 (State.voltageLoop o)

/-- Beat 1: the virtual admittance with M0, the contenders and the thermal model. -/
def State.beat1 (o : State) : State :=
  (((o.tableBeat 1).law 1 4 (State.admittance o)).law 1 5 (State.contenders o)).law 1 6 (State.thermal o)

/-- Beat 2: the selection, and the sum, balancing and circulating-current loops. -/
def State.beat2 (o : State) : State :=
  let s := (o.tableBeat 2).law 2 7 fun s => o.selection s s.fuseeBits
  (((s.law 2 8 (State.energySum o)).law 2 9 (State.balancing o)).law 2 10 (State.circulating o)).dcfHold.fuseeMark

/-- Beat 3: the fast signals of the tick's samples stand at its start (R24), so the table's steps and the arm-current loops read them. -/
def State.beat3 (s : State) (x : TickInputs) : State :=
  let o := s.fastBeat x
  let s := o.tableBeat 3
  (((s.law 3 11 fun s => o.armCurrent s 0).law 3 12 fun s => o.armCurrent s 1).law 3 13 fun s => o.armCurrent s 2).fuseeMark

/-- The readings of VIO and of the feeds, taken in every tick (R350, R391). -/
def State.takeSupplies (s : State) (x : TickInputs) : State :=
  { s with saf := { s.saf with vioMv := x.vioMv }, feed := { s.feed with aMv := x.feedAMv, bMv := x.feedBMv } }

/-- The four beats; with the engine clock gated only the fast path goes on (R388). -/
def State.beats (s : State) (x : TickInputs) : State :=
  let s := s.takeSupplies x
  if s.pwr.escGated then s.fastBeat x else s.beat0.beat1.beat2.beat3 x

/-- What follows beat 3: the run counters, the condition vector, the chronograph, the train slot, the arbiter, the power units and the host. -/
def State.endTick (s : State) : State :=
  let s := (s.windowStarts s.fallbackTick).winnerNote.tableClamps.frtCounts.dcfCounts.stopEngines
  let s := (s.formVector s.anyDemand).chronoTick.slotBeat
  let s := { s with log := s.log.arbitrate s.tick.now 64, pwr := { s.pwr with uptimeTicks := s.pwr.uptimeTicks + 1 } }
  s.levelEdge.wakeEdge.entryEdge.pump

/-- A whole tick. -/
def State.tickAll (s : State) (x : TickInputs) : State := (s.atEdge.beats x).endTick

/-- TICK_EDGE: nothing while the outputs are gated off (R241). -/
def execTickEdge (x : TickInputs) (s : State) : Host.Outcome State Fault Refusal :=
  runSafe (Instr.wf (.tickEdge x)) s fun s => s.whenDue true fun s => s.tickAll x

end Sys2Proof.Machine
end

