-- ==== Sys2Proof/Machine/TimeRows.lean ====
section
/-!
DEFINITION. The rows of the regulator, module time and PTP (R238 to R251).
-/
namespace Sys2Proof.Machine

def execRefLoss (refclk : Bool) (missing : Nat) (s : State) : Host.Outcome State Fault Refusal :=
  runSafe true s fun s => s.refLoss refclk missing
def execRefGood (refclk : Bool) (cleanUs : Nat) (s : State) : Host.Outcome State Fault Refusal :=
  runSafe true s fun s => s.refGood refclk cleanUs
def execRegLockDeclared (riseUs : Nat) (aonCount : Option Nat) (s : State) : Host.Outcome State Fault Refusal :=
  runSafe true s fun s => if s.domainOff .time then s else s.lockDeclared riseUs aonCount
def execRegSlip (c : RefCycle) (s : State) : Host.Outcome State Fault Refusal := runSafe true s fun s => s.slip c.errorPs c.sinceUs
def execLockLossDeclared (mv : Nat) (s : State) : Host.Outcome State Fault Refusal := runSafe true s fun s => s.lockLoss mv
def execRampStart (s : State) : Host.Outcome State Fault Refusal := runSafe true s State.rampStart

def execPtpSyncRx (domain intervalNs : Nat) (offset ratio : Int) (s : State) : Host.Outcome State Fault Refusal :=
  runSafe true s fun s => s.ptpSync domain intervalNs offset ratio
def execPtpAnnounceRx (a : Announce) (s : State) : Host.Outcome State Fault Refusal := runSafe true s fun s => s.ptpAnnounce a
def execPtpPdelayReqRx (domain : Nat) (requester : List Byte) (turnaroundNs : Nat) (s : State) : Host.Outcome State Fault Refusal :=
  runSafe (Instr.wf (.ptpPdelayReqRx domain requester turnaroundNs)) s fun s => s.pdelayReq domain requester turnaroundNs
def execPtpPdelayRespRx (domain meanDelay : Nat) (s : State) : Host.Outcome State Fault Refusal :=
  runSafe true s fun s => s.delayResp domain meanDelay true
def execPtpDelayRespRx (domain meanDelay : Nat) (s : State) : Host.Outcome State Fault Refusal :=
  runSafe true s fun s => s.delayResp domain meanDelay false
def execPtpDelayReqTx (s : State) : Host.Outcome State Fault Refusal := runSafe true s State.delayReqTx
def execPtpSyncTimeout (s : State) : Host.Outcome State Fault Refusal := runSafe true s State.syncTimeout
def execPtpAnnounceTimeout (s : State) : Host.Outcome State Fault Refusal := runSafe true s State.announceTimeout
def execPtpMasterTx (s : State) : Host.Outcome State Fault Refusal := runSafe true s State.masterTx
def execPtpManagementRx (domain : Nat) (dataset : BitVec 16) (write : Bool) (s : State) : Host.Outcome State Fault Refusal :=
  runSafe true s fun s => s.management domain dataset write
def execHoldoverExpired (heldS : Nat) (s : State) : Host.Outcome State Fault Refusal := runSafe true s fun s => s.holdoverExpired heldS

end Sys2Proof.Machine
end

