-- ==== Sys2Proof/Machine/TrainRows.lean ====
section
/-!
DEFINITION. The rows of the train and of the module pair (R271, R320 to R339).
-/
namespace Sys2Proof.Machine

/-! ### The train (R322 to R327, R271) -/

def execTrainFrameRx (west : Bool) (arrival : Int) (f : List LaneBlock) (s : State) : Host.Outcome State Fault Refusal :=
  runSafe true s fun s => s.trainFrame west arrival f
def execTrainHeartbeatRx (slot : DWord) (s : State) : Host.Outcome State Fault Refusal := runSafe true s fun s => s.heartbeat slot
def execTrainJoinRx (slot : DWord) (s : State) : Host.Outcome State Fault Refusal := runSafe true s fun s => s.trainJoin slot
def execTrainGrantRx (slot : DWord) (s : State) : Host.Outcome State Fault Refusal := runSafe true s fun s => s.trainGrant slot
def execTrainArmRx (src : Fin 32) (slot : DWord) (s : State) : Host.Outcome State Fault Refusal :=
  runSafe true s fun s => s.trainArm src.val slot
def execTrainDisarmRx (src : Fin 32) (slot : DWord) (s : State) : Host.Outcome State Fault Refusal :=
  runSafe true s fun s => s.trainDisarm src.val slot
def execTrainFireRx (src : Fin 32) (fire1 fire2 : DWord) (s : State) : Host.Outcome State Fault Refusal :=
  runSafe true s fun s => s.trainFire src.val fire1 fire2
def execTrainPortDown (west : Bool) (s : State) : Host.Outcome State Fault Refusal := runSafe true s fun s => s.portDown west
def execTrainPortUp (west : Bool) (goodFrames : Nat) (s : State) : Host.Outcome State Fault Refusal :=
  runSafe true s fun s => s.portUp west goodFrames
def execRingClosed (s : State) : Host.Outcome State Fault Refusal := runSafe true s State.ringClosed
def execActingRoot (s : State) : Host.Outcome State Fault Refusal := runSafe true s State.actingRoot

/-! ### The pair (R331 to R339) -/

def execHeartbeatLost (s : State) : Host.Outcome State Fault Refusal := runSafe true s State.heartbeatLost
def execPairLinkLost (s : State) : Host.Outcome State Fault Refusal := runSafe true s State.pairLinkLost
def execTakeover (s : State) : Host.Outcome State Fault Refusal := runSafe true s State.takeover
def execLeaderLanesLost (s : State) : Host.Outcome State Fault Refusal := runSafe true s State.leaderLanesLost
def execAbdicateFailed (s : State) : Host.Outcome State Fault Refusal := runSafe true s State.abdicateFailed
def execReversion (readyS : Nat) (s : State) : Host.Outcome State Fault Refusal := runSafe true s fun s => s.reversion readyS
def execShadowGraceExpired (s : State) : Host.Outcome State Fault Refusal := runSafe true s State.graceExpired

end Sys2Proof.Machine
end

