-- ==== Sys2Proof/Machine/Dispatch.lean ====
section
/-!
DEFINITION. The meaning of every command: one arm per constructor.
-/
namespace Sys2Proof.Machine

/-- What a command does to everything but the queue. -/
def exec (i : Instr) (s : State) : Host.Outcome State Fault Refusal :=
  match i with
  | .tickEdge x => Sys2Proof.Machine.execTickEdge x s
  | .prechargeComplete => Sys2Proof.Machine.execPrechargeComplete s
  | .frtStart => Sys2Proof.Machine.execFrtStart s
  | .frtEnd => Sys2Proof.Machine.execFrtEnd s
  | .dcfDetect => Sys2Proof.Machine.execDcfDetect s
  | .dcfRearm => Sys2Proof.Machine.execDcfRearm s
  | .dcfEnd => Sys2Proof.Machine.execDcfEnd s
  | .enrgEnd => Sys2Proof.Machine.execEnrgEnd s
  | .gtCoastStart => Sys2Proof.Machine.execGtCoastStart s
  | .gtAcquireStart => Sys2Proof.Machine.execGtAcquireStart s
  | .gtReacquired fit => Sys2Proof.Machine.execGtReacquired fit s
  | .cellStale lane cell => Sys2Proof.Machine.execCellStale lane cell s
  | .cellLost lane cell => Sys2Proof.Machine.execCellLost lane cell s
  | .setPermit => Sys2Proof.Machine.execSetPermit s
  | .setTimeout => Sys2Proof.Machine.execSetTimeout s
  | .limEdge n level run => Sys2Proof.Machine.execLimEdge n level run s
  | .limQuietExpired n => Sys2Proof.Machine.execLimQuietExpired n s
  | .tripEdge n pin run => Sys2Proof.Machine.execTripEdge n pin run s
  | .tripInactiveEdge n pin run => Sys2Proof.Machine.execTripInactiveEdge n pin run s
  | .engineResidueError phys step => Sys2Proof.Machine.execEngineResidueError phys step s
  | .engineSignatureError phys => Sys2Proof.Machine.execEngineSignatureError phys s
  | .migrateEnd => Sys2Proof.Machine.execMigrateEnd s
  | .spareFault phys => Sys2Proof.Machine.execSpareFault phys s
  | .coefGroupApply => Sys2Proof.Machine.execCoefGroupApply s
  | .tableSwapApply => Sys2Proof.Machine.execTableSwapApply s
  | .tableVerifyDone => Sys2Proof.Machine.execTableVerifyDone s
  | .schedActionDue => Sys2Proof.Machine.execSchedActionDue s
  | .chrRecordDone => Sys2Proof.Machine.execChrRecordDone s
  | .chrHoldoffExpired => Sys2Proof.Machine.execChrHoldoffExpired s
  | .logWindowEnd => Sys2Proof.Machine.execLogWindowEnd s
  | .windowBoundary up => Sys2Proof.Machine.execWindowBoundary up s
  | .windowResult ovl ai => Sys2Proof.Machine.execWindowResult ovl ai s
  | .fallbackPowerUp => Sys2Proof.Machine.execFallbackPowerUp s
  | .vanaLost mv ticks => Sys2Proof.Machine.execVanaLost mv ticks s
  | .vanaPresent mv ticks => Sys2Proof.Machine.execVanaPresent mv ticks s
  | .vanaLowChange mv ticks => Sys2Proof.Machine.execVanaLowChange mv ticks s
  | .refMonitorCheck reading => Sys2Proof.Machine.execRefMonitorCheck reading s
  | .vanaOrder => Sys2Proof.Machine.execVanaOrder s
  | .uplinkFrameRx lane f => Sys2Proof.Machine.execUplinkFrameRx lane f s
  | .laneDelaySet lane => Sys2Proof.Machine.execLaneDelaySet lane s
  | .laneRxTimeout lane => Sys2Proof.Machine.execLaneRxTimeout lane s
  | .delayStep lane => Sys2Proof.Machine.execDelayStep lane s
  | .refLoss refclk missing => Sys2Proof.Machine.execRefLoss refclk missing s
  | .refGood refclk cleanUs => Sys2Proof.Machine.execRefGood refclk cleanUs s
  | .regLockDeclared riseUs aonCount => Sys2Proof.Machine.execRegLockDeclared riseUs aonCount s
  | .regSlip c => Sys2Proof.Machine.execRegSlip c s
  | .rampStart => Sys2Proof.Machine.execRampStart s
  | .ptpSyncRx domain intervalNs offset ratio => Sys2Proof.Machine.execPtpSyncRx domain intervalNs offset ratio s
  | .ptpAnnounceRx a => Sys2Proof.Machine.execPtpAnnounceRx a s
  | .ptpPdelayReqRx domain requester turnaroundNs => Sys2Proof.Machine.execPtpPdelayReqRx domain requester turnaroundNs s
  | .ptpPdelayRespRx domain meanDelay => Sys2Proof.Machine.execPtpPdelayRespRx domain meanDelay s
  | .ptpDelayRespRx domain meanDelay => Sys2Proof.Machine.execPtpDelayRespRx domain meanDelay s
  | .ptpDelayReqTx => Sys2Proof.Machine.execPtpDelayReqTx s
  | .ptpSyncTimeout => Sys2Proof.Machine.execPtpSyncTimeout s
  | .ptpAnnounceTimeout => Sys2Proof.Machine.execPtpAnnounceTimeout s
  | .holdoverExpired heldS => Sys2Proof.Machine.execHoldoverExpired heldS s
  | .trainFrameRx west arrival f => Sys2Proof.Machine.execTrainFrameRx west arrival f s
  | .trainHeartbeatRx slot => Sys2Proof.Machine.execTrainHeartbeatRx slot s
  | .trainJoinRx slot => Sys2Proof.Machine.execTrainJoinRx slot s
  | .trainGrantRx slot => Sys2Proof.Machine.execTrainGrantRx slot s
  | .trainArmRx src slot => Sys2Proof.Machine.execTrainArmRx src slot s
  | .trainDisarmRx src slot => Sys2Proof.Machine.execTrainDisarmRx src slot s
  | .trainFireRx src fire1 fire2 => Sys2Proof.Machine.execTrainFireRx src fire1 fire2 s
  | .trainPortDown west => Sys2Proof.Machine.execTrainPortDown west s
  | .ringClosed => Sys2Proof.Machine.execRingClosed s
  | .actingRoot => Sys2Proof.Machine.execActingRoot s
  | .heartbeatLost => Sys2Proof.Machine.execHeartbeatLost s
  | .pairLinkLost => Sys2Proof.Machine.execPairLinkLost s
  | .takeover => Sys2Proof.Machine.execTakeover s
  | .leaderLanesLost => Sys2Proof.Machine.execLeaderLanesLost s
  | .abdicateFailed => Sys2Proof.Machine.execAbdicateFailed s
  | .reversion readyS => Sys2Proof.Machine.execReversion readyS s
  | .shadowGraceExpired => Sys2Proof.Machine.execShadowGraceExpired s
  | .feedPresent b mv ms => Sys2Proof.Machine.execFeedPresent b mv ms s
  | .feedAbsent b mv us otherMv => Sys2Proof.Machine.execFeedAbsent b mv us otherMv s
  | .feedLossPrDelay => Sys2Proof.Machine.execFeedLossPrDelay s
  | .holdupExpired => Sys2Proof.Machine.execHoldupExpired s
  | .feedRecoveryTest presentS => Sys2Proof.Machine.execFeedRecoveryTest presentS s
  | .feedStartupTest => Sys2Proof.Machine.execFeedStartupTest s
  | .feedTestDone vminMv imaxMa => Sys2Proof.Machine.execFeedTestDone vminMv imaxMa s
  | .supWatchdogExpiry => Sys2Proof.Machine.execSupWatchdogExpiry s
  | .supStart => Sys2Proof.Machine.execSupStart s
  | .fwFallback => Sys2Proof.Machine.execFwFallback s
  | .powerUp x => Sys2Proof.Machine.execPowerUp x s
  | .wakeRetry flags => Sys2Proof.Machine.execWakeRetry flags s
  | .resetAssert lowUs => Sys2Proof.Machine.execResetAssert lowUs s
  | .resetRelease heldMs strapped flags => Sys2Proof.Machine.execResetRelease heldMs strapped flags s
  | .pstateReqSleep m state => Sys2Proof.Machine.execPstateReqSleep m state s
  | .pstateReqWake m level flags => Sys2Proof.Machine.execPstateReqWake m level flags s
  | .pstateReqLevel m level => Sys2Proof.Machine.execPstateReqLevel m level s
  | .wakeEvent src flags => Sys2Proof.Machine.execWakeEvent src flags s
  | .safetyInputChange n chB level runUs => Sys2Proof.Machine.execSafetyInputChange n chB level runUs s
  | .siDiscrepancy n ms => Sys2Proof.Machine.execSiDiscrepancy n ms s
  | .restartAckPress n ms => Sys2Proof.Machine.execRestartAckPress n ms s
  | .kernelTiChange n level runUs => Sys2Proof.Machine.execKernelTiChange n level runUs s
  | .vioLost mv ms => Sys2Proof.Machine.execVioLost mv ms s
  | .vioPresent mv ms => Sys2Proof.Machine.execVioPresent mv ms s
  | .scsMonitorCheck samples us => Sys2Proof.Machine.execScsMonitorCheck samples us s
  | .sampleLinkLost us => Sys2Proof.Machine.execSampleLinkLost us s
  | .sampleLinkRestored ms => Sys2Proof.Machine.execSampleLinkRestored ms s
  | .emitterTest low fallNs recovered readMv demandDuring => Sys2Proof.Machine.execEmitterTest low fallNs recovered readMv demandDuring s
  | .soTest sw readMv vioMv otherChanged demandDuring => Sys2Proof.Machine.execSoTest sw readMv vioMv otherChanged demandDuring s
  | .sfPeriodicTx => Sys2Proof.Machine.execSfPeriodicTx s
  | .sfFrameRx snb payload sinceUs => Sys2Proof.Machine.execSfFrameRx snb payload sinceUs s
  | .sfAcceptTimeout addr => Sys2Proof.Machine.execSfAcceptTimeout addr s
  | .sfWatchdog addr us => Sys2Proof.Machine.execSfWatchdog addr us s
  | .startTestDone pass item => Sys2Proof.Machine.execStartTestDone pass item s
  | .coreMismatch => Sys2Proof.Machine.execCoreMismatch s
  | .tickMissing us => Sys2Proof.Machine.execTickMissing us s
  | .safetyKeyChange closed ms => Sys2Proof.Machine.execSafetyKeyChange closed ms s
  | .sessionInactivity idleS => Sys2Proof.Machine.execSessionInactivity idleS s
  | .hello nonce slot => Sys2Proof.Machine.execHello nonce slot s
  | .prove session mac srcIp => Sys2Proof.Machine.execProve session mac srcIp s
  | .proveTimeout session => Sys2Proof.Machine.execProveTimeout session s
  | .hlSessionTimeout session idleS => Sys2Proof.Machine.execHlSessionTimeout session idleS s
  | .hlClose session seq => Sys2Proof.Machine.execHlClose session seq s
  | .regRead session seq addr count => Sys2Proof.Machine.execRegRead session seq addr count s
  | .regWriteOther session seq addr value => Sys2Proof.Machine.execRegWriteOther session seq addr value s
  | .doorbellAck session seq bits => Sys2Proof.Machine.execDoorbellAck session seq bits s
  | .doorbellFlush session seq bits => Sys2Proof.Machine.execDoorbellFlush session seq bits s
  | .mbRespRetransmit mb => Sys2Proof.Machine.execMbRespRetransmit mb s
  | .mbRespDiscard mb => Sys2Proof.Machine.execMbRespDiscard mb s
  | .mbCmdBound mb => Sys2Proof.Machine.execMbCmdBound mb s
  | .objRead m indices => Sys2Proof.Machine.execObjRead m indices s
  | .objWrite m e => Sys2Proof.Machine.execObjWrite m e s
  | .objWriteSet m key es => Sys2Proof.Machine.execObjWriteSet m key es s
  | .tableLoad m f => Sys2Proof.Machine.execTableLoad m f s
  | .tableLoadAbandon => Sys2Proof.Machine.execTableLoadAbandon s
  | .tableSwap m key => Sys2Proof.Machine.execTableSwap m key s
  | .engineSpareMigrate m engine => Sys2Proof.Machine.execEngineSpareMigrate m engine s
  | .engineSpareRetest m engine => Sys2Proof.Machine.execEngineSpareRetest m engine s
  | .convState m key target => Sys2Proof.Machine.execConvState m key target s
  | .handsTarget m key axes options targets => Sys2Proof.Machine.execHandsTarget m key axes options targets s
  | .settingStart m => Sys2Proof.Machine.execSettingStart m s
  | .chronoArm m repeatOpt trainOpt => Sys2Proof.Machine.execChronoArm m repeatOpt trainOpt s
  | .chronoDisarm m trainOpt => Sys2Proof.Machine.execChronoDisarm m trainOpt s
  | .chronoForce m => Sys2Proof.Machine.execChronoForce m s
  | .chronoRead m recordId part options offset length => Sys2Proof.Machine.execChronoRead m recordId part options offset length s
  | .logRead m ring max fromSeq => Sys2Proof.Machine.execLogRead m ring max fromSeq s
  | .fwBegin m target length => Sys2Proof.Machine.execFwBegin m target length s
  | .fwData m offset data => Sys2Proof.Machine.execFwData m offset data s
  | .fwEnd m => Sys2Proof.Machine.execFwEnd m s
  | .fwActivate m target => Sys2Proof.Machine.execFwActivate m target s
  | .safetySessionOpen m => Sys2Proof.Machine.execSafetySessionOpen m s
  | .safetySessionCommit m crc => Sys2Proof.Machine.execSafetySessionCommit m crc s
  | .safetySessionClose m => Sys2Proof.Machine.execSafetySessionClose m s
  | .coefWrite m value => Sys2Proof.Machine.execCoefWrite m value s
  | .tripClear m bitmap => Sys2Proof.Machine.execTripClear m bitmap s
  | .tripArmsWrite m n mask => Sys2Proof.Machine.execTripArmsWrite m n mask s
  | .cellExclude m number => Sys2Proof.Machine.execCellExclude m number s
  | .cellReadmit m number => Sys2Proof.Machine.execCellReadmit m number s
  | .limChatClear m bitmap => Sys2Proof.Machine.execLimChatClear m bitmap s
  | .driftClear m bitmap => Sys2Proof.Machine.execDriftClear m bitmap s
  | .setEndClosed m => Sys2Proof.Machine.execSetEndClosed m s
  | .setEndCancel m => Sys2Proof.Machine.execSetEndCancel m s
  | .dcfRecover m => Sys2Proof.Machine.execDcfRecover m s
  | .pairYield m => Sys2Proof.Machine.execPairYield m s
  | .feedTest m bitmap => Sys2Proof.Machine.execFeedTest m bitmap s
  | .trainAddrClear m => Sys2Proof.Machine.execTrainAddrClear m s
  | .laneCntClear m bitmap => Sys2Proof.Machine.execLaneCntClear m bitmap s
  | .schedCancel m id => Sys2Proof.Machine.execSchedCancel m id s
  | .logAck m seqNo => Sys2Proof.Machine.execLogAck m seqNo s
  | .rampCmd m value => Sys2Proof.Machine.execRampCmd m value s
  | .modEnableWrite m value => Sys2Proof.Machine.execModEnableWrite m value s
  | .laneEnWrite m lane value => Sys2Proof.Machine.execLaneEnWrite m lane value s
  | .regModeWrite m ramp => Sys2Proof.Machine.execRegModeWrite m ramp s
  | .regRefWrite m refclk => Sys2Proof.Machine.execRegRefWrite m refclk s
  | .regTrimWrite m value => Sys2Proof.Machine.execRegTrimWrite m value s
  | .sparesWrite m n => Sys2Proof.Machine.execSparesWrite m n s
  | .lockLossDeclared mv => Sys2Proof.Machine.execLockLossDeclared mv s
  | .soOvercurrent so2 ma => Sys2Proof.Machine.execSoOvercurrent so2 ma s
  | .trainPortUp west goodFrames => Sys2Proof.Machine.execTrainPortUp west goodFrames s
  | .hlRxBadFrame session why srcIp => Sys2Proof.Machine.execHlRxBadFrame session why srcIp s
  | .mbMsgBadOpcode m opcode => Sys2Proof.Machine.execMbMsgBadOpcode m opcode s
  | .ptpMasterTx => Sys2Proof.Machine.execPtpMasterTx s
  | .ptpManagementRx domain dataset write => Sys2Proof.Machine.execPtpManagementRx domain dataset write s

end Sys2Proof.Machine
end

