-- ==== Sys2Proof/Machine/Step.lean ====
section
/-!
DEFINITION. The step of the block: take the command at the front of the queue and run its meaning on the state with the queue's
rest; an empty queue idles (log entry 2).
-/
namespace Sys2Proof.Machine

/-- One step. -/
def step (s : State) : Host.Outcome State Fault Refusal :=
  match s.pending with
  | [] => .next s
  | c :: cs => exec c { s with pending := cs }

/-- The state with the command a table word spells put in front; unchanged where it spells none. -/
def State.withFetchWord (s : State) (nbits w : Nat) : State :=
  match Sys2Proof.decodeTableWord nbits w with
  | none => s
  | some c => { s with pending := c :: s.pending }

end Sys2Proof.Machine
end

