-- ==== Sys2Proof/Safety.lean ====
section
/-!
DEFINITION. What counts as a safe run, and the words the statements use for the effect of one command: what every command ends with may
touch, and a command that does exactly one thing before that end.
-/
namespace Sys2Proof.Machine

/-- `n` steps from `s` meet no fault and no refusal. -/
def State.SafeFor (s : State) : Nat → Prop
  | 0 => True
  | n + 1 => ∃ t, step s = .next t ∧ t.SafeFor n

/-- The module runs: not held in reset, in power state S0, with its tick, which the kernel sees (R241, R287, R382, R386). -/
def State.Awake (s : State) : Prop := s.pwr.inReset = false ∧ s.pwr.state = .s0 ∧ s.reg.gated = false ∧ s.saf.tickMissing = false

/-- No demand is present or noted, and the last safety frame carried the bits that stand now. -/
def State.Calm (s : State) : Prop :=
  s.demandSources = [] ∧ s.conv.scsEnded = false ∧ s.saf.active = [] ∧ s.outPr = s.saf.txPr ∧ s.outScs = s.saf.txScs

/-- All that the end of a command may touch while a tick boundary will come: the log, the lanes and cells that a PR demand blocks, the wake
source a sleep entry notes, and the kernel's list of demands, its acknowledgement, its switches and its frame (R287, R290, R293, R303,
R388), and the number of the free values. Every other field of `s.ended t` is that of `s`. -/
def State.ended (s t : State) : State :=
  { s with
    log := t.log, lanes := t.lanes, cells := t.cells, free := t.free
    pwr := { s.pwr with entry := t.pwr.entry }
    saf := { s.saf with
      active := t.saf.active, ackPending := t.saf.ackPending, switches := t.saf.switches, tx := t.saf.tx, txSeq := t.saf.txSeq
      txPr := t.saf.txPr, txScs := t.saf.txScs } }

/-- Events have been added at the ports behind those that wait; nothing else of the log has changed. -/
def LogS.Keeps (a b : LogS) : Prop := b = { a with ports := b.ports } ∧ ∀ p, a.ports.getD p [] <+: b.ports.getD p []

/-- What the end of a command makes of state `f`: it adds events at the ports, notes the demands and sends the bits as they stand, opens the
switches while a PR demand is active, and blocks no lane otherwise. Where `f` is calm nothing changes at all. -/
structure Ends (f t : State) : Prop where
  frame : t = f.ended t
  log : f.log.Keeps t.log
  calm : f.Calm → t = f
  quiet : f.prDemand = false → t.lanes = f.lanes ∧ t.cells = f.cells ∧ t.saf.switches = f.saf.switches
  open_ : f.prDemand = true → t.saf.switches.any id = false
  noted : t.saf.active = f.demandSources
  ack : t.saf.ackPending = (f.saf.ackPending || f.anyDemand)
  bits : t.saf.txPr = f.outPr ∧ t.saf.txScs = f.outScs

/-- Command `c` answers a next state from `s`: its effect gives `f`, and then comes the end of every command. -/
def Does (c : Instr) (s f : State) : Prop := ∃ t, exec c s = .next t ∧ Ends f t

/-- Command `c` has no effect of its own from `s`: the outboxes are empty, and the end of every command follows. -/
def Idles (c : Instr) (s : State) : Prop := Does c s s.clearOut

/-! ### Commands of the host -/

/-- No other command occupies the mailboxes: none executes or waits, and the owner of each, if any, has an open session. -/
def State.MailIdle (s : State) : Prop :=
  ∀ n : Nat, (s.mbox n).queue = [] ∧ (s.mbox n).running = none ∧ (∀ o, (s.mbox n).owner = some o → s.isOpen o = true)

/-- The host link serves, and message `m` is one its mailbox takes and executes at once (R355, R363): its session is open and may send the
opcode, its SEQ is new, its LEN agrees with its parameters, the mailbox is free or its session's own, has a credit, and holds no answer to
the TAG. -/
def State.Takes (s : State) (m : Msg) (ro : Bool) : Prop :=
  s.host.starting = false ∧ s.MailIdle ∧ m.lenOk = true ∧ (s.mbox m.mb.val).unacked.length < 4 ∧
    (s.mbox m.mb.val).answered m.tag = none ∧ (∀ o, (s.mbox m.mb.val).owner = some o → o = m.session) ∧
    s.host.mbs.length = 8 ∧
    ∃ x, s.session m.session = some x ∧ x.lastSeq < m.seq.n ∧ (x.ro = true → ro = true)

/-- The response a message is given. -/
def msgResponse (m : Msg) (opcode : BitVec 16) (a : Ans) : Response :=
  { opcode := opcode, tag := m.tag, status := a.status, reason := a.reason, params := a.params, peer := m.seq.peer }

/-- The frame's SEQ is recorded, and the message has entered its mailbox (R355, R363). -/
def State.took (s : State) (m : Msg) : State :=
  { s.clearOut.tookFrame m.session m.seq with
    host := { (s.clearOut.tookFrame m.session m.seq).host with
      mbs := modifyAt s.host.mbs m.mb.val fun (x : Mailbox) => { x with owner := some m.session, lastTag := m.tag } } }

/-- The message's response is sent and waits for its acknowledgement (R364). -/
def State.answer (s : State) (m : Msg) (opcode : BitVec 16) (a : Ans) : State :=
  { s with host := { s.host with
      mbs := modifyAt s.host.mbs m.mb.val fun (x : Mailbox) =>
        { x with running := none, unacked := x.unacked ++ [msgResponse m opcode a], last := some (msgResponse m opcode a) }
      out := s.host.out ++ [.mbResp m.session m.mb (msgResponse m opcode a) false] } }

/-- The message executes until something else completes it. -/
def State.runs (s : State) (m : Msg) (opcode : BitVec 16) (c : HostCmd) : State :=
  s.setMbox m.mb.val fun (x : Mailbox) =>
    { x with running := some ({ mb := m.mb, session := m.session, opcode := opcode, tag := m.tag, peer := m.seq.peer }, c) }

end Sys2Proof.Machine
end

