-- ==== Sys2Proof/Certificates/Slice0/Obligations.lean ====
section
/-!
DEFINITION. The obligations: what the numbered rules of the specification say that a command does, in the words of Sys2Proof/Safety.lean, and the
invariants that every step keeps. `Does c s f` says that command `c` answers a next state from `s` whose effect is `f`, so it states the
result, the completion and the frame of the command at once; `Idles c s` that it has no effect of its own.
-/
open Sys2Proof Sys2Proof.Machine

/-- Log entry 2 (the model's own rule for a block, no rule of the spec): a step takes the command at the front of the queue and runs it on
the state with the queue's rest; on an empty queue the block idles. -/
def Obligations.StepRunsTheFrontCommand : Prop :=
  ∀ (c : Instr) (cs : List Instr) (s : State), step { s with pending := c :: cs } = exec c { s with pending := cs } ∧
    (s.pending = [] → step s = .next s)

/-- From R14, R18, R29, R152, R162, R217, R241, R382: what reset leaves. The converter is in PR, every object at its Default, every lane
OFF, no switch closed, no tick has run, the log and the records are empty; and the state meets every invariant that these obligations state.
The model's own: that the queue is empty is log entry 2. -/
def Obligations.ResetIsAsTheSpecSays : Prop :=
  State.reset.conv.state = .pr ∧ (∀ i, State.reset.cfg i = objDefault i) ∧ (∀ l, (State.reset.lane l).state = .off) ∧
    State.reset.saf.switches.any id = false ∧ State.reset.tick.started = false ∧ State.reset.log.general = [] ∧ State.reset.log.safety = [] ∧
    State.reset.chr.records = [] ∧ State.reset.pending = [] ∧ State.reset.set.permit = false ∧
    State.reset.set.active = false ∧ State.reset.set.starting = false ∧ State.reset.host.sessions = [] ∧ State.reset.esc.groups = [] ∧
    objsWf State.reset.objs = true ∧ State.reset.outPr = State.reset.saf.txPr ∧ State.reset.outScs = State.reset.saf.txScs

/-- From R18: the store of written objects keeps its one form, in which no entry stands twice or equals its object's Default, through every
step. -/
def Obligations.StoreStaysCanonical : Prop :=
  ∀ s t : State, objsWf s.objs = true → step s = .next t → objsWf t.objs = true

/-- From R287, R293, R303: out of reset, after every step every switch is open while a PR demand is active, and the outgoing bits are those
the last frame has told. The model's own: that the frame is sent at the end of the command that changed the bits is log entry 13. -/
def Obligations.DemandsKeepTheSwitchesOpen : Prop :=
  ∀ s t : State, (s.pwr.inReset = false → (s.prDemand = true → s.saf.switches.any id = false) ∧ s.outPr = s.saf.txPr ∧ s.outScs = s.saf.txScs) →
    step s = .next t →
    (t.pwr.inReset = false → (t.prDemand = true → t.saf.switches.any id = false) ∧ t.outPr = t.saf.txPr ∧ t.outScs = t.saf.txScs)

/-- From R14, R242, R343: the next tick's number lies ahead of the present one's, which every step keeps, and only TICK_EDGE changes the
number of the present tick; the end of the hold-up, which loses it, leaves none. -/
def Obligations.TickNumbersRise : Prop :=
  ∀ s t : State, (s.tick.started = true → s.tick.now < s.tick.next) → step s = .next t →
    (t.tick.started = true → t.tick.now < t.tick.next) ∧
    (t.tick.now = s.tick.now ∨ (∃ x cs, s.pending = .tickEdge x :: cs ∧ t.tick.now = s.tick.next) ∨
      ∃ cs, s.pending = .holdupExpired :: cs ∧ t.tick.started = false)

/-- R54: setting and its close permit stand only in LOCKED: a permit is given only while setting is active, and setting is active or asked
for only while the tracker is LOCKED. Every step keeps this, and a step by which the tracker leaves LOCKED withdraws the permit. -/
def Obligations.PermitNeedsALockedTracker : Prop :=
  ∀ s t : State, ((s.set.permit = true → s.set.active = true) ∧ (s.set.active = true ∨ s.set.starting = true → s.gt.state = .locked)) →
    step s = .next t →
    (t.set.permit = true → t.set.active = true) ∧ (t.set.active = true ∨ t.set.starting = true → t.gt.state = .locked) ∧
    (s.gt.state = .locked → t.gt.state ≠ .locked → t.set.permit = false ∧ t.set.active = false ∧ t.set.starting = false)

/-- From R14, R22, R34, R136, R137, R139, R150, R241, R242: a tick edge of a running module numbers its tick, and sends on every lane that is UP
the frame of that tick: with the lane's number, KIND 0, the next tick as its execution tick, at most 16 entries and the check that agrees; in
the gap of a dark test it sends none. While the outputs are gated off it begins no tick. The model's own: that an edge reported while the
outputs are gated is no tick is the model's reading of the row (log entry 2); the gap counts in ticks (log entry 53). -/
def Obligations.TickEdgeNumbersItsTick : Prop :=
  ∀ (s : State) (x : TickInputs), Instr.wf (.tickEdge x) = true → s.pwr.inReset = false →
    (s.reg.gated = false → ∃ t, exec (.tickEdge x) s = .next t ∧ t.tick.now = s.tick.next ∧ t.tick.started = true ∧ t.tick.now < t.tick.next ∧
      t.pending = s.pending) ∧
    (s.reg.gated = false → s.lanes.length = 48 → s.waiting = [] → ∀ l, l < 48 → (s.lane l).state = .up →
      ∃ t, exec (.tickEdge x) s = .next t ∧
        (s.mod.gap = 0 → ∃ f : DownFrame, (t.lane l).tx = some f ∧ f.lane = l ∧ f.kind = 0 ∧ f.execTick = s.tick.next + 1 ∧
          f.entries.length ≤ 16 ∧ f.crc = f.check) ∧
        (s.mod.gap ≠ 0 → (t.lane l).tx = none)) ∧
    (s.reg.gated = true → (∀ w ∈ s.waiting, w.point ≠ .stateChange) →
      ∃ t, exec (.tickEdge x) s = .next t ∧ t.tick = s.tick ∧ t.objs = s.objs ∧ t.pending = s.pending)

/-- From R382 (and log entry 2 on operands): every command whose operands are well formed answers a next state and leaves the queue alone,
any other a fault. A module held in reset takes no command but those of its feeds and its start: the others only empty the outboxes (log
entry 4). -/
def Obligations.ResetHoldsTheBlock : Prop :=
  ∀ (c : Instr) (s : State),
    (Instr.wf c = true → ∃ t, exec c s = .next t ∧ t.pending = s.pending) ∧
    (Instr.wf c = false → exec c s = .fault .illFormed) ∧
    (s.pwr.inReset = true → Instr.wf c = true →
      (match c with
        | .feedPresent _ _ _ | .feedAbsent _ _ _ _ | .feedLossPrDelay | .holdupExpired | .feedRecoveryTest _ | .feedStartupTest | .feedTestDone _ _
        | .powerUp _ | .resetAssert _ | .resetRelease _ _ _ => False
        | _ => True) → exec c s = .next s.clearOut)

/-- From R72: FRT begins once the grid voltage has stayed below FRT_LEVEL for FRT_TIME, and ends once it has stayed at or above FRT_LEVEL +
FRT_HYST for FRT_TIME; the entry carries the duration. Otherwise the two rows do nothing. R79: the energisation ramp ends at the
edge at which ENRG_S reaches 1, ENRG_TIME after its start. The model's own: that the entries carry the next tick's number is log entry 17; that a row whose condition does not hold does nothing is log entry 2. -/
def Obligations.FrtAndEnergisationEnd : Prop :=
  (∀ s : State, s.Awake →
    (s.fus.frt = false → max 1 (4 * s.cfgN Obj.FRT_TIME) ≤ s.fus.frtLow →
      Does .frtStart s (State.postAt { s.clearOut with fus := { s.fus with
        frt := true, frtCount := s.fus.frtCount + 1, frtStart := s.tick.next, frtHigh := 0 } } s.tick.next 0x2102 0xFF [])) ∧
    (s.fus.frt = true → max 1 (4 * s.cfgN Obj.FRT_TIME) ≤ s.fus.frtHigh →
      Does .frtEnd s (State.postAt { s.clearOut with fus := { s.fus with frt := false, frtLow := 0 } } s.tick.next 0x2103 0xFF
        (beBytes 8 (s.tick.next - s.fus.frtStart)))) ∧
    (s.fus.frt = true ∨ s.fus.frtLow < max 1 (4 * s.cfgN Obj.FRT_TIME) → Idles .frtStart s) ∧
    (s.fus.frt = false ∨ s.fus.frtHigh < max 1 (4 * s.cfgN Obj.FRT_TIME) → Idles .frtEnd s)) ∧
  (∀ s : State, s.Awake →
    (s.fus.enrgRamp = true → s.cfgN Obj.ENRG_TIME * 4000 ≤ s.fus.enrgTicks →
      Does .enrgEnd s (State.postAt { s.clearOut with fus := { s.fus with enrgRamp := false } } s.tick.next 0x2108 0xFF [])) ∧
    (s.fus.enrgRamp = false ∨ s.fus.enrgTicks < s.cfgN Obj.ENRG_TIME * 4000 → Idles .enrgEnd s))

/-- From R74 to R78: with the detector armed in RUN or SCS, a DC voltage below DCF_LEVEL for DCF_TIME is a DC fault, and is counted; with
DCF_MODE RIDE carried by the cells the ride begins at U_DC = 0 with P_SET 0, otherwise the trip input that DCF_TRIP_INPUT names at the detection is asserted, or none where it names none. The detector is
armed again when the voltage has been back for DCF_TIME, and the recovery ends when its reference has reached HND_VDC. -/
def Obligations.DcFaultIsTaken : Prop :=
  ∀ s : State, s.Awake →
    (s.fus.dcfArmed = true → (s.conv.state = .run ∨ s.conv.state = .scs) → max 1 (s.cfgN Obj.DCF_TIME) ≤ s.fus.dcfLow →
      ∃ t, exec .dcfDetect s = .next t ∧ t.fus.dcfArmed = false ∧ t.fus.dcfHigh = 0 ∧ t.fus.dcfCount = s.fus.dcfCount + 1 ∧
        (s.cfg Obj.DCF_MODE = 1 → s.fus.rideLost = false →
          t.fus.dcfActive = true ∧ t.fus.dcfRecovering = false ∧ t.fus.dcfU = 0 ∧ t.cfg Obj.P_SET = 0 ∧ t.fus.dcfAssert = s.fus.dcfAssert) ∧
        (s.cfg Obj.DCF_MODE ≠ 1 ∨ s.fus.rideLost = true →
          t.fus.dcfAssert = (if s.cfgN Obj.DCF_TRIP_INPUT < 16 then [s.cfgN Obj.DCF_TRIP_INPUT] else []) ∧ t.fus.dcfActive = s.fus.dcfActive ∧ ∀ i, t.cfg i = s.cfg i)) ∧
    (s.fus.dcfArmed = false → (s.conv.state = .run ∨ s.conv.state = .scs) → max 1 (s.cfgN Obj.DCF_TIME) ≤ s.fus.dcfHigh →
      Does .dcfRearm s { s.clearOut with fus := { s.fus with dcfArmed := true, dcfLow := 0 } }) ∧
    (s.fus.dcfRecovering = true → s.sigPu 0x092 2 ≤ s.fus.dcfU →
      Does .dcfEnd s (State.post { s.clearOut with fus := { s.fus with dcfActive := false, dcfRecovering := false } } 0x2107 0xFF [])) ∧
    (s.conv.state ≠ .run → s.conv.state ≠ .scs → Idles .dcfDetect s ∧ Idles .dcfRearm s)

/-- From R52, R53, R54: the tracker coasts at the mean frequency it had when the grid fell, and from LOCKED a coast withdraws the close
permit and ends setting; a returned grid takes it to ACQUIRING; a whole qualifying cycle whose fitted frequency lies inside FREQ_LIMIT and
whose magnitude has varied by 10 % at most locks it at the fitted angle and frequency, and any other starts another cycle. The model's own:
the fit is that of least squares, and the row says which way its quotients are rounded (log entry 12). -/
def Obligations.TrackerChangesState : Prop :=
  ∀ s : State, s.Awake →
    (s.gt.state = .acquiring → 4 * s.cfgN Obj.GT_ABSENT_TIME ≤ s.gt.absentTicks →
      Does .gtCoastStart s (State.post { s.clearOut with gt := { s.gt with
        state := .coasting, frozen := s.gt.meanAtFall, coasted := true, absentTicks := 0, qualTicks := 0 } } 0x2003 0xFF [])) ∧
    (s.gt.state = .locked → 4 * s.cfgN Obj.GT_ABSENT_TIME ≤ s.gt.absentTicks →
      ∃ t, exec .gtCoastStart s = .next t ∧ t.gt.state = .coasting ∧ t.gt.frozen = s.gt.meanAtFall ∧ t.set.permit = false ∧
        t.set.active = false ∧ t.set.starting = false ∧ t.bal = s.bal ∧ t.conv = s.conv ∧
        (s.set.active = true ∨ s.set.starting = true → t.set.abortReason = 3)) ∧
    (s.gt.state = .coasting ∨ s.gt.absentTicks < 4 * s.cfgN Obj.GT_ABSENT_TIME → Idles .gtCoastStart s) ∧
    (s.gt.state = .coasting → s.gridBack = true →
      Does .gtAcquireStart s { s.clearOut with gt := { s.gt with state := .acquiring, absentTicks := 0, qualTicks := 0 } }) ∧
    (s.gt.state ≠ .coasting ∨ s.gridBack = false → Idles .gtAcquireStart s) ∧
    (∀ r : FitRounding,
     let fit := s.gt.fit
     let slope := fit.slope s.nomCycle
     let inside := |slope.1| * 1000 ≤ s.cfg Obj.FREQ_LIMIT * (slope.2 * s.stepNom) ∧
       10 * (fit.magMax - fit.magMin) * s.nomCycle ≤ fit.sumMag
     (s.gt.state = .acquiring → s.nomCycle ≤ s.gt.qualTicks → inside →
        ∃ t, exec (.gtReacquired r) s = .next t ∧ t.gt.state = .locked ∧
          t.gt.theta = fit.angle r.angle s.nomCycle s.stepNom (s.gt.qualTicks + 1) ∧
          t.gt.omega = sat32 (fit.dev r.dev s.nomCycle s.stepNom) ∧ t.gt.fitMag = (fit.mag r.mag s.nomCycle).toNat ∧ t.gt.jumpCount = s.gt.jumpCount + 1 ∧ t.gt.jumpEdge = true ∧
          t.gt.jumpRos = true ∧ t.bal = s.bal ∧ t.conv = s.conv ∧ t.objs = s.objs) ∧
     (s.gt.state = .acquiring → s.nomCycle ≤ s.gt.qualTicks → ¬inside →
        Does (.gtReacquired r) s { s.clearOut with gt := { s.gt with qualTicks := 0 } }) ∧
     (s.gt.state ≠ .acquiring ∨ s.gt.qualTicks < s.nomCycle → Idles (.gtReacquired r) s))

/-- From R99, R100: a cell whose age has passed STALE_TICKS leaves both orders of its arm and is counted once; one that has stayed stale for
CELL_FAIL_TIME is retired as lost: counted, flagged and logged. A cell of an unassigned lane and one above its lane's count are never stale.
The model's own: that the loss follows at once is log entry 39. -/
def Obligations.StaleCellsLeaveTheRanking : Prop :=
  (∀ (s : State) (l : LaneId) (i : CellIx), s.Awake → 6 ≤ s.laneArm l.val ∨ s.laneCells l.val ≤ i.val →
    Idles (.cellStale l i) s ∧ Idles (.cellLost l i) s) ∧
  ∀ (s : State) (l : LaneId) (i : CellIx) (a : Nat), s.Awake → s.laneArm l.val < 6 → i.val < s.laneCells l.val →
    (s.cell (l.val * 64 + i.val)).age = some a → s.cfgN Obj.STALE_TICKS < a →
    ((s.cell (l.val * 64 + i.val)).staleSeen = false →
      Does (.cellStale l i) s { s.clearOut.setCell (l.val * 64 + i.val) fun (x : Cell) => { x with staleSeen := true } with
        arms := { s.arms with
          charge := s.arms.charge.map (·.filter (· ≠ l.val * 64 + i.val)), discharge := s.arms.discharge.map (·.filter (· ≠ l.val * 64 + i.val))
          staleEvents := s.arms.staleEvents + 1 } }) ∧
    ((s.cell (l.val * 64 + i.val)).staleSeen = true → Idles (.cellStale l i) s) ∧
    (s.cfg Obj.CELL_FAIL_TIME ≠ 0 → (s.cell (l.val * 64 + i.val)).retired = none →
      s.cfgN Obj.STALE_TICKS + s.cfgN Obj.CELL_FAIL_TIME ≤ a →
      Does (.cellLost l i) s (State.post
        (State.condEvent { s.clearOut.setCell (l.val * 64 + i.val) fun (x : Cell) => { x with retired := some .lost, retiring := none } with
          arms := { s.arms with
            charge := s.arms.charge.map (·.filter (· ≠ l.val * 64 + i.val)), discharge := s.arms.discharge.map (·.filter (· ≠ l.val * 64 + i.val))
            retireCount := s.arms.retireCount + 1, retiredNew := true } } 44)
        0x2201 l.val [BitVec.ofNat 8 i.val, 2])) ∧
    (s.cfg Obj.CELL_FAIL_TIME = 0 ∨ a < s.cfgN Obj.STALE_TICKS + s.cfgN Obj.CELL_FAIL_TIME → Idles (.cellLost l i) s)

/-- From R99, R101, R186, R370: a write of CELL_READMIT acts at its boundary in IDLE and PR only, else STATE; a cell that is not retired is
answered RANGE; 0xFFFF readmits every retired cell. The orders and the ages stay as they are: a cell without an age is not ranked, and a
readmitted cell enters its arm's order on its next valid report. The model's own: that the tick answered is the one the boundary begins, and
that it is the one noted as the last coefficient tick and as the slot taken, is log entry 21. -/
def Obligations.CellsAreReadmitted : Prop :=
  (∀ (s : State) (g : Group) (rest : List Group) (v : Int), s.Awake → s.esc.groups = g :: rest → s.esc.migration = none → s.esc.waiting = [] →
    s.esc.noSpare = [] → g.move = none → g.isSet = false → g.acc + 2 ≤ s.tick.next → s.esc.groupTick ≠ some s.tick.next →
    s.schedGroupDue = false → g.items = [.action Obj.CELL_READMIT v] →
    let d : State := { s.clearOut with esc := { s.esc with groups := rest, groupTick := some s.tick.next } }
    let done : State → State := fun f =>
      State.replyTo { f with esc := { f.esc with coefLast := s.tick.next } } g.reply { status := 0, params := beBytes 8 s.tick.next }
    let back : Cell → Cell := fun x => if x.retired.isSome then { x with retired := none, retiring := none } else x
    (s.conv.state ≠ .idle → s.conv.state ≠ .pr → Does .coefGroupApply s (d.replyTo g.reply { status := 0x05 })) ∧
    (s.conv.state = .idle ∨ s.conv.state = .pr →
      (v.toNat ≠ 0xFFFF → (s.cell v.toNat).retired = none → Does .coefGroupApply s (d.replyTo g.reply { status := 0x04 })) ∧
      (v.toNat ≠ 0xFFFF → (s.cell v.toNat).retired ≠ none → Does .coefGroupApply s (done (d.setCell v.toNat back))) ∧
      (v.toNat = 0xFFFF → Does .coefGroupApply s (done { d with cells := s.cells.map back })))) ∧
  (∀ (s : State) (c v arm : Nat), s.arms.charge.length = 6 → s.arms.discharge.length = 6 → arm < 6 → c < s.cells.length →
    ((s.cell c).age = none → s.rankOk arm c = false) ∧
    (s.laneArm (c / 64) = arm → s.cellInUse c = true → s.laneUp (c / 64) = true → (s.cell c).retired = none → (s.cell c).take = false →
      c ∈ (s.applyReport c v).chargeOrder arm ∧ c ∈ (s.applyReport c v).dischargeOrder arm))

/-- From R211, R213: the close permit is given once setting has been in tolerance without a break for SET_DWELL; setting that has given none
within SET_TIMEOUT (0 is never) is aborted with reason 2. -/
def Obligations.SettingPermitsOrTimesOut : Prop :=
  ∀ s : State, s.Awake →
    (s.set.active = true → s.set.permit = false → s.cfgN Obj.SET_DWELL * 4000 < s.set.dwell →
      Does .setPermit s (State.post { s.clearOut with set := { s.set with permit := true, everPermit := true } } 0x2507 0xFF [])) ∧
    (s.set.active = false ∨ s.set.permit = true ∨ s.set.dwell ≤ s.cfgN Obj.SET_DWELL * 4000 → Idles .setPermit s) ∧
    (s.set.active = true → s.set.everPermit = false → s.cfg Obj.SET_TIMEOUT ≠ 0 →
      s.set.startTick + s.cfgN Obj.SET_TIMEOUT * 4000 ≤ s.tick.now →
      Does .setTimeout s (State.post { s.clearOut with set := { s.set with
        active := false, starting := false, permit := false, dwell := 0, releasing := !s.offsetsAtRest
        abortReason := 2, abortCount := s.set.abortCount + 1, abortedRos := true } } 0x250A 0xFF [2])) ∧
    (s.set.active = false ∨ s.set.everPermit = true ∨ s.cfg Obj.SET_TIMEOUT = 0 ∨
      s.tick.now < s.set.startTick + s.cfgN Obj.SET_TIMEOUT * 4000 → Idles .setTimeout s)

/-- From R207 to R209: a run of LIM_FILT samples of a new level, read after LIM_POL, changes the filtered input, counts the change, and more
than LIM_CHAT_N changes within LIM_CHAT_W latch the chatter; a shorter run changes nothing. The quiet time ends LIM_QUIET after the last
inactive change. The model's own: that the interval LIM_CHAT_W takes in both its ends is log entry 41. -/
def Obligations.LimitInputsAreFiltered : Prop :=
  ∀ (s : State) (n : Fin 8), s.Awake →
    (∀ (level : Bool) (run : Nat), max 1 (s.cfgN (Obj.LIM_FILT + n.val)) ≤ run → s.lim.filtered.length = 8 → s.lim.chatter.length = 8 →
      (level != (s.cfgN Obj.LIM_POL).testBit n.val) ≠ flag s.lim.filtered n.val →
      ∃ t, exec (.limEdge n level run) s = .next t ∧
        flag t.lim.filtered n.val = (level != (s.cfgN Obj.LIM_POL).testBit n.val) ∧ t.lim.changeCount = s.lim.changeCount + 1 ∧
        (∀ k, k ≠ n.val → flag t.lim.filtered k = flag s.lim.filtered k) ∧
        flag t.lim.chatter n.val = (flag s.lim.chatter n.val ||
          (s.cfgN Obj.LIM_CHAT_N ≠ 0 && decide (s.cfgN Obj.LIM_CHAT_N < (s.recentChanges n.val).length + 1))) ∧
        t.bal = s.bal ∧ t.conv = s.conv ∧ t.hands = s.hands ∧ t.objs = s.objs) ∧
    (∀ (level : Bool) (run : Nat), run < max 1 (s.cfgN (Obj.LIM_FILT + n.val)) ∨
      (level != (s.cfgN Obj.LIM_POL).testBit n.val) = flag s.lim.filtered n.val → Idles (.limEdge n level run) s) ∧
    (flag s.lim.quiet n.val = true → flag s.lim.filtered n.val = false →
      (s.lim.changes.getD n.val []).headD 0 + 4000 * s.cfgN (Obj.LIM_QUIET + n.val) ≤ s.tick.now →
      Does (.limQuietExpired n) s { s.clearOut with lim := { s.lim with quiet := s.lim.quiet.set n.val false } }) ∧
    (flag s.lim.quiet n.val = false → Idles (.limQuietExpired n) s)

/-- From R123 to R125, R133: a run of TRIP_FILT samples of the active combined value latches the trip input: it is counted, the first of a
series is noted, of edges in one sample the lowest, and where its mask of arms is not 0 the converter is asked in RUN for its move to READY at the next boundary. A run of the
inactive value ends the filtered input and leaves the latch. -/
def Obligations.TripInputsLatch : Prop :=
  ∀ (s : State) (n : TripIn) (pin same : Bool) (run : Nat), s.Awake → s.trips.latch.length = 16 → s.trips.filtered.length = 16 →
    s.trips.pin.length = 16 →
    ((pin != (s.cfgN Obj.TRIP_POL).testBit n.val) = true → flag s.trips.filtered n.val = false → s.cfgN (Obj.TRIP_FILT + n.val) ≤ run →
      ∃ t, exec (.tripEdge n pin ⟨run, same⟩) s = .next t ∧ flag t.trips.filtered n.val = true ∧ flag t.trips.latch n.val = true ∧
        t.trips.count = s.trips.count + 1 ∧ t.trips.first =
          (if s.trips.latch.any id then if same && s.trips.sampleFirst then min s.trips.first n.val else s.trips.first else n.val) ∧
        (∀ k, k ≠ n.val → flag t.trips.latch k = flag s.trips.latch k) ∧
        (s.cfgN (Obj.TRIP_ARMS + n.val) ≠ 0 → s.conv.state = .run → t.conv.tripMove = true) ∧
        (s.cfgN (Obj.TRIP_ARMS + n.val) = 0 ∨ s.conv.state ≠ .run → t.conv = s.conv) ∧ t.conv.state = s.conv.state ∧
        t.bal = s.bal ∧ t.esc = s.esc ∧ t.hands = s.hands ∧ t.objs = s.objs) ∧
    ((pin != (s.cfgN Obj.TRIP_POL).testBit n.val) = false → s.trips.intern.getD n.val 0 = 0 → flag s.trips.filtered n.val = true →
      s.cfgN (Obj.TRIP_FILT + n.val) ≤ run →
      Does (.tripInactiveEdge n pin run) s { s.clearOut with trips := { s.trips with
        pin := s.trips.pin.set n.val false, filtered := s.trips.filtered.set n.val false } })

/-- From R30, R31, R105: when every arm's cells have reached the precharge level in PRECHARGE, the converter goes to READY at the boundary of
the next tick, unless a PR demand acts there; otherwise nothing. -/
def Obligations.PrechargeCompletes : Prop :=
  ∀ s : State, s.Awake →
    (s.conv.state = .precharge → s.pair.role ≠ .standby → s.precharged = true →
      Does .prechargeComplete s { s.clearOut with conv := { s.conv with prechg := true } }) ∧
    (s.conv.state ≠ .precharge ∨ s.precharged = false ∨ s.pair.role = .standby → Idles .prechargeComplete s) ∧
    (s.conv.state = .precharge → s.conv.prechg = true → s.conv.reqs = [] → s.pair.role ≠ .standby → s.follows = none →
      (s.prDemand = false → s.resolve.conv.state = .ready) ∧ (s.prDemand = true → s.resolve.conv.state = .pr))

/-- From R162, R191 to R194, R287: a residue error at a step that carries the check and does not saturate, or a signature error, takes the
physical engine out of service in the tick that the next edge begins; with a spare in service the logical engine's migration to it starts, and without one the main die signals the kernel, whose switches
open. An error of a spare, as a failed test of it, puts the spare out of service. An engine that is out of service is not checked. -/
def Obligations.EngineFaultsMigrate : Prop :=
  (∀ (s : State) (p : EngineId) (n : Nat), s.Awake → s.esc.engines.length = 16 → s.esc.map.length = 16 → (s.esc.engine p.val).failed = false →
    s.esc.logicalOf p.val = n → s.esc.phys n = p.val → s.esc.migration = none →
    let failed : State := s.setEngine p.val fun e => { e with failed := true }
    (n ≤ 15 - s.cfgN Obj.SPARES →
      (∀ (step : ResidueStep) (slot : Nat) (rest : List Nat), failed.freeSlots = slot :: rest →
        (s.residueAt n step = true →
          ∃ t, exec (.engineResidueError p step) s = .next t ∧ (t.esc.engine p.val).failed = true ∧
            (t.esc.engine p.val).stopAt = some step.step ∧ (t.esc.engine p.val).failAt = some s.tick.next ∧
            t.esc.migration = some { logical := n, slot := slot, start := s.tick.next, byCommand := false, reply := none } ∧
            t.esc.residueCount = s.esc.residueCount + 1 ∧ t.esc.sigCount = s.esc.sigCount ∧ t.esc.map = s.esc.map ∧
            (∀ q, q ≠ p.val → t.esc.engine q = s.esc.engine q) ∧ t.bal = s.bal ∧ t.conv = s.conv ∧ t.objs = s.objs) ∧
        ∃ t, exec (.engineSignatureError p) s = .next t ∧ (t.esc.engine p.val).failed = true ∧ (t.esc.engine p.val).stopAt = none ∧
          (t.esc.engine p.val).failAt = some s.tick.next ∧
          t.esc.migration = some { logical := n, slot := slot, start := s.tick.next, byCommand := false, reply := none } ∧
          t.esc.sigCount = s.esc.sigCount + 1 ∧ t.esc.residueCount = s.esc.residueCount ∧ t.esc.map = s.esc.map ∧
          (∀ q, q ≠ p.val → t.esc.engine q = s.esc.engine q) ∧ t.bal = s.bal ∧ t.conv = s.conv ∧ t.objs = s.objs) ∧
      (failed.freeSlots = [] → ∀ step : ResidueStep, s.residueAt n step = true →
        ∃ t, exec (.engineResidueError p step) s = .next t ∧ (t.esc.engine p.val).failed = true ∧ t.esc.noSpare = s.esc.noSpare ++ [n] ∧
          t.esc.noSpareRos = true ∧ t.saf.mainDie = true ∧ t.prDemand = true ∧ t.saf.switches.any id = false) ∧
      (∀ step : ResidueStep, (step.saturates = true → s.residueAt n step = false) ∧ (s.residueAt n step = false → Idles (.engineResidueError p step) s)) ∧ Idles (.spareFault p) s) ∧
    (15 - s.cfgN Obj.SPARES < n →
      let out : State := State.post { s.clearOut with esc := { s.esc with
        engines := s.esc.engines.modify p.val (fun (e : Engine) => { e with failed := true }), spareFaultRos := true } } 0x2D07 p.val []
      Does (.spareFault p) s out ∧ (∀ step : ResidueStep, Does (.engineResidueError p step) s out) ∧ Does (.engineSignatureError p) s out)) ∧
  (∀ (s : State) (p : EngineId) (step : ResidueStep), s.Awake → (s.esc.engine p.val).failed = true →
    Idles (.engineResidueError p step) s ∧ Idles (.engineSignatureError p) s ∧ Idles (.spareFault p) s)

/-- From R192, R193: 73 ticks after the fault the spare goes live with the mirrored locals, tag and law states of the failed engine, which is
left in the spare's slot; before that nothing happens. The model's own: how the map changes is log entry 20; that the states of the
laws are mirrored and restored with them, and that engine 1 carries those of the fusee, is log entry 6. -/
def Obligations.MigrationEnds : Prop :=
  ∀ (s : State) (m : Migration), s.Awake → s.esc.migration = some m → s.esc.engines.length = 16 → s.esc.map.length = 16 →
    (m.start + 73 ≤ s.tick.next → m.logical ≠ m.slot → m.logical < 16 → m.slot < 16 → s.esc.phys m.slot < 16 →
      s.esc.groups = [] → s.esc.waiting = [] → m.reply = none →
      let back := s.restoreLaws m.logical
      ∃ t, exec .migrateEnd s = .next t ∧ t.esc.migration = none ∧ t.esc.migrateCount = s.esc.migrateCount + 1 ∧
        t.esc.phys m.logical = s.esc.phys m.slot ∧ t.esc.phys m.slot = s.esc.phys m.logical ∧
        (t.esc.engine (s.esc.phys m.slot)).locals = (s.esc.engine (s.esc.phys m.logical)).mLocals ∧
        (t.esc.engine (s.esc.phys m.slot)).tag = (s.esc.engine (s.esc.phys m.logical)).mTag ∧
        (∀ q, q ≠ s.esc.phys m.slot → t.esc.engine q = s.esc.engine q) ∧
        t.bal = back.bal ∧ t.loops = back.loops ∧ t.fus = back.fus ∧ t.set = back.set ∧ t.hands = back.hands ∧
        (m.logical = 1 → t.bal.dw = s.esc.lawMirror.dw ∧ t.bal.pf = s.esc.lawMirror.pf) ∧ t.conv = s.conv ∧ t.objs = s.objs) ∧
    (s.tick.next < m.start + 73 → Idles .migrateEnd s)

/-- From R185, R186: the first group of the queue applies at the first boundary two ticks or more after its acceptance, one group a tick; a
group of one coefficient writes exactly that step of that bank, and its command is answered OK with the tick. The model's own: the tick that
is answered is log entry 21. -/
def Obligations.CoefficientGroupApplies : Prop :=
  ∀ (s : State) (g : Group) (rest : List Group), s.Awake → s.esc.groups = g :: rest → s.esc.migration = none → s.esc.waiting = [] →
    s.esc.noSpare = [] → s.schedGroupDue = false →
    (g.acc + 2 ≤ s.tick.next → s.esc.groupTick ≠ some s.tick.next → ∀ (bankB : Bool) (engine step : Nat) (w : DWord),
      g.items = [.coef bankB engine step w] → g.move = none →
      Does .coefGroupApply s (State.replyTo { s.clearOut with esc := { s.esc with
        groups := rest, groupTick := some s.tick.next, coefLast := s.tick.next
        bankA := if bankB then s.esc.bankA else s.esc.bankA.setStep engine step w
        bankB := if bankB then s.esc.bankB.setStep engine step w else s.esc.bankB } } g.reply (Ans.ok (beBytes 8 s.tick.next)))) ∧
    (s.tick.next < g.acc + 2 ∨ s.esc.groupTick = some s.tick.next → Idles .coefGroupApply s)

/-- From R188, R256: a pending swap makes the inactive bank active at the first boundary from its due tick on, where no group waits, and not
before its due tick, nor while a migration runs or waits, nor a second time in one tick. The model's own: the order of group and swap is log entry 21. -/
def Obligations.BankSwapActs : Prop :=
  ∀ (s : State) (w : Swap), s.Awake → s.esc.swap = some w →
    (w.due ≤ s.tick.next → s.esc.migration = none → s.esc.waiting = [] → s.esc.groups = [] →
      (s.esc.swapTick ≠ s.tick.next ∨ s.esc.swapCount = 0) →
      Does .tableSwapApply s (State.replyTo (State.postAt { s.clearOut with esc := { s.esc with
        activeB := !s.esc.activeB, swap := none, swapCount := s.esc.swapCount + 1, swapTick := s.tick.next } } s.tick.next 0x2D03 0xFF
        (beBytes 8 w.due)) w.reply (Ans.ok (beBytes 8 s.tick.next)))) ∧
    (s.tick.next < w.due ∨ s.esc.migration.isSome = true ∨ s.esc.waiting ≠ [] ∨ (s.esc.swapTick = s.tick.next ∧ s.esc.swapCount ≠ 0) →
      Idles .tableSwapApply s)

/-- From R176, R184, R371: an image whose header is malformed is answered RANGE, one whose CRC is wrong CRC, and neither changes a bank; one
that the verifier rejects empties the inactive bank; any other fills the inactive bank with its tables, bound from the present objects. The
active bank stays, and the report's length is kept. The model's own: the readings of the verifier are log entry 19, and whether the image
conforms is log entry 6. -/
def Obligations.LoadedImageIsVerified : Prop :=
  ∀ (s : State) (v : Verify), s.Awake → s.esc.verify = some v →
    let id := beBytes 4 (fieldAt v.image 0x10 4)
    let s0 : State := { s.clearOut with esc := { s.esc with verify := none } }
    let im := imageOf v.image
    let r := verifyReport s0 im (s.cfgN Obj.SPARES)
    let s1 : State := { s0 with esc := { s0.esc with verifyFails := r.length, verifyFirst := firstEntry r } }
    let bank : Bank := { tables := im.tables, binds := im.binds, loaded := im.tables.any EngTable.nonEmpty, verified := true, fit := repFit r
                         id := BitVec.ofNat 32 im.id, sigs := im.tables.map EngTable.signature, conforms := v.conforms }
    (imageHeaderOk v.image = false → Does .tableVerifyDone s ((s0.post 0x2D02 0xFF id).replyTo v.reply (Ans.st stRange))) ∧
    (imageHeaderOk v.image = true → imageCrcOk v.image = false →
      Does .tableVerifyDone s ((s0.post 0x2D02 0xFF id).replyTo v.reply (Ans.st stCrc))) ∧
    (imageHeaderOk v.image = true → imageCrcOk v.image = true → repRejects r = true →
      ∃ t, exec .tableVerifyDone s = .next t ∧ t.esc.inactive = {} ∧ t.esc.active = s.esc.active ∧ t.esc.verify = none ∧
        t.esc.verifyFails = r.length ∧ t.bal = s.bal ∧ t.conv = s.conv ∧ t.objs = s.objs) ∧
    (imageHeaderOk v.image = true → imageCrcOk v.image = true → repRejects r = false →
      ∃ t, exec .tableVerifyDone s = .next t ∧ t.esc.inactive = s1.bindAll bank ∧ t.esc.active = s.esc.active ∧ t.esc.verify = none ∧
        t.esc.verifyFails = r.length ∧ t.bal = s.bal ∧ t.conv = s.conv ∧ t.objs = s.objs)

/-- From R253, R255, R256: the one pending action, accepted two ticks or more before, acts at the boundary of its due tick: a CONV_STATE
puts its request to the converter for that boundary, with its lateness; with DISCARD it is dropped, counted and logged when that tick has passed. Before its
tick it does nothing. The model's own: one action a row is log entry 26. -/
def Obligations.ScheduledActionActs : Prop :=
  ∀ (s : State) (a : Action) (d : Nat) (k : SchedKey) (target : Byte), s.Awake → s.sched.pending = [a] → a.due = some d →
    a.cmd = .convState k target →
    (s.lateness d a).ticks = s.tick.next - d ∧
    (a.acc + 2 ≤ s.tick.next → d ≤ s.tick.next → (keyDiscard a.key = false ∨ d = s.tick.next) →
      Does .schedActionDue s { s.clearOut with
        sched := { s.sched with pending := [] }
        conv := { s.conv with reqs := s.conv.reqs ++ [{ target := convOf target.toNat, reply := none
                                                        sched := some (a.id, s.actionFlags d a, s.lateness d a) }] } }) ∧
    (a.acc + 2 ≤ s.tick.next → d < s.tick.next → keyDiscard a.key = true →
      Does .schedActionDue s (State.postAt { s.clearOut with
        sched := { s.sched with pending := [], discardCount := s.sched.discardCount + 1, lateRos := true } } s.tick.next 0x270B 0xFF
        (beBytes 4 a.id))) ∧
    (s.tick.next < d ∨ s.tick.next < a.acc + 2 → Idles .schedActionDue s)

/-- From R266 to R268: with its last post row taken, the record is closed and kept, and the chronograph goes to HOLD-OFF with REPEAT, else
to IDLE; after the hold-off, which counts from the record's last row, it is armed again in a free slot, and where no slot is free and unread records are kept it says so once. R281:
at the boundary that starts a rate-limit window the accounts of the last one are closed: a source that had suppressed occurrences gives one
SUPPRESSED entry that names the first and last code and carries the number; away from that boundary nothing happens. The model's own: which
row closes what is log entries 27 and 28. -/
def Obligations.RecordsAndLogWindowsClose : Prop :=
  (∀ s : State, s.Awake →
    (∀ r : Record, s.chr.state = .recording → s.chr.postLeft = 0 → s.chr.cur = some r →
      Does .chrRecordDone s (State.post { s.clearOut with chr := { s.chr with
        state := if s.chr.repeatOpt then .holdoff else .idle, armId := if s.chr.repeatOpt then s.chr.armId else 0, cur := none
        records := s.chr.records ++ [r], lastId := r.id, closedTick := r.lastTick, eventsInHold := 0, postLeft := 0 } } 0x2803 0xFF (beBytes 4 r.id ++ beBytes 2 r.flags))) ∧
    (s.chr.state ≠ .recording ∨ s.chr.postLeft ≠ 0 → Idles .chrRecordDone s) ∧
    (s.chr.state = .holdoff → s.chr.disarm = false → s.chrView.cfgN Obj.CHR_HOLDOFF_MODE ≠ 1 →
      s.chr.closedTick + s.chrView.cfgN Obj.CHR_HOLDOFF * 4000 ≤ s.tick.next →
      (s.chr.records.length < s.chrView.cfgN Obj.CHR_SLOTS →
        ∃ t, exec .chrHoldoffExpired s = .next t ∧ t.chr.state = .armed ∧ t.chr.armId = s.chr.armId ∧ t.chr.repeatOpt = s.chr.repeatOpt ∧
          t.chr.records = s.chr.records ∧ t.chr.ring = [] ∧ t.chr.overwrites = s.chr.overwrites ∧ t.bal = s.bal ∧ t.conv = s.conv ∧
          t.objs = s.objs) ∧
      (s.chrView.cfgN Obj.CHR_SLOTS ≤ s.chr.records.length → s.chrView.cfgB Obj.CHR_OVERWRITE_UNREAD = false → s.chr.full = false →
        Does .chrHoldoffExpired s (State.post { s.clearOut with chr := { s.chr with full := true } } 0x2805 0xFF []))) ∧
    (s.chr.state ≠ .holdoff ∨ s.chr.disarm = true → Idles .chrHoldoffExpired s)) ∧
  (∀ s : State, s.Awake → (∀ w ∈ s.waiting, w.point ≠ .logWindow) →
    (s.tick.next % (s.cfgN Obj.LOG_PERIOD * 4000) = 0 →
      ((∀ a ∈ s.log.acc, a.suppressed = 0) → Does .logWindowEnd s { s.clearOut with log := { s.log with acc := [] } }) ∧
      ∀ a : RateAcc, s.log.acc = [a] → a.suppressed ≠ 0 →
        Does .logWindowEnd s { s.clearOut with log := { s.log.push { made := s.tick.now, tick := a.firstTick, time := s.timeOf a.firstTick, code := 0x2C01
                                                                     cls := a.cls, inst := a.src
                                                                     data := beBytes 2 a.firstCode ++ beBytes 2 a.lastCode
                                                                     rpt := a.suppressed, lastTick := a.lastTick } with acc := [] } }) ∧
    (s.tick.next % (s.cfgN Obj.LOG_PERIOD * 4000) ≠ 0 → Idles .logWindowEnd s))

/-- From R225, R226: a window boundary closes the window in progress, whose results are due at the second edge after it, and opens the next
one at the same instant, found from the angle, the step and the anchor; in fall-back none is opened. There is a boundary only where the window
angle has passed WIN_ANCHOR in its forward rotation, and none while the integrating path does not run. The model's own: the
row says which way the instant is rounded to 1/2048 tick (log entry 22). -/
def Obligations.WindowBoundaryTurnsWindows : Prop :=
  ∀ (s : State) (up : Bool), s.Awake →
    let at_ := s.turnedBy up (BitVec.ofNat 64 (s.cfgN Obj.WIN_ANCHOR * 2 ^ 32) - s.winAngle.1).toNat
    (s.pwr.entry = none → s.meas.vanaOk = true → s.pwr.anaOk = true → s.anchorPassed = true → s.meas.lastBound < (s.tick.now - 1) * 2048 →
      s.meas.winFb = false → (∀ w ∈ s.waiting, w.point ≠ .window) →
      ∃ t, exec (.windowBoundary up) s = .next t ∧ t.meas.lastBound = at_ ∧
        (s.meas.vanaLow = false → t.meas.winOpen = true ∧ t.meas.winStart = at_ ∧ t.meas.winFb = false) ∧
        (s.meas.vanaLow = true → t.meas.winOpen = false) ∧
        (s.meas.winOpen = true → t.meas.endTick = some (at_ / 2048 + 2) ∧ t.meas.endStart = s.meas.winStart ∧ t.meas.endFrac = at_ ∧
          t.meas.endScale = (List.range 24).map fun n => s.cfg (Obj.AI_SCALE + n)) ∧
        (s.meas.winOpen = false → t.meas.endTick = s.meas.endTick ∧ t.meas.endFrac = s.meas.endFrac) ∧
        t.meas.results = s.meas.results ∧ t.meas.winCount = s.meas.winCount ∧ t.meas.expE = s.meas.expE ∧ t.meas.impE = s.meas.impE ∧
        t.bal = s.bal ∧ t.conv = s.conv ∧ t.objs = s.objs) ∧
    (s.meas.vanaOk = false ∨ s.pwr.anaOk = false ∨ s.anchorPassed = false → Idles (.windowBoundary up) s)

/-- From R226, R228: the results of a closed window are due at the second edge after its end: they stand in the result words, the window is
counted, and its exchanged energy is added to one of the two counters over the time from the end of the last counted window, a gap being
marked as estimated. Lists that do not carry one result and one overload for each input are a fault of form. The model's own: the gap's power is log entry
22; TRMS is formed from the fast samples of the window, free where it has none (log entry 55). -/
def Obligations.WindowResultsStand : Prop :=
  ∀ (s : State) (ovl : List Bool) (ai : List AiWindow) (k : Nat), s.Awake →
    (ovl.length = 24 → ai.length = 24 → s.meas.endTick = some k → k ≤ s.tick.next → s.meas.endStart ≤ s.meas.endFrac →
      ∃ t, exec (.windowResult ovl ai) s = .next t ∧ t.meas.endTick = none ∧ t.meas.fresh = true ∧
        t.meas.winLen = s.meas.endFrac - s.meas.endStart ∧ t.meas.winCount = s.meas.winCount + 1 ∧ t.meas.results.length = 24 ∧
        (∀ (n : Nat) (a : AiWindow), ai[n]? = some a → ∃ trms : Nat, t.meas.results[n]? = some
          { mean := resultWord a.mean (s.meas.inputFlags ovl n), ip := resultWord a.ip (s.meas.inputFlags ovl n)
            qd := resultWord a.qd (s.meas.inputFlags ovl n), trms := trms } ∧
          (0 < s.meas.endFast.weight →
            trms = Nat.sqrt (floorDiv (s.meas.endFast.square.getD n 0) s.meas.endFast.weight).toNat / 64000)) ∧
        t.meas.lastCounted = some s.meas.endFrac ∧
        (let e := t.meas.winP * s.cfg Obj.S_BASE * ((s.meas.endFrac : Int) - (s.meas.lastCounted.getD s.meas.endStart : Nat))
         t.meas.expE = s.meas.expE + max 0 e ∧ t.meas.impE = s.meas.impE + max 0 (-e)) ∧
        (s.meas.lastCounted.getD s.meas.endStart ≠ s.meas.endStart → t.meas.energyRos = true) ∧
        t.bal = s.bal ∧ t.conv = s.conv ∧ t.objs = s.objs) ∧
    (ovl.length = 24 → ai.length = 24 → s.meas.endTick = none → Idles (.windowResult ovl ai) s) ∧
    (ovl.length ≠ 24 ∨ ai.length ≠ 24 → exec (.windowResult ovl ai) s = .fault .illFormed)

/-- From R232: in fall-back the integrating converter powers up at a boundary once WIN_FB_EVERY turns have passed, and not while it is up or
a window is open. R233, R379: VANA below 10.8 V for 10 µs ceases to be present: the reference settles anew, the loss is logged, and in RUN
and SCS the trip input that MEAS_TRIP_INPUT then names is asserted; above 11.0 V it is present again. Below 11.7 V the module takes the low
range, above 11.8 V it leaves it. VANA that comes late at a power-up is noted once. R231: a reading of REF_IN outside 2.4 V to 2.6 V loses
the settled reference at once, logged once an excursion; a settled reference that moves by more than 20 ppm of its mean settles anew; a
reading that stays keeps it. While the integrating path does not run nothing is checked. The model's own: REF_LOST once an excursion is log
entry 23. -/
def Obligations.SupplyAndReferenceAreWatched : Prop :=
  ((∀ s : State, s.Awake → s.pwr.entry = none →
    (s.meas.vanaOk = true → s.pwr.anaOk = true → s.meas.vanaLow = true → s.anchorPassed = true → s.meas.winOpen = false → s.meas.fbPowered = false →
      s.cfgN Obj.WIN_FB_EVERY ≤ s.meas.fbTurns →
      Does .fallbackPowerUp s { s.clearOut with meas := { s.meas with fbPowered := true, fbPowerAt := s.meas.lastBound, fbTurns := 0 } }) ∧
    (s.meas.vanaOk = false ∨ s.pwr.anaOk = false ∨ s.meas.vanaLow = false ∨ s.anchorPassed = false ∨ s.meas.winOpen = true ∨ s.meas.fbPowered = true ∨
      s.meas.fbTurns < s.cfgN Obj.WIN_FB_EVERY → Idles .fallbackPowerUp s)) ∧
  (∀ (s : State) (mv ticks : Nat), s.Awake → s.pwr.entry = none →
    (s.meas.vanaOk = true → mv < 10800 → 40 ≤ ticks → s.meas.winOpen = false →
      Does (.vanaLost mv ticks) s (State.post { s.clearOut with pwr := { s.pwr with anaOk := false }, meas := { s.meas with
        vanaOk := false, vanaMv := mv, refSettled := false, refReadings := [], fbPowered := false
        vanaAssert := if (s.conv.state = .run ∨ s.conv.state = .scs) ∧ s.cfgN Obj.MEAS_TRIP_INPUT < 16 then [s.cfgN Obj.MEAS_TRIP_INPUT] else [] } } 0x2604 0xFF [])) ∧
    (s.meas.vanaOk = false ∨ 10800 ≤ mv ∨ ticks < 40 → Idles (.vanaLost mv ticks) s) ∧
    (s.meas.vanaOk = false → 11000 < mv → 40 ≤ ticks → s.pwr.started = true →
      Does (.vanaPresent mv ticks) s { s.clearOut with
        meas := { s.meas with vanaOk := true, vanaMv := mv, vanaAssert := [] }, pwr := { s.pwr with anaOk := true } }) ∧
    (s.meas.vanaOk = false → (mv ≤ 11000 ∨ ticks < 40) → Idles (.vanaPresent mv ticks) s) ∧
    (40 ≤ ticks → (s.meas.vanaLow = false ∧ mv < 11700) ∨ (s.meas.vanaLow = true ∧ 11800 < mv) →
      Does (.vanaLowChange mv ticks) s { s.clearOut with meas := { s.meas with vanaLow := !s.meas.vanaLow, vanaMv := mv } }) ∧
    (ticks < 40 ∨ (s.meas.vanaLow = false ∧ 11700 ≤ mv) ∨ (s.meas.vanaLow = true ∧ mv ≤ 11800) → Idles (.vanaLowChange mv ticks) s) ∧
    (s.meas.vanaOk = false → s.pwr.lateVana = false → (s.feed.aPresent = true ∨ s.feed.bPresent = true) →
      Does .vanaOrder s (State.post { s.clearOut with pwr := { s.pwr with lateVana := true, vanaOrderRos := true } } 0x2B09 0xFF [])) ∧
    (s.meas.vanaOk = true ∨ s.pwr.lateVana = true → Idles .vanaOrder s))) ∧
  (∀ (s : State) (r : Int), s.Awake →
    (s.meas.vanaOk = true → s.pwr.anaOk = true → s.meas.refInUse = 1 → (r < 2400000000 ∨ 2600000000 < r) →
      (s.meas.refLost = false → Does (.refMonitorCheck r) s (State.post { s.clearOut with meas := { s.meas with
        refSettled := false, refReadings := [], refLost := true, refLostRos := true } } 0x2603 0xFF [])) ∧
      (s.meas.refLost = true → Does (.refMonitorCheck r) s { s.clearOut with meas := { s.meas with
        refSettled := false, refReadings := [], refLost := true, refLostRos := true } })) ∧
    (s.meas.vanaOk = true → s.pwr.anaOk = true → (s.meas.refInUse ≠ 1 ∨ (2400000000 ≤ r ∧ r ≤ 2600000000)) → s.meas.refSettled = true →
      (20 * s.meas.refMean < |r - s.meas.refMean| * 1000000 →
        Does (.refMonitorCheck r) s { s.clearOut with meas := { s.meas with refSettled := false, refReadings := [r], refLost := false } }) ∧
      (|r - s.meas.refMean| * 1000000 ≤ 20 * s.meas.refMean →
        Does (.refMonitorCheck r) s { s.clearOut with meas := { s.meas with refLost := false } })) ∧
    (s.meas.vanaOk = false ∨ s.pwr.anaOk = false → Idles (.refMonitorCheck r) s))

/-- From R139, R144, R147, R152, R157: a lane in OFF takes no frame; blocks that do not read as a frame with its check are counted, as each
block error is, and give nothing; a frame that names another lane takes SEEK, SYNC or UP to FAULT (CROSSED); the sixteenth IDENT frame in a row
in SEEK takes the identity and the lane to SYNC; a TELEM report whose VALID bit is set and that tells of no fault gives its cell its voltage
and a new age. -/
def Obligations.UplinkFramesAreTaken : Prop :=
  ∀ (s : State) (l : LaneId) (arrival : Nat) (bs : List LaneBlock), s.Awake → s.lanes.length = 48 → s.cells.length = 3072 →
    ((s.lane l.val).state = .off → Idles (.uplinkFrameRx l ⟨arrival, bs⟩) s) ∧
    ((s.lane l.val).state ≠ .off → readUplink bs = none → Does (.uplinkFrameRx l ⟨arrival, bs⟩) s (s.clearOut.setLane l.val fun (x : Lane) =>
      { x with rxSync := x.rxSync + (bs.filter blockBad).length, rxCrc := x.rxCrc + 1, identRun := 0 })) ∧
    ∀ f : UplinkFrame, readUplink bs = some f →
      (f.body ≠ .keepalive → f.laneField.toNat ≠ l.val →
        ((s.lane l.val).state = .seek ∨ (s.lane l.val).state = .sync ∨ (s.lane l.val).state = .up) →
        ∃ t, exec (.uplinkFrameRx l ⟨arrival, bs⟩) s = .next t ∧ (t.lane l.val).state = .fault ∧ (t.lane l.val).reason = 2 ∧
          (∀ k, k ≠ l.val → (t.lane k).state = (s.lane k).state) ∧ t.bal = s.bal ∧ t.conv = s.conv ∧ t.objs = s.objs) ∧
      (∀ w1 w2 : DWord, f.body = .ident w1 w2 → f.laneField.toNat = l.val → (s.lane l.val).state = .seek → (s.lane l.val).identRun = 15 →
        ∃ t, exec (.uplinkFrameRx l ⟨arrival, bs⟩) s = .next t ∧ (t.lane l.val).state = .sync ∧ (t.lane l.val).product = DWord.bits w1 63 32 ∧
          (t.lane l.val).serial = DWord.bits w1 31 0 ∧ (t.lane l.val).maxCells = DWord.bits w2 63 57 ∧
          (t.lane l.val).maxExec = DWord.bits w2 56 48 ∧ (∀ k, k ≠ l.val → (t.lane k).state = (s.lane k).state) ∧
          t.bal = s.bal ∧ t.conv = s.conv ∧ t.objs = s.objs) ∧
      (∀ (ws : List Word) (j : Nat) (w : Word), f.body = .telem ws → f.laneField.toNat = l.val → (s.lane l.val).state = .up →
        ws[j]? = some w → w.toNat / 2 ^ 26 = 4 * (f.tick.toNat % 16) + j → 4 * (f.tick.toNat % 16) + j < s.laneCells l.val →
        w.getLsbD 7 = true → w.getLsbD 6 = false → w.getLsbD 4 = s.laneFb l.val →
        ∃ t, exec (.uplinkFrameRx l ⟨arrival, bs⟩) s = .next t ∧
          (t.cell (l.val * 64 + 4 * (f.tick.toNat % 16) + j)).vcap = w.toNat / 2 ^ 8 % 2 ^ 16 ∧
          (t.cell (l.val * 64 + 4 * (f.tick.toNat % 16) + j)).age = some 0 ∧
          (t.cell (l.val * 64 + 4 * (f.tick.toNat % 16) + j)).applied = appliedState w ∧
          (∀ c, c / 64 ≠ l.val → (t.cell c).vcap = (s.cell c).vcap ∧ (t.cell c).age = (s.cell c).age) ∧
          t.bal = s.bal ∧ t.conv = s.conv ∧ t.objs = s.objs)

/-- From R141, R142, R152: a complete set of 256 delay measurements whose spread is small gives LANE_DELAY and, where the delay, the cells
and their type fit, takes the lane from SYNC to UP; a delay that is too long is FAULT 1. A lane in UP falls back to SEEK after 64 ticks
without a valid frame, and to SYNC when its filtered delay has stayed far for 16 superframes. Both falls are counted. The model's own: the
rounding of the delay is log entry 14. -/
def Obligations.LanesComeUpAndFall : Prop :=
  ∀ (s : State) (l : LaneId), s.Awake → s.lanes.length = 48 →
    let x := s.lane l.val
    let d := roundDiv x.setSum 512
    (x.state = .sync → 256 ≤ x.setN → x.setMax - x.setMin ≤ 16 →
      (d ≤ (s.cfgN Obj.EXEC_DELAY * 20625 : Nat) - 8250 → s.laneCells l.val ≤ x.maxCells → s.cfgN Obj.EXEC_DELAY ≤ x.maxExec →
        (if s.laneFb l.val then x.fbOk else x.hbOk) = true →
        ∃ t, exec (.laneDelaySet l) s = .next t ∧ (t.lane l.val).state = .up ∧ (t.lane l.val).delay = d ∧ (t.lane l.val).filt = d * 2 ^ 16 ∧
          (∀ k, k ≠ l.val → (t.lane k).state = (s.lane k).state ∧ (t.lane k).delay = (s.lane k).delay) ∧
          t.bal = s.bal ∧ t.conv = s.conv ∧ t.objs = s.objs) ∧
      ((s.cfgN Obj.EXEC_DELAY * 20625 : Nat) - (8250 : Int) < d →
        ∃ t, exec (.laneDelaySet l) s = .next t ∧ (t.lane l.val).state = .fault ∧ (t.lane l.val).reason = 1 ∧
          (∀ k, k ≠ l.val → (t.lane k).state = (s.lane k).state) ∧ t.bal = s.bal ∧ t.conv = s.conv ∧ t.objs = s.objs)) ∧
    (x.state ≠ .sync ∨ x.setN < 256 → Idles (.laneDelaySet l) s) ∧
    (x.state = .up → 64 ≤ x.missRun →
      ∃ t, exec (.laneRxTimeout l) s = .next t ∧ (t.lane l.val).state = .seek ∧ (t.lane l.val).downCount = x.downCount + 1 ∧
        (∀ k, k ≠ l.val → (t.lane k).state = (s.lane k).state) ∧ t.bal = s.bal ∧ t.conv = s.conv ∧ t.objs = s.objs) ∧
    (x.state ≠ .up ∨ x.missRun < 64 → Idles (.laneRxTimeout l) s) ∧
    (x.state = .up → 16 ≤ x.far →
      ∃ t, exec (.delayStep l) s = .next t ∧ (t.lane l.val).state = .sync ∧ (t.lane l.val).downCount = x.downCount + 1 ∧
        (∀ k, k ≠ l.val → (t.lane k).state = (s.lane k).state) ∧ t.bal = s.bal ∧ t.conv = s.conv ∧ t.objs = s.objs) ∧
    (x.state ≠ .up ∨ x.far < 16 → Idles (.delayStep l) s)

/-- From R238: a source that misses two edges is lost and is good again after 10 ms of clean edges. When the source in use is lost, the loop
switches to the other good one, counted and logged, and the tick goes on; when there is none, the loop unlocks and its outputs are gated
off. R244: in ramp mode the first queued ramp starts at the next tick boundary from the present offset, one at a time. -/
def Obligations.ReferencesSwitchAndRampsStart : Prop :=
  (∀ (s : State) (r : Bool) (n : Nat), s.Awake →
    (2 ≤ n → s.reg.refclk = false → s.reg.ocxoOk = true → s.reg.refclkOk = true →
      Does (.refLoss false n) s (State.post (State.condEvent { s.clearOut with reg := { s.reg with
        ocxoOk := false, refclk := true, refRos := true, refSwitches := s.reg.refSwitches + 1 } } 56) 0x2701 0xFF [1])) ∧
    (2 ≤ n → s.reg.refclk = true → s.reg.ocxoOk = true → s.reg.refclkOk = true →
      Does (.refLoss true n) s (State.post (State.condEvent { s.clearOut with reg := { s.reg with
        refclkOk := false, refclk := false, refRos := true, refSwitches := s.reg.refSwitches + 1 } } 56) 0x2701 0xFF [0])) ∧
    (2 ≤ n → s.reg.good r = true → s.reg.refclk = r → s.reg.good (!r) = false → (∀ w ∈ s.waiting, w.point ≠ .stateChange) →
      ∃ t, exec (.refLoss r n) s = .next t ∧ t.reg.gated = true ∧ t.reg.locked = false ∧ t.reg.lockLoss = s.reg.lockLoss + 1 ∧
        t.reg.lockLostRos = true ∧ t.chr.state = .idle) ∧
    (2 ≤ n → s.reg.good r = true → s.reg.refclk ≠ r →
      Does (.refLoss r n) s { s.clearOut with reg := if r then { s.reg with refclkOk := false } else { s.reg with ocxoOk := false } }) ∧
    (n < 2 ∨ s.reg.good r = false → Idles (.refLoss r n) s) ∧
    (10000 ≤ n → Does (.refGood r n) s
      { s.clearOut with reg := if r then { s.reg with refclkOk := true } else { s.reg with ocxoOk := true } }) ∧
    (n < 10000 → Idles (.refGood r n) s)) ∧
  (∀ s : State, s.Awake →
    (∀ (r : Ramp) (rest : List Ramp), s.reg.rampQ = r :: rest → s.reg.ramp = true → s.reg.rampRun = none →
      Does .rampStart s { s.clearOut with reg := { s.reg with rampQ := rest, rampRun := some (s.reg.offs, r, s.tick.next) } }) ∧
    (s.reg.rampQ = [] ∨ s.reg.ramp = false ∨ s.reg.rampRun.isSome = true → Idles .rampStart s))

/-- From R240 to R242: LOCK_S that rises through 2.0 V declares lock, where its rise began below 0.5 V only within 0.5 ms to 1.5 ms, and
releases the outputs; the first tick's number follows the always-on count, never below the next one; a rise outside that time only sets and
logs the filter fault. A phase error beyond 2 ns is a slip, which gates the outputs off, and one within 1 ns drives LOCK_A high, but not in
the 2 ms after a slip; LOCK_S below
1.8 V declares the loss of lock. The model's own: that LOCK_S below 1.8 V gates nothing is log entry 25. -/
def Obligations.LockIsDeclaredAndLost : Prop :=
  ∀ s : State, s.pwr.inReset = false → s.pwr.state = .s0 → (∀ w ∈ s.waiting, w.point ≠ .stateChange) →
    (∀ (us : Nat) (aon : Option Nat), s.reg.gated = true → s.reg.locked = false → (s.reg.low = false ∨ (500 ≤ us ∧ us ≤ 1500)) →
      ∃ t, exec (.regLockDeclared us aon) s = .next t ∧ t.reg.locked = true ∧ t.reg.gated = false ∧ t.reg.lockA = true ∧ t.reg.slipped = false ∧
        t.reg.low = false ∧ t.tick.now = s.tick.now ∧ (s.tick.started = false → t.tick.next = s.tick.next) ∧
        (s.tick.started = true → (s.reg.aonLost = true ∨ aon = none) → t.tick.next = s.tick.now + 1) ∧
        (∀ u, s.tick.started = true → s.reg.aonLost = false → aon = some u →
          t.tick.next = max (s.tick.now + 1) (s.tick.now + 40 * u / 250) ∧
          t.reg.skipped = s.reg.skipped + (t.tick.next - (s.tick.now + 1)))) ∧
    (∀ c : RefCycle, 2000 < c.errorPs →
      ∃ t, exec (.regSlip c) s = .next t ∧ t.reg.gated = true ∧ t.reg.locked = false ∧ t.reg.lockA = false ∧ t.reg.slipped = true ∧
        t.reg.lockLoss = s.reg.lockLoss + 1 ∧ t.reg.lockLostRos = true ∧ t.tick = s.tick ∧ t.meas.winOpen = false) ∧
    (s.reg.gated = false → s.saf.tickMissing = false →
      (∀ (us : Nat) (aon : Option Nat), s.reg.locked = false → s.reg.low = true → (us < 500 ∨ 1500 < us) →
        Does (.regLockDeclared us aon) s (State.post { s.clearOut with reg := { s.reg with filterRos := true, low := false } } 0x2702 0xFF [])) ∧
      (∀ (us : Nat) (aon : Option Nat), s.reg.locked = true → Idles (.regLockDeclared us aon) s) ∧
      (∀ c : RefCycle, c.errorPs ≤ 2000 → Does (.regSlip c) s { s.clearOut with reg := { s.reg with
        lockA := decide (c.errorPs ≤ 1000) && (!s.reg.slipped || decide (2000 ≤ c.sinceUs)) } }) ∧
      (∀ mv : Nat, mv < 1800 → Does (.lockLossDeclared mv) s
        { s.clearOut with reg := { s.reg with locked := false, low := s.reg.low || decide (mv < 500) } }) ∧
      (∀ mv : Nat, 1800 ≤ mv → Idles (.lockLossDeclared mv) s))

/-- From R249, R250: each Sync adds its offset, less the link's asymmetry, to the last eight; eight that lie within 1 µs of their median
take FREE to LOCKED in small-step mode, and the first time ask for the one step by that median; in LOCKED the servo takes the median of
five. Without a master, in MASTER, in another domain or with the port off a Sync does nothing. The model's own: the median and the bound of
the tuning word are log entry 24. -/
def Obligations.SyncDrivesTheTimeState : Prop :=
  ∀ (s : State) (domain iv : Nat) (measured ratio : Int), s.Awake → s.pwr.entry = none →
    (s.cfgN Obj.PTP_MODE ≠ 0 → s.cfgN Obj.PTP_DOMAIN = domain → s.time.gmPresent = true → s.time.master = false →
      let o := measured - s.cfg Obj.PTP_ASYM
      let offs8 := (o :: s.time.offs8).take 8
      (s.time.state ≠ .locked → s.reg.ramp = false → offs8.length = 8 → (∀ x ∈ offs8, |x - median offs8| ≤ 1000) →
        ∃ t, exec (.ptpSyncRx domain iv measured ratio) s = .next t ∧ t.time.state = .locked ∧ t.time.offs8 = offs8 ∧
          t.time.epoch = s.time.epoch ∧ t.tick = s.tick ∧
          (s.time.state = .free → s.time.stepDone = false → s.time.stepPending = none → t.time.stepPending = some (median offs8)) ∧
          (s.time.state = .holdover ∨ s.time.stepDone = true → t.time.stepPending = s.time.stepPending) ∧ t.bal = s.bal ∧ t.conv = s.conv ∧ t.objs = s.objs) ∧
      (s.time.state ≠ .locked → (s.reg.ramp = true ∨ offs8.length < 8) →
        Does (.ptpSyncRx domain iv measured ratio) s { s.clearOut with time := { s.clearOut.time with
          offs8 := offs8, offs5 := (o :: s.time.offs5).take 5 } }) ∧
      (s.time.state = .locked → s.reg.ramp = false →
        ∃ t, exec (.ptpSyncRx domain iv measured ratio) s = .next t ∧ t.time.state = .locked ∧ t.time.offs8 = offs8 ∧
          t.time.oF = median ((o :: s.time.offs5).take 5) ∧ t.time.epoch = s.time.epoch ∧ t.tick = s.tick ∧
          t.inTol = decide (|t.time.oF| ≤ s.cfg Obj.TIME_TOL) ∧ |t.reg.word| ≤ 100000 ∧ t.bal = s.bal ∧ t.conv = s.conv ∧ t.objs = s.objs)) ∧
    (s.cfgN Obj.PTP_MODE = 0 ∨ s.cfgN Obj.PTP_DOMAIN ≠ domain ∨ s.time.gmPresent = false ∨ s.time.master = true →
      Idles (.ptpSyncRx domain iv measured ratio) s)

/-- From R245, R247, R248: an Announce that the best master clock algorithm takes gives the grandmaster, its UTC offset and validity, and a new
identity is logged; a port that ranks before it, and may, is master; a Pdelay_Req is answered with its turnaround and a receipt timestamp of 0,
and a read of a management dataset is answered; a delay response completes the request that is out; requests go out by the delay mechanism of
the profile; a port in MASTER sends a one-step Sync and an Announce of itself. Over UDP/IPv4 every message carries the port's address. With the
port off none of them does anything. The model's own: the outbox is log entry 4, the departure time is free (log entry 3), the ranking is that
of log entry 56. -/
def Obligations.PtpPortSpeaks : Prop :=
  ∀ (s : State) (a : Announce) (mean turn : Nat) (req : List Byte) (ds : BitVec 16), s.Awake → s.pwr.entry = none → req.length = 10 →
    let udp : Option (Word × Nat) := if s.cfgN Obj.PTP_TRANSPORT = 1 then some (BitVec.ofNat 32 (s.cfgN Obj.PTP_IPV4), 0) else none
    let sent : TimeS → PtpMsg → State := fun t x => { s.clearOut with time := { t with out := [⟨x, udp⟩] } }
    (s.cfgN Obj.PTP_MODE ≠ 0 → s.cfgN Obj.PTP_DOMAIN = a.domain →
      (s.bestTaken a = true →
        (let heard : State := { s.clearOut with time := { s.clearOut.time with
           best := some (a.sender, a.master), gm := a.master.gmIdentity, gmPresent := true, master := false, utc := a.utcOffset
           utcValid := a.utcValid, gmRos := s.time.gmRos || decide (s.time.gm ≠ 0 ∧ a.master.gmIdentity ≠ s.time.gm) } }
         (s.cfgB Obj.PTP_SLAVE_ONLY = true ∨ betterMaster s.ownMaster a.master = false) →
           ((s.time.gm = 0 ∨ a.master.gmIdentity = s.time.gm) → Does (.ptpAnnounceRx a) s heard) ∧
           (s.time.gm ≠ 0 → a.master.gmIdentity ≠ s.time.gm →
             Does (.ptpAnnounceRx a) s (State.post heard 0x2708 0xFF (beBytes 8 a.master.gmIdentity.toNat)))) ∧
        (s.cfgB Obj.PTP_SLAVE_ONLY = false → betterMaster s.ownMaster a.master = true →
          Does (.ptpAnnounceRx a) s { s.clearOut with time := { s.clearOut.time with
            best := some (a.sender, a.master), gmPresent := false, master := true } })) ∧
      (s.bestTaken a = false → Idles (.ptpAnnounceRx a) s) ∧
      ((s.cfgN Obj.PTP_MODE = 1 ∨ s.cfgN Obj.PTP_MODE = 3) →
        Does (.ptpPdelayReqRx a.domain req turn) s (sent s.time (.pdelayResp req turn 0)) ∧
        (s.time.reqOut = 1 →
          Does (.ptpPdelayRespRx a.domain mean) s { s.clearOut with time := { s.clearOut.time with path := mean, reqOut := 0 } }) ∧
        Does .ptpDelayReqTx s (sent { s.time with reqOut := 1 } .pdelayReq)) ∧
      (s.cfgN Obj.PTP_MODE ≠ 1 → s.cfgN Obj.PTP_MODE ≠ 3 →
        (s.time.reqOut = 1 →
          Does (.ptpDelayRespRx a.domain mean) s { s.clearOut with time := { s.clearOut.time with path := mean, reqOut := 0 } }) ∧
        Does .ptpDelayReqTx s (sent { s.time with reqOut := 1 } .delayReq)) ∧
      Does (.ptpManagementRx a.domain ds false) s (sent s.time (.management ds)) ∧
      Idles (.ptpManagementRx a.domain ds true) s ∧
      (s.time.master = true → s.cfgB Obj.PTP_SLAVE_ONLY = false →
        ∃ (t : State) (d : Int) (frac : Nat), exec .ptpMasterTx s = .next t ∧ 0 ≤ d ∧ d < 250 ∧ frac < 2 ^ 16 ∧
          t.time.out = [⟨.sync (secNs (s.timeOf s.tick.now + d)).1 (secNs (s.timeOf s.tick.now + d)).2 frac, udp⟩,
            ⟨.announce s.ownMaster s.time.utc s.time.utcValid, udp⟩] ∧
          t.time.epoch = s.time.epoch ∧ t.time.state = s.time.state ∧ t.objs = s.objs)) ∧
    (s.cfgN Obj.PTP_MODE = 0 →
      Idles (.ptpAnnounceRx a) s ∧ Idles (.ptpPdelayReqRx a.domain req turn) s ∧ Idles (.ptpPdelayRespRx a.domain mean) s ∧
      Idles (.ptpDelayRespRx a.domain mean) s ∧ Idles .ptpDelayReqTx s ∧ Idles (.ptpManagementRx a.domain ds false) s ∧ Idles .ptpMasterTx s ∧
      Idles .ptpSyncTimeout s ∧ Idles .ptpAnnounceTimeout s)

/-- From R249: a LOCKED time state without Sync for three intervals goes to HOLDOVER (cause 1), and without Announce too (cause 2), with the
port in MASTER unless it is slave only; HOLDOVER ends in FREE after HOLDOVER_MAX (cause 6), at once where that is 0. The model's
own: that in HOLDOVER the rate is the estimate alone, which the tuning word takes clamped to ±100 ppm, is log entry 24. -/
def Obligations.TimeStateFallsBack : Prop :=
  ∀ s : State, s.Awake → s.cfgN Obj.PTP_MODE ≠ 0 → s.reg.ramp = false →
    let w := clampInt (-100000) 100000 (floorDiv s.time.fEst 1000)
    (s.time.state = .locked → s.cfgN Obj.HOLDOVER_MAX ≠ 0 →
      Does .ptpSyncTimeout s (State.post { s.clearOut with
        time := { s.clearOut.time with state := .holdover, holdSince := s.tick.now, r := s.time.fEst, slewing := false }, reg := { s.reg with word := w } } 0x2706 0xFF
        [1, 2, 1]) ∧
      Does .ptpAnnounceTimeout s (State.post { s.clearOut with
        time := { s.clearOut.time with
          state := .holdover, holdSince := s.tick.now, r := s.time.fEst, slewing := false, gmPresent := false, best := none, master := !s.cfgB Obj.PTP_SLAVE_ONLY }
        reg := { s.reg with word := w } } 0x2706 0xFF [1, 2, 2])) ∧
    (s.time.state = .locked → s.cfgN Obj.HOLDOVER_MAX = 0 → ∃ t, exec .ptpSyncTimeout s = .next t ∧ t.time.state = .free) ∧
    (s.time.state ≠ .locked → Idles .ptpSyncTimeout s ∧ Does .ptpAnnounceTimeout s { s.clearOut with
      time := { s.clearOut.time with gmPresent := false, best := none, master := !s.cfgB Obj.PTP_SLAVE_ONLY } }) ∧
    (∀ held : Nat, s.time.state = .holdover → s.cfgN Obj.HOLDOVER_MAX ≤ held →
      Does (.holdoverExpired held) s (State.post { s.clearOut with time := { s.clearOut.time with state := .free } } 0x2706 0xFF [2, 0, 6])) ∧
    (∀ held : Nat, s.time.state ≠ .holdover ∨ held < s.cfgN Obj.HOLDOVER_MAX → Idles (.holdoverExpired held) s)

/-- From R319, R323: a port comes up with its block lock, and after eight frames that failed their check or a miswire with the first frame that
passes; it goes down when its link is lost; then the ring wraps at this module, counted and logged at the change. The root that has heard unwrapped frames on both ports finds the ring closed. The model's own: how many
good frames bring a port up is log entry 44. -/
def Obligations.TrainPortsWrapTheRing : Prop :=
  ∀ s : State, s.Awake → s.pwr.entry = none →
    (∀ n : Nat,
      (s.train.eastUp = false → (1 ≤ n ∨ (s.train.badRunE < 8 ∧ s.train.miswireE = false)) → Does (.trainPortUp false n) s { s.clearOut with train := { s.train with
        eastUp := true, badRunE := 0, unwrappedE := false, miswireE := false } }) ∧
      (s.train.westUp = false → (1 ≤ n ∨ (s.train.badRunW < 8 ∧ s.train.miswireW = false)) → Does (.trainPortUp true n) s { s.clearOut with train := { s.train with
        westUp := true, badRunW := 0, unwrappedW := false, miswireW := false } }) ∧
      (s.train.eastUp = true ∨ (n = 0 ∧ (8 ≤ s.train.badRunE ∨ s.train.miswireE = true)) → Idles (.trainPortUp false n) s) ∧
      (s.train.westUp = true ∨ (n = 0 ∧ (8 ≤ s.train.badRunW ∨ s.train.miswireW = true)) → Idles (.trainPortUp true n) s)) ∧
    (s.train.wrapped = false → s.train.state ≠ .none →
      (s.train.eastUp = true → Does (.trainPortDown false) s (State.post { s.clearOut with train := { s.train with
        eastUp := false, wrapped := true, closed := false, unwrappedE := false, unwrappedW := false
        wraps := s.train.wraps + 1 } } 0x2A06 0xFF [0])) ∧
      (s.train.westUp = true → Does (.trainPortDown true) s (State.post { s.clearOut with train := { s.train with
        westUp := false, wrapped := true, closed := false, unwrappedE := false, unwrappedW := false
        wraps := s.train.wraps + 1 } } 0x2A06 0xFF [1]))) ∧
    (s.train.eastUp = false → Idles (.trainPortDown false) s) ∧ (s.train.westUp = false → Idles (.trainPortDown true) s) ∧
    (s.train.originating = true → s.train.unwrappedE = true → s.train.unwrappedW = true → s.train.closed = false → s.train.eastUp = true →
      s.train.westUp = true →
      Does .ringClosed s (State.post { s.clearOut with train := { s.train with closed := true, wrapped := false } } 0x2A07 0xFF [])) ∧
    (s.train.originating = false ∨ s.train.closed = true → Idles .ringClosed s)

/-- From R320, R322, R324: a module that does not originate takes every newer slot of a good frame, whatever its address, and sends the
frame on with its own slot in its place; a frame that fails its check is counted and gives nothing. On a port that is down, and on the wrong
port, no slot is taken; the eighth frame in a row that fails its check takes the port down. A frame of another length than 36 blocks fails
its check. The model's own: the delay in passing is free within its bound (log entry 3). -/
def Obligations.TrainFramesPassOn : Prop :=
  ∀ (s : State) (west : Bool) (arrival : Int) (bs : List LaneBlock) (f : TrainFrame), readTrain bs = f → s.Awake → s.pwr.entry = none →
    s.train.slots.length = 32 → s.train.ages.length = 32 →
    (s.train.portUp west = true → f.good = true → f.west ≠ west → f.wrapped = false → s.train.originating = false →
      s.train.addr ≠ 0 → s.train.addr < 32 → s.train.portUp f.west = true →
      ∃ (t : State) (g : TrainFrame), exec (.trainFrameRx west arrival bs) s = .next t ∧ t.train.tx = s.train.tx ++ [g.wire] ∧
        g.rootSerial = f.rootSerial ∧ g.west = f.west ∧ g.wrapped = false ∧ g.acting = f.acting ∧ g.rootTick = f.rootTick ∧ g.good = true ∧
        g.slots = f.slots.set s.train.addr (s.train.slot s.train.addr) ∧
        (∃ d : Int, 0 ≤ d ∧ d ≤ 48 ∧ (g.txSec, g.txNs) = secNs (arrival + d)) ∧
        t.train.rxThisTick = true ∧ t.train.rootSerial = f.rootSerial.toNat ∧ t.train.addr = s.train.addr ∧
        (∀ (a : Nat) (w : DWord), 0 < a → a ≠ s.train.addr → f.slots[a]? = some w → newerSlot w (s.train.slot a) = true →
          t.train.slot a = w ∧ t.train.ages.getD a 8 = 0) ∧
        (∀ (a : Nat) (w : DWord), 0 < a → f.slots[a]? = some w → (a = s.train.addr ∨ newerSlot w (s.train.slot a) = false) →
          t.train.slot a = s.train.slot a ∧ t.train.ages.getD a 8 = s.train.ages.getD a 8) ∧
        t.bal = s.bal ∧ t.conv = s.conv ∧ t.objs = s.objs) ∧
    (s.train.portUp west = true → f.good = false → s.train.originating = false →
      ∃ (t : State) (g : TrainFrame), exec (.trainFrameRx west arrival bs) s = .next t ∧ t.train.tx = s.train.tx ++ [g.wire] ∧ g.good = false ∧
        t.train.portUp west = decide (s.train.badRun west + 1 < 8) ∧ t.train.crcErr = s.train.crcErr + 1 ∧ t.train.slots = s.train.slots ∧
        t.train.ages = s.train.ages ∧ t.bal = s.bal ∧ t.conv = s.conv ∧ t.objs = s.objs) ∧
    (s.train.portUp west = true → f.good = true → f.west = west →
      ∃ t, exec (.trainFrameRx west arrival bs) s = .next t ∧ t.train.portUp west = false ∧ t.train.slots = s.train.slots ∧
        t.bal = s.bal ∧ t.conv = s.conv ∧ t.objs = s.objs) ∧
    (s.train.portUp west = false → Idles (.trainFrameRx west arrival bs) s) ∧ (bs.length ≠ 36 → f.good = false)

/-- From R325 to R328: the root grants a JOIN the address it asks for where that was never granted to another and is not present, remembers
the pair and sends the GRANT; a joining module takes the GRANT of its own serial number, stores the address and is a member from the next
tick edge, and notes a full train; a member that has heard no
frame for 64 + 8a ticks becomes the acting root. The model's own: the readings of the ring are log entry 44; the serial number is free (log
entry 3). -/
def Obligations.TrainAddressesAreGranted : Prop :=
  ∀ (s : State) (w : DWord), s.Awake → s.pwr.entry = none →
    (s.train.originating = true → slotKind w = 2 → s.train.outMsg = [] → payAddr w ≠ 0 → (∀ p ∈ s.train.table, p.2 ≠ payAddr w) →
      s.train.isPresent (payAddr w) = false →
      Does (.trainJoinRx w) s (State.post { s.clearOut with train := { s.train with
        outMsg := [(3, payWord w * 2 ^ 24 + payAddr w * 2 ^ 19)]
        table := s.train.table ++ [(payWord w, payAddr w)] } } 0x2A03 (payAddr w) (beBytes 4 (payWord w)))) ∧
    (s.train.originating = false ∨ slotKind w ≠ 2 → Idles (.trainJoinRx w) s) ∧
    (s.train.state = .joining → s.train.originating = false → s.train.full = false → slotKind w = 3 → payWord w = mySerial → payAddr w ≠ 0 →
      (s.train.stored = 0 ∨ s.train.stored = payAddr w) →
      ∃ t, exec (.trainGrantRx w) s = .next t ∧ t.train.state = .joining ∧ t.train.addr = s.train.addr ∧ t.train.stored = payAddr w ∧
        t.trainEdge.train.state = .member ∧ t.trainEdge.train.addr = payAddr w ∧ t.train.addrRos = s.train.addrRos ∧ t.train.slots = s.train.slots ∧ t.bal = s.bal ∧ t.conv = s.conv ∧ t.objs = s.objs) ∧
    (s.train.state = .joining → s.train.full = false → slotKind w = 3 → payWord w = mySerial → payAddr w = 0 →
      Does (.trainGrantRx w) s (State.post { s.clearOut with train := { s.train with full := true } } 0x2A05 0xFF (beBytes 4 mySerial))) ∧
    (s.train.state ≠ .joining ∨ slotKind w ≠ 3 ∨ payWord w ≠ mySerial → Idles (.trainGrantRx w) s) ∧
    (s.train.state = .member → 64 + 8 * s.train.addr ≤ s.train.quietTicks →
      Does .actingRoot s (State.post { s.clearOut with train := { s.train with
        state := .root, originating := true, acting := true, rootSerial := mySerial, rootActing := true } } 0x2A08 s.train.addr [])) ∧
    (s.train.state ≠ .member ∨ s.train.quietTicks < 64 + 8 * s.train.addr → Idles .actingRoot s)

/-- From R267, R271, R272, R321: a newer ARM of another module arms an idle chronograph that takes part, with the master's ARM_ID; one that
takes part and is not idle ignores it and logs CHR_TRAIN_ARM_IGNORED. DISARM of its ARM_ID takes the chronograph to IDLE at the next tick
edge. A FIRE whose FIRE_1 was the last message of its master gives an armed chronograph of its ARM_ID its trigger time, joins the CAUSE of a
record whose own trigger fell in the same tick, and any other is counted as ignored, also while a record with another trigger tick is
recorded; one whose FIRE_1 has not been taken is not accepted. The model's own: that REMOTE stays as it is where CAUSE takes bit 7 is log
entry 57. Each of trainArmRx, trainDisarmRx and trainFireRx answers a next state, that of its own
effect, under these conditions on the state and the operands alone. -/
def Obligations.TrainArmsAndFires : Prop :=
  ∀ (s : State) (src : Fin 32) (w : DWord), s.Awake → s.pwr.entry = none → s.train.full = false → src.val ≠ 0 →
    src.val ≠ s.train.addr → newerSlot w (s.train.slot src.val) = true →
    let heard : Train := { s.train.take src.val w with fresh := (s.train.take src.val w).fresh.set src.val false }
    (slotKind w = 4 →
      (s.cfgB Obj.CHR_TRAIN_JOIN = true → s.chr.state = .idle → s.canArm = true →
        ∃ t, exec (.trainArmRx src w) s = .next t ∧ t.chr.state = .armed ∧ t.chr.armId = payWord w ∧ t.chr.repeatOpt = w.getLsbD 23 ∧
          t.chr.master = false ∧ t.chr.armTick = s.tick.now ∧ t.bal = s.bal ∧ t.conv = s.conv ∧ t.objs = s.objs) ∧
      (s.cfgB Obj.CHR_TRAIN_JOIN = false ∨ s.chr.state ≠ .idle →
        ∃ t, exec (.trainArmRx src w) s = .next t ∧ t.chr = s.chr ∧ t.bal = s.bal ∧ t.conv = s.conv ∧ t.objs = s.objs) ∧
      (s.cfgB Obj.CHR_TRAIN_JOIN = true → s.chr.state ≠ .idle →
        Does (.trainArmRx src w) s (State.post { s.clearOut with train := heard } 0x2806 0xFF (beBytes 4 (payWord w))))) ∧
    (slotKind w = 5 →
      (s.chr.state ≠ .idle → s.chr.armId = payWord w → payWord w ≠ 0 →
        ∃ t, exec (.trainDisarmRx src w) s = .next t ∧ t.chr = { s.chr with disarm := true } ∧ t.bal = s.bal ∧ t.conv = s.conv ∧
          t.objs = s.objs ∧ t.chronoEdge.chr.state = .idle ∧ t.chronoEdge.chr.armId = 0) ∧
      (s.chr.state = .idle ∨ s.chr.armId ≠ payWord w →
        ∃ t, exec (.trainDisarmRx src w) s = .next t ∧ t.chr = s.chr ∧ t.bal = s.bal ∧ t.conv = s.conv ∧ t.objs = s.objs)) ∧
    (∀ w1 : DWord, slotKind w1 = 6 → slotKind w = 7 → slotSeq w = (slotSeq w1 + 1) % 16 →
      (s.train.slot src.val ≠ w1 → newerSlot w1 (s.train.slot src.val) = false → Idles (.trainFireRx src w1 w) s)) ∧
    (∀ w1 : DWord, slotKind w1 = 6 → slotKind w = 7 → slotSeq w = (slotSeq w1 + 1) % 16 → s.train.slot src.val = w1 →
      let fired := nearestSec (s.timeOf s.tick.now / 1000000000) (DWord.bits w1 23 8) * 1000000000 + payWord w
      let k := (floorDiv (fired - s.time.epoch) 250).toNat
      let mine := s.chr.armId = payWord w1 ∧ payWord w1 ≠ 0 ∧ (s.chrView.cfgN Obj.CHR_TRIG_EN).testBit 7 = true
      (mine → s.chr.state = .armed → ∃ t, exec (.trainFireRx src w1 w) s = .next t ∧
        t.chr = { s.chr with firePending := some (k, src.val) } ∧ t.bal = s.bal ∧ t.conv = s.conv ∧ t.objs = s.objs) ∧
      (∀ r : Record, mine → s.chr.state = .recording → s.chr.cur = some r → r.trigTick = k → r.flags.testBit 4 = false →
        ∃ t, exec (.trainFireRx src w1 w) s = .next t ∧ t.chr = { s.chr with cur := some { r with cause := r.cause ||| 0x80 } } ∧
          t.bal = s.bal ∧ t.conv = s.conv ∧ t.objs = s.objs) ∧
      (¬mine ∨ (s.chr.state ≠ .armed ∧ (s.chr.state ≠ .recording ∨
          ∀ r : Record, s.chr.cur = some r → r.trigTick ≠ k ∨ r.flags.testBit 4 = true)) →
        ∃ t, exec (.trainFireRx src w1 w) s = .next t ∧ t.chr = { s.chr with fireIgnored := s.chr.fireIgnored + 1, fireRos := true } ∧
          t.bal = s.bal ∧ t.conv = s.conv ∧ t.objs = s.objs))

/-- From R331, R332, R336: a newer heartbeat of the partner is taken: it is seen, its word is kept, the lost heartbeat ends, and one that
names another partner than this module is a mismatch; the partner's converter state is the one reported. The heartbeat is lost after 8
ticks, and its condition has expired 1 ms after that: the standby is then no longer READY. The model's own: the rule for PAIR_LINK_LOST is
log entry 45. -/
def Obligations.PartnerHeartbeatIsFollowed : Prop :=
  ∀ s : State, s.Awake → s.pwr.entry = none →
    (∀ w : DWord, slotKind w = 1 → s.train.full = false → s.partner ≠ 0 → s.partner ≠ s.train.addr → newerSlot w (s.train.slot s.partner) = true →
      ∃ t, exec (.trainHeartbeatRx w) s = .next t ∧ t.pair.seen = true ∧ t.pair.partner = w ∧ t.pair.hbLost = false ∧ t.pair.linkLost = false ∧
        t.pair.mismatch = decide (hbPartner w ≠ s.train.addr) ∧
        (hbPartner w = s.train.addr → t.pair.reported = hbState w) ∧ (hbPartner w ≠ s.train.addr → t.pair.reported = s.pair.reported) ∧
        (hbRole w ≠ 1 → t.pair.role = s.pair.role ∧ t.pair.crown = s.pair.crown) ∧
        t.bal = s.bal ∧ t.conv = s.conv ∧ t.objs = s.objs) ∧
    (s.pair.role = .leader → s.pair.seen = true → s.pair.hbLost = false → 8 ≤ s.train.ages.getD s.partner 8 → s.lanesFollowing = 0 →
      Does .heartbeatLost s { s.clearOut with pair := { s.pair with hbLost := true } }) ∧
    (s.pair.role = .leader → s.pair.seen = true → s.pair.hbLost = false → s.pair.linkLost = false → 8 ≤ s.train.ages.getD s.partner 8 →
      0 < s.lanesFollowing →
      Does .heartbeatLost s (State.post { s.clearOut with pair := { s.pair with hbLost := true, linkLost := true } } 0x2A15 s.partner [])) ∧
    (s.pair.role = .solo ∨ s.pair.seen = false ∨ s.pair.hbLost = true ∨ s.train.ages.getD s.partner 8 < 8 → Idles .heartbeatLost s) ∧
    (s.pair.hbLost = true → 4008 ≤ s.train.ages.getD s.partner 8 → s.pair.linkLost = false →
      Does .pairLinkLost s (State.post { s.clearOut with pair := { s.pair with linkLost := true, ready := false } } 0x2A15 s.partner [])) ∧
    (s.pair.hbLost = true → 4008 ≤ s.train.ages.getD s.partner 8 → s.pair.linkLost = true →
      Does .pairLinkLost s { s.clearOut with pair := { s.pair with ready := false } }) ∧
    (s.pair.hbLost = false ∨ s.train.ages.getD s.partner 8 < 4008 → Idles .pairLinkLost s)

/-- From R333, R339: a READY standby whose partner's input is absent on PAIR_LOF_LANES lanes, with the heartbeat just lost or the partner
abdicating, takes the crown at the next edge: it is the leader, its modulator starts from the reported cell states, it will go on in the state the leader
last reported, and its shadow lanes count as up for a grace of 40 ticks. -/
def Obligations.StandbyTakesTheCrown : Prop :=
  ∀ s : State, s.Awake →
    (s.pair.role = .standby → s.pair.seen = true → s.pair.mismatch = false → s.cfgN Obj.PAIR_LOF_LANES ≤ s.lanesAbsent →
      (s.condH = true ∨ s.condB = true) → s.pair.reported ≠ .pr → s.prDemand = false → s.pair.ready = true →
      ∃ t, exec .takeover s = .next t ∧ t.pair.role = .leader ∧ t.pair.crown = true ∧ t.pair.takeovers = s.pair.takeovers + 1 ∧
        t.pair.takeoverTick = s.tick.next ∧ t.pair.tookRos = true ∧ t.pair.inherits = true ∧
        t.lanes = s.lanes.map (fun (x : Lane) => { x with grace := if x.shadow then 40 else 0 }) ∧
        t.cells = s.cells.map (fun (x : Cell) => { x with cmd := x.applied, wish := x.applied, pend := none, since := 0, prev := x.applied, prevSince := 0 }) ∧
        t.bal = s.bal ∧ t.conv = s.conv ∧ t.objs = s.objs) ∧
    (s.pair.role ≠ .standby ∨ s.pair.ready = false ∨ s.prDemand = true ∨ s.lanesAbsent < s.cfgN Obj.PAIR_LOF_LANES → Idles .takeover s)

/-- From R335, R339: a leader with a READY partner out of PR abdicates when PAIR_LOF_LANES lanes are silent (cause 1); without an answer
within 64 ticks it takes the crown back. The grace of a takeover ends 40 ticks after it. Each of leaderLanesLost, abdicateFailed and shadowGraceExpired answers a next state, that of its own
effect, under these conditions on the state and the operands alone. -/
def Obligations.LeaderAbdicates : Prop :=
  ∀ s : State, s.Awake →
    (s.pair.role = .leader → s.pair.abdicating = false → s.partnerReady = true → s.conv.state ≠ .pr →
      s.cfgN Obj.PAIR_LOF_LANES ≤ s.lanesSilent →
      Does .leaderLanesLost s (State.post { s.clearOut with pair := { s.pair with
        abdicating := true, crown := false, abdicateTick := s.tick.next, abdicateFeeds := false, abdicateRevert := false } } 0x2A12 0xFF
        [1])) ∧
    (s.pair.role ≠ .leader ∨ s.pair.abdicating = true ∨ s.conv.state = .pr ∨ s.lanesSilent < s.cfgN Obj.PAIR_LOF_LANES →
      Idles .leaderLanesLost s) ∧
    (s.pair.abdicating = true → s.pair.abdicateFeeds = false → s.pair.abdicateTick + 64 ≤ s.tick.next →
      Does .abdicateFailed s (State.post { s.clearOut with pair := { s.pair with
        abdicating := false, crown := true, revertFrom := if s.pair.abdicateRevert then some s.tick.next else s.pair.revertFrom } } 0x2A13 0xFF [])) ∧
    (s.pair.abdicating = false ∨ s.tick.next < s.pair.abdicateTick + 64 → Idles .abdicateFailed s) ∧
    (s.pair.takeovers ≠ 0 → s.pair.takeoverTick + 40 ≤ s.tick.next → (∀ l, (s.lane l).state ≠ .up) →
      Does .shadowGraceExpired s { s.clearOut with lanes := s.lanes.map fun (x : Lane) => { x with grace := 0 } }) ∧
    (s.pair.takeovers = 0 ∨ s.tick.next < s.pair.takeoverTick + 40 → Idles .shadowGraceExpired s)

/-- R337: a leader with PAIR_REVERT = 1 and PAIR_PREFERRED = 0, not in SCS, whose preferred partner has been READY for PAIR_REVERT_DELAY
abdicates as R335 says, which it logs; after a reversion, and after one that ended in ABDICATE_FAILED, the next waits for another
PAIR_REVERT_DELAY. Otherwise there is none. Each of reversion and abdicateFailed answers a next state, that of its own
effect, under these conditions on the state and the operands alone. -/
def Obligations.ReversionWaitsItsDelay : Prop :=
  ∀ s : State, s.Awake →
    (∀ readyS : Nat, s.cfgB Obj.PAIR_REVERT = true → s.cfgB Obj.PAIR_PREFERRED = false → hbPreferred s.pair.partner = true →
      s.pair.role = .leader → s.pair.abdicating = false → s.partnerReady = true → s.conv.state ≠ .pr → s.conv.state ≠ .scs →
      s.cfgN Obj.PAIR_REVERT_DELAY ≤ readyS →
      (∀ at_ : Nat, s.pair.revertFrom = some at_ → at_ + s.cfgN Obj.PAIR_REVERT_DELAY * 4000000 ≤ s.tick.next) →
      Does (.reversion readyS) s (State.post { s.clearOut.post 0x2A19 0xFF [] with pair := { s.pair with
        abdicating := true, crown := false, abdicateTick := s.tick.next, abdicateFeeds := false, abdicateRevert := true
        revertFrom := some s.tick.next } } 0x2A12 0xFF [3])) ∧
    (∀ readyS : Nat, s.cfgB Obj.PAIR_REVERT = false ∨ s.cfgB Obj.PAIR_PREFERRED = true ∨ hbPreferred s.pair.partner = false ∨
      s.pair.role ≠ .leader ∨ s.partnerReady = false ∨ s.conv.state = .scs ∨ readyS < s.cfgN Obj.PAIR_REVERT_DELAY ∨
      (∃ at_ : Nat, s.pair.revertFrom = some at_ ∧ s.tick.next < at_ + s.cfgN Obj.PAIR_REVERT_DELAY * 4000000) → Idles (.reversion readyS) s) ∧
    (s.pair.abdicateRevert = true → s.pair.abdicating = true → s.pair.abdicateFeeds = false →
      s.pair.abdicateTick + 64 ≤ s.tick.next →
      Does .abdicateFailed s (State.post { s.clearOut with pair := { s.pair with
        abdicating := false, crown := true, revertFrom := some s.tick.next } } 0x2A13 0xFF []))

/-- From R340, R343: a feed between 8.8 V and 75 V for 10 ms is present, and carries the load where no feed does; a feed below 8.5 V or
above 78 V for 20 µs is absent. When the one that carries the load goes and the other is present, the load moves, which is counted and
flagged; when both are gone the hold-up carries it, and the main die signals the kernel once FEED_LOSS_PR_DELAY has passed, unless the module has abdicated for the feeds. The model's own:
the recharge time of the hold-up is log entry 46. Each of feedPresent, feedAbsent and feedLossPrDelay answers a next state, that of its own
effect, under these conditions on the state and the operands alone. -/
def Obligations.FeedsCarryTheLoad : Prop :=
  ∀ (s : State) (b : Bool) (mv : Nat), s.Awake → s.pwr.entry = none → s.feed.test = none →
    (∀ ms : Nat, s.feed.present b = false → 8800 ≤ mv → mv ≤ 75000 → 10 ≤ ms →
      ((s.feed.inUse = 2 ∨ s.feed.present (!b) = false) →
        ∃ t, exec (.feedPresent b mv ms) s = .next t ∧ t.feed.present b = true ∧ t.feed.inUse = (if b then 1 else 0) ∧
          t.feed.present (!b) = s.feed.present (!b) ∧ t.bal = s.bal ∧ t.conv = s.conv ∧ t.objs = s.objs) ∧
      (s.feed.inUse = 1 → b = false → s.feed.bPresent = true →
        Does (.feedPresent b mv ms) s { s.clearOut with feed := { s.feed with aPresent := true, aMv := mv, takeback := true, handed := false } })) ∧
    (∀ ms : Nat, s.feed.present b = true ∨ mv < 8800 ∨ 75000 < mv ∨ ms < 10 → Idles (.feedPresent b mv ms) s) ∧
    (∀ us other : Nat, s.feed.present b = true → (mv < 8500 ∨ 78000 < mv) → 20 ≤ us →
      (s.feed.inUse = (if b then 1 else 0) → s.feed.present (!b) = true → 8500 ≤ other →
        ∃ t, exec (.feedAbsent b mv us other) s = .next t ∧ t.feed.present b = false ∧ t.feed.inUse = (if b then 0 else 1) ∧
          t.feed.switches = s.feed.switches + 1 ∧ t.feed.switchRos = true ∧ t.feed.present (!b) = true ∧ t.bal = s.bal ∧ t.conv = s.conv ∧
          t.objs = s.objs) ∧
      (s.feed.inUse = (if b then 1 else 0) → s.feed.present (!b) = false → s.mayAbdicate = false →
        ∃ t, exec (.feedAbsent b mv us other) s = .next t ∧ t.feed.present b = false ∧ t.feed.inUse = 2 ∧ t.feed.charged = false ∧
          t.bal = s.bal ∧ t.conv = s.conv ∧ t.objs = s.objs) ∧
      (s.feed.inUse ≠ (if b then 1 else 0) → b = true →
        Does (.feedAbsent b mv us other) s { s.clearOut with feed := { s.feed with bPresent := false, bMv := mv } })) ∧
    (∀ us other : Nat, s.feed.present b = false ∨ (8500 ≤ mv ∧ mv ≤ 78000) ∨ us < 20 → Idles (.feedAbsent b mv us other) s) ∧
    (s.feed.inUse = 2 → s.feed.handed = false →
      ∃ t, exec .feedLossPrDelay s = .next t ∧ t.saf.feedsLost = true ∧ t.prDemand = true ∧ t.saf.switches.any id = false ∧
        t.feed = s.feed ∧ t.bal = s.bal ∧ t.conv = s.conv ∧ t.objs = s.objs) ∧
    (s.feed.inUse ≠ 2 ∨ s.feed.handed = true → Idles .feedLossPrDelay s)

/-- From R341, R342, R350: a load test that holds 8.8 V passes; its result, voltage and current stand in the feed's health word and are
logged. The feed under test carries the load, which then returns to the feed that carried it, or goes to the other feed
where the test has failed. The start-up test tests A, then B, once; the recovery test of A comes after 10 s, and a pass gives A the load
back. The model's own: the order of the start-up test, and that a return of the load is no switch-over, are log entry 42. Each of feedTestDone, feedStartupTest and feedRecoveryTest answers a next state, that of its own
effect, under these conditions on the state and the operands alone. -/
def Obligations.FeedTestsReport : Prop :=
  ∀ (s : State) (vmin imax : Nat), s.Awake →
    (∀ cause back : Nat, s.feed.test = some ⟨[false], cause, back⟩ → cause ≠ 2 → s.feed.inUse ≠ 2 →
      let h := feedHealth (if 8800 ≤ vmin then 1 else 2) cause vmin imax
      let told : State := State.post { s.clearOut with feed := { s.feed with healthA := h, aFailed := decide (vmin < 8800) } } 0x2A22 0
        (beBytes 4 h.toNat)
      ((8800 ≤ vmin ∨ s.feed.bPresent = false) → Does (.feedTestDone vmin imax) s { told with
        feed := { s.feed with healthA := h, aFailed := decide (vmin < 8800), inUse := back, test := none } }) ∧
      (vmin < 8800 → s.feed.bPresent = true → Does (.feedTestDone vmin imax) s { told with feed := { s.feed with
        healthA := h, aFailed := true, inUse := 1, takeback := s.feed.takeback || decide (back = 0), test := none } })) ∧
    (s.feed.test = some ⟨[false], 2, 1⟩ → s.feed.aPresent = true → s.feed.bPresent = true → s.feed.inUse ≠ 2 →
      ∃ t, exec (.feedTestDone vmin imax) s = .next t ∧ t.feed.test = none ∧
        (8800 ≤ vmin → t.feed.inUse = 0 ∧ t.feed.takeback = false ∧ t.feed.aFailed = false) ∧
        (vmin < 8800 → t.feed.inUse = 1 ∧ t.feed.retest = true ∧ t.feed.aFailed = true) ∧ t.bal = s.bal ∧ t.conv = s.conv ∧ t.objs = s.objs) ∧
    (s.feed.test = none → Idles (.feedTestDone vmin imax) s) ∧
    (s.feed.startTested = false → s.feed.test = none → s.feed.aPresent = true → s.feed.bPresent = true →
      Does .feedStartupTest s { s.clearOut with feed := { s.feed with
        startTested := true, inUse := 0, test := some ⟨[false, true], 0, s.feed.inUse⟩ } }) ∧
    (s.feed.startTested = true → Idles .feedStartupTest s) ∧
    (∀ n : Nat, s.feed.takeback = true → s.feed.aPresent = true → s.feed.inUse = 1 → s.feed.test = none →
      (if s.feed.retest then 60 else 10) ≤ n →
      Does (.feedRecoveryTest n) s { s.clearOut with feed := { s.feed with inUse := 0, test := some ⟨[false], 2, 1⟩ } }) ∧
    (∀ n : Nat, s.feed.takeback = false ∨ n < (if s.feed.retest then 60 else 10) → Idles (.feedRecoveryTest n) s)

/-- From R345, R373, R374: a watchdog expiry restarts the supervisor, counted and logged; a start closes every session, empties every
mailbox and transfer, and counts the epoch; after three expiries within 60 s of the start of a new image, or when that start fails, the
previous image starts again. The model's own: that the sessions close at SUP_START is log entry 36, the fall-back log entry 31. -/
def Obligations.SupervisorRestarts : Prop :=
  ∀ s : State, s.Awake →
    (s.host.starting = false → Does .supWatchdogExpiry s (State.post { s.clearOut with host := { s.clearOut.host with
      supRestarts := s.host.supRestarts + 1, wdRuns := s.host.wdRuns + (if s.newImage then 1 else 0), starting := true } } 0x2A30 0xFF [])) ∧
    (s.host.starting = true → Idles .supWatchdogExpiry s) ∧
    (s.host.starting = true → ∃ t, exec .supStart s = .next t ∧ t.host.sessions = [] ∧ t.host.pendings = [] ∧ t.host.starting = false ∧
      t.host.supEpoch = s.host.supEpoch + 1 ∧ (∀ n : Nat, t.mbox n = {}) ∧ t.host.fwSup = none ∧ t.host.fwSk = none ∧ t.esc.load = none ∧
      t.bal = s.bal ∧ t.conv = s.conv ∧ t.objs = s.objs) ∧
    (s.host.starting = false → Idles .supStart s) ∧
    (∀ v : Word, s.host.supFallback = some v → ((s.host.starting = true ∧ s.host.supStaged = true) ∨ 3 ≤ s.host.wdRuns) →
      Does .fwFallback s (State.post { s.clearOut with host := { s.clearOut.host with
        supRunning := v, supInactive := s.host.supRunning, supFallback := none, supStaged := false, wdRuns := 0, newSince := none, starting := true } } 0x1F08 0xFF
        (beBytes 4 s.host.supRunning.toNat ++ beBytes 4 v.toNat))) ∧
    (s.host.supFallback = none ∨ (s.host.supStaged = false ∧ s.host.wdRuns < 3) → Idles .fwFallback s)

/-- From R270, R309, R343, R382, R383: a low of RESET_N of 1 ms and the end of the hold-up put the module into reset, the latter one that
RESET_N holds there too: every object but the safety set of the parameter store and the host's addresses is at its Default, the converter is in PR with the tick stopped and the switches open. RESET_N keeps the tick
number, module time, the log's rings and their numbers and the records, to which one in progress is added, cut; the end of the hold-up loses
all of these. Both keep the safety set's version and the firmware slots. The model's own: what the end of the hold-up loses is log entry 35; that the
events that wait at the arbiter's ports are kept with the rings is log entry 57. -/
def Obligations.ResetKeepsWhatTheSpecKeeps : Prop :=
  (∀ s : State, s.pwr.inReset = true → s.pwr.lastReset = 1 → s.feed.inUse = 2 → ∃ t, exec .holdupExpired s = .next t ∧ t.pwr.lastReset = 2 ∧
    t.pwr.inReset = true ∧ t.tick.started = false ∧ t.time.epoch = 0 ∧ t.log.general = [] ∧ t.log.safety = [] ∧ t.chr.records = [] ∧
    t.host.accessErr = false ∧ t.saf.paramVersion = s.saf.paramVersion) ∧
  ∀ (s : State) (us : Nat), s.pwr.inReset = false →
    (1000 ≤ us → ∃ t, exec (.resetAssert us) s = .next t ∧ t.pwr.lastReset = 1 ∧ t.pwr.inReset = true ∧
      (∀ i, t.cfg i = if keptObj i then s.storeVal i else objDefault i) ∧ t.conv = {} ∧
      t.reg = { ocxoOk := s.reg.ocxoOk, refclkOk := s.reg.refclkOk, aonLost := s.reg.aonLost } ∧ t.saf.switches.any id = false ∧
      t.tick = s.tick ∧ t.time.epoch = s.time.epoch ∧ t.time.stepDone = s.time.stepDone ∧ t.chr.state = .idle ∧
      (s.chr.state ≠ .recording → t.log = s.log ∧ t.chr.records = s.chr.records) ∧
      (∀ r : Record, s.chr.state = .recording → s.chr.cur = some r → 0 < s.chr.postLeft → r.trigTick ≠ s.tick.now →
        t.chr.records = s.chr.records ++ [{ r with flags := r.flags + 8 }]) ∧
      t.saf.paramVersion = s.saf.paramVersion ∧ t.train.stored = s.train.stored ∧ t.host.supRunning = s.host.supRunning ∧
      t.host.sessions = [] ∧ t.esc = {} ∧ t.cells = List.replicate 3072 {} ∧ t.lanes = List.replicate 48 {} ∧ t.waiting = []) ∧
    (us < 1000 → s.Awake → Idles (.resetAssert us) s) ∧
    (s.feed.inUse = 2 → ∃ t, exec .holdupExpired s = .next t ∧ t.pwr.lastReset = 2 ∧ t.pwr.inReset = true ∧
      (∀ i, t.cfg i = if keptObj i then s.storeVal i else objDefault i) ∧ t.conv = {} ∧ t.reg = {} ∧ t.saf.switches.any id = false ∧
      t.tick.started = false ∧ t.time.epoch = 0 ∧ t.time.stepDone = false ∧ t.log.general = [] ∧ t.log.safety = [] ∧ t.chr.records = [] ∧
      t.saf.paramVersion = s.saf.paramVersion ∧ t.train.stored = s.train.stored ∧ t.host.supRunning = s.host.supRunning) ∧
    (s.feed.inUse ≠ 2 → s.Awake → Idles .holdupExpired s)

/-- From R381, R382, R390: a start whose fatal flags all hold brings the module to S0 with its tick running and the kernel's start-up test
begun with the switches open; a flag that fails takes it to WAKE_FAIL with the step noted and counted, and WAKE_RETRY tries the same start
up to the fourth attempt. After a reset by RESET_N the start is RESET_RELEASE, after the end of the hold-up POWER_UP, once a feed has been
present for 100 ms; while RESET_N is low it leaves the module in reset. REF_OK is that the OCXO or REFCLK_IN is good, and ANA_OK needs VANA.
R240: a rise of LOCK_S outside its window in the start sets the filter fault. R389: a wake source that WAKE_MASK enables begins the wake of a
module in S1 or S2: an active edge of a TI pin or either edge of a LIM pin behind 1 ms and its polarity, or another source's event; it is
counted, POWER reads 6, and the tick has never stopped; in S0 it does nothing. R381: a wake from S2 runs W4 for 2.0 ms and W5 for 0.1 ms, a wake
from S1 W5 alone; the end of W5 brings it to S0, or to WAKE_FAIL where ESC_OK is false. The model's own: that a start is one command and its
flags are operands is log entry 34. -/
def Obligations.StartsPassOrFailAndWake : Prop :=
  (∀ (s : State) (f : StartFlags),
    (s.pwr.inReset = true → s.pwr.lastReset = 1 → s.feed.aPresent = true ∨ s.feed.bPresent = true ∨ s.feed.inUse = 2 →
      ∀ (held : Nat) (strap : Bool),
      (s.reg.ocxoOk = true ∨ s.reg.refclkOk = true → f.railOk = true → f.regLocked = true → f.escOk = true →
        ∃ t, exec (.resetRelease held strap f) s = .next t ∧ t.pwr.inReset = false ∧ t.pwr.state = .s0 ∧ t.pwr.started = true ∧
          t.reg.gated = false ∧ t.reg.locked = true ∧ t.pwr.anaOk = (f.anaOk && s.meas.vanaOk) ∧ t.pwr.fastOk = f.fastOk ∧ t.saf.startRunning = true ∧
          t.saf.startDone = false ∧ t.host.starting = true ∧ t.train.strapped = strap ∧ t.tick.now = s.tick.now ∧
          t.saf.switches.any id = false) ∧
      (s.reg.ocxoOk = false → s.reg.refclkOk = false →
        ∃ t, exec (.resetRelease held strap f) s = .next t ∧ t.pwr.inReset = false ∧ t.pwr.state = .wakeFail ∧ t.reg.gated = true ∧
          t.pwr.attempt = 1 ∧ t.pwr.wakeFails = s.pwr.wakeFails + 1 ∧ t.pwr.wakeFailLast = 257 ∧ t.saf.startFailed = true)) ∧
    (s.pwr.inReset = true → s.pwr.lastReset = 2 → s.feed.aPresent = true → ∀ (ms : Nat) (strap : Bool),
      (100 ≤ ms → s.pwr.resetLow = false → f.ocxoOk = true → f.railOk = true → f.regLocked = true → f.escOk = true →
        ∃ t, exec (.powerUp ⟨ms, strap, f⟩) s = .next t ∧ t.pwr.inReset = false ∧ t.pwr.state = .s0 ∧ t.pwr.started = true ∧
          t.reg.gated = false ∧ (f.badRise = true → t.reg.filterRos = true) ∧ t.saf.startRunning = true ∧ t.host.starting = true ∧
          t.train.strapped = strap ∧ t.tick.now = s.tick.now) ∧
      (100 ≤ ms → s.pwr.resetLow = true →
        exec (.powerUp ⟨ms, strap, f⟩) s = .next { s.clearOut with pwr := { s.pwr with inReset := true, lastReset := 1 } }) ∧
      (ms < 100 → exec (.powerUp ⟨ms, strap, f⟩) s = .next s.clearOut)) ∧
    (s.pwr.inReset = false → s.pwr.state = .wakeFail → 1 ≤ s.pwr.attempt → s.pwr.attempt < 4 → s.pwr.wakeReply = [] → f.ocxoOk = true →
      s.reg.ocxoOk = true ∨ s.reg.refclkOk = true → f.railOk = true → f.regLocked = true → f.escOk = true →
      ∃ t, exec (.wakeRetry f) s = .next t ∧ t.pwr.state = .s0 ∧ t.pwr.started = true ∧ t.pwr.attempt = s.pwr.attempt + 1 ∧ t.saf.startFailed = false) ∧
    (s.pwr.inReset = false → s.pwr.state = .wakeFail → s.pwr.attempt < 3 → s.reg.ocxoOk = false → s.reg.refclkOk = false → s.pwr.retryFrom = 1 →
      ∃ t, exec (.wakeRetry f) s = .next t ∧ t.pwr.state = .wakeFail ∧ t.pwr.attempt = s.pwr.attempt + 1 ∧
        t.pwr.wakeFails = s.pwr.wakeFails + 1)) ∧
  (∀ (s : State) (w : WakeFact) (f : StartFlags), s.pwr.inReset = false → s.reg.gated = false → s.saf.tickMissing = false →
    (∀ bit : Nat, (s.pwr.state = .s1 ∨ s.pwr.state = .s2) → s.pwr.waking = none →
      (match w with
        | .trip n pin run => bit = 0 ∧ 1000 ≤ run ∧ (pin != (s.cfgN Obj.TRIP_POL).testBit n.val) = true ∧ flag s.pwr.aonTi n.val = false
        | .lim n pin run => bit = 1 ∧ 1000 ≤ run ∧ (pin != (s.cfgN Obj.LIM_POL).testBit n.val) ≠ flag s.pwr.aonLim n.val
        | .safety => bit = 2
        | .feed => bit = 3
        | .vana => bit = 4) →
      (s.cfgN Obj.WAKE_MASK).testBit bit = true → s.pwr.entry = none → (s.prDemand = true → s.conv.state = .pr ∧ s.hostPr = false) →
      ∃ t, exec (.wakeEvent w f) s = .next t ∧ t.pwr.state = s.pwr.state ∧ t.power = 6 ∧
        t.pwr.waking = some (if s.pwr.state = .s1 then ⟨6, 6, 400, f⟩ else ⟨5, 5, 8000, f⟩) ∧ t.pwr.wakes = s.pwr.wakes + 1 ∧
        t.reg.gated = false ∧ t.tick = s.tick ∧ t.bal = s.bal ∧ t.conv = s.conv) ∧
    (s.pwr.state = .s0 → Idles (.wakeEvent w f) s)) ∧
  (∀ (s : State) (x : Waking), s.pwr.waking = some x →
    (1 < x.left → s.wakeEdge = { s with pwr := { s.pwr with waking := some { x with left := x.left - 1 } } }) ∧
    (x.left ≤ 1 → x.step = 4 → s.wakeEdge.pwr.waking = some ⟨x.first, 5, 8000, x.flags⟩ ∧
      s.wakeEdge.pwr.anaOk = (x.flags.anaOk && s.meas.vanaOk) ∧ s.wakeEdge.pwr.state = s.pwr.state) ∧
    (x.left ≤ 1 → x.step = 5 → s.wakeEdge.pwr.waking = some ⟨x.first, 6, 400, x.flags⟩ ∧ s.wakeEdge.pwr.fastOk = x.flags.fastOk ∧
      s.wakeEdge.pwr.state = s.pwr.state) ∧
    (x.left ≤ 1 → x.step = 6 → s.wakeEdge.tick = s.tick ∧ s.wakeEdge.conv = s.conv ∧ s.wakeEdge.objs = s.objs ∧ s.wakeEdge.pwr.waking = none ∧
      (x.flags.escOk = true → s.wakeEdge.pwr.state = .s0 ∧ s.wakeEdge.pwr.escGated = false) ∧
      (x.flags.escOk = false → s.wakeEdge.pwr.state = .wakeFail ∧ s.wakeEdge.pwr.attempt = 1 ∧
        s.wakeEdge.pwr.wakeFails = s.pwr.wakeFails + 1)))

/-- From R289, R290, R291: a filtered channel of a safety input that has stood long enough is taken; in a PR input one channel suffices and
the switches open; channels that disagree for longer than SI_DISC are latched as a discrepancy, which only both in demand and then both
healthy clear; a press of 100 ms to 3 s while no demand is active ends the wait for it; a trip input that SF_TI_PR names demands PR by the
kernel's own reading. The model's own: how a discrepancy is latched is log entry 37, what
a channel shows during the start-up test log entry 40. -/
def Obligations.SafetyInputsDemand : Prop :=
  ∀ (s : State) (n : Fin 8), s.Awake →
    (∀ (b level : Bool) (us : Nat), s.cfgN (Obj.SI_FILT + n.val) ≤ us →
      (flag (if b then s.saf.chB else s.saf.chA) n.val ≠ level ∨ flag (if b then s.saf.readB else s.saf.readA) n.val = false →
        flag s.saf.disc n.val = false → Does (.safetyInputChange n b level us) s { s.clearOut with
          saf := if b then { s.saf with chB := setFlag s.saf.chB n.val level, readB := setFlag s.saf.readB n.val true }
            else { s.saf with chA := setFlag s.saf.chA n.val level, readA := setFlag s.saf.readA n.val true } }) ∧
      (b = false → level = false → flag s.saf.chA n.val = true → s.cfgN (Obj.SI_FUNC + n.val) = 1 → s.saf.chA.length = 8 →
        s.saf.readA.length = 8 →
        ∃ t, exec (.safetyInputChange n b level us) s = .next t ∧ t.prDemand = true ∧ t.saf.switches.any id = false ∧ t.conv = s.conv ∧ t.objs = s.objs)) ∧
    (∀ (b level : Bool) (us : Nat),
      (flag (if b then s.saf.chB else s.saf.chA) n.val = level ∧ flag (if b then s.saf.readB else s.saf.readA) n.val = true) ∨
        us < s.cfgN (Obj.SI_FILT + n.val) →
      Idles (.safetyInputChange n b level us) s) ∧
    (∀ (us : Nat), flag s.saf.disc n.val = true → flag s.saf.discBoth n.val = true → flag s.saf.chA n.val = false → flag s.saf.chB n.val = true →
      s.saf.chA.length = 8 → s.cfgN (Obj.SI_MODE + n.val) = 0 → s.cfgN (Obj.SI_FILT + n.val) ≤ us →
      Does (.safetyInputChange n false true us) s { s.clearOut with saf := { s.saf with
        chA := setFlag s.saf.chA n.val true, readA := setFlag s.saf.readA n.val true, disc := setFlag s.saf.disc n.val false
        discBoth := setFlag s.saf.discBoth n.val false } }) ∧
    (∀ ms : Nat, s.siDemandA n.val ≠ s.siDemandB n.val → flag s.saf.disc n.val = false → s.cfgN (Obj.SI_DISC + n.val) < ms →
      Does (.siDiscrepancy n ms) s (State.post { s.clearOut with saf := { s.saf with
        disc := setFlag s.saf.disc n.val true, discBoth := setFlag s.saf.discBoth n.val false } } 0x2904 n.val [])) ∧
    (∀ ms : Nat, s.siDemandA n.val = s.siDemandB n.val ∨ ms ≤ s.cfgN (Obj.SI_DISC + n.val) → Idles (.siDiscrepancy n ms) s) ∧
    (∀ ms : Nat, s.cfgN (Obj.SI_FUNC + n.val) = 3 → 100 ≤ ms → ms ≤ 3000 → s.anyDemand = false →
      Does (.restartAckPress n ms) s { s.clearOut with saf := { s.saf with ackPending := false } }) ∧
    (∀ ms : Nat, s.cfgN (Obj.SI_FUNC + n.val) ≠ 3 ∨ ms < 100 ∨ 3000 < ms ∨ s.anyDemand = true → Idles (.restartAckPress n ms) s) ∧
    (∀ (i : TripIn) (us : Nat), (s.cfgN Obj.SF_TI_PR).testBit i.val = true → flag s.saf.ti i.val = false → s.cfgN Obj.SF_TI_FILT ≤ us →
      s.saf.ti.length = 16 →
      Does (.kernelTiChange i true us) s { s.clearOut with saf := { s.saf with ti := setFlag s.saf.ti i.val true } } ∧
        State.prDemand { s.clearOut with saf := { s.saf with ti := setFlag s.saf.ti i.val true } } = true) ∧
    (∀ (i : TripIn) (level : Bool) (us : Nat), (s.cfgN Obj.SF_TI_PR).testBit i.val = false → Idles (.kernelTiChange i level us) s)

/-- From R287, R292, R293, R299 to R301, R307, R412: a core mismatch, which blocks every lane, 2 µs without a tick, VIO below 16.0 V for 1 ms, a failed test of a switch, a short
circuit of a safety output and a failed start-up test are kernel-detected faults that demand PR and open every switch; without ticks the
converter goes to PR at once; VIO above 17.0 V for
10 ms ends its own; a start-up test that passes, which needs VIO, clears the latched ones. The test of a switch runs once a period,
an emitter switch's half a period from the other's, an SO pulse 10 ms from any other, and not while its output is off; a demand during it
discards its result and leaves the switch open. The model's own: the test of an emitter switch costs the frames of 8 ticks (2 µs), the most
that R34 and R150 allow, and a preempted one too (log entry 53); the preempted test is log entry 37; the current of a safety output is free
within 3.0 A to 4.5 A (log entry 3). -/
def Obligations.KernelFaultsStopTheConverter : Prop :=
  ∀ s : State, s.Awake →
    (∃ t, exec .coreMismatch s = .next t ∧ t.saf.faultCore = true ∧ t.prDemand = true ∧ t.saf.switches.any id = false ∧
      (∀ l : Nat, l < 48 → s.lanes.length = 48 → s.saf.switches.any id = true → (s.lane l).state = .up → s.mod.gap = 0 →
        blockCommand l <:+ (t.lane l).wire) ∧ t.conv = s.conv ∧ t.objs = s.objs) ∧
    (∀ us : Nat, (2 ≤ us → s.pwr.noTick = false → ∃ t, exec (.tickMissing us) s = .next t ∧ t.saf.tickMissing = true ∧ t.prDemand = true ∧
        t.saf.switches.any id = false ∧ t.conv.state = .pr) ∧
      (us < 2 ∨ s.pwr.noTick = true → Idles (.tickMissing us) s)) ∧
    (∀ mv ms : Nat,
      (s.saf.vioOk = true → mv < 16000 → 1 ≤ ms → ∃ t, exec (.vioLost mv ms) s = .next t ∧ t.saf.vioOk = false ∧ t.saf.vioFault = true ∧
        t.saf.vioMv = mv ∧ t.prDemand = true ∧ t.saf.switches.any id = false ∧ t.conv = s.conv ∧ t.objs = s.objs) ∧
      (s.saf.vioOk = false ∨ 16000 ≤ mv ∨ ms < 1 → Idles (.vioLost mv ms) s) ∧
      (s.saf.vioOk = false → 17000 < mv → 10 ≤ ms →
        Does (.vioPresent mv ms) s { s.clearOut with saf := { s.saf with vioOk := true, vioFault := false, vioMv := mv } }) ∧
      (s.saf.vioOk = true ∨ mv ≤ 17000 ∨ ms < 10 → Idles (.vioPresent mv ms) s)) ∧
    (∀ (x : EmitterPoint) (ns : Nat) (recovered : Bool) (mv : Nat) (during : Bool),
      let p := 1000 * s.cfgN Obj.EM_TEST_PERIOD
      (p ≤ x.sinceMs → p ≤ 2 * x.apartMs →
        (s.emitterOn = true → during = false → ns ≤ 500 → recovered = true →
          Does (.emitterTest x ns recovered mv during) s { s.clearOut with
            saf := { s.saf with pulse := some (b2n x.low, 1) }, mod := { s.mod with gap := 8 } }) ∧
        (s.emitterOn = true → during = false → (500 < ns ∨ recovered = false) →
          ∃ t, exec (.emitterTest x ns recovered mv during) s = .next t ∧ t.saf.faultTest = true ∧ t.saf.testFails = s.saf.testFails + 1 ∧
            t.saf.testRos = true ∧ t.prDemand = true ∧ t.saf.switches.any id = false ∧ t.conv = s.conv ∧ t.objs = s.objs) ∧
        (during = true → (s.emitterOn = true ∨ s.anyDemand = true) →
          let f : State := State.post { s.clearOut with saf := { s.saf with
            switches := setFlag s.saf.switches (b2n x.low) false, pulse := some (b2n x.low, 1)
            preempts := s.saf.preempts + 1, preemptRos := true } } 0x2906 (b2n x.low) []
          (s.emitterOn = true → Does (.emitterTest x ns recovered mv during) s { f with mod := { s.mod with gap := 8 } }) ∧
          (s.emitterOn = false → Does (.emitterTest x ns recovered mv during) s f))) ∧
      (x.sinceMs < p ∨ 2 * x.apartMs < p ∨ (s.emitterOn = false ∧ (during = false ∨ s.anyDemand = false)) →
        Idles (.emitterTest x ns recovered mv during) s)) ∧
    (∀ (x : SoPoint) (mv vio : Nat) (other during : Bool),
      let on := if x.sw.val < 2 then s.so1On else s.so2On
      let pulse := some (2 + x.sw.val, s.cfgN Obj.SO_TEST_WIDTH)
      (1000 * s.cfgN Obj.SO_TEST_PERIOD ≤ x.sinceMs → 10 ≤ x.apartMs →
        (on = true → (if x.sw.val % 2 = 0 then mv < 5000 else vio < mv + 5000) → other = false → during = false →
          Does (.soTest x mv vio other during) s { s.clearOut with saf := { s.saf with pulse := pulse } }) ∧
        (on = true → other = true → during = false → ∃ t, exec (.soTest x mv vio other during) s = .next t ∧ t.saf.faultTest = true ∧
          t.prDemand = true ∧ t.saf.switches.any id = false ∧ t.saf.testFails = s.saf.testFails + 1 ∧ t.objs = s.objs) ∧
        (during = true → (on = true ∨ s.anyDemand = true) →
          Does (.soTest x mv vio other during) s (State.post { s.clearOut with saf := { s.saf with
            switches := setFlag s.saf.switches (2 + x.sw.val) false, pulse := pulse
            preempts := s.saf.preempts + 1, preemptRos := true } } 0x2906 (2 + x.sw.val) []))) ∧
      (x.sinceMs < 1000 * s.cfgN Obj.SO_TEST_PERIOD ∨ x.apartMs < 10 ∨ (on = false ∧ (during = false ∨ s.anyDemand = false)) →
        Idles (.soTest x mv vio other during) s)) ∧
    (∀ (so2 : Bool) (ma : Nat), (if so2 then s.so2On else s.so1On) = true →
      (4500 < ma → ∃ t, exec (.soOvercurrent so2 ma) s = .next t ∧ t.saf.faultTest = true ∧ t.prDemand = true ∧ t.saf.switches.any id = false ∧
        t.saf.testFails = s.saf.testFails + 1 ∧ t.objs = s.objs) ∧
      (ma ≤ 3000 → Idles (.soOvercurrent so2 ma) s)) ∧
    (∀ item : Byte, s.saf.startRunning = true →
      (s.saf.vioOk = true → Does (.startTestDone true item) s (State.post { s.clearOut with saf := { s.saf with
        startDone := true, startRunning := false, faultCore := false, faultTest := false, faultStart := false } } 0x290B 0xFF [])) ∧
      (s.saf.vioOk = false → Idles (.startTestDone true item) s) ∧
      (∃ t, exec (.startTestDone false item) s = .next t ∧ t.saf.faultStart = true ∧ t.saf.startDone = s.saf.startDone ∧ t.prDemand = true ∧
        t.saf.switches.any id = false ∧ t.objs = s.objs))

/-- From R297, R299, R309: the kernel forms its envelope, the largest current of an arm in the last half cycle, from the valid samples of each
microsecond; it ends SCS when the envelope is at SCS_END_LEVEL, above its limit or SCS_TMAX is over, or when its link
of samples has been lost for 10 µs, and a PR demand follows; outside SCS a lost link raises none. Opening SAFETY_KEY, or 600 s without a
command, discards the configuration session. The model's own: the envelope outside SCS is log entry 37. -/
def Obligations.ScsEndsInPulseRemoval : Prop :=
  ∀ s : State, s.Awake →
    (∀ (xs : List ArmSamples) (us : Nat), s.saf.linkLost = false →
      let env := ((xs.reverse.map armsPeak) ++ s.saf.env).take (if s.fNom = 60 then 8333 else 10000)
      let i := env.foldl max 0
      (s.conv.state = .scs → s.conv.scsEnded = false →
        ((i ≤ s.cfgN Obj.SCS_END_LEVEL ∨ s.cfgN Obj.SCS_TMAX * 1000 ≤ us ∨ s.envelopeOut i us = true) →
          ∃ t, exec (.scsMonitorCheck xs us) s = .next t ∧ t.conv = { s.conv with scsEnded := true } ∧ t.prDemand = true ∧
            t.saf.switches.any id = false ∧ t.saf.env = env ∧ t.saf.iEnv = i ∧ t.saf.scsUs = us ∧ t.objs = s.objs) ∧
        (s.cfgN Obj.SCS_END_LEVEL < i → us < s.cfgN Obj.SCS_TMAX * 1000 → s.envelopeOut i us = false →
          Does (.scsMonitorCheck xs us) s { s.clearOut with saf := { s.saf with env := env, iEnv := i, scsUs := us } })) ∧
      (s.conv.state ≠ .scs → Does (.scsMonitorCheck xs us) s { s.clearOut with saf := { s.saf with env := env, iEnv := i } })) ∧
    (∀ (xs : List ArmSamples) (us : Nat), s.saf.linkLost = true → Idles (.scsMonitorCheck xs us) s) ∧
    (∀ us : Nat, 10 ≤ us → s.conv.scsEnded = false →
      (s.conv.state = .scs → ∃ t, exec (.sampleLinkLost us) s = .next t ∧ t.saf.linkLost = true ∧ t.saf.iEnv = 0 ∧ t.saf.env = [] ∧
        t.conv = { s.conv with scsEnded := true } ∧ t.prDemand = true ∧ t.saf.switches.any id = false ∧ t.objs = s.objs) ∧
      (s.conv.state ≠ .scs → Does (.sampleLinkLost us) s { s.clearOut with saf := { s.saf with linkLost := true, iEnv := 0, env := [] } })) ∧
    (∀ us : Nat, us < 10 → Idles (.sampleLinkLost us) s) ∧
    (∀ ms : Nat, 10 ≤ ms → Does (.sampleLinkRestored ms) s { s.clearOut with saf := { s.saf with linkLost := false } }) ∧
    (∀ ms : Nat, ms < 10 → Idles (.sampleLinkRestored ms) s) ∧
    (∀ ms : Nat, s.saf.keyClosed = true → s.saf.session = true → 20 ≤ ms →
      Does (.safetyKeyChange false ms) s (State.post { s.clearOut with saf := { s.saf with keyClosed := false, session := false, staged := [] } }
        0x2910 0xFF [0])) ∧
    (∀ ms : Nat, s.saf.keyClosed = false → 20 ≤ ms →
      Does (.safetyKeyChange true ms) s { s.clearOut with saf := { s.saf with keyClosed := true } }) ∧
    (∀ n : Nat, s.saf.session = true → 600 ≤ n →
      Does (.sessionInactivity n) s (State.post { s.clearOut with saf := { s.saf with session := false, staged := [] } } 0x2910 0xFF [1])) ∧
    (∀ n : Nat, s.saf.session = false ∨ n < 600 → Idles (.sessionInactivity n) s)

/-- From R303 to R305: while SF_ENABLE is 1 the kernel sends a frame every SF_PERIOD with the next SEQ, one copy on each network, which differ
in NET: destination 03-4C-47-53-46-00, Ethertype 0x88B5, KIND 0, its outgoing bits and its SAFETY_CRC. A copy whose SAFETY_CRC is valid waits
for the other network's; one within SF_ACCEPT_WIN that agrees but for NET and TX_TIME, with its SEQ ahead, is accepted, and the pair's demands
for a group in SF_GROUPS are the producer's. Copies that disagree, a pair out of sequence and a copy that stays single are discarded and
counted, and the producer's run of accepted pairs ends. A frame of no producer, or with a wrong CRC, changes no demand. The model's own: the
counting of a discarded pair is log entry 37, of SF_PERIOD in ticks log entry 2; the source address is free (log entry 3). -/
def Obligations.SafetyFramesArePaired : Prop :=
  ∀ s : State, s.Awake →
    (s.cfgB Obj.SF_ENABLE = true → (∀ a : Nat, s.saf.sfAt = some a → a + 4 * s.cfgN Obj.SF_PERIOD ≤ s.pwr.uptimeTicks) →
      ∃ pA pB : List Byte, Does .sfPeriodicTx s { s.clearOut with saf := { s.saf with
          tx := [sfFrame pA, sfFrame pB], txSeq := (s.saf.txSeq + 1) % 2 ^ 32, sfAt := some s.pwr.uptimeTicks } } ∧
        (∀ p ∈ [pA, pB], p.length = 46 ∧ (sfFrame p).take 6 = [0x03, 0x4C, 0x47, 0x53, 0x46, 0x00] ∧ (sfFrame p).drop 12 = [0x88, 0xB5] ++ p ∧
          sfSeq p = s.saf.txSeq % 2 ^ 32 ∧ sfByte p 14 1 = 0 ∧ sfByte p 15 1 = s.outPr % 256 ∧ sfByte p 16 1 = s.outScs % 256 ∧
          sfByte p 32 4 = (s.sfCrc p).toNat) ∧
        sfByte pA 2 1 = 0 ∧ sfByte pB 2 1 = 1 ∧ sfMasked pA = sfMasked pB) ∧
    (s.cfgB Obj.SF_ENABLE = false ∨ (∃ a : Nat, s.saf.sfAt = some a ∧ s.pwr.uptimeTicks < a + 4 * s.cfgN Obj.SF_PERIOD) →
      Idles .sfPeriodicTx s) ∧
    (∀ (b : Bool) (p : List Byte) (us : Nat), p.length = 46 → (32 ≤ sfSrc p ∨ s.isProducer (sfSrc p) = false) →
      Idles (.sfFrameRx b p us) s) ∧
    (∀ (b : Bool) (p : List Byte) (us : Nat), p.length = 46 → sfSrc p < 32 → s.isProducer (sfSrc p) = true → s.saf.producers.length = 32 →
      (sfByte p 32 4 ≠ (s.sfCrc p).toNat →
        ∃ t, exec (.sfFrameRx b p us) s = .next t ∧ t.saf.rxCrc = s.saf.rxCrc + 1 ∧ t.saf.rejectRos = true ∧
          t.producer (sfSrc p) = { s.producer (sfSrc p) with good := 0 } ∧ t.demandSources = s.demandSources ∧ t.objs = s.objs) ∧
      (sfByte p 32 4 = (s.sfCrc p).toNat → (s.producer (sfSrc p)).waiting = [] →
        Does (.sfFrameRx b p us) s (s.clearOut.setProducer (sfSrc p) fun x => { x with waiting := [(b, p)] })) ∧
      (∀ q : List Byte, sfByte p 32 4 = (s.sfCrc p).toNat → (s.producer (sfSrc p)).waiting = [(!b, q)] → sfSeq q = sfSeq p →
        us ≤ s.cfgN Obj.SF_ACCEPT_WIN → sfMasked q ≠ sfMasked p →
        ∃ t, exec (.sfFrameRx b p us) s = .next t ∧ t.producer (sfSrc p) = { s.producer (sfSrc p) with waiting := [], good := 0 } ∧
          t.saf.rxDisagree = s.saf.rxDisagree + 2 ∧ t.saf.rxSeq = s.saf.rxSeq ∧ t.saf.rejectRos = true ∧
          t.demandSources = s.demandSources ∧ t.objs = s.objs) ∧
      (∀ q : List Byte, sfByte p 32 4 = (s.sfCrc p).toNat → (s.producer (sfSrc p)).waiting = [(!b, q)] → sfSeq q = sfSeq p →
        us ≤ s.cfgN Obj.SF_ACCEPT_WIN → sfMasked q = sfMasked p → (s.producer (sfSrc p)).ahead (sfBoot p) (sfSeq p) = false →
        ∃ t, exec (.sfFrameRx b p us) s = .next t ∧ t.producer (sfSrc p) = { s.producer (sfSrc p) with waiting := [], good := 0 } ∧
          t.saf.rxSeq = s.saf.rxSeq + 2 ∧ t.saf.rxDisagree = s.saf.rxDisagree ∧ t.saf.rejectRos = true ∧
          t.demandSources = s.demandSources ∧ t.objs = s.objs) ∧
      (∀ q : List Byte, sfByte p 32 4 = (s.sfCrc p).toNat → (s.producer (sfSrc p)).waiting = [(!b, q)] → sfSeq q = sfSeq p →
        s.cfgN Obj.SF_ACCEPT_WIN < us →
        ∃ t, exec (.sfFrameRx b p us) s = .next t ∧
          t.producer (sfSrc p) = { s.producer (sfSrc p) with waiting := [(b, p)], good := 0 } ∧ t.saf.rxSingle = s.saf.rxSingle + 1 ∧
          t.saf.rejectRos = true ∧ t.demandSources = s.demandSources ∧ t.objs = s.objs) ∧
      (∀ q : List Byte, sfByte p 32 4 = (s.sfCrc p).toNat → (s.producer (sfSrc p)).waiting = [(!b, q)] → sfMasked q = sfMasked p →
        sfSeq q = sfSeq p → us ≤ s.cfgN Obj.SF_ACCEPT_WIN → (s.producer (sfSrc p)).ahead (sfBoot p) (sfSeq p) = true →
        ∃ t, exec (.sfFrameRx b p us) s = .next t ∧ (t.producer (sfSrc p)).waiting = [] ∧ (t.producer (sfSrc p)).known = true ∧
          (t.producer (sfSrc p)).boot = sfBoot p ∧ (t.producer (sfSrc p)).seq = sfSeq p ∧
          (t.producer (sfSrc p)).pr = decide (sfByte p 15 1 &&& s.cfgN Obj.SF_GROUPS ≠ 0) ∧
          (t.producer (sfSrc p)).scs = decide (sfByte p 16 1 &&& s.cfgN Obj.SF_GROUPS ≠ 0) ∧
          ((s.producer (sfSrc p)).watchdog = true → (t.producer (sfSrc p)).watchdog = decide ((s.producer (sfSrc p)).good < 2)) ∧
          (∀ a : Nat, a ≠ sfSrc p → t.producer a = s.producer a) ∧ t.saf.rxSingle = s.saf.rxSingle ∧ t.saf.rxDisagree = s.saf.rxDisagree ∧
          t.saf.rxCrc = s.saf.rxCrc ∧ t.saf.rxSeq = s.saf.rxSeq ∧ t.conv = s.conv ∧ t.objs = s.objs)) ∧
    (∀ (a : Fin 32) (w : Bool × List Byte) (ws : List (Bool × List Byte)), (s.producer a.val).waiting = w :: ws → s.saf.producers.length = 32 →
      ∃ t, exec (.sfAcceptTimeout a) s = .next t ∧ t.producer a.val = { s.producer a.val with waiting := ws, good := 0 } ∧
        t.saf.rxSingle = s.saf.rxSingle + 1 ∧ t.saf.rejectRos = true ∧ t.demandSources = s.demandSources ∧ t.objs = s.objs) ∧
    (∀ a : Fin 32, (s.producer a.val).waiting = [] → Idles (.sfAcceptTimeout a) s)

/-- R306: a producer in SF_PRODUCERS without an accepted pair for SF_WATCHDOG demands PR: logged, counted, shown in SAFETY_STATUS; the
demand ends with the third accepted pair in a row, and a discarded copy starts the count anew. -/
def Obligations.WatchdogDemandsAndEnds : Prop :=
  ∀ (s : State) (a : Fin 32), s.Awake → s.saf.producers.length = 32 →
    (∀ us : Nat, s.isProducer a.val = true → s.cfgN Obj.SF_WATCHDOG ≤ us → (s.producer a.val).watchdog = false →
      let w : State := s.clearOut.setProducer a.val fun (x : Producer) => { x with watchdog := true, good := 0 }
      let f : State := State.post { w with saf := { w.saf with wdCount := s.saf.wdCount + 1 } } 0x2907 a.val (beBytes 4 (s.producer a.val).seq)
      Does (.sfWatchdog a us) s f ∧ f.prDemand = true ∧ f.watchdogActs = true) ∧
    (∀ us : Nat, s.isProducer a.val = false ∨ us < s.cfgN Obj.SF_WATCHDOG ∨ (s.producer a.val).watchdog = true → Idles (.sfWatchdog a us) s) ∧
    (∀ (b : Bool) (p : List Byte) (us : Nat), s.isProducer a.val = true → p.length = 46 → sfSrc p = a.val → sfByte p 32 4 = (s.sfCrc p).toNat →
      ∀ q : List Byte, (s.producer a.val).waiting = [(!b, q)] → sfMasked q = sfMasked p → sfSeq q = sfSeq p →
      us ≤ s.cfgN Obj.SF_ACCEPT_WIN → (s.producer a.val).ahead (sfBoot p) (sfSeq p) = true →
      ∃ t, exec (.sfFrameRx b p us) s = .next t ∧
        (t.producer a.val).watchdog = ((s.producer a.val).watchdog && decide ((s.producer a.val).good < 2)) ∧
        ((s.producer a.val).watchdog = true → (s.producer a.val).good < 2 → (t.producer a.val).good = (s.producer a.val).good + 1) ∧
        ((t.producer a.val).watchdog = false → (3, a.val, 0) ∉ t.demandSources) ∧ t.conv = s.conv ∧ t.objs = s.objs) ∧
    (∀ (w : Bool × List Byte) (ws : List (Bool × List Byte)), (s.producer a.val).waiting = w :: ws →
      ∃ t, exec (.sfAcceptTimeout a) s = .next t ∧ (t.producer a.val).good = 0 ∧ (t.producer a.val).watchdog = (s.producer a.val).watchdog)

/-- From R353, R354, R355: HELLO is answered with a challenge while fewer than four sessions are held, else ERROR BUSY; PROVE with the MAC
over both nonces opens the session and is answered WELCOME, a wrong one AUTH, counted and logged; each answer goes to the datagram's source;
CLOSE and HL_SESSION_TIMEOUT close it and free its mailboxes; bad datagrams are counted by their kind. The model's own: session identifiers,
nonces and delivery keys are free (log entry 3); the codes are those of log entry 11; that a wrong PROVE ends its opening is log entry 29. -/
def Obligations.SessionsOpenAndClose : Prop :=
  ∀ s : State, s.Awake → s.host.starting = false → s.MailIdle →
    (∀ (x : HelloFrame) (slot : Byte), Instr.wf (.hello x slot) = true → slot.toNat ≤ 1 →
      (s.sessionsHeld < 4 → s.newSession ≠ 0 ∧ s.isOpen s.newSession = false ∧
        Does (.hello x slot) s { s.clearOut.fresh with host := { s.clearOut.host with
          asker := x.peer, pendings := s.host.pendings ++ [{ id := s.newSession, ro := slot = 1, nh := x.nh, nm := s.newNonce }]
          out := [.challenge s.newSession s.newNonce] } }) ∧
      (4 ≤ s.sessionsHeld → Does (.hello x slot) s
        { s.clearOut with host := { s.clearOut.host with asker := x.peer, out := [.error 0 0x01] } })) ∧
    (∀ (id : Word) (mac : List Byte) (ip : Peer) (p : PendingSession), Instr.wf (.prove id mac ip) = true →
      s.host.pendings.find? (fun p => p.id == id) = some p →
      (mac = hmac (s.host.key p.ro) (proveText ++ p.nh ++ p.nm) → Does (.prove id mac ip) s (State.post { s.clearOut with host := { s.clearOut.host with
        asker := ip, pendings := s.host.pendings.filter fun q => q.id ≠ id
        sessions := s.host.sessions ++ [{ id := id, ro := p.ro, key := s.sessionKey p, lastSeq := 0, peer := ip }]
        out := [.welcome id (hmac (s.host.key p.ro) (welcomeText ++ p.nm ++ p.nh))] } } 0x1F01 0xFF (beBytes 4 id.toNat ++ [BitVec.ofNat 8 (b2n p.ro)]))) ∧
      (mac ≠ hmac (s.host.key p.ro) (proveText ++ p.nh ++ p.nm) → Does (.prove id mac ip) s (State.post { s.clearOut with host := { s.clearOut.host with
        asker := ip, pendings := s.host.pendings.filter fun q => q.id ≠ id
        authFail := s.host.authFail + 1
        out := [.error id 0x09] } } 0x1F03 0xFF (beBytes 4 ip.ip.toNat)))) ∧
    (∀ id : Word, Does (.proveTimeout id) s { s.clearOut with host := { s.clearOut.host with
      pendings := s.host.pendings.filter fun q => q.id ≠ id } }) ∧
    (∀ (id : Word) (n : Nat),
      (n < s.cfgN Obj.HL_SESSION_TIMEOUT → Idles (.hlSessionTimeout id n) s) ∧
      (s.cfgN Obj.HL_SESSION_TIMEOUT ≤ n → s.isOpen id = true →
        ∃ t, exec (.hlSessionTimeout id n) s = .next t ∧ t.isOpen id = false ∧ (∀ o, o ≠ id → t.session o = s.session o) ∧
          (∀ k : Nat, t.mbox k = if (s.mbox k).owner = some id then { s.mbox k with owner := none } else s.mbox k) ∧ t.conv = s.conv ∧
          t.objs = s.objs)) ∧
    (∀ (id : Word) (seq : FrameNo) (x : Session), s.session id = some x →
      (x.lastSeq < seq.n → ∃ t, exec (.hlClose id seq) s = .next t ∧ t.isOpen id = false ∧ (∀ o, o ≠ id → t.session o = s.session o) ∧
        (∀ k : Nat, t.mbox k = if (s.mbox k).owner = some id then { s.mbox k with owner := none } else s.mbox k) ∧ t.conv = s.conv ∧
        t.objs = s.objs) ∧
      (seq.n ≤ x.lastSeq → Does (.hlClose id seq) s { s.clearOut with host := { s.clearOut.host with replay := s.host.replay + 1 } })) ∧
    (∀ (id ip : Word),
      Does (.hlRxBadFrame id .format ip) s { s.clearOut with host := { s.clearOut.host with rxBad := s.host.rxBad + 1 } } ∧
      Does (.hlRxBadFrame id .noSession ip) s { s.clearOut with host := { s.clearOut.host with rxBad := s.host.rxBad + 1 } } ∧
      Does (.hlRxBadFrame id .authTag ip) s { s.clearOut with host := { s.clearOut.host with authFail := s.host.authFail + 1 } } ∧
      Does (.hlRxBadFrame id .oldSeq ip) s { s.clearOut with host := { s.clearOut.host with replay := s.host.replay + 1 } })

/-- From R356, R359 to R361, R363 to R366: a read of registers answers its words, or RANGE; a write other than DOORBELL is acknowledged and
ignored; DOORBELL ACK takes the oldest response out of the session's mailboxes, FLUSH empties their queues; an unacknowledged response is
sent again, or discarded and counted; a command that waits too long is answered BUSY, without effect: its transfer stands as before its last fragment; an opcode of no row is answered BAD_OPCODE. In S1 to S3 a
command and an object of CORE are answered DOMAIN_OFF, a register of it reads 0 and its write is ignored; each such access sets ACCESS_ERR,
is counted, and is noted where ACCESS_ERR was 0. The model's own: the answers the rules leave open are log entries 29 and 30. -/
def Obligations.RegistersAndMailboxesServe : Prop :=
  (∀ s : State, s.Awake → s.host.starting = false → s.host.mbs.length = 8 → (∀ (n : Nat) (o : Word), (s.mbox n).owner = some o → s.isOpen o = true) →
    (∀ (mb : Fin 8) (r : Reply) (f : Fragment) (v : Verify), (∀ n : Nat, (s.mbox n).queue = []) →
      (s.mbox mb.val).running = some (r, .tableLoad f) → r.mb = mb → s.esc.verify = some v →
      ∃ t, exec (.mbCmdBound mb) s = .next t ∧ t.esc = { s.esc with load := v.before, verify := none } ∧
        t.mbox mb.val = { s.mbox mb.val with running := none, unacked := (s.mbox mb.val).unacked ++ [r.response (Ans.st 0x01)], last := some (r.response (Ans.st 0x01)) } ∧
        (∀ k : Nat, k ≠ mb.val → t.mbox k = s.mbox k) ∧ t.host.out = [.mbResp r.session mb (r.response (Ans.st 0x01)) false] ∧ t.conv = s.conv ∧
        t.objs = s.objs) ∧
    (∀ (id : Word) (seq : FrameNo) (bits : Byte) (x : Session), s.session id = some x → x.lastSeq < seq.n → x.ro = false →
      (∀ n : Nat, (s.mbox n).queue = [] ∨ (n < 8 ∧ (s.mbox n).owner = some id ∧ bits.toNat.testBit n = true)) →
      ∃ t, exec (.doorbellFlush id seq bits) s = .next t ∧ (∀ n : Nat, t.mbox n = { s.mbox n with queue := [] }) ∧
        t.host.out = [.regWriteResp id 0x300] ∧ t.conv = s.conv ∧ t.objs = s.objs)) ∧
  (∀ s : State, s.Awake → s.host.starting = false → s.MailIdle → s.host.mbs.length = 8 →
    (∀ (id : Word) (seq : FrameNo) (x : Session), id ≠ 0 → s.session id = some x → x.lastSeq < seq.n →
      (∀ (a : Word) (n : Nat), a.toNat % 4 = 0 → 1 ≤ n → n ≤ 64 → 0x404 ≤ a.toNat →
        Does (.regRead id seq a n) s { s.clearOut.tookFrame id seq with host := { (s.clearOut.tookFrame id seq).host with
          out := [.regReadResp id a ((List.range n).map fun i => BitVec.ofNat 32 ((s.clearOut.tookFrame id seq).regValue (a.toNat + 4 * i)))] } }) ∧
      (∃ t, exec (.regRead id seq 0x204 1) s = .next t ∧ t.host.out = [.regReadResp id 0x204 [BitVec.ofNat 32 s.tick.now]]) ∧
      (∃ t, exec (.regRead id seq 0x400 1) s = .next t ∧ t.host.accessErr = false ∧ t.objs = s.objs) ∧
      (∀ (a : Word) (n : Nat), a.toNat % 4 ≠ 0 ∨ n < 1 ∨ 64 < n → Does (.regRead id seq a n) s
        { s.clearOut.tookFrame id seq with host := { (s.clearOut.tookFrame id seq).host with out := [.error id 0x04] } }) ∧
      (∀ a v : Word, a ≠ 0x300 → x.ro = false → Does (.regWriteOther id seq a v) s
        { s.clearOut.tookFrame id seq with host := { (s.clearOut.tookFrame id seq).host with out := [.regWriteResp id a] } }) ∧
      (∀ bits : Byte, ∃ t, exec (.doorbellAck id seq bits) s = .next t ∧ t.host.out = [.regWriteResp id 0x300] ∧
        (∀ k : Nat, k < 8 → t.mbox k =
          if (s.mbox k).owner = some id ∧ bits.toNat.testBit k = true then { s.mbox k with unacked := (s.mbox k).unacked.drop 1 } else s.mbox k) ∧
        t.conv = s.conv ∧ t.objs = s.objs) ∧
      (∀ bits : Byte, x.ro = true → bits ≠ 0 → Does (.doorbellFlush id seq bits) s
        { s.clearOut.tookFrame id seq with host := { (s.clearOut.tookFrame id seq).host with out := [.error id 0x09] } }) ∧
      (∀ bits : Byte, x.ro = false → Does (.doorbellFlush id seq bits) s
        { s.clearOut.tookFrame id seq with host := { (s.clearOut.tookFrame id seq).host with out := [.regWriteResp id 0x300] } })) ∧
    (∀ (x : UnackedAt) (r : Response) (id : Word), (s.mbox x.mb.val).unacked[x.k]? = some r → (s.mbox x.mb.val).owner = some id →
      Does (.mbRespRetransmit x) s { s.clearOut with host := { s.clearOut.host with out := [.mbResp id x.mb r true] } }) ∧
    (∀ (mb : Fin 8) (r : Response) (rs : List Response), (s.mbox mb.val).unacked = r :: rs →
      ∃ t, exec (.mbRespDiscard mb) s = .next t ∧ t.mbox mb.val = { s.mbox mb.val with unacked := rs } ∧
        (∀ k : Nat, k ≠ mb.val → t.mbox k = s.mbox k) ∧ t.host.discards = s.host.discards + 1 ∧ t.conv = s.conv ∧ t.objs = s.objs) ∧
    (∀ x : UnackedAt, (s.mbox x.mb.val).unacked[x.k]? = none → Idles (.mbRespRetransmit x) s) ∧
    (∀ mb : Fin 8, (s.mbox mb.val).unacked = [] → Idles (.mbRespDiscard mb) s) ∧
    (∀ mb : Fin 8, Idles (.mbCmdBound mb) s) ∧
    (∀ (m : Msg) (opcode : BitVec 16), s.Takes m true →
      Does (.mbMsgBadOpcode m opcode) s ((s.took m).answer m opcode { status := 0x02 }))) ∧
  (∀ (s : State) (m : Msg), s.pwr.inReset = false → (s.pwr.state = .s1 ∨ s.pwr.state = .s2 ∨ s.pwr.state = .s3) → s.pwr.entry = none →
    s.prDemand = false → m.session ≠ 0 → s.Takes m false →
    let first : Nat → Nat := fun w => if s.host.accessErr then s.host.accessErrAddr else w
    (∀ (k : SchedKey) (target : Byte) (c : Instr) (op : BitVec 16), target.toNat ≠ 5 →
      (c, op) ∈ [(Instr.tableSwap m k, (0x0202 : BitVec 16)), (.convState m k target, 0x0301), (.settingStart m, 0x0402)] →
      ∃ t, exec c s = .next t ∧ t.host.out = [.mbResp m.session m.mb (msgResponse m op { status := 0x0B }) false] ∧
        t.host.accessErr = true ∧ t.host.accessErrs = s.host.accessErrs + 1 ∧ t.host.accessErrAddr = first (2 * 2 ^ 30 + op.toNat) ∧
        t.pwr.state = s.pwr.state ∧ t.esc = s.esc ∧ t.conv = s.conv ∧ t.objs = s.objs) ∧
    (∀ (i : BitVec 16) (d : ObjDef), objDef i.toNat = some d → objDomain i.toNat = .core →
      (∃ t, exec (.objRead m [i]) s = .next t ∧
        t.host.out = [.mbResp m.session m.mb (msgResponse m 0x0101
          { status := 0, params := beBytes 2 i.toNat ++ [0x0B, BitVec.ofNat 8 d.ty] }) false] ∧
        t.host.accessErr = true ∧ t.host.accessErrs = s.host.accessErrs + 1 ∧ t.host.accessErrAddr = first (2 ^ 30 + i.toNat) ∧
        t.objs = s.objs) ∧
      ∀ e : ObjEntry, e.index = i → ∃ t, exec (.objWrite m e) s = .next t ∧
        t.host.out = [.mbResp m.session m.mb (msgResponse m 0x0102 { status := 0x0B }) false] ∧
        t.host.accessErr = true ∧ t.host.accessErrs = s.host.accessErrs + 1 ∧ t.host.accessErrAddr = first (2 ^ 30 + i.toNat) ∧
        t.esc = s.esc ∧ t.objs = s.objs) ∧
    (∃ t, exec (.regRead m.session m.seq 0x204 1) s = .next t ∧ t.host.out = [.regReadResp m.session 0x204 [0]] ∧
      t.host.accessErr = true ∧ t.host.accessErrs = s.host.accessErrs + 1 ∧ t.host.accessErrAddr = first 0x204) ∧
    (∀ v : Word, (s.session m.session).any (·.ro) = false → ∃ t, exec (.regWriteOther m.session m.seq 0x204 v) s = .next t ∧
      t.host.out = [.regWriteResp m.session 0x204] ∧ t.host.accessErr = true ∧ t.host.accessErrs = s.host.accessErrs + 1 ∧
      t.host.accessErrAddr = first 0x204 ∧ t.objs = s.objs))

/-- From R269, R271, R274, R361, R370: OBJ_READ answers an object's TYPE and value and clears its read-to-clear bits, an index of no object
BAD_OBJECT; LOG_READ answers the entries of a ring from a SEQ on, TRUNCATED where the general ring has overwritten some, CHRONO_READ a piece of a record's part, the record released where RELEASE
asks; CHRONO_ARM arms in IDLE when a slot can be taken, disarms for the next tick, or forces the trigger of an armed chronograph. The model's own: the answers
the rules leave open are log entries 27 to 29. -/
def Obligations.HostReadsAndArms : Prop :=
  ∀ (s : State) (m : Msg), s.Awake → s.pwr.entry = none → s.Takes m true →
    (∀ (i : BitVec 16) (d : ObjDef), objDef i.toNat = some d →
      Does (.objRead m [i]) s (((s.took m).clearRos i.toNat).answer m 0x0101
        { status := 0, params := beBytes 2 i.toNat ++ [0, BitVec.ofNat 8 d.ty] ++ valBytes d.ty ((s.took m).objVal d i.toNat) })) ∧
    (∀ i : BitVec 16, objDef i.toNat = none →
      Does (.objRead m [i]) s ((s.took m).answer m 0x0101 { status := 0, params := beBytes 2 i.toNat ++ [0x03, 0] })) ∧
    (∀ is : List (BitVec 16), is.length < 1 ∨ 64 < is.length → Does (.objRead m is) s ((s.took m).answer m 0x0101 { status := 0x04 })) ∧
    (∀ (ring most : Byte) (a : Word) (n : Nat), ring.toNat ≤ 1 → 1 ≤ most.toNat → most.toNat ≤ 20 → s.log.fullSeq a.toNat = some n →
      ∃ es next, es = (((if ring = 1 then s.log.safety else s.log.general).filter fun e => decide (n ≤ e.seq)).take most.toNat) ∧
        next = (match es.getLast? with | some e => e.seq + 1 | none => a.toNat) ∧
        Does (.logRead m ring most a) s ((s.took m).answer m 0x0601
          { status := if ring = 0 ∧ s.log.gone n = true then 0x0C else 0
            params := [BitVec.ofNat 8 es.length, 0, 0, 0] ++ beBytes 4 next ++ es.flatMap LogEntry.bytes })) ∧
    (∀ (ring most : Byte) (a : Word), 1 < ring.toNat ∨ most.toNat < 1 ∨ 20 < most.toNat →
      Does (.logRead m ring most a) s ((s.took m).answer m 0x0601 { status := 0x04 })) ∧
    (∀ (id : Nat) (part : Byte) (off len : Nat) (x : Record), id ≠ 0 → part.toNat ≤ 2 → len ≤ 1000 →
      s.chr.records.find? (fun x => x.id == id) = some x →
      Does (.chronoRead m id part 0 off len) s ((s.took m).answer m 0x0502
        { status := if (s.recordPart x part.toNat).length < off + len then 0x0C else 0
          params := beBytes 8 (s.recordPart x part.toNat).length ++ beBytes 8 off ++ ((s.recordPart x part.toNat).drop off).take len })) ∧
    (∀ (id : Nat) (part : Byte) (off len : Nat), 2 < part.toNat ∨ 1000 < len →
      Does (.chronoRead m id part 0 off len) s ((s.took m).answer m 0x0502 { status := 0x04 })) ∧
    (s.Takes m false →
      (∀ (id : Nat) (part : Byte) (off len : Nat) (x : Record), id ≠ 0 → part.toNat ≤ 2 → len ≤ 1000 → s.chr.cur = none →
        s.chr.records.find? (fun x => x.id == id) = some x →
        ∃ t, exec (.chronoRead m id part 1 off len) s = .next t ∧ t.chr = { s.chr with records := s.chr.records.filter fun r => r.id ≠ id } ∧
          t.conv = s.conv ∧ t.objs = s.objs) ∧
      (∀ rep : Bool, s.chr.state = .idle → s.canArm = true →
        Does (.chronoArm m rep false) s (((s.took m).armChrono 0 rep false).answer m 0x0501 { status := 0, params := [0, 0, 0, 0] })) ∧
      (∀ rep train : Bool, s.chr.state ≠ .idle → Does (.chronoArm m rep train) s ((s.took m).answer m 0x0501 { status := 0x05 })) ∧
      (∀ rep train : Bool, s.chr.state = .idle → s.canArm = false →
        Does (.chronoArm m rep train) s ((s.took m).answer m 0x0501 { status := 0x08, reason := 0x30 })) ∧
      (s.chr.state ≠ .idle → Does (.chronoDisarm m false) s
        (State.answer { s.took m with chr := { s.chr with disarm := true } } m 0x0501 { status := 0, params := beBytes 4 s.chr.armId })) ∧
      (s.chr.state = .idle → Does (.chronoDisarm m false) s ((s.took m).answer m 0x0501 { status := 0, params := beBytes 4 s.chr.armId })) ∧
      (s.chr.state = .armed → Does (.chronoForce m) s
        (State.answer { s.took m with chr := { s.chr with force := true } } m 0x0501 { status := 0, params := beBytes 4 s.chr.armId })) ∧
      (s.chr.state ≠ .armed → Does (.chronoForce m) s ((s.took m).answer m 0x0501 { status := 0x05 })))

/-- From R185, R188, R195, R202, R210, R252, R309, R370: a command that acts at a boundary is kept and stays in execution until it has acted
there (a group of writes and targets, a swap of the banks, a change of the converter's state, a migration); a value that waits for a point
of its own, a set of nothing else, a staged value and a scheduled action are answered at once; one that is refused is answered with its status and changes nothing,
as is a group that would rewrite more than 256 steps (log entry 54). The model's own: whether the self-test passes is free (log entry 3), and the answer of a RETEST is log entry 20. -/
def Obligations.HostCommandsTakeTheirTurn : Prop :=
  ∀ (s : State) (m : Msg), s.Awake → s.pwr.entry = none → s.Takes m false →
    (∀ (op : BitVec 16) (r : Reply), r = { mb := m.mb, session := m.session, opcode := op, tag := m.tag, peer := m.seq.peer } →
      (∀ e : ObjEntry, op = 0x0102 → s.judgeWrite e = none → isSafetyObj e.index.toNat = false → pointOf e.index.toNat = .nextTick →
        e.index.toNat ≠ Obj.COEF_WRITE →
        (s.esc.groups.length < 16 → s.groupOver [entryItem e] ≠ none → Does (.objWrite m e) s ((s.took m).answer m op { status := 0x04 })) ∧
        (s.esc.groups.length < 16 → s.groupOver [entryItem e] = none → Does (.objWrite m e) s (State.runs { s.took m with esc := { s.esc with
          groups := s.esc.groups ++ [{ acc := s.tick.now, items := [entryItem e], isSet := false, reply := some r, move := none }] } } m op
          (.objWrite e))) ∧
        (16 ≤ s.esc.groups.length → Does (.objWrite m e) s ((s.took m).answer m op { status := 0x01 }))) ∧
      (∀ (k : SchedKey) (es : List ObjEntry), op = 0x0103 → 1 ≤ es.length → es.length ≤ 64 → s.keyJudge k = none →
        (∀ n : Nat, s.judgeEntries es (keyNow k) = none → s.groupOver (es.map entryItem) = some n → Does (.objWriteSet m k es) s
          ((s.took m).answer m op { status := 0x04, params := beBytes 2 n })) ∧
        (keyNow k = true → s.judgeEntries es true = none → s.groupOver (es.map entryItem) = none → (∀ e ∈ es, atGroup e.index.toNat = false) →
          Does (.objWriteSet m k es) s (((s.took m).waitEntries es).answer m op { status := 0, params := [0, 0, 0, 0, 0, 0, 0, 0] })) ∧
        (keyNow k = true → s.judgeEntries es true = none → s.groupOver (es.map entryItem) = none → (∃ e ∈ es, atGroup e.index.toNat = true) →
          s.esc.groups.length < 16 → Does (.objWriteSet m k es) s
          (State.runs { s.took m with esc := { s.esc with
            groups := s.esc.groups ++ [{ acc := s.tick.now, items := es.map entryItem, isSet := true, reply := some r, move := none }] } } m op
            (.objWriteSet k es))) ∧
        (keyNow k = false → s.judgeEntries es false = none → s.groupOver (es.map entryItem) = none → keyDiscard k = false → Does (.objWriteSet m k es) s
          (State.answer { s.took m with sched := { s.sched with
            pending := s.sched.pending ++ [s.newAction k (.objWriteSet k es)], nextId := s.sched.nextId + 1 } } m op
            { status := 0, params := beBytes 4 s.sched.nextId ++ beBytes 8 ((s.keyTick k).getD 0) })) ∧
        (∀ (n : Nat) (a : Ans), s.judgeEntries es (keyNow k) = some (n, a) → a.status ≠ 0x0B → Does (.objWriteSet m k es) s
          ((s.took m).answer m op { a with params := beBytes 2 n }))) ∧
      (∀ k : SchedKey, op = 0x0202 → keyNow k = true → s.keyJudge k = none →
        (s.swapJudge = none → Does (.tableSwap m k) s (State.runs { s.took m with esc := { s.esc with swap := some ⟨s.nextTick, some r⟩ } } m op
          (.tableSwap k))) ∧
        (∀ a, s.swapJudge = some a → Does (.tableSwap m k) s ((s.took m).answer m op a))) ∧
      (∀ (k : SchedKey) (t : Byte), op = 0x0301 → t.toNat ≤ 5 → keyNow k = true → s.keyJudge k = none →
        Does (.convState m k t) s (State.runs { s.took m with conv := { s.conv with
          reqs := s.conv.reqs ++ [{ target := convOf t.toNat, reply := some r, sched := none }] } } m op (.convState k t))) ∧
      (∀ (k : SchedKey) (axes options : Byte) (ts : List Int), op = 0x0401 → keyNow k = true → s.keyJudge k = none →
        s.handsForm axes.toNat options.toNat ts = none → s.handsHeld axes.toNat = none → s.esc.groups.length < 16 →
        s.groupOver (s.handsItems axes.toNat options.toNat ts).1 = none →
        ∃ t, exec (.handsTarget m k axes options ts) s = .next t ∧ t.hands.moveId = s.hands.moveId + 1 ∧
          t.esc.groups = s.esc.groups ++ [{ acc := s.tick.now, items := (s.handsItems axes.toNat options.toNat ts).1, isSet := false, reply := some r
                                            move := some (s.hands.moveId + 1, (s.handsItems axes.toNat options.toNat ts).2) }] ∧
          (t.mbox m.mb.val).running = some (r, .handsTarget k axes options ts) ∧ t.conv = s.conv ∧ t.objs = s.objs) ∧
      (∀ (n : Byte) (slot : Nat) (rest : List Nat), op = 0x0203 → s.migrateJudge n.toNat = none → s.esc.migration = none →
        s.freeSlots = slot :: rest →
        ∃ t, exec (.engineSpareMigrate m n) s = .next t ∧
          t.esc.migration = some { logical := n.toNat, slot := slot, start := s.nextTick, byCommand := true, reply := some r } ∧
          (t.mbox m.mb.val).running = some (r, .engineSpare 0 n) ∧ t.conv = s.conv ∧ t.objs = s.objs)) ∧
    (∀ e : ObjEntry, s.judgeWrite e = none →
      (isSafetyObj e.index.toNat = true → Does (.objWrite m e) s
        (((s.took m).stage e.index.toNat (entryNum e)).answer m 0x0102 { status := 0, params := [0, 0, 0, 0, 0, 0, 0, 0] })) ∧
      (isSafetyObj e.index.toNat = false → pointOf e.index.toNat ≠ .nextTick → Does (.objWrite m e) s
        (((s.took m).addWaiting e.index.toNat (entryNum e) (pointOf e.index.toNat)).answer m 0x0102
          { status := 0, params := [0, 0, 0, 0, 0, 0, 0, 0] }))) ∧
    (∀ (e : ObjEntry) (a : Ans), s.judgeWrite e = some a → a.status ≠ 0x0B → Does (.objWrite m e) s ((s.took m).answer m 0x0102 a)) ∧
    (∀ (n : Byte) (a : Ans), s.migrateJudge n.toNat = some a → Does (.engineSpareMigrate m n) s ((s.took m).answer m 0x0203 a)) ∧
    (∀ n : Byte, n.toNat < 16 → (s.esc.engine n.toNat).failed = true → s.idleOrPr = true → s.esc.engines.length = 16 →
      s.isLogical (s.esc.logicalOf n.toNat) = true → s.esc.groups = [] →
      ∃ t, exec (.engineSpareRetest m n) s = .next t ∧ t.esc.engine n.toNat =
          (if Config.selfTestPass s.free && !(s.esc.engine n.toNat).barred then { s.esc.engine n.toNat with
            locals := (s.esc.engine n.toNat).mLocals, tag := (s.esc.engine n.toNat).mTag, failed := false }
           else { s.esc.engine n.toNat with barred := true }) ∧
        (∀ q, q ≠ n.toNat → t.esc.engine q = s.esc.engine q) ∧ t.esc.map = s.esc.map ∧
        t.host.out = [.mbResp m.session m.mb (msgResponse m 0x0203 { status := 0, params := [n] }) false] ∧ t.conv = s.conv ∧ t.objs = s.objs) ∧
    (∀ n : Byte, n.toNat < 16 → (s.esc.engine n.toNat).failed = true → s.idleOrPr = false →
      Does (.engineSpareRetest m n) s ((s.took m).answer m 0x0203 { status := 0x05 })) ∧
    (s.settingJudge = none → Does (.settingStart m) s
      (State.answer { s.took m with set := { s.set with starting := true } } m 0x0402 { status := 0 })) ∧
    (∀ a, s.settingJudge = some a → Does (.settingStart m) s ((s.took m).answer m 0x0402 a))

/-- From R310, R371, R372, R374: the first fragment of TABLE_LOAD opens the transfer, each next one in order extends it, the last starts
verification; a fragment out of order is answered RANGE; a transfer without one for 10 s is abandoned. A firmware image is begun, extended
in order, and at its end staged when its signature is valid; activation starts it, and keeps the slot it ran from to fall back to. The
model's own: the signature check and the version are free (log entry 3); the answers the rules leave open are log entry 31. -/
def Obligations.TransfersFillInOrder : Prop :=
  ∀ (s : State) (m : Msg), s.Awake → s.pwr.entry = none → s.Takes m false →
    (∀ f : Fragment, 1 ≤ f.data.length → f.data.length ≤ 1008 →
      (f.flags = 1 → f.offset = 0 → s.esc.load = none → s.esc.loadBusy = false → Does (.tableLoad m f) s
        (State.answer { s.took m with esc := { s.esc with
          load := some { id := f.transfer.toNat, mb := m.mb.val, length := 139584, bytes := f.data } } } m 0x0201
          { status := 0, params := beBytes 4 f.data.length })) ∧
      (∀ x : Transfer, s.esc.load = some x → x.mb = m.mb.val → x.id = f.transfer.toNat →
        (f.flags = 0 → f.offset = x.bytes.length → x.bytes.length + f.data.length ≤ 139584 → Does (.tableLoad m f) s
          (State.answer { s.took m with esc := { s.esc with load := some { x with bytes := x.bytes ++ f.data } } } m 0x0201
            { status := 0, params := beBytes 4 (x.bytes ++ f.data).length })) ∧
        (f.flags = 2 → f.offset = x.bytes.length → x.bytes.length + f.data.length ≤ 139584 → s.esc.loadBusy = false → Does (.tableLoad m f) s
          (State.runs { s.took m with esc := { s.esc with
            load := none, verify := some { image := x.bytes ++ f.data, conforms := f.conforms
                                           reply := some { mb := m.mb, session := m.session, opcode := 0x0201, tag := m.tag, peer := m.seq.peer }
                                           before := some x } } } m 0x0201
            (.tableLoad f))) ∧
        (f.flags = 0 → f.offset ≠ x.bytes.length → Does (.tableLoad m f) s ((s.took m).answer m 0x0201 { status := 0x04 })))) ∧
    Does .tableLoadAbandon s { s.clearOut with esc := { s.esc with load := none } } ∧
    (∀ len : Nat, len ≤ 2 ^ 23 → s.host.fwSup = none → Does (.fwBegin m 0 len) s
      (State.answer { s.took m with host := { (s.took m).host with
        fwSup := some { id := 0, mb := m.mb.val, length := len, bytes := [] }, fwTarget := 0 } } m 0x0801 { status := 0 })) ∧
    (∀ len : Nat, 2 ^ 23 < len → Does (.fwBegin m 0 len) s ((s.took m).answer m 0x0801 { status := 0x04 })) ∧
    (∀ len : Nat, s.saf.session = false ∨ s.conv.state ≠ .pr → Does (.fwBegin m 1 len) s ((s.took m).answer m 0x0801 { status := 0x05 })) ∧
    (∀ x : Transfer, s.host.fwSup = some x → s.host.fwSk = none → x.mb = m.mb.val →
      (∀ data : List Byte, 1 ≤ data.length → data.length ≤ 1008 → x.bytes.length + data.length ≤ x.length →
        Does (.fwData m x.bytes.length data) s (State.answer { s.took m with host := { (s.took m).host with
          fwSup := some { x with bytes := x.bytes ++ data } } } m 0x0802 { status := 0, params := beBytes 4 (x.bytes.length + data.length) })) ∧
      (∀ (off : Nat) (data : List Byte), off ≠ x.bytes.length → Does (.fwData m off data) s ((s.took m).answer m 0x0802 { status := 0x04 })) ∧
      (x.bytes.length = x.length → 104 ≤ x.length →
        Does (.fwEnd m) s (if Config.signatureValid false x.bytes then State.answer (State.post { s.took m with host := { (s.took m).host with
          fwSup := none, supInactive := Config.imageVersion x.bytes, supStaged := true, supFallback := none } } 0x1F06 0
          (beBytes 4 (Config.imageVersion x.bytes).toNat)) m 0x0803 { status := 0, params := beBytes 4 (Config.imageVersion x.bytes).toNat }
        else State.answer { s.took m with host := { (s.took m).host with fwSup := none } } m 0x0803 { status := 0x09 })) ∧
      (x.bytes.length ≠ x.length → Does (.fwEnd m) s ((s.took m).answer m 0x0803 { status := 0x04 }))) ∧
    (s.host.supStaged = true → ∃ t, exec (.fwActivate m 0) s = .next t ∧ t.host.supRunning = s.host.supInactive ∧
      t.host.supInactive = s.host.supRunning ∧ t.host.supFallback = some s.host.supRunning ∧ t.host.starting = true ∧ t.host.wdRuns = 0 ∧
      t.host.out = [.mbResp m.session m.mb { opcode := 0x0804, tag := m.tag, status := 0, reason := 0, params := [], peer := m.seq.peer } false] ∧ t.conv = s.conv ∧
      t.objs = s.objs) ∧
    (s.host.supStaged = false → Does (.fwActivate m 0) s ((s.took m).answer m 0x0804 { status := 0x05 }))

/-- From R309, R385 to R389: a safety session opens while SAFETY_KEY is closed and none is open; COMMIT in PR of a set that meets the cross-
checks, with the kernel's own CRC, lets the whole staged set take effect at the next tick; CLOSE discards the staging. PSTATE_REQ begins a
sleep entry unless a refuser bars it, counted; a LEVEL that the tables fit starts its ramp; in a sleep state PSTATE_REQ S0 begins the wake of
the module, W5 from S1 and W4 from S2; during a wake another is held for S0, and one to a sleep state is answered BUSY.
The model's own: the durations are free within their bounds (log entry 3); the answers the rules leave open are log entries 32, 34 and 35.
-/
def Obligations.SafetySessionsAndSleep : Prop :=
  ∀ (s : State) (m : Msg), s.pwr.inReset = false → s.reg.gated = false → s.saf.tickMissing = false → s.pwr.entry = none → s.Takes m false →
    (s.pwr.state = .s0 →
      (s.saf.keyClosed = true → s.saf.session = false → ∃ t a, exec (.safetySessionOpen m) s = .next t ∧
        t.saf.session = true ∧ t.saf.staged = [] ∧ t.objs = s.objs ∧ t.conv = s.conv ∧
        a = ({ status := 0, params := beBytes 4 s.paramCrc.toNat ++ beBytes 4 s.saf.paramVersion } : Ans) ∧
        t.host.out = [.mbResp m.session m.mb (msgResponse m 0x0901 a) false]) ∧
      (s.saf.keyClosed = false → Does (.safetySessionOpen m) s ((s.took m).answer m 0x0901 { status := 0x08, reason := 0x23 })) ∧
      (s.saf.keyClosed = true → s.saf.session = true → Does (.safetySessionOpen m) s ((s.took m).answer m 0x0901 { status := 0x01 })) ∧
      (∀ crc : Word, s.saf.session = true → s.conv.state = .pr → s.crossCheck = true → setCrc s.stagedVal = crc →
        ∃ t, exec (.safetySessionCommit m crc) s = .next t ∧ t.saf.paramVersion = s.saf.paramVersion + 1 ∧ t.saf.session = true ∧
          (∀ i ∈ safetyObjs, t.storeVal i = s.stagedVal i) ∧ t.paramCrc = crc ∧ t.objs = s.objs ∧ t.conv = s.conv) ∧
      (∀ crc : Word, s.saf.session = false ∨ s.conv.state ≠ .pr →
        Does (.safetySessionCommit m crc) s ((s.took m).answer m 0x0901 { status := 0x05 })) ∧
      (∀ crc : Word, s.saf.session = true → s.conv.state = .pr → s.crossCheck = false →
        Does (.safetySessionCommit m crc) s ((s.took m).answer m 0x0901 { status := 0x04 })) ∧
      (∀ crc : Word, s.saf.session = true → s.conv.state = .pr → s.crossCheck = true → setCrc s.stagedVal ≠ crc →
        Does (.safetySessionCommit m crc) s ((s.took m).answer m 0x0901 { status := 0x0A })) ∧
      (s.saf.session = true → ∃ t, exec (.safetySessionClose m) s = .next t ∧ t.saf.session = false ∧ t.saf.staged = [] ∧ t.objs = s.objs ∧
        t.conv = s.conv) ∧
      (s.saf.session = false → Does (.safetySessionClose m) s ((s.took m).answer m 0x0901 { status := 0x05 })) ∧
      (∀ st : Byte, 1 ≤ st.toNat → st.toNat ≤ 3 → s.pwr.plTarget = none →
        (s.sleepBar st.toNat m.mb.val = none → ∃ t, exec (.pstateReqSleep m st) s = .next t ∧
          t.pwr.entry.map (fun e => (e.target, e.step)) = some (st.toNat, 1) ∧ t.pwr.state = .s0 ∧ t.conv = s.conv ∧ t.objs = s.objs) ∧
        (∀ c, s.sleepBar st.toNat m.mb.val = some c → ∃ t, exec (.pstateReqSleep m st) s = .next t ∧ t.pwr.entry = none ∧
          t.pwr.refusedRos = true ∧ t.pwr.refuse = modifyAt s.pwr.refuse (c.toNat - 1) (· + 1) ∧ t.conv = s.conv ∧ t.objs = s.objs)) ∧
      (∀ lv : Byte, lv.toNat ≤ 3 → s.pwr.plTarget = none → lv.toNat ≠ s.pwr.pl →
        (s.levelBar lv.toNat = none → ∃ t d, exec (.pstateReqLevel m lv) s = .next t ∧
          t.pwr.plTarget = some (lv.toNat, { mb := m.mb, session := m.session, opcode := 0x0701, tag := m.tag, peer := m.seq.peer }, s.tick.now + d) ∧
          1 ≤ d ∧ d ≤ 600 ∧ t.pwr.pl = s.pwr.pl ∧ t.conv = s.conv ∧ t.objs = s.objs) ∧
        (∀ c, s.levelBar lv.toNat = some c → ∃ t, exec (.pstateReqLevel m lv) s = .next t ∧ t.pwr.plTarget = none ∧
          t.pwr.plRefused = s.pwr.plRefused + 1 ∧ t.pwr.pl = s.pwr.pl ∧ t.conv = s.conv ∧ t.objs = s.objs))) ∧
    (∀ (lv : Byte) (f : StartFlags), s.pwr.state = .s1 ∨ s.pwr.state = .s2 → lv.toNat ≤ 3 → (s.prDemand = true → s.conv.state = .pr ∧ s.hostPr = false) →
      (s.pwr.waking = none → ∃ t, exec (.pstateReqWake m lv f) s = .next t ∧ t.pwr.state = s.pwr.state ∧
        t.pwr.waking = some (if s.pwr.state = .s1 then ⟨6, 6, 400, f⟩ else ⟨5, 5, 8000, f⟩) ∧ t.pwr.wakes = s.pwr.wakes + 1 ∧
        t.pwr.wakeReply.map Prod.snd = s.pwr.wakeReply.map Prod.snd ++ [lv.toNat] ∧ t.tick = s.tick ∧ t.conv = s.conv ∧ t.objs = s.objs) ∧
      (s.pwr.waking.isSome → ∃ t, exec (.pstateReqWake m lv f) s = .next t ∧ t.pwr.waking = s.pwr.waking ∧
        t.pwr.wakeReply.map Prod.snd = s.pwr.wakeReply.map Prod.snd ++ [lv.toNat] ∧ t.pwr.wakes = s.pwr.wakes ∧
        t.tick = s.tick ∧ t.conv = s.conv ∧ t.objs = s.objs) ∧
      (∀ st : Byte, s.pwr.waking.isSome → 1 ≤ st.toNat → st.toNat ≤ 3 → ∃ t, exec (.pstateReqSleep m st) s = .next t ∧
        t.pwr.waking = s.pwr.waking ∧ t.pwr.wakeReply = s.pwr.wakeReply ∧ t.pwr.entry = none ∧
        t.tick = s.tick ∧ t.conv = s.conv ∧ t.objs = s.objs))

/-- From R18, R370: each command that writes one object is the OBJ_WRITE of that object's index, TYPE and value. One that is judged unfit is
answered so and changes nothing; an accepted one is queued as a group of its own, and its command stays in execution until the group has
applied; on a full queue it is answered BUSY. R185, R186: COEF_WRITE of a word that its bank takes is queued as a group of its one step, and
its command stays in execution; one that the bank refuses is answered so. The model's own: a write whose group would rewrite more than 256
steps is answered RANGE (log entry 54). -/
def Obligations.ObjectCommandsAreQueued : Prop :=
  (∀ (s : State) (m : Msg) (c : Instr) (e : ObjEntry), s.Awake → s.pwr.entry = none → s.Takes m false →
    ((∃ b, c = .tripClear m b ∧ e = ⟨0x2341, 2, .num b.toNat⟩) ∨ (∃ (n : TripIn) (b : Byte), c = .tripArmsWrite m n b ∧ e = ⟨BitVec.ofNat 16 (0x2330 + n.val), 1, .num b.toNat⟩) ∨
      (∃ b, c = .cellExclude m b ∧ e = ⟨0x2245, 2, .num b.toNat⟩) ∨ (∃ b, c = .cellReadmit m b ∧ e = ⟨0x2246, 2, .num b.toNat⟩) ∨
      (∃ b, c = .limChatClear m b ∧ e = ⟨0x253C, 1, .num b.toNat⟩) ∨ (∃ b, c = .driftClear m b ∧ e = ⟨0x2656, 3, .num b.toNat⟩) ∨
      (c = .setEndClosed m ∧ e = ⟨0x255B, 12, .num 1⟩) ∨ (c = .setEndCancel m ∧ e = ⟨0x255B, 12, .num 2⟩) ∨
      (c = .dcfRecover m ∧ e = ⟨0x2154, 0, .num 1⟩) ∨ (c = .pairYield m ∧ e = ⟨0x2A06, 0, .num 1⟩) ∨
      (∃ b, c = .feedTest m b ∧ e = ⟨0x2A07, 1, .num b.toNat⟩) ∨ (c = .trainAddrClear m ∧ e = ⟨0x2A00, 0, .num 1⟩) ∨
      (∃ b, c = .laneCntClear m b ∧ e = ⟨0x24FE, 4, .num b.toNat⟩) ∨ (∃ b, c = .schedCancel m b ∧ e = ⟨0x2730, 3, .num b.toNat⟩) ∨
      (∃ b, c = .logAck m b ∧ e = ⟨0x2C04, 3, .num b.toNat⟩) ∨ (∃ b, c = .rampCmd m b ∧ e = ⟨0x2703, 4, .num b.toNat⟩) ∨
      (∃ b, c = .modEnableWrite m b ∧ e = ⟨0x2301, 0, .num (b2n b)⟩) ∨
      (∃ (n : LaneId) (b : Bool), c = .laneEnWrite m n b ∧ e = ⟨BitVec.ofNat 16 (0x2400 + n.val), 0, .num (b2n b)⟩) ∨
      (∃ b, c = .regModeWrite m b ∧ e = ⟨0x2702, 12, .num (b2n b)⟩) ∨ (∃ b, c = .regRefWrite m b ∧ e = ⟨0x2700, 12, .num (b2n b)⟩) ∨
      (∃ v, c = .regTrimWrite m v ∧ e = ⟨0x2704, 6, .num v⟩) ∨ (∃ b, c = .sparesWrite m b ∧ e = ⟨0x2D00, 1, .num b.toNat⟩)) →
    (∀ a, s.judgeWrite e = some a → a.status ≠ 0x0B → Does c s ((s.took m).answer m 0x0102 a)) ∧
    (s.judgeWrite e = none → s.esc.groups.length < 16 → s.groupOver [entryItem e] ≠ none → Does c s ((s.took m).answer m 0x0102 { status := 0x04 })) ∧
    (s.judgeWrite e = none → s.esc.groups.length < 16 → s.groupOver [entryItem e] = none → Does c s (State.runs { s.took m with esc := { s.esc with
      groups := s.esc.groups ++ [{ acc := s.tick.now, items := [entryItem e], isSet := false
                                   reply := some { mb := m.mb, session := m.session, opcode := 0x0102, tag := m.tag, peer := m.seq.peer }, move := none }] } } m 0x0102
      (.objWrite e))) ∧
    (s.judgeWrite e = none → 16 ≤ s.esc.groups.length → Does c s ((s.took m).answer m 0x0102 { status := 0x01 }))) ∧
  (∀ (s : State) (m : Msg) (w : DWord), s.Awake → s.pwr.entry = none → s.Takes m false →
    (∀ a, s.coefJudge w = some a → Does (.coefWrite m w) s ((s.took m).answer m 0x0102 a)) ∧
    (s.coefJudge w = none → s.esc.groups.length < 16 → Does (.coefWrite m w) s (State.runs { s.took m with esc := { s.esc with
      groups := s.esc.groups ++ [{ acc := s.tick.now, items := [coefItem w], isSet := false
                                   reply := some { mb := m.mb, session := m.session, opcode := 0x0102, tag := m.tag, peer := m.seq.peer }, move := none }] } } m 0x0102
      (.objWrite ⟨0x2D02, 4, .num w.toNat⟩))) ∧
    (s.coefJudge w = none → 16 ≤ s.esc.groups.length → Does (.coefWrite m w) s ((s.took m).answer m 0x0102 { status := 0x01 })))

/-- From R56, R126, R127, R202, R209, R213, R229, R243, R256, R280, R327, R335, R342, R370: the action of a group acts at the boundary at
which its group applies, and its command is answered OK with the tick; one whose condition does not hold then is refused and changes nothing
but its counter. A written value is judged there again, by the values in effect and its own, and is in effect from that boundary on. The model's own: the tick that is answered is log entry 21; RAMP_CMD is
queued in either mode (log entry 25), LOG_ACK of a SEQ not reached is RANGE (log entry 28), and DCF_RECOVER during the return starts its
ramp anew (log entry 52). -/
def Obligations.ActionsActAtTheirBoundary : Prop :=
  ∀ (s : State) (g : Group) (rest : List Group) (v : Int), s.Awake → s.esc.groups = g :: rest → s.esc.migration = none → s.esc.waiting = [] →
    s.esc.noSpare = [] → g.move = none → g.isSet = false → g.acc + 2 ≤ s.tick.next → s.esc.groupTick ≠ some s.tick.next →
    s.schedGroupDue = false →
    let d : State := { s.clearOut with esc := { s.esc with groups := rest, groupTick := some s.tick.next } }
    let done : State → State := fun f =>
      State.replyTo { f with esc := { f.esc with coefLast := s.tick.next } } g.reply { status := 0, params := beBytes 8 s.tick.next }
    let no : State → Byte → Byte → State := fun f st rs => f.replyTo g.reply { status := st, reason := rs, params := [] }
    (g.items = [.action Obj.TRIP_CLEAR v] →
      ((∀ k : Nat, k < 16 → v.toNat.testBit k = true → flag s.trips.filtered k = false) →
        ∃ t, exec .coefGroupApply s = .next t ∧ t.trips.latch = s.trips.latch.mapIdx (fun n b => b && !v.toNat.testBit n) ∧
          (t.trips.latch.any id = false → t.trips.first = 255) ∧ t.trips.count = s.trips.count ∧ t.conv = s.conv ∧ t.objs = s.objs) ∧
      (∀ k : Nat, k < 16 → v.toNat.testBit k = true → flag s.trips.filtered k = true → Does .coefGroupApply s
        (no { d with trips := { s.trips with clearRefused := s.trips.clearRefused + 1 } } 0x08 0x10))) ∧
    (g.items = [.action Obj.CELL_EXCLUDE v] → Does .coefGroupApply s
      (done (d.setCell v.toNat fun x => if x.retired.isSome || x.retiring.isSome then x else { x with retiring := some .excluded }))) ∧
    (g.items = [.action Obj.LIM_CHAT_CLEAR v] →
      ((∀ k : Nat, k < 8 → v.toNat.testBit k = true → flag s.lim.filtered k = false ∧ flag s.lim.quiet k = false) → Does .coefGroupApply s
        (done { d with lim := { s.lim with chatter := s.lim.chatter.mapIdx fun n b => b && !v.toNat.testBit n } })) ∧
      ((∃ k : Nat, k < 8 ∧ v.toNat.testBit k = true ∧ (flag s.lim.filtered k = true ∨ flag s.lim.quiet k = true)) →
        ∃ t, exec .coefGroupApply s = .next t ∧ t.lim = { s.lim with clearRefused := s.lim.clearRefused + 1 } ∧ t.conv = s.conv ∧ t.objs = s.objs)) ∧
    (g.items = [.action Obj.DRIFT_CLEAR v] →
      (s.conv.state = .idle ∨ s.conv.state = .pr ∨ s.conv.state = .ready → Does .coefGroupApply s (done { d with meas := { s.meas with
        offs := s.meas.offs.mapIdx (fun n x => if v.toNat.testBit n then 0 else x)
        gain := s.meas.gain.mapIdx (fun n x => if v.toNat.testBit n then pu else x)
        driftEp := s.meas.driftEp.mapIdx (fun n b => b && !v.toNat.testBit n) } })) ∧
      (s.conv.state = .run ∨ s.conv.state = .precharge ∨ s.conv.state = .scs → Does .coefGroupApply s (no d 0x05 0))) ∧
    (g.items = [.action Obj.SET_END v] →
      (s.set.active = false → Does .coefGroupApply s (no d 0x05 0)) ∧
      (s.set.active = true → v = 1 → Does .coefGroupApply s (done (State.post { d with set := { s.set with
        active := false, starting := false, permit := false, dwell := 0, releasing := !s.offsetsAtRest } } 0x2509 0xFF []))) ∧
      (s.set.active = true → v = 2 → Does .coefGroupApply s (done (State.post { d with set := { s.set with
        active := false, starting := false, permit := false, dwell := 0, releasing := !s.offsetsAtRest, abortReason := 1
        abortCount := s.set.abortCount + 1, abortedRos := true } } 0x250A 0xFF [1])))) ∧
    (g.items = [.action Obj.DCF_RECOVER 1] →
      (s.fus.dcfActive = true → Does .coefGroupApply s (done { d with fus := { s.fus with dcfRecovering := true, dcfU := 0 } })) ∧
      (s.fus.dcfActive = false → Does .coefGroupApply s (no d 0x05 0))) ∧
    (g.items = [.action Obj.PAIR_YIELD v] →
      (s.mayAbdicate = true → ∃ t, exec .coefGroupApply s = .next t ∧ t.pair = { s.pair with
        abdicating := true, crown := false, abdicateTick := s.tick.next, abdicateFeeds := false, abdicateRevert := false } ∧ t.conv = s.conv ∧
        t.objs = s.objs) ∧
      (s.mayAbdicate = false → Does .coefGroupApply s (no d 0x08 0x31))) ∧
    (g.items = [.action Obj.FEED_TEST v] →
      (s.feed.test = none → s.feed.aPresent = true → s.feed.bPresent = true → v.toNat = 3 →
        Does .coefGroupApply s (done { d with feed := { s.feed with inUse := 0, test := some ⟨[false, true], 1, s.feed.inUse⟩ } })) ∧
      (v.toNat.testBit 0 = true → s.feed.bPresent = false → Does .coefGroupApply s (no d 0x08 0x32)) ∧
      (s.feed.test.isSome = true → s.feed.aPresent = true → s.feed.bPresent = true → Does .coefGroupApply s (no d 0x01 0))) ∧
    (g.items = [.action Obj.TRAIN_ADDR_CLEAR v] → s.conv.state = .idle ∨ s.conv.state = .pr →
      Does .coefGroupApply s (done { d with train := { s.train with stored := 0 } })) ∧
    (g.items = [.action Obj.LANE_CNT_CLEAR v] → Does .coefGroupApply s (done { d with lanes := s.lanes.mapIdx (fun l x => if v.toNat.testBit l
      then { x with rxCrc := 0, rxSync := 0, rxMiss := 0, cuCrc := 0, cuLate := 0, cuDtg := 0, downCount := 0 } else x) })) ∧
    (g.items = [.action Obj.SCHED_CANCEL v] →
      (∀ a : Action, s.sched.pending.find? (fun a => a.id == v.toNat) = some a → s.dueSoon a = false →
        Does .coefGroupApply s (done { d with sched := { s.sched with pending := s.sched.pending.filter fun a => a.id != v.toNat } })) ∧
      (∀ a : Action, s.sched.pending.find? (fun a => a.id == v.toNat) = some a → s.dueSoon a = true →
        Does .coefGroupApply s (no d 0x08 0x2E)) ∧
      (s.sched.pending.find? (fun a => a.id == v.toNat) = none → Does .coefGroupApply s (no d 0x04 0))) ∧
    (g.items = [.action Obj.LOG_ACK v] →
      (∀ n : Nat, s.log.fullSeq v.toNat = some n →
        Does .coefGroupApply s (done { d with log := { s.log with safety := s.log.safety.filter fun e => decide (n < e.seq) } })) ∧
      (s.log.fullSeq v.toNat = none → Does .coefGroupApply s (no d 0x04 0))) ∧
    (g.items = [.action Obj.RAMP_CMD v] → v.toNat / 2 ^ 56 = 0xA1 → |(BitVec.ofNat 24 (v.toNat / 2 ^ 32)).toInt| ≤ 200000 →
      (s.reg.rampQ.length < 8 → Does .coefGroupApply s (done { d with reg := { s.reg with
        rampQ := s.reg.rampQ ++ [⟨(BitVec.ofNat 24 (v.toNat / 2 ^ 32)).toInt, v.toNat % 2 ^ 32⟩] } })) ∧
      (8 ≤ s.reg.rampQ.length → Does .coefGroupApply s (no d 0x01 0))) ∧
    (∀ (i : Nat) (e : ObjDef), objDef i = some e → g.items = [.obj i (.num v)] →
      (∀ a, d.entryState d.cfg (d.itemsGet g.items) i v = some a → Does .coefGroupApply s (no d a.status a.reason)) ∧
      (d.entryState d.cfg (d.itemsGet g.items) i v = none → e.point = .nextTick → (i = Obj.REG_REF → s.reg.good (decide (v ≠ 0)) = true) → ∃ t, exec .coefGroupApply s = .next t ∧ t.cfg i = v ∧ (i ≠ Obj.F_NOM → ∀ j, j ≠ i → t.cfg j = s.cfg j) ∧ t.esc.groups = rest ∧ t.esc.coefLast = s.tick.next) ∧
      (d.entryState d.cfg (d.itemsGet g.items) i v = none → e.point ≠ .nextTick → e.point ≠ .setOnly →
        Does .coefGroupApply s (done (d.addWaiting i v e.point))))
end

