-- ==== Sys2Proof/Laws/Frame.lean ====
section
/-!
SUPPORT. What each shared operation and each effect leaves alone: the queue of commands always, the tick counter and the values of the
written objects except where the operation is one that writes them. One lemma an operation, so that no later proof unfolds one.
-/
set_option linter.all false
namespace Sys2Proof.Machine

@[simp] theorem foldl_pending {α : Type} (f : State → α → State) (h : ∀ s a, (f s a).pending = s.pending) (l : List α) (s : State) :
    (l.foldl f s).pending = s.pending := by
  induction l generalizing s with
  | nil => rfl
  | cons a l ih => simp [ih, h]

@[simp] theorem foldl_tick {α : Type} (f : State → α → State) (h : ∀ s a, (f s a).tick = s.tick) (l : List α) (s : State) :
    (l.foldl f s).tick = s.tick := by
  induction l generalizing s with
  | nil => rfl
  | cons a l ih => simp [ih, h]

@[simp] theorem foldl_objs {α : Type} (f : State → α → State) (h : ∀ s a, (f s a).objs = s.objs) (l : List α) (s : State) :
    (l.foldl f s).objs = s.objs := by
  induction l generalizing s with
  | nil => rfl
  | cons a l ih => simp [ih, h]

@[simp] theorem State.setCfg_frame (s : State) (b : Nat) (c : Int) :
    (s.setCfg b c).pending = s.pending ∧ (s.setCfg b c).tick = s.tick := by
  simp [State.setCfg]

@[simp] theorem State.setSig_frame (s : State) (b : Nat) (c : Word) :
    (s.setSig b c).pending = s.pending ∧ (s.setSig b c).tick = s.tick ∧ (s.setSig b c).objs = s.objs := by
  simp [State.setSig]

@[simp] theorem State.setSigN_frame (s : State) (b : Nat) (c : Nat) :
    (s.setSigN b c).pending = s.pending ∧ (s.setSigN b c).tick = s.tick ∧ (s.setSigN b c).objs = s.objs := by
  simp [State.setSigN]

@[simp] theorem State.setSigs_frame (s : State) (b : Nat) (c : List Word) :
    (s.setSigs b c).pending = s.pending ∧ (s.setSigs b c).tick = s.tick ∧ (s.setSigs b c).objs = s.objs := by
  induction c generalizing s b with
  | nil => simp [State.setSigs]
  | cons w ws ih => simp [State.setSigs, ih]

@[simp] theorem State.setPu_frame (s : State) (b : Nat) (c : Int) (d : Int) :
    (s.setPu b c d).pending = s.pending ∧ (s.setPu b c d).tick = s.tick ∧ (s.setPu b c d).objs = s.objs := by
  simp [State.setPu]

@[simp] theorem State.fresh_frame (s : State) :
    (s.fresh).pending = s.pending ∧ (s.fresh).tick = s.tick ∧ (s.fresh).objs = s.objs := by
  simp [State.fresh]

@[simp] theorem State.admit_frame (s : State) (b : LogEntry) :
    (s.takeIn b).pending = s.pending ∧ (s.takeIn b).tick = s.tick ∧ (s.takeIn b).objs = s.objs := by
  simp [State.takeIn]

@[simp] theorem State.postFine_frame (s : State) (b : Nat) (c : Option Nat) (d e : Nat) (f : List Byte) :
    (s.postFine b c d e f).pending = s.pending ∧ (s.postFine b c d e f).tick = s.tick ∧ (s.postFine b c d e f).objs = s.objs := by
  unfold State.postFine
  first | (simp [apply_ite State.pending, apply_ite State.tick, apply_ite State.objs]; done) | (repeat' split) <;> simp [apply_ite State.pending, apply_ite State.tick, apply_ite State.objs]

@[simp] theorem State.postAt_frame (s : State) (b : Nat) (c : Nat) (d : Nat) (e : List Byte) :
    (s.postAt b c d e).pending = s.pending ∧ (s.postAt b c d e).tick = s.tick ∧ (s.postAt b c d e).objs = s.objs := by
  simp [State.postAt]

@[simp] theorem State.post_frame (s : State) (b : Nat) (c : Nat) (d : List Byte) :
    (s.post b c d).pending = s.pending ∧ (s.post b c d).tick = s.tick ∧ (s.post b c d).objs = s.objs := by
  simp [State.post]

@[simp] theorem State.condEvent_frame (s : State) (b : Nat) :
    (s.condEvent b).pending = s.pending ∧ (s.condEvent b).tick = s.tick ∧ (s.condEvent b).objs = s.objs := by
  simp [State.condEvent]

@[simp] theorem State.setRole_frame (s : State) (b : PairRole) :
    (s.setRole b).pending = s.pending ∧ (s.setRole b).tick = s.tick ∧ (s.setRole b).objs = s.objs := by
  unfold State.setRole
  first | (simp [apply_ite State.pending, apply_ite State.tick, apply_ite State.objs]; done) | (repeat' split) <;> simp [apply_ite State.pending, apply_ite State.tick, apply_ite State.objs]

@[simp] theorem State.setLane_frame (s : State) (b : Nat) (c : Lane → Lane) :
    (s.setLane b c).pending = s.pending ∧ (s.setLane b c).tick = s.tick ∧ (s.setLane b c).objs = s.objs := by
  simp [State.setLane]

@[simp] theorem State.setCell_frame (s : State) (b : Nat) (c : Cell → Cell) :
    (s.setCell b c).pending = s.pending ∧ (s.setCell b c).tick = s.tick ∧ (s.setCell b c).objs = s.objs := by
  simp [State.setCell]

@[simp] theorem State.rerank_frame (s : State) (b : Nat) (c : Nat) :
    (s.rerank b c).pending = s.pending ∧ (s.rerank b c).tick = s.tick ∧ (s.rerank b c).objs = s.objs := by
  simp [State.rerank]

@[simp] theorem State.applyReport_frame (s : State) (b : Nat) (c : Nat) :
    (s.applyReport b c).pending = s.pending ∧ (s.applyReport b c).tick = s.tick ∧ (s.applyReport b c).objs = s.objs := by
  simp [State.applyReport, apply_ite State.pending, apply_ite State.tick, apply_ite State.objs]

@[simp] theorem State.retire_frame (s : State) (b : Nat) (c : RetireReason) :
    (s.retire b c).pending = s.pending ∧ (s.retire b c).tick = s.tick ∧ (s.retire b c).objs = s.objs := by
  simp [State.retire]

@[simp] theorem State.retireMarked_frame (s : State) :
    (s.retireMarked).pending = s.pending ∧ (s.retireMarked).tick = s.tick ∧ (s.retireMarked).objs = s.objs := by
  simp [State.retireMarked]

@[simp] theorem State.redundEvents_frame (s : State) (b : Nat) (c : Bool) (d : Bool) (e : Bool) (f : Bool) :
    (s.redundEvents b c d e f).pending = s.pending ∧ (s.redundEvents b c d e f).tick = s.tick ∧ (s.redundEvents b c d e f).objs = s.objs := by
  simp [State.redundEvents, apply_ite State.pending, apply_ite State.tick, apply_ite State.objs]

@[simp] theorem State.evalRedund_frame (s : State) :
    (s.evalRedund).pending = s.pending ∧ (s.evalRedund).tick = s.tick ∧ (s.evalRedund).objs = s.objs := by
  simp [State.evalRedund, apply_ite State.pending, apply_ite State.tick, apply_ite State.objs]

@[simp] theorem State.rankSignals_frame (s : State) :
    (s.rankSignals).pending = s.pending ∧ (s.rankSignals).tick = s.tick ∧ (s.rankSignals).objs = s.objs := by
  simp [State.rankSignals]

@[simp] theorem State.rankEdge_frame (s : State) :
    (s.rankEdge).pending = s.pending ∧ (s.rankEdge).tick = s.tick ∧ (s.rankEdge).objs = s.objs := by
  simp [State.rankEdge]

@[simp] theorem State.laneAges_frame (s : State) (b : Nat) :
    (s.laneAges b).pending = s.pending ∧ (s.laneAges b).tick = s.tick ∧ (s.laneAges b).objs = s.objs := by
  simp [State.laneAges]

@[simp] theorem State.satEvents_frame (s : State) (b : Nat) (c : ArmPlan) :
    (s.satEvents b c).pending = s.pending ∧ (s.satEvents b c).tick = s.tick ∧ (s.satEvents b c).objs = s.objs := by
  simp [State.satEvents, apply_ite State.pending, apply_ite State.tick, apply_ite State.objs]

@[simp] theorem State.storePlans_frame (s : State) (b : List ArmPlan) :
    (s.storePlans b).pending = s.pending ∧ (s.storePlans b).tick = s.tick ∧ (s.storePlans b).objs = s.objs := by
  simp [State.storePlans]

@[simp] theorem State.laneTo_frame (s : State) (b : Nat) (c : LaneState) (d : Nat) :
    (s.laneTo b c d).pending = s.pending ∧ (s.laneTo b c d).tick = s.tick ∧ (s.laneTo b c d).objs = s.objs := by
  simp [State.laneTo, apply_ite State.pending, apply_ite State.tick, apply_ite State.objs]

@[simp] theorem State.laneAdmit_frame (s : State) (b : Nat) :
    (s.laneAdmit b).pending = s.pending ∧ (s.laneAdmit b).tick = s.tick ∧ (s.laneAdmit b).objs = s.objs := by
  simp [State.laneAdmit, apply_ite State.pending, apply_ite State.tick, apply_ite State.objs]

@[simp] theorem State.lanesAdmit_frame (s : State) :
    (s.lanesAdmit).pending = s.pending ∧ (s.lanesAdmit).tick = s.tick ∧ (s.lanesAdmit).objs = s.objs := by
  simp [State.lanesAdmit]

@[simp] theorem State.parkedOff_frame (s : State) :
    (s.parkedOff).pending = s.pending ∧ (s.parkedOff).tick = s.tick ∧ (s.parkedOff).objs = s.objs := by
  simp [State.parkedOff, apply_ite State.pending, apply_ite State.tick, apply_ite State.objs]

@[simp] theorem State.laneEnabled_frame (s : State) (b : Nat) (c : Bool) :
    (s.laneEnabled b c).pending = s.pending ∧ (s.laneEnabled b c).tick = s.tick ∧ (s.laneEnabled b c).objs = s.objs := by
  unfold State.laneEnabled; (repeat' split) <;> simp

@[simp] theorem State.laneCounted_frame (s : State) (b : Nat) :
    (s.laneCounted b).pending = s.pending ∧ (s.laneCounted b).tick = s.tick ∧ (s.laneCounted b).objs = s.objs := by
  unfold State.laneCounted; (repeat' split) <;> simp

@[simp] theorem State.blockLane_frame (s : State) (b : Nat) :
    (s.blockLane b).pending = s.pending ∧ (s.blockLane b).tick = s.tick ∧ (s.blockLane b).objs = s.objs := by
  simp [State.blockLane]

@[simp] theorem State.blockArms_frame (s : State) (b : Nat) :
    (s.blockArms b).pending = s.pending ∧ (s.blockArms b).tick = s.tick ∧ (s.blockArms b).objs = s.objs := by
  simp [State.blockArms, apply_ite State.pending, apply_ite State.tick, apply_ite State.objs]

@[simp] theorem State.blockAll_frame (s : State) :
    (s.blockAll).pending = s.pending ∧ (s.blockAll).tick = s.tick ∧ (s.blockAll).objs = s.objs := by
  simp [State.blockAll]

@[simp] theorem State.spill_frame (s : State) (b : Nat) (c : Nat) (d : List (Nat × Nat)) (e : List Entry) :
    (s.spill b c d e).pending = s.pending ∧ (s.spill b c d e).tick = s.tick ∧ (s.spill b c d e).objs = s.objs := by
  induction e generalizing s d with
  | nil => simp [State.spill]
  | cons x xs ih =>
    unfold State.spill
    dsimp only
    repeat' (first | split | (apply And.intro) | simp [ih])

@[simp] theorem State.frameLane_frame (s : State) (b : Nat) (c : List Entry) :
    (s.frameLane b c).pending = s.pending ∧ (s.frameLane b c).tick = s.tick ∧ (s.frameLane b c).objs = s.objs := by
  simp [State.frameLane, apply_ite State.pending, apply_ite State.tick, apply_ite State.objs]

@[simp] theorem State.frameLanes_frame (s : State) (b : List Entry) :
    (s.frameLanes b).pending = s.pending ∧ (s.frameLanes b).tick = s.tick ∧ (s.frameLanes b).objs = s.objs := by
  simp [State.frameLanes]

@[simp] theorem State.laneFollow_frame (s : State) (b : Nat) (c : DWord) :
    (s.laneFollow b c).pending = s.pending ∧ (s.laneFollow b c).tick = s.tick ∧ (s.laneFollow b c).objs = s.objs := by
  simp [State.laneFollow, apply_ite State.pending, apply_ite State.tick, apply_ite State.objs]

@[simp] theorem State.markRetire_frame (s : State) (b : Nat) (c : RetireReason) :
    (s.markRetire b c).pending = s.pending ∧ (s.markRetire b c).tick = s.tick ∧ (s.markRetire b c).objs = s.objs := by
  simp [State.markRetire]

@[simp] theorem State.report_frame (s : State) (b : Nat) (c : Nat) (d : Word) :
    (s.report b c d).pending = s.pending ∧ (s.report b c d).tick = s.tick ∧ (s.report b c d).objs = s.objs := by
  simp [State.report, apply_ite State.pending, apply_ite State.tick, apply_ite State.objs]

@[simp] theorem State.reports_frame (s : State) (b : Nat) (c : DWord) (d : List Word) :
    (s.reports b c d).pending = s.pending ∧ (s.reports b c d).tick = s.tick ∧ (s.reports b c d).objs = s.objs := by
  simp [State.reports]

@[simp] theorem State.uplink_frame (s : State) (b c : Nat) (d : UplinkFrame) :
    (s.uplink b c d).pending = s.pending ∧ (s.uplink b c d).tick = s.tick ∧ (s.uplink b c d).objs = s.objs := by
  unfold State.uplink
  first | (simp [apply_ite State.pending, apply_ite State.tick, apply_ite State.objs]; done) | (repeat' split) <;> simp [apply_ite State.pending, apply_ite State.tick, apply_ite State.objs]

@[simp] theorem State.uplinkBlocks_frame (s : State) (b c : Nat) (d : List LaneBlock) :
    (s.uplinkBlocks b c d).pending = s.pending ∧ (s.uplinkBlocks b c d).tick = s.tick ∧ (s.uplinkBlocks b c d).objs = s.objs := by
  unfold State.uplinkBlocks
  first | (simp [apply_ite State.pending, apply_ite State.tick, apply_ite State.objs]; done) | (repeat' split) <;> simp [apply_ite State.pending, apply_ite State.tick, apply_ite State.objs]

@[simp] theorem State.delaySet_frame (s : State) (b : Nat) :
    (s.delaySet b).pending = s.pending ∧ (s.delaySet b).tick = s.tick ∧ (s.delaySet b).objs = s.objs := by
  simp [State.delaySet, apply_ite State.pending, apply_ite State.tick, apply_ite State.objs]

@[simp] theorem State.rxTimeout_frame (s : State) (b : Nat) :
    (s.rxTimeout b).pending = s.pending ∧ (s.rxTimeout b).tick = s.tick ∧ (s.rxTimeout b).objs = s.objs := by
  simp [State.rxTimeout, apply_ite State.pending, apply_ite State.tick, apply_ite State.objs]

@[simp] theorem State.delayStep_frame (s : State) (b : Nat) :
    (s.delayStep b).pending = s.pending ∧ (s.delayStep b).tick = s.tick ∧ (s.delayStep b).objs = s.objs := by
  simp [State.delayStep, apply_ite State.pending, apply_ite State.tick, apply_ite State.objs]

@[simp] theorem State.takeInternal_frame (s : State) :
    (s.takeInternal).pending = s.pending ∧ (s.takeInternal).tick = s.tick ∧ (s.takeInternal).objs = s.objs := by
  simp [State.takeInternal]

@[simp] theorem State.takePin_frame (s : State) (b : Nat) (c : Bool) :
    (s.takePin b c).pending = s.pending ∧ (s.takePin b c).tick = s.tick ∧ (s.takePin b c).objs = s.objs := by
  simp [State.takePin]

@[simp] theorem State.tripActs_frame (s : State) (b c : Nat) :
    (s.tripActs b c).pending = s.pending ∧ (s.tripActs b c).tick = s.tick ∧ (s.tripActs b c).objs = s.objs := by
  unfold State.tripActs
  first | (simp [apply_ite State.pending, apply_ite State.tick, apply_ite State.objs]; done) | (repeat' split) <;> simp [apply_ite State.pending, apply_ite State.tick, apply_ite State.objs]

@[simp] theorem State.tripActive_frame (s : State) (b : Nat) (c : Bool) :
    (s.tripActive b c).pending = s.pending ∧ (s.tripActive b c).tick = s.tick ∧ (s.tripActive b c).objs = s.objs := by
  unfold State.tripActive
  first | (simp [apply_ite State.pending, apply_ite State.tick, apply_ite State.objs]; done) | (repeat' split) <;> simp [apply_ite State.pending, apply_ite State.tick, apply_ite State.objs]

@[simp] theorem State.tripEdge_frame (s : State) (b : Nat) (c : Bool) (d : Nat) (e : Bool) :
    (s.tripEdge b c d e).pending = s.pending ∧ (s.tripEdge b c d e).tick = s.tick ∧ (s.tripEdge b c d e).objs = s.objs := by
  unfold State.tripEdge
  first | (simp [apply_ite State.pending, apply_ite State.tick, apply_ite State.objs]; done) | (repeat' split) <;> simp [apply_ite State.pending, apply_ite State.tick, apply_ite State.objs]

@[simp] theorem State.tripInactive_frame (s : State) (b : Nat) (c : Bool) (d : Nat) :
    (s.tripInactive b c d).pending = s.pending ∧ (s.tripInactive b c d).tick = s.tick ∧ (s.tripInactive b c d).objs = s.objs := by
  simp [State.tripInactive, apply_ite State.pending, apply_ite State.tick, apply_ite State.objs]

@[simp] theorem State.tripClear_frame (s : State) (b : Nat) :
    (s.tripClear b).pending = s.pending ∧ (s.tripClear b).tick = s.tick ∧ (s.tripClear b).objs = s.objs := by
  simp [State.tripClear, apply_ite State.pending, apply_ite State.tick, apply_ite State.objs]

@[simp] theorem State.tripArmsChanged_frame (s : State) (b : Nat) :
    (s.tripArmsChanged b).pending = s.pending ∧ (s.tripArmsChanged b).tick = s.tick ∧ (s.tripArmsChanged b).objs = s.objs := by
  simp [State.tripArmsChanged, apply_ite State.pending, apply_ite State.tick, apply_ite State.objs]

@[simp] theorem State.modSwitchedOff_frame (s : State) :
    (s.modSwitchedOff).pending = s.pending ∧ (s.modSwitchedOff).tick = s.tick ∧ (s.modSwitchedOff).objs = s.objs := by
  simp [State.modSwitchedOff, apply_ite State.pending, apply_ite State.tick, apply_ite State.objs]

@[simp] theorem State.setMbox_frame (s : State) (b : Nat) (c : Mailbox → Mailbox) :
    (s.setMbox b c).pending = s.pending ∧ (s.setMbox b c).tick = s.tick ∧ (s.setMbox b c).objs = s.objs := by
  simp [State.setMbox]

@[simp] theorem State.emit_frame (s : State) (b : HostOut) :
    (s.emit b).pending = s.pending ∧ (s.emit b).tick = s.tick ∧ (s.emit b).objs = s.objs := by
  simp [State.emit]

@[simp] theorem State.reply_frame (s : State) (b : Reply) (c : Ans) :
    (s.reply b c).pending = s.pending ∧ (s.reply b c).tick = s.tick ∧ (s.reply b c).objs = s.objs := by
  simp [State.reply, apply_ite State.pending, apply_ite State.tick, apply_ite State.objs]

@[simp] theorem State.replyTo_frame (s : State) (b : Option Reply) (c : Ans) :
    (s.replyTo b c).pending = s.pending ∧ (s.replyTo b c).tick = s.tick ∧ (s.replyTo b c).objs = s.objs := by
  unfold State.replyTo; split <;> simp

@[simp] theorem State.refuseMsg_frame (s : State) (b : Reply) (c : Byte) :
    (s.refuseMsg b c).pending = s.pending ∧ (s.refuseMsg b c).tick = s.tick ∧ (s.refuseMsg b c).objs = s.objs := by
  simp [State.refuseMsg]

@[simp] theorem State.tookFrame_frame (s : State) (b : Word) (c : FrameNo) :
    (s.tookFrame b c).pending = s.pending ∧ (s.tookFrame b c).tick = s.tick ∧ (s.tookFrame b c).objs = s.objs := by
  simp [State.tookFrame]

@[simp] theorem State.frame_pending (s : State) (b : Word) (c : FrameNo) (k : Session → State → State) (h : ∀ x t, (k x t).pending = t.pending) : (s.frame b c k).pending = s.pending := by
  unfold State.frame; (repeat' split) <;> simp [h, State.tookFrame]

@[simp] theorem State.frame_tick (s : State) (b : Word) (c : FrameNo) (k : Session → State → State) (h : ∀ x t, (k x t).tick = t.tick) : (s.frame b c k).tick = s.tick := by
  unfold State.frame; (repeat' split) <;> simp [h, State.tookFrame]

@[simp] theorem State.frame_objs (s : State) (b : Word) (c : FrameNo) (k : Session → State → State) (h : ∀ x t, (k x t).objs = t.objs) : (s.frame b c k).objs = s.objs := by
  unfold State.frame; (repeat' split) <;> simp [h, State.tookFrame]


@[simp] theorem State.enqueue_frame (s : State) (b : Reply) (c : HostCmd) :
    (s.enqueue b c).pending = s.pending ∧ (s.enqueue b c).tick = s.tick ∧ (s.enqueue b c).objs = s.objs := by
  unfold State.enqueue
  dsimp only
  repeat' (first | split | (apply And.intro) | simp [*, apply_ite State.pending, apply_ite State.tick, apply_ite State.objs])

@[simp] theorem State.acceptMsg_frame (s : State) (b : Msg) (c : BitVec 16) (d : Bool) (e : HostCmd) :
    (s.acceptMsg b c d e).pending = s.pending ∧ (s.acceptMsg b c d e).tick = s.tick ∧ (s.acceptMsg b c d e).objs = s.objs := by
  simp [State.acceptMsg]

@[simp] theorem State.accessErr_frame (s : State) (b : Nat) (c : Nat) :
    (s.accessErr b c).pending = s.pending ∧ (s.accessErr b c).tick = s.tick ∧ (s.accessErr b c).objs = s.objs := by
  simp [State.accessErr]

@[simp] theorem State.rebind_frame (s : State) (b : Nat) :
    (s.rebind b).pending = s.pending ∧ (s.rebind b).tick = s.tick ∧ (s.rebind b).objs = s.objs := by
  simp [State.rebind]

@[simp] theorem State.putObj_frame (s : State) (b : Nat) (c : Int) :
    (s.putObj b c).pending = s.pending ∧ (s.putObj b c).tick = s.tick := by
  simp [State.putObj]

@[simp] theorem State.phaseEdge_frame (s : State) :
    (s.phaseEdge).pending = s.pending ∧ (s.phaseEdge).tick = s.tick ∧ (s.phaseEdge).objs = s.objs := by
  simp [State.phaseEdge]

@[simp] theorem State.gtAngle_frame (s : State) :
    (s.gtAngle).pending = s.pending ∧ (s.gtAngle).tick = s.tick ∧ (s.gtAngle).objs = s.objs := by
  simp [State.gtAngle, apply_ite State.pending, apply_ite State.tick, apply_ite State.objs]

@[simp] theorem State.gtCounts_frame (s : State) :
    (s.gtCounts).pending = s.pending ∧ (s.gtCounts).tick = s.tick ∧ (s.gtCounts).objs = s.objs := by
  simp [State.gtCounts]

@[simp] theorem State.trackerEdge_frame (s : State) :
    (s.trackerEdge).pending = s.pending ∧ (s.trackerEdge).tick = s.tick ∧ (s.trackerEdge).objs = s.objs := by
  simp [State.trackerEdge, apply_ite State.pending, apply_ite State.tick, apply_ite State.objs]

@[simp] theorem State.reacquire_frame (s : State) (b : FitRounding) :
    (s.reacquire b).pending = s.pending ∧ (s.reacquire b).tick = s.tick ∧ (s.reacquire b).objs = s.objs := by
  unfold State.reacquire
  split
  · simp
  split
  · simp
  · simp

@[simp] theorem State.freqClampTo_frame (s : State) (b : Bool) (c : Bool) :
    (s.freqClampTo b c).pending = s.pending ∧ (s.freqClampTo b c).tick = s.tick ∧ (s.freqClampTo b c).objs = s.objs := by
  simp [State.freqClampTo, apply_ite State.pending, apply_ite State.tick, apply_ite State.objs]

@[simp] theorem State.swing_frame (o : State) (s : State) :
    (o.swing s).pending = s.pending ∧ (o.swing s).tick = s.tick ∧ (o.swing s).objs = s.objs := by
  simp [State.swing, apply_ite State.pending, apply_ite State.tick, apply_ite State.objs]

@[simp] theorem State.swingSignals_frame (s : State) :
    (s.swingSignals).pending = s.pending ∧ (s.swingSignals).tick = s.tick ∧ (s.swingSignals).objs = s.objs := by
  simp [State.swingSignals]

@[simp] theorem State.qvDroop_frame (o : State) (s : State) :
    (o.qvDroop s).pending = s.pending ∧ (o.qvDroop s).tick = s.tick ∧ (o.qvDroop s).objs = s.objs := by
  simp [State.qvDroop]

@[simp] theorem State.voltageLoop_frame (o : State) (s : State) :
    (o.voltageLoop s).pending = s.pending ∧ (o.voltageLoop s).tick = s.tick ∧ (o.voltageLoop s).objs = s.objs := by
  simp [State.voltageLoop]

@[simp] theorem State.admittance_frame (o : State) (s : State) :
    (o.admittance s).pending = s.pending ∧ (o.admittance s).tick = s.tick ∧ (o.admittance s).objs = s.objs := by
  simp [State.admittance]

@[simp] theorem State.setAxis_frame (s : State) (b : Nat) (c : Axis → Axis) :
    (s.setAxis b c).pending = s.pending ∧ (s.setAxis b c).tick = s.tick ∧ (s.setAxis b c).objs = s.objs := by
  simp [State.setAxis]

@[simp] theorem State.moveEnd_frame (s : State) (b : Nat) (c : Nat) :
    (s.moveEnd b c).pending = s.pending ∧ (s.moveEnd b c).tick = s.tick ∧ (s.moveEnd b c).objs = s.objs := by
  simp [State.moveEnd]

@[simp] theorem State.axisDirect_frame (s : State) (b : Nat) (c : Int) :
    (s.axisDirect b c).pending = s.pending ∧ (s.axisDirect b c).tick = s.tick ∧ (s.axisDirect b c).objs = s.objs := by
  simp [State.axisDirect, apply_ite State.pending, apply_ite State.tick, apply_ite State.objs]

@[simp] theorem State.putDirect_frame (s : State) (b : Nat) (c : Int) :
    (s.putDirect b c).pending = s.pending ∧ (s.putDirect b c).tick = s.tick := by
  unfold State.putDirect; split <;> simp

@[simp] theorem State.chatClear_frame (s : State) (b : Nat) :
    (s.chatClear b).pending = s.pending ∧ (s.chatClear b).tick = s.tick ∧ (s.chatClear b).objs = s.objs := by
  simp [State.chatClear]

@[simp] theorem State.axisStopped_frame (s : State) (b : Nat) (c : Nat) :
    (s.axisStopped b c).pending = s.pending ∧ (s.axisStopped b c).tick = s.tick := by
  simp [State.axisStopped]

@[simp] theorem State.axisArrived_frame (s : State) (a : Nat) :
    (s.axisArrived a).pending = s.pending ∧ (s.axisArrived a).tick = s.tick ∧ (s.axisArrived a).objs = s.objs := by
  simp [State.axisArrived]

@[simp] theorem State.axisTick_frame (s : State) (b : Nat) :
    (s.axisTick b).pending = s.pending ∧ (s.axisTick b).tick = s.tick := by
  unfold State.axisTick; dsimp only
  repeat' (first | split | (apply And.intro) | rfl | simp [apply_ite State.pending, apply_ite State.tick])

@[simp] theorem State.handsBeat_frame (s : State) :
    (s.handsBeat).pending = s.pending ∧ (s.handsBeat).tick = s.tick := by
  simp [State.handsBeat]

@[simp] theorem State.permitLost_frame (s : State) :
    (s.permitLost).pending = s.pending ∧ (s.permitLost).tick = s.tick ∧ (s.permitLost).objs = s.objs := by
  simp [State.permitLost, apply_ite State.pending, apply_ite State.tick, apply_ite State.objs]

@[simp] theorem State.settingEdge_frame (s : State) :
    (s.settingEdge).pending = s.pending ∧ (s.settingEdge).tick = s.tick ∧ (s.settingEdge).objs = s.objs := by
  simp [State.settingEdge, apply_ite State.pending, apply_ite State.tick, apply_ite State.objs]

@[simp] theorem State.setAbort_frame (s : State) (b : Nat) :
    (s.setAbort b).pending = s.pending ∧ (s.setAbort b).tick = s.tick ∧ (s.setAbort b).objs = s.objs := by
  simp [State.setAbort, apply_ite State.pending, apply_ite State.tick, apply_ite State.objs]

@[simp] theorem State.setClosed_frame (s : State) :
    (s.setClosed).pending = s.pending ∧ (s.setClosed).tick = s.tick ∧ (s.setClosed).objs = s.objs := by
  simp [State.setClosed]

@[simp] theorem State.settingBeat_frame (o : State) (s : State) :
    (o.settingBeat s).pending = s.pending ∧ (o.settingBeat s).tick = s.tick ∧ (o.settingBeat s).objs = s.objs := by
  simp [State.settingBeat]

@[simp] theorem State.axisGo_frame (s : State) (b : Nat) (c : Int) (d : Int) (e : Bool) (f : Nat) :
    (s.axisGo b c d e f).pending = s.pending ∧ (s.axisGo b c d e f).tick = s.tick := by
  simp [State.axisGo]

@[simp] theorem State.contenders_frame (o : State) (s : State) :
    (o.contenders s).pending = s.pending ∧ (o.contenders s).tick = s.tick ∧ (o.contenders s).objs = s.objs := by
  simp [State.contenders]

@[simp] theorem State.thermal_frame (o : State) (s : State) :
    (o.thermal s).pending = s.pending ∧ (o.thermal s).tick = s.tick ∧ (o.thermal s).objs = s.objs := by
  simp [State.thermal]

@[simp] theorem State.winnerNote_frame (s : State) :
    (s.winnerNote).pending = s.pending ∧ (s.winnerNote).tick = s.tick ∧ (s.winnerNote).objs = s.objs := by
  unfold State.winnerNote
  first | (simp [apply_ite State.pending, apply_ite State.tick, apply_ite State.objs]; done) | (repeat' split) <;> simp [apply_ite State.pending, apply_ite State.tick, apply_ite State.objs]

@[simp] theorem State.fuseeMark_frame (s : State) :
    (s.fuseeMark).pending = s.pending ∧ (s.fuseeMark).tick = s.tick ∧ (s.fuseeMark).objs = s.objs := by
  unfold State.fuseeMark
  first | (simp [apply_ite State.pending, apply_ite State.tick, apply_ite State.objs]; done) | (repeat' split) <;> simp [apply_ite State.pending, apply_ite State.tick, apply_ite State.objs]

@[simp] theorem State.dcfHold_frame (s : State) :
    (s.dcfHold).pending = s.pending ∧ (s.dcfHold).tick = s.tick ∧ (s.dcfHold).objs = s.objs := by
  unfold State.dcfHold
  first | (simp [apply_ite State.pending, apply_ite State.tick, apply_ite State.objs]; done) | (repeat' split) <;> simp [apply_ite State.pending, apply_ite State.tick, apply_ite State.objs]

@[simp] theorem State.tableClamps_frame (s : State) :
    (s.tableClamps).pending = s.pending ∧ (s.tableClamps).tick = s.tick ∧ (s.tableClamps).objs = s.objs := by
  unfold State.tableClamps
  first | (simp [apply_ite State.pending, apply_ite State.tick, apply_ite State.objs]; done) | (repeat' split) <;> simp [apply_ite State.pending, apply_ite State.tick, apply_ite State.objs]

@[simp] theorem State.selection_frame (o : State) (s : State) (c : Nat) :
    (o.selection s c).pending = s.pending ∧ (o.selection s c).tick = s.tick ∧ (o.selection s c).objs = s.objs := by
  simp [State.selection]

@[simp] theorem State.vInst_frame (o : State) (s : State) :
    (o.vInst s).pending = s.pending ∧ (o.vInst s).tick = s.tick ∧ (o.vInst s).objs = s.objs := by
  simp [State.vInst]

@[simp] theorem State.frtCounts_frame (s : State) :
    (s.frtCounts).pending = s.pending ∧ (s.frtCounts).tick = s.tick ∧ (s.frtCounts).objs = s.objs := by
  simp [State.frtCounts]

@[simp] theorem State.slipEdge_frame (s : State) :
    (s.slipEdge).pending = s.pending ∧ (s.slipEdge).tick = s.tick ∧ (s.slipEdge).objs = s.objs := by
  simp [State.slipEdge, apply_ite State.pending, apply_ite State.tick, apply_ite State.objs]

@[simp] theorem State.dcfCounts_frame (s : State) :
    (s.dcfCounts).pending = s.pending ∧ (s.dcfCounts).tick = s.tick ∧ (s.dcfCounts).objs = s.objs := by
  simp [State.dcfCounts]

@[simp] theorem State.rideCheck_frame (s : State) :
    (s.rideCheck).pending = s.pending ∧ (s.rideCheck).tick = s.tick ∧ (s.rideCheck).objs = s.objs := by
  simp [State.rideCheck, apply_ite State.pending, apply_ite State.tick, apply_ite State.objs]

@[simp] theorem State.dcfDetect_frame (s : State) :
    (s.dcfDetect).pending = s.pending ∧ (s.dcfDetect).tick = s.tick := by
  simp [State.dcfDetect, apply_ite State.pending, apply_ite State.tick]

@[simp] theorem State.dcfEdge_frame (s : State) :
    (s.dcfEdge).pending = s.pending ∧ (s.dcfEdge).tick = s.tick ∧ (s.dcfEdge).objs = s.objs := by
  unfold State.dcfEdge
  first | (simp [apply_ite State.pending, apply_ite State.tick, apply_ite State.objs]; done) | (repeat' split) <;> simp [apply_ite State.pending, apply_ite State.tick, apply_ite State.objs]

@[simp] theorem State.enrgEdge_frame (s : State) :
    (s.enrgEdge).pending = s.pending ∧ (s.enrgEdge).tick = s.tick ∧ (s.enrgEdge).objs = s.objs := by
  simp [State.enrgEdge, apply_ite State.pending, apply_ite State.tick, apply_ite State.objs]

@[simp] theorem State.scsCeilEdge_frame (s : State) :
    (s.scsCeilEdge).pending = s.pending ∧ (s.scsCeilEdge).tick = s.tick ∧ (s.scsCeilEdge).objs = s.objs := by
  simp [State.scsCeilEdge]

@[simp] theorem State.dcVoltageLoop_frame (o : State) (s : State) :
    (o.dcVoltageLoop s).pending = s.pending ∧ (o.dcVoltageLoop s).tick = s.tick ∧ (o.dcVoltageLoop s).objs = s.objs := by
  simp [State.dcVoltageLoop, apply_ite State.pending, apply_ite State.tick, apply_ite State.objs]

@[simp] theorem State.energySum_frame (o : State) (s : State) :
    (o.energySum s).pending = s.pending ∧ (o.energySum s).tick = s.tick ∧ (o.energySum s).objs = s.objs := by
  simp [State.energySum, apply_ite State.pending, apply_ite State.tick, apply_ite State.objs]

@[simp] theorem State.balancing_frame (o : State) (s : State) :
    (o.balancing s).pending = s.pending ∧ (o.balancing s).tick = s.tick ∧ (o.balancing s).objs = s.objs := by
  simp [State.balancing]

@[simp] theorem State.circulating_frame (o : State) (s : State) :
    (o.circulating s).pending = s.pending ∧ (o.circulating s).tick = s.tick ∧ (o.circulating s).objs = s.objs := by
  simp [State.circulating]

@[simp] theorem State.armCurrent_frame (o : State) (s : State) (c : Nat) :
    (o.armCurrent s c).pending = s.pending ∧ (o.armCurrent s c).tick = s.tick ∧ (o.armCurrent s c).objs = s.objs := by
  simp [State.armCurrent]

@[simp] theorem State.harmCleared_frame (s : State) :
    (s.harmCleared).pending = s.pending ∧ (s.harmCleared).tick = s.tick ∧ (s.harmCleared).objs = s.objs := by
  simp [State.harmCleared]


@[simp] theorem State.engineBeat_frame (o s : State) (k n : Nat) :
    ((o.engineBeat s k n).1).pending = s.pending ∧ ((o.engineBeat s k n).1).tick = s.tick ∧ ((o.engineBeat s k n).1).objs = s.objs := by
  unfold State.engineBeat
  dsimp only
  split <;> exact ⟨rfl, rfl, rfl⟩

theorem State.beatFold_frame (o : State) (k : Nat) (l : List Nat) (s : State) (r : List (Nat × Word)) :
    ((l.foldl (fun (a : State × List (Nat × Word)) n => let b := o.engineBeat a.1 k n; (b.1, a.2 ++ b.2)) (s, r)).1).pending = s.pending ∧ ((l.foldl (fun (a : State × List (Nat × Word)) n => let b := o.engineBeat a.1 k n; (b.1, a.2 ++ b.2)) (s, r)).1).tick = s.tick ∧ ((l.foldl (fun (a : State × List (Nat × Word)) n => let b := o.engineBeat a.1 k n; (b.1, a.2 ++ b.2)) (s, r)).1).objs = s.objs := by
  induction l generalizing s r with
  | nil => exact ⟨rfl, rfl, rfl⟩
  | cons n l ih =>
    have h := ih (o.engineBeat s k n).1 (r ++ (o.engineBeat s k n).2)
    simpa using h

@[simp] theorem State.tableBeat_frame (s : State) (b : Nat) :
    (s.tableBeat b).pending = s.pending ∧ (s.tableBeat b).tick = s.tick ∧ (s.tableBeat b).objs = s.objs := by
  unfold State.tableBeat
  have h := State.beatFold_frame s b (List.range 16) s []
  simp only [h, foldl_pending, foldl_tick, foldl_objs, State.setSig_frame, implies_true, and_self]

@[simp] theorem State.escSignals_frame (s : State) :
    (s.escSignals).pending = s.pending ∧ (s.escSignals).tick = s.tick ∧ (s.escSignals).objs = s.objs := by
  simp [State.escSignals]

@[simp] theorem State.putLaws_frame (s : State) (b : LawStates) :
    (s.putLaws b).pending = s.pending ∧ (s.putLaws b).tick = s.tick ∧ (s.putLaws b).objs = s.objs := by
  unfold State.putLaws
  first | (simp [apply_ite State.pending, apply_ite State.tick, apply_ite State.objs]; done) | (repeat' split) <;> simp [apply_ite State.pending, apply_ite State.tick, apply_ite State.objs]

@[simp] theorem State.restoreLaws_frame (s : State) (b : Nat) :
    (s.restoreLaws b).pending = s.pending ∧ (s.restoreLaws b).tick = s.tick ∧ (s.restoreLaws b).objs = s.objs := by
  unfold State.restoreLaws
  first | (simp [apply_ite State.pending, apply_ite State.tick, apply_ite State.objs]; done) | (repeat' split) <;> simp [apply_ite State.pending, apply_ite State.tick, apply_ite State.objs]

@[simp] theorem State.mirrorOne_frame (s : State) (b : Nat) :
    (s.mirrorOne b).pending = s.pending ∧ (s.mirrorOne b).tick = s.tick ∧ (s.mirrorOne b).objs = s.objs := by
  unfold State.mirrorOne
  first | (simp [apply_ite State.pending, apply_ite State.tick, apply_ite State.objs]; done) | (repeat' split) <;> simp [apply_ite State.pending, apply_ite State.tick, apply_ite State.objs]

@[simp] theorem State.signEdge_frame (s : State) :
    (s.signEdge).pending = s.pending ∧ (s.signEdge).tick = s.tick ∧ (s.signEdge).objs = s.objs := by
  unfold State.signEdge
  first | (simp [apply_ite State.pending, apply_ite State.tick, apply_ite State.objs]; done) | (repeat' split) <;> simp [apply_ite State.pending, apply_ite State.tick, apply_ite State.objs]

@[simp] theorem State.mirrorEdge_frame (s : State) :
    (s.mirrorEdge).pending = s.pending ∧ (s.mirrorEdge).tick = s.tick ∧ (s.mirrorEdge).objs = s.objs := by
  simp [State.mirrorEdge]

@[simp] theorem State.stopEngines_frame (s : State) :
    (s.stopEngines).pending = s.pending ∧ (s.stopEngines).tick = s.tick ∧ (s.stopEngines).objs = s.objs := by
  simp [State.stopEngines]

@[simp] theorem State.demandEvent_frame (s : State) (b : Nat × Nat × Nat) :
    (s.demandEvent b).pending = s.pending ∧ (s.demandEvent b).tick = s.tick ∧ (s.demandEvent b).objs = s.objs := by
  simp [State.demandEvent, apply_ite State.pending, apply_ite State.tick, apply_ite State.objs]

@[simp] theorem State.noteWake_frame (s : State) (b : WakeSource) :
    (s.noteWake b).pending = s.pending ∧ (s.noteWake b).tick = s.tick ∧ (s.noteWake b).objs = s.objs := by
  unfold State.noteWake; (repeat' split) <;> simp

@[simp] theorem State.noteDemands_frame (s : State) :
    (s.noteDemands).pending = s.pending ∧ (s.noteDemands).tick = s.tick ∧ (s.noteDemands).objs = s.objs := by
  simp [State.noteDemands, apply_ite State.pending, apply_ite State.tick, apply_ite State.objs]

@[simp] theorem State.pulseRemoval_frame (s : State) :
    (s.pulseRemoval).pending = s.pending ∧ (s.pulseRemoval).tick = s.tick ∧ (s.pulseRemoval).objs = s.objs := by
  simp [State.pulseRemoval]

@[simp] theorem State.sfSend_frame (s : State) (b : Nat) :
    (s.sfSend b).pending = s.pending ∧ (s.sfSend b).tick = s.tick ∧ (s.sfSend b).objs = s.objs := by
  simp [State.sfSend]

@[simp] theorem State.sfEvent_frame (s : State) :
    (s.sfEvent).pending = s.pending ∧ (s.sfEvent).tick = s.tick ∧ (s.sfEvent).objs = s.objs := by
  simp [State.sfEvent, apply_ite State.pending, apply_ite State.tick, apply_ite State.objs]

@[simp] theorem State.setProducer_frame (s : State) (b : Nat) (c : Producer → Producer) :
    (s.setProducer b c).pending = s.pending ∧ (s.setProducer b c).tick = s.tick ∧ (s.setProducer b c).objs = s.objs := by
  simp [State.setProducer]

@[simp] theorem State.sfReject_frame (s : State) (b : Nat) (c : Nat) (d : Bool) :
    (s.sfReject b c d).pending = s.pending ∧ (s.sfReject b c d).tick = s.tick ∧ (s.sfReject b c d).objs = s.objs := by
  simp [State.sfReject]

@[simp] theorem State.sfRx_frame (s : State) (b : Bool) (c : List Byte) (d : Nat) :
    (s.sfRx b c d).pending = s.pending ∧ (s.sfRx b c d).tick = s.tick ∧ (s.sfRx b c d).objs = s.objs := by
  unfold State.sfRx
  dsimp only
  repeat' (first | split | (apply And.intro) | simp [*, apply_ite State.pending, apply_ite State.tick, apply_ite State.objs])

@[simp] theorem State.sfSingle_frame (s : State) (b : Nat) :
    (s.sfSingle b).pending = s.pending ∧ (s.sfSingle b).tick = s.tick ∧ (s.sfSingle b).objs = s.objs := by
  unfold State.sfSingle; split <;> simp

@[simp] theorem State.sfWatch_frame (s : State) (b : Nat) (c : Nat) :
    (s.sfWatch b c).pending = s.pending ∧ (s.sfWatch b c).tick = s.tick ∧ (s.sfWatch b c).objs = s.objs := by
  simp [State.sfWatch, apply_ite State.pending, apply_ite State.tick, apply_ite State.objs]

@[simp] theorem State.siChange_frame (s : State) (b : Nat) (c : Bool) (d : Bool) (e : Nat) :
    (s.siChange b c d e).pending = s.pending ∧ (s.siChange b c d e).tick = s.tick ∧ (s.siChange b c d e).objs = s.objs := by
  simp [State.siChange, apply_ite State.pending, apply_ite State.tick, apply_ite State.objs]

@[simp] theorem State.siDiscrepancy_frame (s : State) (b : Nat) (c : Nat) :
    (s.siDiscrepancy b c).pending = s.pending ∧ (s.siDiscrepancy b c).tick = s.tick ∧ (s.siDiscrepancy b c).objs = s.objs := by
  simp [State.siDiscrepancy, apply_ite State.pending, apply_ite State.tick, apply_ite State.objs]

@[simp] theorem State.ackPress_frame (s : State) (b : Nat) (c : Nat) :
    (s.ackPress b c).pending = s.pending ∧ (s.ackPress b c).tick = s.tick ∧ (s.ackPress b c).objs = s.objs := by
  simp [State.ackPress, apply_ite State.pending, apply_ite State.tick, apply_ite State.objs]

@[simp] theorem State.kernelTi_frame (s : State) (b : Nat) (c : Bool) (d : Nat) :
    (s.kernelTi b c d).pending = s.pending ∧ (s.kernelTi b c d).tick = s.tick ∧ (s.kernelTi b c d).objs = s.objs := by
  simp [State.kernelTi, apply_ite State.pending, apply_ite State.tick, apply_ite State.objs]

@[simp] theorem State.vioLost_frame (s : State) (b : Nat) (c : Nat) :
    (s.vioLost b c).pending = s.pending ∧ (s.vioLost b c).tick = s.tick ∧ (s.vioLost b c).objs = s.objs := by
  simp [State.vioLost, apply_ite State.pending, apply_ite State.tick, apply_ite State.objs]

@[simp] theorem State.vioPresent_frame (s : State) (b : Nat) (c : Nat) :
    (s.vioPresent b c).pending = s.pending ∧ (s.vioPresent b c).tick = s.tick ∧ (s.vioPresent b c).objs = s.objs := by
  simp [State.vioPresent, apply_ite State.pending, apply_ite State.tick, apply_ite State.objs]

@[simp] theorem State.scsEnd_frame (s : State) (b : Nat) :
    (s.scsEnd b).pending = s.pending ∧ (s.scsEnd b).tick = s.tick ∧ (s.scsEnd b).objs = s.objs := by
  simp [State.scsEnd, apply_ite State.pending, apply_ite State.tick, apply_ite State.objs]

@[simp] theorem State.scsMonitor_frame (s : State) (b : List ArmSamples) (c : Nat) :
    (s.scsMonitor b c).pending = s.pending ∧ (s.scsMonitor b c).tick = s.tick ∧ (s.scsMonitor b c).objs = s.objs := by
  simp [State.scsMonitor, apply_ite State.pending, apply_ite State.tick, apply_ite State.objs]

@[simp] theorem State.linkLost_frame (s : State) (b : Nat) :
    (s.linkLost b).pending = s.pending ∧ (s.linkLost b).tick = s.tick ∧ (s.linkLost b).objs = s.objs := by
  simp [State.linkLost, apply_ite State.pending, apply_ite State.tick, apply_ite State.objs]

@[simp] theorem State.linkRestored_frame (s : State) (b : Nat) :
    (s.linkRestored b).pending = s.pending ∧ (s.linkRestored b).tick = s.tick ∧ (s.linkRestored b).objs = s.objs := by
  simp [State.linkRestored, apply_ite State.pending, apply_ite State.tick, apply_ite State.objs]

@[simp] theorem State.testFail_frame (s : State) (b : Nat) (c : Nat) :
    (s.testFail b c).pending = s.pending ∧ (s.testFail b c).tick = s.tick ∧ (s.testFail b c).objs = s.objs := by
  simp [State.testFail]

@[simp] theorem State.testPreempt_frame (s : State) (b : Nat) :
    (s.testPreempt b).pending = s.pending ∧ (s.testPreempt b).tick = s.tick ∧ (s.testPreempt b).objs = s.objs := by
  simp [State.testPreempt]

@[simp] theorem State.switchTest_frame (s : State) (a b : Nat) (c d : Bool) (e : Nat) (f : Bool) :
    (s.switchTest a b c d e f).pending = s.pending ∧ (s.switchTest a b c d e f).tick = s.tick ∧ (s.switchTest a b c d e f).objs = s.objs := by
  unfold State.switchTest; (repeat' split) <;> simp

@[simp] theorem State.emitterTest_frame (s : State) (b : EmitterPoint) (c : Nat) (d : Bool) (e : Nat) (f : Bool) :
    (s.emitterTest b c d e f).pending = s.pending ∧ (s.emitterTest b c d e f).tick = s.tick ∧ (s.emitterTest b c d e f).objs = s.objs := by
  unfold State.emitterTest; dsimp only; (repeat' split) <;> simp

@[simp] theorem State.soTest_frame (s : State) (b : SoPoint) (c : Nat) (d : Nat) (e : Bool) (f : Bool) :
    (s.soTest b c d e f).pending = s.pending ∧ (s.soTest b c d e f).tick = s.tick ∧ (s.soTest b c d e f).objs = s.objs := by
  unfold State.soTest; split <;> simp

@[simp] theorem State.soShort_frame (s : State) (b : Bool) (c : Nat) :
    (s.soShort b c).pending = s.pending ∧ (s.soShort b c).tick = s.tick ∧ (s.soShort b c).objs = s.objs := by
  simp [State.soShort, apply_ite State.pending, apply_ite State.tick, apply_ite State.objs]

@[simp] theorem State.startTest_frame (s : State) (b : Bool) (c : Byte) :
    (s.startTest b c).pending = s.pending ∧ (s.startTest b c).tick = s.tick ∧ (s.startTest b c).objs = s.objs := by
  simp [State.startTest, apply_ite State.pending, apply_ite State.tick, apply_ite State.objs]

@[simp] theorem State.stage_frame (s : State) (b : Nat) (c : Int) :
    (s.stage b c).pending = s.pending ∧ (s.stage b c).tick = s.tick ∧ (s.stage b c).objs = s.objs := by
  simp [State.stage]

@[simp] theorem State.sessionAbort_frame (s : State) (b : Nat) :
    (s.sessionAbort b).pending = s.pending ∧ (s.sessionAbort b).tick = s.tick ∧ (s.sessionAbort b).objs = s.objs := by
  simp [State.sessionAbort, apply_ite State.pending, apply_ite State.tick, apply_ite State.objs]

@[simp] theorem State.keyChange_frame (s : State) (b : Bool) (c : Nat) :
    (s.keyChange b c).pending = s.pending ∧ (s.keyChange b c).tick = s.tick ∧ (s.keyChange b c).objs = s.objs := by
  simp [State.keyChange, apply_ite State.pending, apply_ite State.tick, apply_ite State.objs]

@[simp] theorem State.releaseMbs_frame (s : State) :
    (s.releaseMbs).pending = s.pending ∧ (s.releaseMbs).tick = s.tick ∧ (s.releaseMbs).objs = s.objs := by
  simp [State.releaseMbs]

@[simp] theorem State.closeSession_frame (s : State) (b : Word) (c : Nat) :
    (s.closeSession b c).pending = s.pending ∧ (s.closeSession b c).tick = s.tick ∧ (s.closeSession b c).objs = s.objs := by
  simp [State.closeSession, apply_ite State.pending, apply_ite State.tick, apply_ite State.objs]

@[simp] theorem State.closeAll_frame (s : State) (b : Nat) :
    (s.closeAll b).pending = s.pending ∧ (s.closeAll b).tick = s.tick ∧ (s.closeAll b).objs = s.objs := by
  simp [State.closeAll]

@[simp] theorem State.supStart_frame (s : State) :
    (s.supStart).pending = s.pending ∧ (s.supStart).tick = s.tick ∧ (s.supStart).objs = s.objs := by
  simp [State.supStart, apply_ite State.pending, apply_ite State.tick, apply_ite State.objs]

@[simp] theorem State.asked_frame (s : State) (b : Peer) :
    (s.asked b).pending = s.pending ∧ (s.asked b).tick = s.tick ∧ (s.asked b).objs = s.objs := ⟨rfl, rfl, rfl⟩

@[simp] theorem State.hello_frame (s : State) (b : HelloFrame) (c : Byte) :
    (s.hello b c).pending = s.pending ∧ (s.hello b c).tick = s.tick ∧ (s.hello b c).objs = s.objs := by
  simp [State.hello, apply_ite State.pending, apply_ite State.tick, apply_ite State.objs]

@[simp] theorem State.dropPending_frame (s : State) (b : Word) :
    (s.dropPending b).pending = s.pending ∧ (s.dropPending b).tick = s.tick ∧ (s.dropPending b).objs = s.objs := by
  simp [State.dropPending]

@[simp] theorem State.prove_frame (s : State) (b : Word) (c : List Byte) (d : Peer) :
    (s.prove b c d).pending = s.pending ∧ (s.prove b c d).tick = s.tick ∧ (s.prove b c d).objs = s.objs := by
  unfold State.prove; dsimp only; (repeat' split) <;> simp

@[simp] theorem State.badFrame_frame (s : State) (b : BadFrame) :
    (s.badFrame b).pending = s.pending ∧ (s.badFrame b).tick = s.tick ∧ (s.badFrame b).objs = s.objs := by
  unfold State.badFrame; split <;> simp

@[simp] theorem State.roleSignals_frame (s : State) :
    (s.roleSignals).pending = s.pending ∧ (s.roleSignals).tick = s.tick ∧ (s.roleSignals).objs = s.objs := by
  simp [State.roleSignals]

@[simp] theorem State.overEvents_frame (s : State) (b : List Bool) (c : List Bool) :
    (s.overEvents b c).pending = s.pending ∧ (s.overEvents b c).tick = s.tick ∧ (s.overEvents b c).objs = s.objs := by
  simp [State.overEvents, apply_ite State.pending, apply_ite State.tick, apply_ite State.objs]

@[simp] theorem State.gatherFast_frame (s : State) :
    (s.gatherFast).pending = s.pending ∧ (s.gatherFast).tick = s.tick ∧ (s.gatherFast).objs = s.objs := by
  unfold State.gatherFast; dsimp only; (repeat' split) <;> exact ⟨rfl, rfl, rfl⟩

@[simp] theorem State.fastBeat_frame (s : State) (b : TickInputs) :
    (s.fastBeat b).pending = s.pending ∧ (s.fastBeat b).tick = s.tick ∧ (s.fastBeat b).objs = s.objs := by
  simp [State.fastBeat, apply_ite State.pending, apply_ite State.tick, apply_ite State.objs]

@[simp] theorem State.discardWindow_frame (s : State) :
    (s.discardWindow).pending = s.pending ∧ (s.discardWindow).tick = s.tick ∧ (s.discardWindow).objs = s.objs := by
  simp [State.discardWindow, apply_ite State.pending, apply_ite State.tick, apply_ite State.objs]

@[simp] theorem State.openWindow_frame (s : State) (b : Nat) (c : Bool) :
    (s.openWindow b c).pending = s.pending ∧ (s.openWindow b c).tick = s.tick ∧ (s.openWindow b c).objs = s.objs := by
  simp [State.openWindow]

@[simp] theorem State.closeWindow_frame (s : State) (b : Nat) :
    (s.closeWindow b).pending = s.pending ∧ (s.closeWindow b).tick = s.tick ∧ (s.closeWindow b).objs = s.objs := by
  simp [State.closeWindow]

@[simp] theorem State.boundary_frame (s : State) (b : Bool) :
    (s.boundary b).pending = s.pending ∧ (s.boundary b).tick = s.tick ∧ (s.boundary b).objs = s.objs := by
  unfold State.boundary; dsimp only; generalize s.turnedBy b _ = t
  first | (simp [apply_ite State.pending, apply_ite State.tick, apply_ite State.objs]; done) | (repeat' split) <;> simp [apply_ite State.pending, apply_ite State.tick, apply_ite State.objs]

@[simp] theorem State.fallbackTick_frame (s : State) :
    (s.fallbackTick).pending = s.pending ∧ (s.fallbackTick).tick = s.tick ∧ (s.fallbackTick).objs = s.objs := by
  unfold State.fallbackTick
  first | (simp [apply_ite State.pending, apply_ite State.tick, apply_ite State.objs]; done) | (repeat' split) <;> simp [apply_ite State.pending, apply_ite State.tick, apply_ite State.objs]

@[simp] theorem State.fbPowerUp_frame (s : State) :
    (s.fbPowerUp).pending = s.pending ∧ (s.fbPowerUp).tick = s.tick ∧ (s.fbPowerUp).objs = s.objs := by
  simp [State.fbPowerUp, apply_ite State.pending, apply_ite State.tick, apply_ite State.objs]

@[simp] theorem State.windowEdge_frame (s : State) :
    (s.windowEdge).pending = s.pending ∧ (s.windowEdge).tick = s.tick ∧ (s.windowEdge).objs = s.objs := by
  simp [State.windowEdge, apply_ite State.pending, apply_ite State.tick, apply_ite State.objs]

@[simp] theorem State.windowQuantities_frame (s : State) (b : List AiWindow) (c : Nat) :
    (s.windowQuantities b c).pending = s.pending ∧ (s.windowQuantities b c).tick = s.tick ∧ (s.windowQuantities b c).objs = s.objs := by
  simp [State.windowQuantities]

@[simp] theorem State.windowEnergy_frame (s : State) (b : Nat) (c : Nat) :
    (s.windowEnergy b c).pending = s.pending ∧ (s.windowEnergy b c).tick = s.tick ∧ (s.windowEnergy b c).objs = s.objs := by
  simp [State.windowEnergy]

@[simp] theorem State.driftInput_frame (s : State) (a : List Bool) (b : Nat) (c : AiWindow) :
    (s.driftInput a b c).pending = s.pending ∧ (s.driftInput a b c).tick = s.tick ∧ (s.driftInput a b c).objs = s.objs := by
  simp [State.driftInput, apply_ite State.pending, apply_ite State.tick, apply_ite State.objs]

@[simp] theorem State.windowDone_frame (s : State) (a : List Bool) (b : List AiWindow) :
    (s.windowDone a b).pending = s.pending ∧ (s.windowDone a b).tick = s.tick ∧ (s.windowDone a b).objs = s.objs := by
  unfold State.windowDone
  first | (simp [apply_ite State.pending, apply_ite State.tick, apply_ite State.objs]; done) | (repeat' split) <;> simp [apply_ite State.pending, apply_ite State.tick, apply_ite State.objs]

@[simp] theorem State.windowResult_frame (s : State) (a : List Bool) (b : List AiWindow) :
    (s.windowResult a b).pending = s.pending ∧ (s.windowResult a b).tick = s.tick ∧ (s.windowResult a b).objs = s.objs := by
  unfold State.windowResult
  first | (simp [apply_ite State.pending, apply_ite State.tick, apply_ite State.objs]; done) | (repeat' split) <;> simp [apply_ite State.pending, apply_ite State.tick, apply_ite State.objs]

@[simp] theorem State.takeReference_frame (s : State) :
    (s.takeReference).pending = s.pending ∧ (s.takeReference).tick = s.tick ∧ (s.takeReference).objs = s.objs := by
  simp [State.takeReference]

@[simp] theorem State.refCheck_frame (s : State) (b : Int) :
    (s.refCheck b).pending = s.pending ∧ (s.refCheck b).tick = s.tick ∧ (s.refCheck b).objs = s.objs := by
  simp [State.refCheck, apply_ite State.pending, apply_ite State.tick, apply_ite State.objs]

@[simp] theorem State.vanaLost_frame (s : State) (b : Nat) (c : Nat) :
    (s.vanaLost b c).pending = s.pending ∧ (s.vanaLost b c).tick = s.tick ∧ (s.vanaLost b c).objs = s.objs := by
  simp [State.vanaLost, apply_ite State.pending, apply_ite State.tick, apply_ite State.objs]

@[simp] theorem State.vanaPresent_frame (s : State) (b : Nat) (c : Nat) :
    (s.vanaPresent b c).pending = s.pending ∧ (s.vanaPresent b c).tick = s.tick ∧ (s.vanaPresent b c).objs = s.objs := by
  simp [State.vanaPresent, apply_ite State.pending, apply_ite State.tick, apply_ite State.objs]

@[simp] theorem State.vanaLowChange_frame (s : State) (b : Nat) (c : Nat) :
    (s.vanaLowChange b c).pending = s.pending ∧ (s.vanaLowChange b c).tick = s.tick ∧ (s.vanaLowChange b c).objs = s.objs := by
  simp [State.vanaLowChange, apply_ite State.pending, apply_ite State.tick, apply_ite State.objs]

@[simp] theorem State.driftClear_frame (s : State) (b : Nat) :
    (s.driftClear b).pending = s.pending ∧ (s.driftClear b).tick = s.tick ∧ (s.driftClear b).objs = s.objs := by
  simp [State.driftClear]

@[simp] theorem State.refSwitch_frame (s : State) (b : Bool) :
    (s.refSwitch b).pending = s.pending ∧ (s.refSwitch b).tick = s.tick ∧ (s.refSwitch b).objs = s.objs := by
  simp [State.refSwitch]

@[simp] theorem State.unlock_frame (s : State) (b : Bool) :
    (s.unlock b).pending = s.pending ∧ (s.unlock b).tick = s.tick ∧ (s.unlock b).objs = s.objs := by
  simp [State.unlock]

@[simp] theorem State.ppsEdge_frame (s : State) :
    (s.ppsEdge).pending = s.pending ∧ (s.ppsEdge).tick = s.tick ∧ (s.ppsEdge).objs = s.objs := by
  unfold State.ppsEdge
  first | (simp [apply_ite State.pending, apply_ite State.tick, apply_ite State.objs]; done) | (repeat' split) <;> simp [apply_ite State.pending, apply_ite State.tick, apply_ite State.objs]

@[simp] theorem State.refGone_frame (s : State) :
    (s.refGone).pending = s.pending ∧ (s.refGone).tick = s.tick ∧ (s.refGone).objs = s.objs := by
  unfold State.refGone
  first | (simp [apply_ite State.pending, apply_ite State.tick, apply_ite State.objs]; done) | (repeat' split) <;> simp [apply_ite State.pending, apply_ite State.tick, apply_ite State.objs]

@[simp] theorem State.refWrite_frame (s : State) (b : Bool) :
    (s.refWrite b).pending = s.pending ∧ (s.refWrite b).tick = s.tick ∧ (s.refWrite b).objs = s.objs := by
  unfold State.refWrite
  first | (simp [apply_ite State.pending, apply_ite State.tick, apply_ite State.objs]; done) | (repeat' split) <;> simp [apply_ite State.pending, apply_ite State.tick, apply_ite State.objs]

@[simp] theorem State.refLoss_frame (s : State) (b : Bool) (c : Nat) :
    (s.refLoss b c).pending = s.pending ∧ (s.refLoss b c).tick = s.tick ∧ (s.refLoss b c).objs = s.objs := by
  simp [State.refLoss, apply_ite State.pending, apply_ite State.tick, apply_ite State.objs]

@[simp] theorem State.refGood_frame (s : State) (b : Bool) (c : Nat) :
    (s.refGood b c).pending = s.pending ∧ (s.refGood b c).tick = s.tick ∧ (s.refGood b c).objs = s.objs := by
  simp [State.refGood, apply_ite State.pending, apply_ite State.tick, apply_ite State.objs]

@[simp] theorem State.pulseKept_frame (s : State) (b : Bool) :
    (s.pulseKept b).pending = s.pending ∧ (s.pulseKept b).tick = s.tick ∧ (s.pulseKept b).objs = s.objs := ⟨rfl, rfl, rfl⟩

@[simp] theorem State.renumber_frame (s : State) (b : Option Nat) :
    (s.renumber b).pending = s.pending ∧ (s.renumber b).objs = s.objs := by
  simp [State.renumber, apply_ite State.pending, apply_ite State.objs]

@[simp] theorem State.lockDeclared_frame (s : State) (b : Nat) (c : Option Nat) :
    (s.lockDeclared b c).pending = s.pending ∧ (s.lockDeclared b c).objs = s.objs := by
  simp [State.lockDeclared, apply_ite State.pending, apply_ite State.objs]

@[simp] theorem State.slip_frame (s : State) (b c : Nat) :
    (s.slip b c).pending = s.pending ∧ (s.slip b c).tick = s.tick ∧ (s.slip b c).objs = s.objs := by
  simp [State.slip, apply_ite State.pending, apply_ite State.tick, apply_ite State.objs]

@[simp] theorem State.lockLoss_frame (s : State) (b : Nat) :
    (s.lockLoss b).pending = s.pending ∧ (s.lockLoss b).tick = s.tick ∧ (s.lockLoss b).objs = s.objs := by
  simp [State.lockLoss, apply_ite State.pending, apply_ite State.tick, apply_ite State.objs]

@[simp] theorem State.regEdge_frame (s : State) :
    (s.regEdge).pending = s.pending ∧ (s.regEdge).tick = s.tick ∧ (s.regEdge).objs = s.objs := by
  unfold State.regEdge
  dsimp only
  repeat' (first | split | (apply And.intro) | simp [*, apply_ite State.pending, apply_ite State.tick, apply_ite State.objs])

@[simp] theorem State.rampStart_frame (s : State) :
    (s.rampStart).pending = s.pending ∧ (s.rampStart).tick = s.tick ∧ (s.rampStart).objs = s.objs := by
  unfold State.rampStart; (repeat' split) <;> simp

@[simp] theorem State.rampPush_frame (s : State) (b : Nat) :
    (s.rampPush b).pending = s.pending ∧ (s.rampPush b).tick = s.tick ∧ (s.rampPush b).objs = s.objs := by
  simp [State.rampPush]

@[simp] theorem State.timeSet_frame (s : State) (b : TimeState) (c : Nat) :
    (s.timeSet b c).pending = s.pending ∧ (s.timeSet b c).tick = s.tick ∧ (s.timeSet b c).objs = s.objs := by
  simp [State.timeSet, apply_ite State.pending, apply_ite State.tick, apply_ite State.objs]

@[simp] theorem State.holdover_frame (s : State) (b : Nat) :
    (s.holdover b).pending = s.pending ∧ (s.holdover b).tick = s.tick ∧ (s.holdover b).objs = s.objs := by
  simp [State.holdover, apply_ite State.pending, apply_ite State.tick, apply_ite State.objs]

@[simp] theorem State.holdoverExpired_frame (s : State) (b : Nat) :
    (s.holdoverExpired b).pending = s.pending ∧ (s.holdoverExpired b).tick = s.tick ∧ (s.holdoverExpired b).objs = s.objs := by
  simp [State.holdoverExpired, apply_ite State.pending, apply_ite State.tick, apply_ite State.objs]

@[simp] theorem State.timeLock_frame (s : State) :
    (s.timeLock).pending = s.pending ∧ (s.timeLock).tick = s.tick ∧ (s.timeLock).objs = s.objs := by
  simp [State.timeLock, apply_ite State.pending, apply_ite State.tick, apply_ite State.objs]

@[simp] theorem State.servo_frame (s : State) (b : Nat) (c : Int) :
    (s.servo b c).pending = s.pending ∧ (s.servo b c).tick = s.tick ∧ (s.servo b c).objs = s.objs := by
  simp [State.servo]

@[simp] theorem State.ptpSync_frame (s : State) (b : Nat) (c : Nat) (d : Int) (e : Int) :
    (s.ptpSync b c d e).pending = s.pending ∧ (s.ptpSync b c d e).tick = s.tick ∧ (s.ptpSync b c d e).objs = s.objs := by
  simp [State.ptpSync, apply_ite State.pending, apply_ite State.tick, apply_ite State.objs]

@[simp] theorem State.stepEdge_frame (s : State) :
    (s.stepEdge).pending = s.pending ∧ (s.stepEdge).tick = s.tick ∧ (s.stepEdge).objs = s.objs := by
  unfold State.stepEdge; split <;> simp

@[simp] theorem State.ptpAnnounce_frame (s : State) (b : Announce) :
    (s.ptpAnnounce b).pending = s.pending ∧ (s.ptpAnnounce b).tick = s.tick ∧ (s.ptpAnnounce b).objs = s.objs := by
  simp [State.ptpAnnounce, apply_ite State.pending, apply_ite State.tick, apply_ite State.objs]

@[simp] theorem State.ptpRestart_frame (s : State) :
    (s.ptpRestart).pending = s.pending ∧ (s.ptpRestart).tick = s.tick ∧ (s.ptpRestart).objs = s.objs := by
  simp [State.ptpRestart]

@[simp] theorem State.announceTimeout_frame (s : State) :
    (s.announceTimeout).pending = s.pending ∧ (s.announceTimeout).tick = s.tick ∧ (s.announceTimeout).objs = s.objs := by
  simp [State.announceTimeout, apply_ite State.pending, apply_ite State.tick, apply_ite State.objs]

@[simp] theorem State.ptpSend_frame (s : State) (b : List PtpMsg) :
    (s.ptpSend b).pending = s.pending ∧ (s.ptpSend b).tick = s.tick ∧ (s.ptpSend b).objs = s.objs := by
  unfold State.ptpSend
  first | (simp [apply_ite State.pending, apply_ite State.tick, apply_ite State.objs]; done) | (repeat' split) <;> simp [apply_ite State.pending, apply_ite State.tick, apply_ite State.objs]

@[simp] theorem State.delayReqTx_frame (s : State) :
    (s.delayReqTx).pending = s.pending ∧ (s.delayReqTx).tick = s.tick ∧ (s.delayReqTx).objs = s.objs := by
  simp [State.delayReqTx, apply_ite State.pending, apply_ite State.tick, apply_ite State.objs]

@[simp] theorem State.delayResp_frame (s : State) (b : Nat) (c : Nat) (d : Bool) :
    (s.delayResp b c d).pending = s.pending ∧ (s.delayResp b c d).tick = s.tick ∧ (s.delayResp b c d).objs = s.objs := by
  simp [State.delayResp, apply_ite State.pending, apply_ite State.tick, apply_ite State.objs]

@[simp] theorem State.pdelayReq_frame (s : State) (b : Nat) (c : List Byte) (d : Nat) :
    (s.pdelayReq b c d).pending = s.pending ∧ (s.pdelayReq b c d).tick = s.tick ∧ (s.pdelayReq b c d).objs = s.objs := by
  unfold State.pdelayReq
  first | (simp [apply_ite State.pending, apply_ite State.tick, apply_ite State.objs]; done) | (repeat' split) <;> simp [apply_ite State.pending, apply_ite State.tick, apply_ite State.objs]

@[simp] theorem State.masterTx_frame (s : State) :
    (s.masterTx).pending = s.pending ∧ (s.masterTx).tick = s.tick ∧ (s.masterTx).objs = s.objs := by
  simp [State.masterTx, apply_ite State.pending, apply_ite State.tick, apply_ite State.objs]

@[simp] theorem State.management_frame (s : State) (b : Nat) (c : BitVec 16) (d : Bool) :
    (s.management b c d).pending = s.pending ∧ (s.management b c d).tick = s.tick ∧ (s.management b c d).objs = s.objs := by
  simp [State.management, apply_ite State.pending, apply_ite State.tick, apply_ite State.objs]

@[simp] theorem State.syncTimeout_frame (s : State) :
    (s.syncTimeout).pending = s.pending ∧ (s.syncTimeout).tick = s.tick ∧ (s.syncTimeout).objs = s.objs := by
  simp [State.syncTimeout, apply_ite State.pending, apply_ite State.tick, apply_ite State.objs]

@[simp] theorem State.ptpModeSet_frame (s : State) (b : Nat) :
    (s.ptpModeSet b).pending = s.pending ∧ (s.ptpModeSet b).tick = s.tick ∧ (s.ptpModeSet b).objs = s.objs := by
  simp [State.ptpModeSet, apply_ite State.pending, apply_ite State.tick, apply_ite State.objs]

@[simp] theorem State.regMode_frame (s : State) (b : Bool) :
    (s.regMode b).pending = s.pending ∧ (s.regMode b).tick = s.tick ∧ (s.regMode b).objs = s.objs := by
  simp [State.regMode, apply_ite State.pending, apply_ite State.tick, apply_ite State.objs]

@[simp] theorem State.verifyDone_frame (s : State) :
    (s.verifyDone).pending = s.pending ∧ (s.verifyDone).tick = s.tick ∧ (s.verifyDone).objs = s.objs := by
  unfold State.verifyDone
  split
  · exact ⟨rfl, rfl, rfl⟩
  · dsimp only
    split
    · simp only [State.replyTo_frame, State.post_frame, and_self]
    split
    · simp only [State.replyTo_frame, State.post_frame, and_self]
    split <;> simp only [State.replyTo_frame, State.post_frame, and_self]

@[simp] theorem State.reverifyAll_frame (s : State) :
    (s.reverifyAll).pending = s.pending ∧ (s.reverifyAll).tick = s.tick ∧ (s.reverifyAll).objs = s.objs := ⟨rfl, rfl, rfl⟩

@[simp] theorem State.pushGroup_frame (s : State) (b : Group) :
    (s.pushGroup b).pending = s.pending ∧ (s.pushGroup b).tick = s.tick ∧ (s.pushGroup b).objs = s.objs := by
  simp [State.pushGroup]

@[simp] theorem State.dropGroup_frame (s : State) (b : Group) :
    (s.dropGroup b).pending = s.pending ∧ (s.dropGroup b).tick = s.tick ∧ (s.dropGroup b).objs = s.objs := by
  simp [State.dropGroup]

@[simp] theorem State.putCoef_frame (s : State) (b : Bool) (c : Nat) (d : Nat) (e : DWord) :
    (s.putCoef b c d e).pending = s.pending ∧ (s.putCoef b c d e).tick = s.tick ∧ (s.putCoef b c d e).objs = s.objs := by
  simp [State.putCoef]

@[simp] theorem State.pendSwap_frame (s : State) (b : Nat) (c : Option Reply) :
    (s.pendSwap b c).pending = s.pending ∧ (s.pendSwap b c).tick = s.tick ∧ (s.pendSwap b c).objs = s.objs := by
  simp [State.pendSwap]

@[simp] theorem State.doSwap_frame (s : State) (b : Swap) :
    (s.doSwap b).pending = s.pending ∧ (s.doSwap b).tick = s.tick ∧ (s.doSwap b).objs = s.objs := by
  simp [State.doSwap]

@[simp] theorem State.setEngine_frame (s : State) (b : Nat) (c : Engine → Engine) :
    (s.setEngine b c).pending = s.pending ∧ (s.setEngine b c).tick = s.tick ∧ (s.setEngine b c).objs = s.objs := by
  simp [State.setEngine]

@[simp] theorem State.outOfService_frame (s : State) (b : Nat) :
    (s.outOfService b).pending = s.pending ∧ (s.outOfService b).tick = s.tick ∧ (s.outOfService b).objs = s.objs := by
  unfold State.outOfService
  first | (simp [apply_ite State.pending, apply_ite State.tick, apply_ite State.objs]; done) | (repeat' split) <;> simp [apply_ite State.pending, apply_ite State.tick, apply_ite State.objs]

@[simp] theorem State.retestFailed_frame (s : State) (b : Nat) :
    (s.retestFailed b).pending = s.pending ∧ (s.retestFailed b).tick = s.tick ∧ (s.retestFailed b).objs = s.objs := by
  unfold State.retestFailed
  first | (simp [apply_ite State.pending, apply_ite State.tick, apply_ite State.objs]; done) | (repeat' split) <;> simp [apply_ite State.pending, apply_ite State.tick, apply_ite State.objs]

@[simp] theorem State.startMigration_frame (s : State) (b : Nat) (c : Bool) (d : Option Reply) :
    (s.startMigration b c d).pending = s.pending ∧ (s.startMigration b c d).tick = s.tick ∧ (s.startMigration b c d).objs = s.objs := by
  unfold State.startMigration; (repeat' split) <;> simp

@[simp] theorem State.askMigration_frame (s : State) (b : Nat) (c : Bool) (d : Option Reply) :
    (s.askMigration b c d).pending = s.pending ∧ (s.askMigration b c d).tick = s.tick ∧ (s.askMigration b c d).objs = s.objs := by
  simp [State.askMigration, apply_ite State.pending, apply_ite State.tick, apply_ite State.objs]

@[simp] theorem State.spareFails_frame (s : State) (b : Nat) :
    (s.spareFails b).pending = s.pending ∧ (s.spareFails b).tick = s.tick ∧ (s.spareFails b).objs = s.objs := by
  unfold State.spareFails
  dsimp only
  repeat' (first | split | (apply And.intro) | simp [*, apply_ite State.pending, apply_ite State.tick, apply_ite State.objs])

@[simp] theorem State.engineFails_frame (s : State) (b : Nat) (c : Nat) (d : Nat) (e : Option Nat) :
    (s.engineFails b c d e).pending = s.pending ∧ (s.engineFails b c d e).tick = s.tick ∧ (s.engineFails b c d e).objs = s.objs := by
  simp [State.engineFails]

@[simp] theorem State.residueError_frame (s : State) (b : Nat) (c : ResidueStep) :
    (s.residueError b c).pending = s.pending ∧ (s.residueError b c).tick = s.tick ∧ (s.residueError b c).objs = s.objs := by
  simp [State.residueError, apply_ite State.pending, apply_ite State.tick, apply_ite State.objs]

@[simp] theorem State.signatureError_frame (s : State) (b : Nat) :
    (s.signatureError b).pending = s.pending ∧ (s.signatureError b).tick = s.tick ∧ (s.signatureError b).objs = s.objs := by
  simp [State.signatureError, apply_ite State.pending, apply_ite State.tick, apply_ite State.objs]

@[simp] theorem State.spareFault_frame (s : State) (b : Nat) :
    (s.spareFault b).pending = s.pending ∧ (s.spareFault b).tick = s.tick ∧ (s.spareFault b).objs = s.objs := by
  simp [State.spareFault, apply_ite State.pending, apply_ite State.tick, apply_ite State.objs]

@[simp] theorem State.migrateTo_frame (s : State) (b : Migration) :
    (s.migrateTo b).pending = s.pending ∧ (s.migrateTo b).tick = s.tick ∧ (s.migrateTo b).objs = s.objs := by
  simp [State.migrateTo]

@[simp] theorem State.sparesSettled_frame (s : State) :
    (s.sparesSettled).pending = s.pending ∧ (s.sparesSettled).tick = s.tick ∧ (s.sparesSettled).objs = s.objs := by
  unfold State.sparesSettled
  dsimp only
  split <;> exact ⟨rfl, rfl, rfl⟩

@[simp] theorem State.nextMigration_frame (s : State) (b : List MigWait) :
    (s.nextMigration b).pending = s.pending ∧ (s.nextMigration b).tick = s.tick ∧ (s.nextMigration b).objs = s.objs := by
  induction b generalizing s with
  | nil => simp [State.nextMigration]
  | cons w ws ih =>
    unfold State.nextMigration
    split <;> simp [ih]

@[simp] theorem State.retested_frame (s : State) (b : Nat) :
    (s.retested b).pending = s.pending ∧ (s.retested b).tick = s.tick ∧ (s.retested b).objs = s.objs := by
  simp [State.retested, apply_ite State.pending, apply_ite State.tick, apply_ite State.objs]

@[simp] theorem State.countLate_frame (s : State) :
    (s.countLate).pending = s.pending ∧ (s.countLate).tick = s.tick ∧ (s.countLate).objs = s.objs := by
  simp [State.countLate]

@[simp] theorem State.countDiscard_frame (s : State) :
    (s.countDiscard).pending = s.pending ∧ (s.countDiscard).tick = s.tick ∧ (s.countDiscard).objs = s.objs := by
  simp [State.countDiscard]

@[simp] theorem State.schedule_frame (s : State) (b : SchedKey) (c : HostCmd) (d : Option Reply) :
    (s.schedule b c d).pending = s.pending ∧ (s.schedule b c d).tick = s.tick ∧ (s.schedule b c d).objs = s.objs := by
  simp [State.schedule, apply_ite State.pending, apply_ite State.tick, apply_ite State.objs]

@[simp] theorem State.cancel_frame (s : State) (b : Nat) :
    (s.cancel b).pending = s.pending ∧ (s.cancel b).tick = s.tick ∧ (s.cancel b).objs = s.objs := by
  simp [State.cancel]

@[simp] theorem State.actionDone_frame (s : State) (b c d : Nat) (e : Lateness) :
    (s.actionDone b c d e).pending = s.pending ∧ (s.actionDone b c d e).tick = s.tick ∧ (s.actionDone b c d e).objs = s.objs := by
  unfold State.actionDone
  first | (simp [apply_ite State.pending, apply_ite State.tick, apply_ite State.objs]; done) | (repeat' split) <;> simp [apply_ite State.pending, apply_ite State.tick, apply_ite State.objs]

@[simp] theorem State.actionFailed_frame (s : State) (b c d : Nat) (e : Byte) :
    (s.actionFailed b c d e).pending = s.pending ∧ (s.actionFailed b c d e).tick = s.tick ∧ (s.actionFailed b c d e).objs = s.objs := by
  unfold State.actionFailed
  first | (simp [apply_ite State.pending, apply_ite State.tick, apply_ite State.objs]; done) | (repeat' split) <;> simp [apply_ite State.pending, apply_ite State.tick, apply_ite State.objs]

@[simp] theorem State.schedEdge_frame (s : State) :
    (s.schedEdge).pending = s.pending ∧ (s.schedEdge).tick = s.tick ∧ (s.schedEdge).objs = s.objs := by
  simp [State.schedEdge]

@[simp] theorem State.remapKeys_frame (s : State) :
    (s.remapKeys).pending = s.pending ∧ (s.remapKeys).tick = s.tick ∧ (s.remapKeys).objs = s.objs := by
  simp [State.remapKeys]

@[simp] theorem State.formVector_frame (s : State) (b : Bool) :
    (s.formVector b).pending = s.pending ∧ (s.formVector b).tick = s.tick ∧ (s.formVector b).objs = s.objs := by
  simp [State.formVector]

@[simp] theorem State.condSignals_frame (s : State) :
    (s.condSignals).pending = s.pending ∧ (s.condSignals).tick = s.tick ∧ (s.condSignals).objs = s.objs := by
  simp [State.condSignals]

@[simp] theorem State.condMemory_frame (s : State) :
    (s.condMemory).pending = s.pending ∧ (s.condMemory).tick = s.tick ∧ (s.condMemory).objs = s.objs := by
  simp [State.condMemory]


@[simp] theorem State.takeSlot_frame (s : State) : (s.takeSlot.1).pending = s.pending ∧ (s.takeSlot.1).tick = s.tick ∧ (s.takeSlot.1).objs = s.objs := by
  unfold State.takeSlot
  split <;> simp

@[simp] theorem State.armChrono_frame (s : State) (b : Nat) (c : Bool) (d : Bool) :
    (s.armChrono b c d).pending = s.pending ∧ (s.armChrono b c d).tick = s.tick ∧ (s.armChrono b c d).objs = s.objs := by
  unfold State.armChrono
  have h := State.takeSlot_frame s
  rcases hx : s.takeSlot with ⟨t, o⟩
  simp only [hx] at h
  simp [h]

@[simp] theorem State.trigger_frame (s : State) (b : Nat) (c : Nat) (d : Option Nat) :
    (s.trigger b c d).pending = s.pending ∧ (s.trigger b c d).tick = s.tick ∧ (s.trigger b c d).objs = s.objs := by
  simp [State.trigger]

@[simp] theorem State.armedTick_frame (s : State) (b : Nat) :
    (s.armedTick b).pending = s.pending ∧ (s.armedTick b).tick = s.tick ∧ (s.armedTick b).objs = s.objs := by
  unfold State.armedTick
  dsimp only
  repeat' (first | split | (apply And.intro) | simp [*, apply_ite State.pending, apply_ite State.tick, apply_ite State.objs])

@[simp] theorem State.recordTick_frame (s : State) :
    (s.recordTick).pending = s.pending ∧ (s.recordTick).tick = s.tick ∧ (s.recordTick).objs = s.objs := by
  simp [State.recordTick, apply_ite State.pending, apply_ite State.tick, apply_ite State.objs]

@[simp] theorem State.holdTick_frame (s : State) (b : Nat) :
    (s.holdTick b).pending = s.pending ∧ (s.holdTick b).tick = s.tick ∧ (s.holdTick b).objs = s.objs := by
  simp [State.holdTick, apply_ite State.pending, apply_ite State.tick, apply_ite State.objs]

@[simp] theorem State.chronoTick_frame (s : State) :
    (s.chronoTick).pending = s.pending ∧ (s.chronoTick).tick = s.tick ∧ (s.chronoTick).objs = s.objs := by
  unfold State.chronoTick
  dsimp only
  repeat' (first | split | (apply And.intro) | simp [*, apply_ite State.pending, apply_ite State.tick, apply_ite State.objs])

@[simp] theorem State.closeRecord_frame (s : State) (b : Bool) (c : ChrState) :
    (s.closeRecord b c).pending = s.pending ∧ (s.closeRecord b c).tick = s.tick ∧ (s.closeRecord b c).objs = s.objs := by
  unfold State.closeRecord; dsimp only; generalize s.chr.cur = r; cases r <;> simp

@[simp] theorem State.recordDone_frame (s : State) :
    (s.recordDone).pending = s.pending ∧ (s.recordDone).tick = s.tick ∧ (s.recordDone).objs = s.objs := by
  simp [State.recordDone, apply_ite State.pending, apply_ite State.tick, apply_ite State.objs]

@[simp] theorem State.chronoStop_frame (s : State) :
    (s.chronoStop).pending = s.pending ∧ (s.chronoStop).tick = s.tick ∧ (s.chronoStop).objs = s.objs := by
  simp [State.chronoStop, apply_ite State.pending, apply_ite State.tick, apply_ite State.objs]

@[simp] theorem State.askDisarm_frame (s : State) :
    (s.askDisarm).pending = s.pending ∧ (s.askDisarm).tick = s.tick ∧ (s.askDisarm).objs = s.objs := by
  unfold State.askDisarm
  first | (simp [apply_ite State.pending, apply_ite State.tick, apply_ite State.objs]; done) | (repeat' split) <;> simp [apply_ite State.pending, apply_ite State.tick, apply_ite State.objs]

@[simp] theorem State.chronoEdge_frame (s : State) :
    (s.chronoEdge).pending = s.pending ∧ (s.chronoEdge).tick = s.tick ∧ (s.chronoEdge).objs = s.objs := by
  unfold State.chronoEdge
  first | (simp [apply_ite State.pending, apply_ite State.tick, apply_ite State.objs]; done) | (repeat' split) <;> simp [apply_ite State.pending, apply_ite State.tick, apply_ite State.objs]

@[simp] theorem State.holdoffExpired_frame (s : State) :
    (s.holdoffExpired).pending = s.pending ∧ (s.holdoffExpired).tick = s.tick ∧ (s.holdoffExpired).objs = s.objs := by
  simp [State.holdoffExpired, apply_ite State.pending, apply_ite State.tick, apply_ite State.objs]

@[simp] theorem State.releaseRecord_frame (s : State) (b : Nat) :
    (s.releaseRecord b).pending = s.pending ∧ (s.releaseRecord b).tick = s.tick ∧ (s.releaseRecord b).objs = s.objs := by
  simp [State.releaseRecord]

@[simp] theorem State.logWindow_frame (s : State) :
    (s.logWindow).pending = s.pending ∧ (s.logWindow).tick = s.tick ∧ (s.logWindow).objs = s.objs := by
  simp [State.logWindow, apply_ite State.pending, apply_ite State.tick, apply_ite State.objs]

@[simp] theorem State.logAck_frame (s : State) (b : Nat) :
    (s.logAck b).pending = s.pending ∧ (s.logAck b).tick = s.tick ∧ (s.logAck b).objs = s.objs := by
  simp [State.logAck]

@[simp] theorem State.partnerSet_frame (s : State) (b : Int) :
    (s.partnerSet b).pending = s.pending ∧ (s.partnerSet b).tick = s.tick ∧ (s.partnerSet b).objs = s.objs := by
  simp [State.partnerSet]

@[simp] theorem State.hook_frame (s : State) (b : Nat) (c : Int) (d : Int) :
    (s.hook b c d).pending = s.pending ∧ (s.hook b c d).tick = s.tick := by
  unfold State.hook; (repeat' split) <;> simp [apply_ite State.pending, apply_ite State.tick]

@[simp] theorem State.writeObj_frame (s : State) (b : Nat) (c : Int) :
    (s.writeObj b c).pending = s.pending ∧ (s.writeObj b c).tick = s.tick := by
  simp [State.writeObj]

@[simp] theorem State.writeVal_frame (s : State) (b : Nat) (c : ObjVal) :
    (s.writeVal b c).pending = s.pending ∧ (s.writeVal b c).tick = s.tick := by
  unfold State.writeVal; (repeat' split) <;> simp

@[simp] theorem State.addWaiting_frame (s : State) (b : Nat) (c : Int) (d : ApplyPoint) :
    (s.addWaiting b c d).pending = s.pending ∧ (s.addWaiting b c d).tick = s.tick ∧ (s.addWaiting b c d).objs = s.objs := by
  simp [State.addWaiting]

@[simp] theorem State.applyWaiting_frame (s : State) (b : ApplyPoint) :
    (s.applyWaiting b).pending = s.pending ∧ (s.applyWaiting b).tick = s.tick := by
  simp [State.applyWaiting]

@[simp] theorem State.applySafety_frame (s : State) :
    (s.applySafety).pending = s.pending ∧ (s.applySafety).tick = s.tick := by
  simp [State.applySafety, apply_ite State.pending, apply_ite State.tick]

@[simp] theorem State.land_frame (s : State) (b : Nat) (c : ObjVal) :
    (s.land b c).pending = s.pending ∧ (s.land b c).tick = s.tick := by
  unfold State.land; (repeat' split) <;> simp

@[simp] theorem State.ringWrapped_frame (s : State) (b : Bool) :
    (s.ringWrapped b).pending = s.pending ∧ (s.ringWrapped b).tick = s.tick ∧ (s.ringWrapped b).objs = s.objs := by
  simp [State.ringWrapped, apply_ite State.pending, apply_ite State.tick, apply_ite State.objs]

@[simp] theorem State.portDown_frame (s : State) (b : Bool) :
    (s.portDown b).pending = s.pending ∧ (s.portDown b).tick = s.tick ∧ (s.portDown b).objs = s.objs := by
  simp [State.portDown, apply_ite State.pending, apply_ite State.tick, apply_ite State.objs]

@[simp] theorem State.portUp_frame (s : State) (b : Bool) (c : Nat) :
    (s.portUp b c).pending = s.pending ∧ (s.portUp b c).tick = s.tick ∧ (s.portUp b c).objs = s.objs := by
  simp [State.portUp, apply_ite State.pending, apply_ite State.tick, apply_ite State.objs]

@[simp] theorem State.miswired_frame (s : State) (b : Bool) :
    (s.miswired b).pending = s.pending ∧ (s.miswired b).tick = s.tick ∧ (s.miswired b).objs = s.objs := by
  simp [State.miswired, apply_ite State.pending, apply_ite State.tick, apply_ite State.objs]

@[simp] theorem State.ringHeal_frame (s : State) :
    (s.ringHeal).pending = s.pending ∧ (s.ringHeal).tick = s.tick ∧ (s.ringHeal).objs = s.objs := by
  simp [State.ringHeal, apply_ite State.pending, apply_ite State.tick, apply_ite State.objs]

@[simp] theorem State.ringClosed_frame (s : State) :
    (s.ringClosed).pending = s.pending ∧ (s.ringClosed).tick = s.tick ∧ (s.ringClosed).objs = s.objs := by
  simp [State.ringClosed, apply_ite State.pending, apply_ite State.tick, apply_ite State.objs]

@[simp] theorem State.rootYields_frame (s : State) (b : Word) :
    (s.rootYields b).pending = s.pending ∧ (s.rootYields b).tick = s.tick ∧ (s.rootYields b).objs = s.objs := by
  simp [State.rootYields, apply_ite State.pending, apply_ite State.tick, apply_ite State.objs]

@[simp] theorem State.formed_frame (s : State) :
    (s.formed).pending = s.pending ∧ (s.formed).tick = s.tick ∧ (s.formed).objs = s.objs := by
  simp [State.formed]

@[simp] theorem State.rootStart_frame (s : State) :
    (s.rootStart).pending = s.pending ∧ (s.rootStart).tick = s.tick ∧ (s.rootStart).objs = s.objs := by
  simp [State.rootStart, apply_ite State.pending, apply_ite State.tick, apply_ite State.objs]

@[simp] theorem State.actingRoot_frame (s : State) :
    (s.actingRoot).pending = s.pending ∧ (s.actingRoot).tick = s.tick ∧ (s.actingRoot).objs = s.objs := by
  simp [State.actingRoot, apply_ite State.pending, apply_ite State.tick, apply_ite State.objs]

@[simp] theorem State.originate_frame (s : State) :
    (s.originate).pending = s.pending ∧ (s.originate).tick = s.tick ∧ (s.originate).objs = s.objs := by
  simp [State.originate, apply_ite State.pending, apply_ite State.tick, apply_ite State.objs]

@[simp] theorem State.forward_frame (s : State) (b : Int) (c : TrainFrame) (d : Bool) :
    (s.forward b c d).pending = s.pending ∧ (s.forward b c d).tick = s.tick ∧ (s.forward b c d).objs = s.objs := by
  simp [State.forward]

@[simp] theorem State.frameTaken_frame (s : State) (b : Bool) (c : Int) (d : TrainFrame) :
    (s.frameTaken b c d).pending = s.pending ∧ (s.frameTaken b c d).tick = s.tick ∧ (s.frameTaken b c d).objs = s.objs := by
  simp [State.frameTaken, apply_ite State.pending, apply_ite State.tick, apply_ite State.objs]

@[simp] theorem State.frameOn_frame (s : State) (b : Bool) (c : Int) (d : TrainFrame) :
    (s.frameOn b c d).pending = s.pending ∧ (s.frameOn b c d).tick = s.tick ∧ (s.frameOn b c d).objs = s.objs := by
  simp [State.frameOn, apply_ite State.pending, apply_ite State.tick, apply_ite State.objs]

@[simp] theorem State.frameBad_frame (s : State) (b : Bool) (c : Int) (d : TrainFrame) :
    (s.frameBad b c d).pending = s.pending ∧ (s.frameBad b c d).tick = s.tick ∧ (s.frameBad b c d).objs = s.objs := by
  simp [State.frameBad, apply_ite State.pending, apply_ite State.tick, apply_ite State.objs]

@[simp] theorem State.trainFrame_frame (s : State) (b : Bool) (c : Int) (d : List LaneBlock) :
    (s.trainFrame b c d).pending = s.pending ∧ (s.trainFrame b c d).tick = s.tick ∧ (s.trainFrame b c d).objs = s.objs := by
  simp [State.trainFrame, apply_ite State.pending, apply_ite State.tick, apply_ite State.objs]

@[simp] theorem State.sendMsg_frame (s : State) (b : Nat) (c : Nat) :
    (s.sendMsg b c).pending = s.pending ∧ (s.sendMsg b c).tick = s.tick ∧ (s.sendMsg b c).objs = s.objs := by
  simp [State.sendMsg]

@[simp] theorem State.trainJoin_frame (s : State) (b : DWord) :
    (s.trainJoin b).pending = s.pending ∧ (s.trainJoin b).tick = s.tick ∧ (s.trainJoin b).objs = s.objs := by
  simp [State.trainJoin, apply_ite State.pending, apply_ite State.tick, apply_ite State.objs]

@[simp] theorem State.trainGrant_frame (s : State) (b : DWord) :
    (s.trainGrant b).pending = s.pending ∧ (s.trainGrant b).tick = s.tick ∧ (s.trainGrant b).objs = s.objs := by
  simp [State.trainGrant, apply_ite State.pending, apply_ite State.tick, apply_ite State.objs]


theorem State.takeMsg_frame {s t : State} {a k : Nat} {w : DWord} (h : s.takeMsg a k w = some t) :
    (t).pending = s.pending ∧ (t).tick = s.tick ∧ (t).objs = s.objs := by
  unfold State.takeMsg at h
  dsimp only at h
  split at h
  · cases h
  split at h
  · cases h; exact ⟨rfl, rfl, rfl⟩
  split at h
  · cases h; exact ⟨rfl, rfl, rfl⟩
  · cases h

theorem State.ifTakeFire_frame (s : State) (a : Nat) (w w' : DWord) (t : State)
    (h : (if s.trainRuns then s.takeFire a w w' else none) = some t) : (t).pending = s.pending ∧ (t).tick = s.tick ∧ (t).objs = s.objs := by
  split at h
  · unfold State.takeFire at h
    dsimp only at h
    split at h
    · split at h
      · exact State.takeMsg_frame h
      · cases h
    split at h
    · exact State.takeMsg_frame h
    · cases hx : s.takeMsg a 6 w with
      | none => rw [hx] at h; cases h
      | some x =>
        rw [hx] at h
        have h1 := State.takeMsg_frame hx
        have h2 := State.takeMsg_frame h
        exact ⟨h2.1.trans h1.1, h2.2.1.trans h1.2.1, h2.2.2.trans h1.2.2⟩
  · cases h

theorem State.ifTakeMsg_frame (s : State) (a k : Nat) (w : DWord) (t : State)
    (h : (if s.trainRuns then s.takeMsg a k w else none) = some t) : (t).pending = s.pending ∧ (t).tick = s.tick ∧ (t).objs = s.objs := by
  split at h
  · exact State.takeMsg_frame h
  · cases h

@[simp] theorem State.trainArm_frame (s : State) (b : Nat) (c : DWord) :
    (s.trainArm b c).pending = s.pending ∧ (s.trainArm b c).tick = s.tick ∧ (s.trainArm b c).objs = s.objs := by
  unfold State.trainArm
  have h := State.ifTakeMsg_frame s b 4 c
  split
  · simp
  · rename_i t ht
    have h := h t ht
    (try dsimp only)
    repeat' (first | split | (apply And.intro) | simp [h, apply_ite State.pending, apply_ite State.tick, apply_ite State.objs])

@[simp] theorem State.trainDisarm_frame (s : State) (b : Nat) (c : DWord) :
    (s.trainDisarm b c).pending = s.pending ∧ (s.trainDisarm b c).tick = s.tick ∧ (s.trainDisarm b c).objs = s.objs := by
  unfold State.trainDisarm
  have h := State.ifTakeMsg_frame s b 5 c
  split
  · simp
  · rename_i t ht
    have h := h t ht
    (try dsimp only)
    repeat' (first | split | (apply And.intro) | simp [h, apply_ite State.pending, apply_ite State.tick, apply_ite State.objs])

@[simp] theorem State.trainFire_frame (s : State) (b : Nat) (c : DWord) (d : DWord) :
    (s.trainFire b c d).pending = s.pending ∧ (s.trainFire b c d).tick = s.tick ∧ (s.trainFire b c d).objs = s.objs := by
  unfold State.trainFire
  split
  · simp
  have h := State.ifTakeFire_frame s b c d
  split
  · simp
  · rename_i t ht
    have h := h t ht
    (try dsimp only)
    repeat' (first | split | (apply And.intro) | simp [h, apply_ite State.pending, apply_ite State.tick, apply_ite State.objs])

@[simp] theorem State.joinEdge_frame (s : State) :
    (s.joinEdge).pending = s.pending ∧ (s.joinEdge).tick = s.tick ∧ (s.joinEdge).objs = s.objs := by
  unfold State.joinEdge
  repeat' (first | split | (apply And.intro) | simp)

@[simp] theorem State.yieldEdge_frame (s : State) :
    (s.yieldEdge).pending = s.pending ∧ (s.yieldEdge).tick = s.tick ∧ (s.yieldEdge).objs = s.objs := by
  unfold State.yieldEdge
  repeat' (first | split | (apply And.intro) | simp)

@[simp] theorem State.trainEdge_frame (s : State) :
    (s.trainEdge).pending = s.pending ∧ (s.trainEdge).tick = s.tick ∧ (s.trainEdge).objs = s.objs := by
  simp [State.trainEdge, apply_ite State.pending, apply_ite State.tick, apply_ite State.objs]

@[simp] theorem State.writeSlot_frame (s : State) (b : Nat) (c : Nat) :
    (s.writeSlot b c).pending = s.pending ∧ (s.writeSlot b c).tick = s.tick ∧ (s.writeSlot b c).objs = s.objs := by
  simp [State.writeSlot]

@[simp] theorem State.fireOut_frame (s : State) :
    (s.fireOut).pending = s.pending ∧ (s.fireOut).tick = s.tick ∧ (s.fireOut).objs = s.objs := by
  unfold State.fireOut; split <;> simp

@[simp] theorem State.slotBeat_frame (s : State) :
    (s.slotBeat).pending = s.pending ∧ (s.slotBeat).tick = s.tick ∧ (s.slotBeat).objs = s.objs := by
  unfold State.slotBeat
  dsimp only
  repeat' (first | split | (apply And.intro) | simp [*, apply_ite State.pending, apply_ite State.tick, apply_ite State.objs])

@[simp] theorem State.takeReported_frame (s : State) :
    (s.takeReported).pending = s.pending ∧ (s.takeReported).tick = s.tick ∧ (s.takeReported).objs = s.objs := by
  simp [State.takeReported]

@[simp] theorem State.lead_frame (s : State) :
    (s.lead).pending = s.pending ∧ (s.lead).tick = s.tick ∧ (s.lead).objs = s.objs := by
  simp [State.lead]

@[simp] theorem State.takeCrown_frame (s : State) (b : Nat) :
    (s.takeCrown b).pending = s.pending ∧ (s.takeCrown b).tick = s.tick ∧ (s.takeCrown b).objs = s.objs := by
  simp [State.takeCrown]

@[simp] theorem State.follow_frame (s : State) :
    (s.follow).pending = s.pending ∧ (s.follow).tick = s.tick ∧ (s.follow).objs = s.objs := by
  simp [State.follow]

@[simp] theorem State.pairFormed_frame (s : State) (b : Nat) :
    (s.pairFormed b).pending = s.pending ∧ (s.pairFormed b).tick = s.tick ∧ (s.pairFormed b).objs = s.objs := by
  simp [State.pairFormed, apply_ite State.pending, apply_ite State.tick, apply_ite State.objs]

@[simp] theorem State.linkBack_frame (s : State) :
    (s.linkBack).pending = s.pending ∧ (s.linkBack).tick = s.tick ∧ (s.linkBack).objs = s.objs := by
  simp [State.linkBack, apply_ite State.pending, apply_ite State.tick, apply_ite State.objs]

@[simp] theorem State.heartbeat_frame (s : State) (b : DWord) :
    (s.heartbeat b).pending = s.pending ∧ (s.heartbeat b).tick = s.tick ∧ (s.heartbeat b).objs = s.objs := by
  unfold State.heartbeat
  have h := State.ifTakeMsg_frame s s.partner 1 b
  split
  · simp
  · rename_i t ht
    have h := h t ht
    (try dsimp only)
    repeat' (first | split | (apply And.intro) | simp [h, apply_ite State.pending, apply_ite State.tick, apply_ite State.objs])

@[simp] theorem State.linkFlag_frame (s : State) :
    (s.linkFlag).pending = s.pending ∧ (s.linkFlag).tick = s.tick ∧ (s.linkFlag).objs = s.objs := by
  simp [State.linkFlag, apply_ite State.pending, apply_ite State.tick, apply_ite State.objs]

@[simp] theorem State.heartbeatLost_frame (s : State) :
    (s.heartbeatLost).pending = s.pending ∧ (s.heartbeatLost).tick = s.tick ∧ (s.heartbeatLost).objs = s.objs := by
  simp [State.heartbeatLost, apply_ite State.pending, apply_ite State.tick, apply_ite State.objs]

@[simp] theorem State.pairLinkLost_frame (s : State) :
    (s.pairLinkLost).pending = s.pending ∧ (s.pairLinkLost).tick = s.tick ∧ (s.pairLinkLost).objs = s.objs := by
  simp [State.pairLinkLost, apply_ite State.pending, apply_ite State.tick, apply_ite State.objs]

@[simp] theorem State.takeover_frame (s : State) :
    (s.takeover).pending = s.pending ∧ (s.takeover).tick = s.tick ∧ (s.takeover).objs = s.objs := by
  simp [State.takeover, apply_ite State.pending, apply_ite State.tick, apply_ite State.objs]

@[simp] theorem State.abdicate_frame (s : State) (b : Nat) :
    (s.abdicate b).pending = s.pending ∧ (s.abdicate b).tick = s.tick ∧ (s.abdicate b).objs = s.objs := by
  simp [State.abdicate]

@[simp] theorem State.leaderLanesLost_frame (s : State) :
    (s.leaderLanesLost).pending = s.pending ∧ (s.leaderLanesLost).tick = s.tick ∧ (s.leaderLanesLost).objs = s.objs := by
  simp [State.leaderLanesLost, apply_ite State.pending, apply_ite State.tick, apply_ite State.objs]

@[simp] theorem State.abdicateFailed_frame (s : State) :
    (s.abdicateFailed).pending = s.pending ∧ (s.abdicateFailed).tick = s.tick ∧ (s.abdicateFailed).objs = s.objs := by
  simp [State.abdicateFailed, apply_ite State.pending, apply_ite State.tick, apply_ite State.objs]

@[simp] theorem State.reversion_frame (s : State) (b : Nat) :
    (s.reversion b).pending = s.pending ∧ (s.reversion b).tick = s.tick ∧ (s.reversion b).objs = s.objs := by
  simp [State.reversion, apply_ite State.pending, apply_ite State.tick, apply_ite State.objs]

@[simp] theorem State.graceExpired_frame (s : State) :
    (s.graceExpired).pending = s.pending ∧ (s.graceExpired).tick = s.tick ∧ (s.graceExpired).objs = s.objs := by
  simp [State.graceExpired, apply_ite State.pending, apply_ite State.tick, apply_ite State.objs]

@[simp] theorem State.standbyEntries_frame (s : State) :
    (s.standbyEntries).pending = s.pending ∧ (s.standbyEntries).tick = s.tick ∧ (s.standbyEntries).objs = s.objs := by
  simp [State.standbyEntries, apply_ite State.pending, apply_ite State.tick, apply_ite State.objs]

@[simp] theorem State.pairEdge_frame (s : State) :
    (s.pairEdge).pending = s.pending ∧ (s.pairEdge).tick = s.tick ∧ (s.pairEdge).objs = s.objs := by
  simp [State.pairEdge, apply_ite State.pending, apply_ite State.tick, apply_ite State.objs]

@[simp] theorem State.enrgStart_frame (s : State) :
    (s.enrgStart).pending = s.pending ∧ (s.enrgStart).tick = s.tick ∧ (s.enrgStart).objs = s.objs := by
  simp [State.enrgStart, apply_ite State.pending, apply_ite State.tick, apply_ite State.objs]

@[simp] theorem State.enterRun_frame (s : State) :
    (s.enterRun).pending = s.pending ∧ (s.enterRun).tick = s.tick ∧ (s.enterRun).objs = s.objs := by
  simp [State.enterRun]

@[simp] theorem State.enterScs_frame (s : State) :
    (s.enterScs).pending = s.pending ∧ (s.enterScs).tick = s.tick ∧ (s.enterScs).objs = s.objs := by
  simp [State.enterScs, apply_ite State.pending, apply_ite State.tick, apply_ite State.objs]

@[simp] theorem State.enterPrecharge_frame (s : State) :
    (s.enterPrecharge).pending = s.pending ∧ (s.enterPrecharge).tick = s.tick ∧ (s.enterPrecharge).objs = s.objs := by
  simp [State.enterPrecharge]

@[simp] theorem State.closeSwitches_frame (s : State) :
    (s.closeSwitches).pending = s.pending ∧ (s.closeSwitches).tick = s.tick ∧ (s.closeSwitches).objs = s.objs := by
  simp [State.closeSwitches]

@[simp] theorem State.enterPr_frame (s : State) :
    (s.enterPr).pending = s.pending ∧ (s.enterPr).tick = s.tick ∧ (s.enterPr).objs = s.objs := by
  simp [State.enterPr]

@[simp] theorem State.enter_frame (s : State) (b : ConvState) (c : ConvState) :
    (s.enter b c).pending = s.pending ∧ (s.enter b c).tick = s.tick ∧ (s.enter b c).objs = s.objs := by
  unfold State.enter; (repeat' split) <;> simp

@[simp] theorem State.leave_frame (s : State) (b : ConvState) (c : ConvState) :
    (s.leave b c).pending = s.pending ∧ (s.leave b c).tick = s.tick ∧ (s.leave b c).objs = s.objs := by
  simp [State.leave, apply_ite State.pending, apply_ite State.tick, apply_ite State.objs]

@[simp] theorem State.applyChange_frame (s : State) :
    (s.applyChange).pending = s.pending ∧ (s.applyChange).tick = s.tick := by
  simp [State.applyChange]

@[simp] theorem State.convTo_frame (s : State) (b : ConvState) (c : Nat) :
    (s.convTo b c).pending = s.pending ∧ (s.convTo b c).tick = s.tick := by
  simp [State.convTo, apply_ite State.pending, apply_ite State.tick]

@[simp] theorem State.answerReq_frame (s : State) (b : ConvReq) (c : Ans) :
    (s.answerReq b c).pending = s.pending ∧ (s.answerReq b c).tick = s.tick ∧ (s.answerReq b c).objs = s.objs := by
  unfold State.answerReq; (repeat' split) <;> simp

@[simp] theorem State.keepReq_frame (s : State) (b : ConvReq) :
    (s.keepReq b).pending = s.pending ∧ (s.keepReq b).tick = s.tick ∧ (s.keepReq b).objs = s.objs := by
  simp [State.keepReq]

@[simp] theorem State.crownByIdle_frame (s : State) :
    (s.crownByIdle).pending = s.pending ∧ (s.crownByIdle).tick = s.tick ∧ (s.crownByIdle).objs = s.objs := by
  simp [State.crownByIdle, apply_ite State.pending, apply_ite State.tick, apply_ite State.objs]

@[simp] theorem State.takeReqs_frame (rs : List ConvReq) (made : Bool) (s : State) :
    (State.takeReqs rs made s).pending = s.pending ∧ (State.takeReqs rs made s).tick = s.tick := by
  induction rs generalizing made s with
  | nil => simp [State.takeReqs]
  | cons r rs ih =>
    unfold State.takeReqs
    dsimp only
    repeat' (first | split | (apply And.intro) | simp [ih])

@[simp] theorem State.answerAll_frame (s : State) (b : List ConvReq) :
    (s.answerAll b).pending = s.pending ∧ (s.answerAll b).tick = s.tick ∧ (s.answerAll b).objs = s.objs := by
  simp [State.answerAll]

@[simp] theorem State.goPr_frame (s : State) :
    (s.goPr).pending = s.pending ∧ (s.goPr).tick = s.tick := by
  unfold State.goPr State.splitReqs
  simp

@[simp] theorem State.goScs_frame (s : State) :
    (s.goScs).pending = s.pending ∧ (s.goScs).tick = s.tick := by
  unfold State.goScs State.splitReqs
  simp

@[simp] theorem State.resolve_frame (s : State) :
    (s.resolve).pending = s.pending ∧ (s.resolve).tick = s.tick := by
  unfold State.resolve; (repeat' split) <;> simp

@[simp] theorem State.convRequest_frame (s : State) (b : ConvReq) :
    (s.convRequest b).pending = s.pending ∧ (s.convRequest b).tick = s.tick ∧ (s.convRequest b).objs = s.objs := by
  unfold State.convRequest; split <;> simp

@[simp] theorem State.prechargeDone_frame (s : State) :
    (s.prechargeDone).pending = s.pending ∧ (s.prechargeDone).tick = s.tick := by
  simp [State.prechargeDone, apply_ite State.pending, apply_ite State.tick]

@[simp] theorem State.settle_frame (s : State) (b : Bool) :
    (s.settle b).pending = s.pending ∧ (s.settle b).tick = s.tick := by
  simp [State.settle, apply_ite State.pending, apply_ite State.tick]

@[simp] theorem State.recharge_frame (s : State) :
    (s.recharge).pending = s.pending ∧ (s.recharge).tick = s.tick ∧ (s.recharge).objs = s.objs := by
  simp [State.recharge]

@[simp] theorem State.feedPresent_frame (s : State) (b : Bool) (c : Nat) (d : Nat) :
    (s.feedPresent b c d).pending = s.pending ∧ (s.feedPresent b c d).tick = s.tick ∧ (s.feedPresent b c d).objs = s.objs := by
  simp [State.feedPresent, apply_ite State.pending, apply_ite State.tick, apply_ite State.objs]

@[simp] theorem State.feedsLostBoth_frame (s : State) :
    (s.feedsLostBoth).pending = s.pending ∧ (s.feedsLostBoth).tick = s.tick ∧ (s.feedsLostBoth).objs = s.objs := by
  simp [State.feedsLostBoth, apply_ite State.pending, apply_ite State.tick, apply_ite State.objs]

@[simp] theorem State.feedAbsent_frame (s : State) (b : Bool) (c : Nat) (d : Nat) (e : Nat) :
    (s.feedAbsent b c d e).pending = s.pending ∧ (s.feedAbsent b c d e).tick = s.tick ∧ (s.feedAbsent b c d e).objs = s.objs := by
  simp [State.feedAbsent, apply_ite State.pending, apply_ite State.tick, apply_ite State.objs]

@[simp] theorem State.feedLossPr_frame (s : State) :
    (s.feedLossPr).pending = s.pending ∧ (s.feedLossPr).tick = s.tick ∧ (s.feedLossPr).objs = s.objs := by
  simp [State.feedLossPr, apply_ite State.pending, apply_ite State.tick, apply_ite State.objs]

@[simp] theorem State.feedResult_frame (s : State) (b : Bool) (c : Nat) (d : Nat) (e : Nat) (f : Nat) :
    (s.feedResult b c d e f).pending = s.pending ∧ (s.feedResult b c d e f).tick = s.tick ∧ (s.feedResult b c d e f).objs = s.objs := by
  simp [State.feedResult]

@[simp] theorem State.feedNext_frame (s : State) (b : Nat) (c : List Bool) :
    (s.feedNext b c).pending = s.pending ∧ (s.feedNext b c).tick = s.tick ∧ (s.feedNext b c).objs = s.objs := by
  induction c generalizing s with
  | nil => simp [State.feedNext]
  | cons x xs ih =>
    unfold State.feedNext
    split <;> simp [ih]

@[simp] theorem State.testReturn_frame (s : State) (b : Bool) (c d : Nat) (e : Bool) :
    (s.testReturn b c d e).pending = s.pending ∧ (s.testReturn b c d e).tick = s.tick ∧ (s.testReturn b c d e).objs = s.objs := by
  unfold State.testReturn; dsimp only; (repeat' split) <;> simp

@[simp] theorem State.feedTestDone_frame (s : State) (b : Nat) (c : Nat) :
    (s.feedTestDone b c).pending = s.pending ∧ (s.feedTestDone b c).tick = s.tick ∧ (s.feedTestDone b c).objs = s.objs := by
  unfold State.feedTestDone; (repeat' split) <;> simp [apply_ite State.pending, apply_ite State.tick, apply_ite State.objs]

@[simp] theorem State.feedRecovery_frame (s : State) (b : Nat) :
    (s.feedRecovery b).pending = s.pending ∧ (s.feedRecovery b).tick = s.tick ∧ (s.feedRecovery b).objs = s.objs := by
  simp [State.feedRecovery, apply_ite State.pending, apply_ite State.tick, apply_ite State.objs]

@[simp] theorem State.feedStartup_frame (s : State) :
    (s.feedStartup).pending = s.pending ∧ (s.feedStartup).tick = s.tick ∧ (s.feedStartup).objs = s.objs := by
  simp [State.feedStartup, apply_ite State.pending, apply_ite State.tick, apply_ite State.objs]

@[simp] theorem State.feedTestStart_frame (s : State) (b : Nat) :
    (s.feedTestStart b).pending = s.pending ∧ (s.feedTestStart b).tick = s.tick ∧ (s.feedTestStart b).objs = s.objs := by
  simp [State.feedTestStart]

@[simp] theorem State.psReply_frame (s : State) (b : Reply) (c : Ans) :
    (s.psReply b c).pending = s.pending ∧ (s.psReply b c).tick = s.tick ∧ (s.psReply b c).objs = s.objs := by
  simp [State.psReply]

@[simp] theorem State.levelStart_frame (s : State) (b : Reply) (c : Nat) :
    (s.levelStart b c).pending = s.pending ∧ (s.levelStart b c).tick = s.tick ∧ (s.levelStart b c).objs = s.objs := by
  unfold State.levelStart; (repeat' split) <;> simp

@[simp] theorem State.levelTo_frame (s : State) (b : Nat) :
    (s.levelTo b).pending = s.pending ∧ (s.levelTo b).tick = s.tick ∧ (s.levelTo b).objs = s.objs := by
  simp [State.levelTo, apply_ite State.pending, apply_ite State.tick, apply_ite State.objs]

@[simp] theorem State.answerEach_frame (xs : List (Reply × Nat)) (s : State) :
    (s.answerEach xs).pending = s.pending ∧ (s.answerEach xs).tick = s.tick ∧ (s.answerEach xs).objs = s.objs := by
  induction xs generalizing s with
  | nil => simp [State.answerEach]
  | cons x xs ih => obtain ⟨r, level⟩ := x; simp only [State.answerEach]; split <;> simp [ih]

@[simp] theorem State.wakeAnswer_frame (s : State) :
    (s.wakeAnswer).pending = s.pending ∧ (s.wakeAnswer).tick = s.tick ∧ (s.wakeAnswer).objs = s.objs := by
  simp [State.wakeAnswer]

@[simp] theorem State.levelEdge_frame (s : State) :
    (s.levelEdge).pending = s.pending ∧ (s.levelEdge).tick = s.tick ∧ (s.levelEdge).objs = s.objs := by
  unfold State.levelEdge; (repeat' split) <;> simp

@[simp] theorem State.resumeTick_frame (s : State) (b : Nat) :
    (s.resumeTick b).pending = s.pending ∧ (s.resumeTick b).objs = s.objs := by
  simp [State.resumeTick, apply_ite State.pending, apply_ite State.objs]

@[simp] theorem State.timeAfterSleep_frame (s : State) (b : Nat) :
    (s.timeAfterSleep b).pending = s.pending ∧ (s.timeAfterSleep b).tick = s.tick ∧ (s.timeAfterSleep b).objs = s.objs := by
  simp [State.timeAfterSleep, apply_ite State.pending, apply_ite State.tick, apply_ite State.objs]

@[simp] theorem State.lanesWake_frame (s : State) :
    (s.lanesWake).pending = s.pending ∧ (s.lanesWake).tick = s.tick ∧ (s.lanesWake).objs = s.objs := by
  simp [State.lanesWake, apply_ite State.pending, apply_ite State.tick, apply_ite State.objs]

@[simp] theorem State.relocked_frame (s : State) (b : Nat) :
    (s.relocked b).pending = s.pending ∧ (s.relocked b).objs = s.objs := by
  simp [State.relocked]

@[simp] theorem State.anaChecked_frame (s : State) (b : StartFlags) :
    (s.anaChecked b).pending = s.pending ∧ (s.anaChecked b).tick = s.tick ∧ (s.anaChecked b).objs = s.objs := by
  simp [State.anaChecked]

@[simp] theorem State.fastChecked_frame (s : State) (b : StartFlags) :
    (s.fastChecked b).pending = s.pending ∧ (s.fastChecked b).tick = s.tick ∧ (s.fastChecked b).objs = s.objs := by
  simp [State.fastChecked]

@[simp] theorem State.startEnds_frame (s : State) :
    (s.startEnds).pending = s.pending ∧ (s.startEnds).tick = s.tick ∧ (s.startEnds).objs = s.objs := by
  simp [State.startEnds]

@[simp] theorem State.startOk_frame (s : State) (b : Nat) (c : StartFlags) (d : Nat) :
    (s.startOk b c d).pending = s.pending ∧ (s.startOk b c d).objs = s.objs := by
  unfold State.startOk; dsimp only; (repeat' split) <;> simp

@[simp] theorem State.startFails_frame (s : State) (b : Nat) (c : Nat) :
    (s.startFails b c).pending = s.pending ∧ (s.startFails b c).tick = s.tick ∧ (s.startFails b c).objs = s.objs := by
  unfold State.startFails
  dsimp only
  repeat' (first | split | (apply And.intro) | simp [*, apply_ite State.pending, apply_ite State.tick, apply_ite State.objs])

@[simp] theorem State.selectRef_frame (s : State) :
    (s.selectRef).pending = s.pending ∧ (s.selectRef).tick = s.tick ∧ (s.selectRef).objs = s.objs := by
  unfold State.selectRef; dsimp only; split <;> simp

@[simp] theorem State.startSteps_frame (s : State) (b : Nat) (c : StartFlags) :
    (s.startSteps b c).pending = s.pending ∧ (s.startSteps b c).tick = s.tick ∧ (s.startSteps b c).objs = s.objs := by
  unfold State.startSteps; dsimp only; (repeat' split) <;> simp

@[simp] theorem State.startRun_frame (s : State) (b : Nat) (c : Nat) (d : StartFlags) (e : Nat) :
    (s.startRun b c d e).pending = s.pending ∧ (s.startRun b c d e).objs = s.objs := by
  unfold State.startRun; dsimp only; (repeat' split) <;> simp

@[simp] theorem State.wakeRetry_frame (s : State) (b : StartFlags) :
    (s.wakeRetry b).pending = s.pending ∧ (s.wakeRetry b).objs = s.objs := by
  simp [State.wakeRetry, apply_ite State.pending, apply_ite State.objs]

@[simp] theorem State.powerLost_pending (s : State) : s.powerLost.pending = s.pending := rfl

@[simp] theorem State.resetKept_frame (s : State) : s.resetKept.pending = s.pending ∧ s.resetKept.tick = s.tick := ⟨rfl, rfl⟩

@[simp] theorem State.resetAssert_frame (s : State) (b : Nat) :
    (s.resetAssert b).pending = s.pending ∧ (s.resetAssert b).tick = s.tick := by
  simp [State.resetAssert, apply_ite State.pending, apply_ite State.tick]

@[simp] theorem State.leaveReset_frame (s : State) :
    (s.leaveReset).pending = s.pending ∧ (s.leaveReset).tick = s.tick ∧ (s.leaveReset).objs = s.objs := by
  simp [State.leaveReset]

@[simp] theorem State.resetRelease_frame (s : State) (b : Nat) (c : Bool) (d : StartFlags) :
    (s.resetRelease b c d).pending = s.pending ∧ (s.resetRelease b c d).objs = s.objs := by
  simp [State.resetRelease, apply_ite State.pending, apply_ite State.objs]

@[simp] theorem State.powerUp_frame (s : State) (b : PowerOn) :
    (s.powerUp b).pending = s.pending ∧ (s.powerUp b).objs = s.objs := by
  simp [State.powerUp, apply_ite State.pending, apply_ite State.objs]

@[simp] theorem State.holdupExpired_pending (s : State) : s.holdupExpired.pending = s.pending := by
  simp [State.holdupExpired, apply_ite State.pending]

@[simp] theorem State.vanaOrder_frame (s : State) :
    (s.vanaOrder).pending = s.pending ∧ (s.vanaOrder).tick = s.tick ∧ (s.vanaOrder).objs = s.objs := by
  simp [State.vanaOrder, apply_ite State.pending, apply_ite State.tick, apply_ite State.objs]

@[simp] theorem State.sleepRefused_frame (s : State) (b : Reply) (c : Nat) (d : Byte) :
    (s.sleepRefused b c d).pending = s.pending ∧ (s.sleepRefused b c d).tick = s.tick ∧ (s.sleepRefused b c d).objs = s.objs := by
  simp [State.sleepRefused]

@[simp] theorem State.setEntry_frame (s : State) (b : Option SleepEntry) :
    (s.setEntry b).pending = s.pending ∧ (s.setEntry b).tick = s.tick ∧ (s.setEntry b).objs = s.objs := by
  simp [State.setEntry]

@[simp] theorem State.entryBegin_frame (s : State) (b : Reply) (c : Nat) :
    (s.entryBegin b c).pending = s.pending ∧ (s.entryBegin b c).tick = s.tick ∧ (s.entryBegin b c).objs = s.objs := by
  simp [State.entryBegin]

@[simp] theorem State.entryUndo_frame (s : State) (b : SleepEntry) :
    (s.entryUndo b).pending = s.pending ∧ (s.entryUndo b).tick = s.tick ∧ (s.entryUndo b).objs = s.objs := by
  simp [State.entryUndo, apply_ite State.pending, apply_ite State.tick, apply_ite State.objs]

@[simp] theorem State.entryAbort_frame (s : State) (b : SleepEntry) (c : Nat) (d : Byte) :
    (s.entryAbort b c d).pending = s.pending ∧ (s.entryAbort b c d).tick = s.tick ∧ (s.entryAbort b c d).objs = s.objs := by
  simp [State.entryAbort]

@[simp] theorem State.stopTick_frame (s : State) :
    (s.stopTick).pending = s.pending ∧ (s.stopTick).tick = s.tick ∧ (s.stopTick).objs = s.objs := by
  simp [State.stopTick]

@[simp] theorem State.wakeGo_frame (s : State) (b c : Nat) (d : StartFlags) :
    (s.wakeGo b c d).pending = s.pending ∧ (s.wakeGo b c d).tick = s.tick ∧ (s.wakeGo b c d).objs = s.objs := by
  unfold State.wakeGo; dsimp only; split <;> simp

@[simp] theorem State.wakeFailed_frame (s : State) (b c : Nat) :
    (s.wakeFailed b c).pending = s.pending ∧ (s.wakeFailed b c).tick = s.tick ∧ (s.wakeFailed b c).objs = s.objs := by
  unfold State.wakeFailed; dsimp only; split <;> simp

@[simp] theorem State.wakeStep_frame (s : State) (b : Waking) :
    (s.wakeStep b).pending = s.pending ∧ (s.wakeStep b).tick = s.tick ∧ (s.wakeStep b).objs = s.objs := by
  unfold State.wakeStep; (repeat' split) <;> simp

@[simp] theorem State.wakeEdge_frame (s : State) :
    (s.wakeEdge).pending = s.pending ∧ (s.wakeEdge).tick = s.tick ∧ (s.wakeEdge).objs = s.objs := by
  unfold State.wakeEdge; (repeat' split) <;> simp

@[simp] theorem State.holdHost_frame (s : State) (b : Reply) (c : Nat) :
    (s.holdHost b c).pending = s.pending ∧ (s.holdHost b c).tick = s.tick ∧ (s.holdHost b c).objs = s.objs := by
  simp [State.holdHost]

@[simp] theorem State.wakeUp_frame (s : State) (b : Nat) (c : StartFlags) :
    (s.wakeUp b c).pending = s.pending ∧ (s.wakeUp b c).objs = s.objs := by
  unfold State.wakeUp; dsimp only; (repeat' split) <;> simp

@[simp] theorem State.hostWake_frame (s : State) (b : Reply) (c : Nat) (d : StartFlags) :
    (s.hostWake b c d).pending = s.pending ∧ (s.hostWake b c d).objs = s.objs := by
  simp [State.hostWake]

@[simp] theorem State.wakeBy_frame (s : State) (b : Nat) (c : StartFlags) :
    (s.wakeBy b c).pending = s.pending ∧ (s.wakeBy b c).objs = s.objs := by
  unfold State.wakeBy; split <;> simp

@[simp] theorem State.wakeEvent_frame (s : State) (b : WakeFact) (c : StartFlags) :
    (s.wakeEvent b c).pending = s.pending ∧ (s.wakeEvent b c).objs = s.objs := by
  unfold State.wakeEvent; (repeat' split) <;> simp

@[simp] theorem State.wakeAgain_frame (s : State) (b : SleepEntry) :
    (s.wakeAgain b).pending = s.pending ∧ (s.wakeAgain b).objs = s.objs := by
  unfold State.wakeAgain; (repeat' split) <;> simp

@[simp] theorem State.entryOff_frame (s : State) (b : Nat) :
    (s.entryOff b).pending = s.pending ∧ (s.entryOff b).tick = s.tick ∧ (s.entryOff b).objs = s.objs := by
  unfold State.entryOff; dsimp only; (repeat' split) <;> simp

@[simp] theorem State.entryDone_frame (s : State) (b : SleepEntry) :
    (s.entryDone b).pending = s.pending ∧ (s.entryDone b).objs = s.objs := by
  unfold State.entryDone; dsimp only; split <;> simp

@[simp] theorem State.entryStep_frame (s : State) (b : SleepEntry) :
    (s.entryStep b).pending = s.pending ∧ (s.entryStep b).objs = s.objs := by
  unfold State.entryStep; (repeat' split) <;> simp [apply_ite State.pending, apply_ite State.objs]

@[simp] theorem State.entryEdge_frame (s : State) :
    (s.entryEdge).pending = s.pending ∧ (s.entryEdge).objs = s.objs := by
  unfold State.entryEdge; (repeat' split) <;> simp

@[simp] theorem State.entryBound_frame (s : State) (b : SleepEntry) :
    (s.entryBound b).pending = s.pending ∧ (s.entryBound b).tick = s.tick ∧ (s.entryBound b).objs = s.objs := by
  simp [State.entryBound]

@[simp] theorem State.pstateReq_frame (s : State) (b : Reply) (c : Nat) (d : Nat) (e : StartFlags) :
    (s.pstateReq b c d e).pending = s.pending ∧ (s.pstateReq b c d e).objs = s.objs := by
  unfold State.pstateReq; (repeat' split) <;> simp

@[simp] theorem State.clearRos_frame (s : State) (b : Nat) :
    (s.clearRos b).pending = s.pending ∧ (s.clearRos b).tick = s.tick ∧ (s.clearRos b).objs = s.objs := by
  simp [State.clearRos, apply_ite State.pending, apply_ite State.tick, apply_ite State.objs]

@[simp] theorem State.readmit_frame (s : State) (b : Nat) :
    (s.readmit b).pending = s.pending ∧ (s.readmit b).tick = s.tick ∧ (s.readmit b).objs = s.objs := by
  simp [State.readmit, apply_ite State.pending, apply_ite State.tick, apply_ite State.objs]

@[simp] theorem State.actionDo_frame (s : State) (b : Nat) (c : Int) :
    (s.actionDo b c).pending = s.pending ∧ (s.actionDo b c).tick = s.tick ∧ (s.actionDo b c).objs = s.objs := by
  simp [State.actionDo, apply_ite State.pending, apply_ite State.tick, apply_ite State.objs]

@[simp] theorem State.actionRefused_frame (s : State) (b : Nat) :
    (s.actionRefused b).pending = s.pending ∧ (s.actionRefused b).tick = s.tick ∧ (s.actionRefused b).objs = s.objs := by
  simp [State.actionRefused, apply_ite State.pending, apply_ite State.tick, apply_ite State.objs]

@[simp] theorem State.itemDo_frame (s : State) (b : Nat) (c : Item) :
    (s.itemDo b c).pending = s.pending ∧ (s.itemDo b c).tick = s.tick := by
  unfold State.itemDo; split <;> simp

@[simp] theorem State.itemsDo_frame (s : State) (b : List Item) (c : Option (Nat × Nat)) :
    (s.itemsDo b c).pending = s.pending ∧ (s.itemsDo b c).tick = s.tick := by
  unfold State.itemsDo; split <;> simp

@[simp] theorem State.applyGroup_frame (s : State) (b : Group) :
    (s.applyGroup b).pending = s.pending ∧ (s.applyGroup b).tick = s.tick := by
  unfold State.applyGroup; split <;> simp

@[simp] theorem State.groupStep_frame (s : State) :
    (s.groupStep).pending = s.pending ∧ (s.groupStep).tick = s.tick := by
  unfold State.groupStep; split <;> simp

@[simp] theorem State.takeSlotOf_frame (s : State) :
    (s.takeSlotOf).pending = s.pending ∧ (s.takeSlotOf).tick = s.tick ∧ (s.takeSlotOf).objs = s.objs := by
  simp [State.takeSlotOf]

@[simp] theorem State.schedGroup_frame (s : State) (b c : Nat) (d : Lateness) (e : List Item) (f : Option (Nat × Nat)) :
    (s.schedGroup b c d e f).pending = s.pending ∧ (s.schedGroup b c d e f).tick = s.tick := by
  unfold State.schedGroup
  first | (simp [apply_ite State.pending, apply_ite State.tick]; done) | (repeat' split) <;> simp [apply_ite State.pending, apply_ite State.tick]

@[simp] theorem State.schedAct_frame (s : State) (b : Nat) (c : Action) :
    (s.schedAct b c).pending = s.pending ∧ (s.schedAct b c).tick = s.tick := by
  unfold State.schedAct
  dsimp only
  repeat' (first | split | (apply And.intro) | simp [State.handsBegin, apply_ite State.pending, apply_ite State.tick])

@[simp] theorem State.schedDue_frame (s : State) :
    (s.schedDue).pending = s.pending ∧ (s.schedDue).tick = s.tick := by
  unfold State.schedDue; (repeat' split) <;> simp [apply_ite State.pending, apply_ite State.tick]

@[simp] theorem State.migrateEnd_frame (s : State) :
    (s.migrateEnd).pending = s.pending ∧ (s.migrateEnd).tick = s.tick := by
  unfold State.migrateEnd; split <;> simp

@[simp] theorem State.swapStep_frame (s : State) :
    (s.swapStep).pending = s.pending ∧ (s.swapStep).tick = s.tick ∧ (s.swapStep).objs = s.objs := by
  unfold State.swapStep; (repeat' split) <;> simp

@[simp] theorem State.regReadDo_frame (s : State) (b : Word) (c : Word) (d : Nat) :
    (s.regReadDo b c d).pending = s.pending ∧ (s.regReadDo b c d).tick = s.tick ∧ (s.regReadDo b c d).objs = s.objs := by
  unfold State.regReadDo
  dsimp only
  repeat' (first | split | (apply And.intro) | simp [*, apply_ite State.pending, apply_ite State.tick, apply_ite State.objs])

@[simp] theorem State.regRead_frame (s : State) (b : Word) (c : FrameNo) (d : Word) (e : Nat) :
    (s.regRead b c d e).pending = s.pending ∧ (s.regRead b c d e).tick = s.tick ∧ (s.regRead b c d e).objs = s.objs := by
  simp [State.regRead, apply_ite State.pending, apply_ite State.tick, apply_ite State.objs]

@[simp] theorem State.doorbell_frame (s : State) (b : Session) (c : Nat) :
    (s.doorbell b c).pending = s.pending ∧ (s.doorbell b c).tick = s.tick ∧ (s.doorbell b c).objs = s.objs := by
  simp [State.doorbell, apply_ite State.pending, apply_ite State.tick, apply_ite State.objs]

@[simp] theorem State.regWrite_frame (s : State) (b : Word) (c : FrameNo) (d : Word) (e : Nat) :
    (s.regWrite b c d e).pending = s.pending ∧ (s.regWrite b c d e).tick = s.tick ∧ (s.regWrite b c d e).objs = s.objs := by
  simp [State.regWrite, apply_ite State.pending, apply_ite State.tick, apply_ite State.objs]


@[simp] theorem State.readEntry_frame (s : State) (i : Nat) : ((s.readEntry i).1).pending = s.pending ∧ ((s.readEntry i).1).tick = s.tick ∧ ((s.readEntry i).1).objs = s.objs := by
  unfold State.readEntry
  dsimp only
  split
  · simp
  split <;> simp

theorem State.readAll_frame (s : State) (is : List Nat) (bs : List Byte) : ((s.readAll is bs).1).pending = s.pending ∧ ((s.readAll is bs).1).tick = s.tick ∧ ((s.readAll is bs).1).objs = s.objs := by
  induction is generalizing s bs with
  | nil => simp [State.readAll]
  | cons i is ih =>
    unfold State.readAll
    dsimp only
    split
    · simp [ih]
    · simp

@[simp] theorem State.startObjRead_frame (s : State) (b : Reply) (c : List (BitVec 16)) :
    (s.startObjRead b c).pending = s.pending ∧ (s.startObjRead b c).tick = s.tick ∧ (s.startObjRead b c).objs = s.objs := by
  unfold State.startObjRead
  split
  · simp
  · have h := State.readAll_frame s (c.map (·.toNat)) []
    simp [h]

@[simp] theorem State.entryRefused_frame (s : State) (b : Nat) (c : Ans) :
    (s.entryRefused b c).pending = s.pending ∧ (s.entryRefused b c).tick = s.tick ∧ (s.entryRefused b c).objs = s.objs := by
  simp [State.entryRefused, apply_ite State.pending, apply_ite State.tick, apply_ite State.objs]

@[simp] theorem State.queueGroup_frame (s : State) (b : Reply) (c : List Item) (d : Bool) (e : Option (Nat × Nat)) :
    (s.queueGroup b c d e).pending = s.pending ∧ (s.queueGroup b c d e).tick = s.tick ∧ (s.queueGroup b c d e).objs = s.objs := by
  simp [State.queueGroup]

@[simp] theorem State.startObjWrite_frame (s : State) (b : Reply) (c : ObjEntry) :
    (s.startObjWrite b c).pending = s.pending ∧ (s.startObjWrite b c).tick = s.tick ∧ (s.startObjWrite b c).objs = s.objs := by
  unfold State.startObjWrite
  dsimp only
  repeat' (first | split | (apply And.intro) | simp [*, apply_ite State.pending, apply_ite State.tick, apply_ite State.objs])

@[simp] theorem State.waitEntries_frame (s : State) (b : List ObjEntry) :
    (s.waitEntries b).pending = s.pending ∧ (s.waitEntries b).tick = s.tick ∧ (s.waitEntries b).objs = s.objs := by
  simp [State.waitEntries]

@[simp] theorem State.startObjWriteSet_frame (s : State) (b : Reply) (c : SchedKey) (d : List ObjEntry) :
    (s.startObjWriteSet b c d).pending = s.pending ∧ (s.startObjWriteSet b c d).tick = s.tick ∧ (s.startObjWriteSet b c d).objs = s.objs := by
  unfold State.startObjWriteSet; (repeat' split) <;> simp

@[simp] theorem State.takeFragment_frame (s : State) (b : Reply) (c : Transfer) (d : Fragment) :
    (s.takeFragment b c d).pending = s.pending ∧ (s.takeFragment b c d).tick = s.tick ∧ (s.takeFragment b c d).objs = s.objs := by
  simp [State.takeFragment, apply_ite State.pending, apply_ite State.tick, apply_ite State.objs]

@[simp] theorem State.startTableLoad_frame (s : State) (b : Reply) (c : Fragment) :
    (s.startTableLoad b c).pending = s.pending ∧ (s.startTableLoad b c).tick = s.tick ∧ (s.startTableLoad b c).objs = s.objs := by
  unfold State.startTableLoad
  dsimp only
  repeat' (first | split | (apply And.intro) | simp [*, apply_ite State.pending, apply_ite State.tick, apply_ite State.objs])

@[simp] theorem State.startTableSwap_frame (s : State) (b : Reply) (c : SchedKey) :
    (s.startTableSwap b c).pending = s.pending ∧ (s.startTableSwap b c).tick = s.tick ∧ (s.startTableSwap b c).objs = s.objs := by
  unfold State.startTableSwap; (repeat' split) <;> simp

@[simp] theorem State.releaseGroups_frame (s : State) (b : List Group) :
    (s.releaseGroups b).pending = s.pending ∧ (s.releaseGroups b).tick = s.tick := by
  simp [State.releaseGroups]

@[simp] theorem State.retest_frame (s : State) (b : Reply) (c : Nat) :
    (s.retest b c).pending = s.pending ∧ (s.retest b c).tick = s.tick := by
  simp [State.retest, apply_ite State.pending, apply_ite State.tick]

@[simp] theorem State.startEngineSpare_frame (s : State) (b : Reply) (c : Nat) (d : Nat) :
    (s.startEngineSpare b c d).pending = s.pending ∧ (s.startEngineSpare b c d).tick = s.tick := by
  unfold State.startEngineSpare; (repeat' split) <;> simp

@[simp] theorem State.startConvState_frame (s : State) (b : Reply) (c : SchedKey) (d : Nat) :
    (s.startConvState b c d).pending = s.pending ∧ (s.startConvState b c d).tick = s.tick ∧ (s.startConvState b c d).objs = s.objs := by
  unfold State.startConvState; (repeat' split) <;> simp

@[simp] theorem State.startHandsTarget_frame (s : State) (b : Reply) (c : SchedKey) (d : Nat) (e : Nat) (f : List Int) :
    (s.startHandsTarget b c d e f).pending = s.pending ∧ (s.startHandsTarget b c d e f).tick = s.tick ∧ (s.startHandsTarget b c d e f).objs = s.objs := by
  unfold State.startHandsTarget
  dsimp only
  repeat' (first | split | (apply And.intro) | simp [State.handsBegin, apply_ite State.pending, apply_ite State.tick, apply_ite State.objs])

@[simp] theorem State.startSetting_frame (s : State) (b : Reply) :
    (s.startSetting b).pending = s.pending ∧ (s.startSetting b).tick = s.tick ∧ (s.startSetting b).objs = s.objs := by
  unfold State.startSetting; split <;> simp

@[simp] theorem State.chronoArm_frame (s : State) (b : Reply) (c : Bool) (d : Bool) :
    (s.chronoArm b c d).pending = s.pending ∧ (s.chronoArm b c d).tick = s.tick ∧ (s.chronoArm b c d).objs = s.objs := by
  simp [State.chronoArm, apply_ite State.pending, apply_ite State.tick, apply_ite State.objs]

@[simp] theorem State.chronoDisarm_frame (s : State) (b : Reply) (c : Bool) :
    (s.chronoDisarm b c).pending = s.pending ∧ (s.chronoDisarm b c).tick = s.tick ∧ (s.chronoDisarm b c).objs = s.objs := by
  simp [State.chronoDisarm, apply_ite State.pending, apply_ite State.tick, apply_ite State.objs]

@[simp] theorem State.startChronoArm_frame (s : State) (b : Reply) (c : Byte) :
    (s.startChronoArm b c).pending = s.pending ∧ (s.startChronoArm b c).tick = s.tick ∧ (s.startChronoArm b c).objs = s.objs := by
  simp [State.startChronoArm, apply_ite State.pending, apply_ite State.tick, apply_ite State.objs]

@[simp] theorem State.startChronoRead_frame (s : State) (b : Reply) (c : Nat) (d : Nat) (e : Nat) (f : Nat) (g : Nat) :
    (s.startChronoRead b c d e f g).pending = s.pending ∧ (s.startChronoRead b c d e f g).tick = s.tick ∧ (s.startChronoRead b c d e f g).objs = s.objs := by
  unfold State.startChronoRead; (repeat' split) <;> simp

@[simp] theorem State.startLogRead_frame (s : State) (b : Reply) (c : Nat) (d : Nat) (e : Nat) :
    (s.startLogRead b c d e).pending = s.pending ∧ (s.startLogRead b c d e).tick = s.tick ∧ (s.startLogRead b c d e).objs = s.objs := by
  simp [State.startLogRead, apply_ite State.pending, apply_ite State.tick, apply_ite State.objs]

@[simp] theorem State.startFwBegin_frame (s : State) (b : Reply) (c : Nat) (d : Nat) :
    (s.startFwBegin b c d).pending = s.pending ∧ (s.startFwBegin b c d).tick = s.tick ∧ (s.startFwBegin b c d).objs = s.objs := by
  simp [State.startFwBegin, apply_ite State.pending, apply_ite State.tick, apply_ite State.objs]

@[simp] theorem State.startFwData_frame (s : State) (b : Reply) (c : Nat) (d : List Byte) :
    (s.startFwData b c d).pending = s.pending ∧ (s.startFwData b c d).tick = s.tick ∧ (s.startFwData b c d).objs = s.objs := by
  unfold State.startFwData; (repeat' split) <;> simp [apply_ite State.pending, apply_ite State.tick, apply_ite State.objs]

@[simp] theorem State.startFwEnd_frame (s : State) (b : Reply) :
    (s.startFwEnd b).pending = s.pending ∧ (s.startFwEnd b).tick = s.tick ∧ (s.startFwEnd b).objs = s.objs := by
  unfold State.startFwEnd; (repeat' split) <;> simp

@[simp] theorem State.startFwActivate_frame (s : State) (b : Reply) (c : Nat) :
    (s.startFwActivate b c).pending = s.pending ∧ (s.startFwActivate b c).tick = s.tick ∧ (s.startFwActivate b c).objs = s.objs := by
  unfold State.startFwActivate; (repeat' split) <;> simp

@[simp] theorem State.supStarted_frame (s : State) :
    (s.supStarted).pending = s.pending ∧ (s.supStarted).tick = s.tick ∧ (s.supStarted).objs = s.objs := by
  simp [State.supStarted, apply_ite State.pending, apply_ite State.tick, apply_ite State.objs]

@[simp] theorem State.supWatchdog_frame (s : State) :
    (s.supWatchdog).pending = s.pending ∧ (s.supWatchdog).tick = s.tick ∧ (s.supWatchdog).objs = s.objs := by
  simp [State.supWatchdog, apply_ite State.pending, apply_ite State.tick, apply_ite State.objs]

@[simp] theorem State.fwFallback_frame (s : State) :
    (s.fwFallback).pending = s.pending ∧ (s.fwFallback).tick = s.tick ∧ (s.fwFallback).objs = s.objs := by
  unfold State.fwFallback; (repeat' split) <;> simp


@[simp] theorem State.sessionOpen_frame (s : State) : ((s.sessionOpen).1).pending = s.pending ∧ ((s.sessionOpen).1).tick = s.tick ∧ ((s.sessionOpen).1).objs = s.objs := by
  unfold State.sessionOpen
  repeat' (first | split | (apply And.intro) | simp)

@[simp] theorem State.sessionCommit_frame (s : State) (c : Word) : ((s.sessionCommit c).1).pending = s.pending ∧ ((s.sessionCommit c).1).tick = s.tick ∧ ((s.sessionCommit c).1).objs = s.objs := by
  unfold State.sessionCommit
  repeat' (first | split | (apply And.intro) | simp)

@[simp] theorem State.sessionClose_frame (s : State) : ((s.sessionClose).1).pending = s.pending ∧ ((s.sessionClose).1).tick = s.tick ∧ ((s.sessionClose).1).objs = s.objs := by
  unfold State.sessionClose
  repeat' (first | split | (apply And.intro) | simp)


@[simp] theorem State.startSession_frame (s : State) (b : Reply) (c : Nat) (d : Word) :
    (s.startSession b c d).pending = s.pending ∧ (s.startSession b c d).tick = s.tick ∧ (s.startSession b c d).objs = s.objs := by
  unfold State.startSession
  repeat' (first | split | (apply And.intro) | simp)

@[simp] theorem State.perform_frame (s : State) (b : Reply) (c : HostCmd) :
    (s.perform b c).pending = s.pending := by
  unfold State.perform; split <;> simp

@[simp] theorem State.startCmd_frame (s : State) (b : Reply) (c : HostCmd) :
    (s.startCmd b c).pending = s.pending := by
  simp [State.startCmd, apply_ite State.pending]

@[simp] theorem State.startNext_frame (s : State) (b : Nat) :
    (s.startNext b).pending = s.pending := by
  unfold State.startNext; split <;> simp

@[simp] theorem State.turn_frame (s : State) :
    (s.turn).pending = s.pending := by
  simp [State.turn, apply_ite State.pending]

@[simp] theorem State.pump_frame (s : State) :
    (s.pump).pending = s.pending := by
  simp [State.pump]

@[simp] theorem State.resend_frame (s : State) (b : UnackedAt) :
    (s.resend b).pending = s.pending ∧ (s.resend b).tick = s.tick ∧ (s.resend b).objs = s.objs := by
  unfold State.resend; split <;> simp

@[simp] theorem State.discardResp_frame (s : State) (b : Nat) :
    (s.discardResp b).pending = s.pending ∧ (s.discardResp b).tick = s.tick ∧ (s.discardResp b).objs = s.objs := by
  unfold State.discardResp; split <;> simp

@[simp] theorem State.cmdBound_frame (s : State) (b : Nat) :
    (s.cmdBound b).pending = s.pending ∧ (s.cmdBound b).tick = s.tick ∧ (s.cmdBound b).objs = s.objs := by
  unfold State.cmdBound; (repeat' split) <;> simp

@[simp] theorem State.clearOut_frame (s : State) :
    (s.clearOut).pending = s.pending ∧ (s.clearOut).tick = s.tick ∧ (s.clearOut).objs = s.objs := by
  simp [State.clearOut]

@[simp] theorem State.unlessReset_pending (s : State) (f : State → State) (h : (f s.clearOut).pending = s.pending) : (s.unlessReset f).pending = s.pending := by
  unfold State.unlessReset; split
  · rfl
  · exact h

@[simp] theorem State.unlessReset_tick (s : State) (f : State → State) (h : (f s.clearOut).tick = s.tick) : (s.unlessReset f).tick = s.tick := by
  unfold State.unlessReset; split
  · rfl
  · exact h

@[simp] theorem State.unlessReset_objs (s : State) (f : State → State) (h : (f s.clearOut).objs = s.objs) : (s.unlessReset f).objs = s.objs := by
  unfold State.unlessReset; split
  · rfl
  · exact h


@[simp] theorem State.whenDue_pending (s : State) (b : Bool) (f : State → State) (h : (f s).pending = s.pending) : (s.whenDue b f).pending = s.pending := by
  unfold State.whenDue; split <;> simp [h]

@[simp] theorem State.whenDue_tick (s : State) (b : Bool) (f : State → State) (h : (f s).tick = s.tick) : (s.whenDue b f).tick = s.tick := by
  unfold State.whenDue; split <;> simp [h]

@[simp] theorem State.whenDue_objs (s : State) (b : Bool) (f : State → State) (h : (f s).objs = s.objs) : (s.whenDue b f).objs = s.objs := by
  unfold State.whenDue; split <;> simp [h]


@[simp] theorem State.windowStarts_frame (o : State) (s : State) :
    (o.windowStarts s).pending = s.pending ∧ (o.windowStarts s).tick = s.tick := by
  simp [State.windowStarts, apply_ite State.pending, apply_ite State.tick]

@[simp] theorem State.frtBegin_frame (s : State) :
    (s.frtBegin).pending = s.pending ∧ (s.frtBegin).tick = s.tick ∧ (s.frtBegin).objs = s.objs := by
  simp [State.frtBegin]

@[simp] theorem State.frtEnd_frame (s : State) :
    (s.frtEnd).pending = s.pending ∧ (s.frtEnd).tick = s.tick ∧ (s.frtEnd).objs = s.objs := by
  simp [State.frtEnd]

@[simp] theorem State.dcfRearm_frame (s : State) :
    (s.dcfRearm).pending = s.pending ∧ (s.dcfRearm).tick = s.tick ∧ (s.dcfRearm).objs = s.objs := by
  simp [State.dcfRearm]

@[simp] theorem State.dcfEnd_frame (s : State) :
    (s.dcfEnd).pending = s.pending ∧ (s.dcfEnd).tick = s.tick ∧ (s.dcfEnd).objs = s.objs := by
  simp [State.dcfEnd]

@[simp] theorem State.enrgEnd_frame (s : State) :
    (s.enrgEnd).pending = s.pending ∧ (s.enrgEnd).tick = s.tick ∧ (s.enrgEnd).objs = s.objs := by
  simp [State.enrgEnd]

@[simp] theorem State.gtCoast_frame (s : State) :
    (s.gtCoast).pending = s.pending ∧ (s.gtCoast).tick = s.tick ∧ (s.gtCoast).objs = s.objs := by
  simp [State.gtCoast, apply_ite State.pending, apply_ite State.tick, apply_ite State.objs]

@[simp] theorem State.gtAcquire_frame (s : State) :
    (s.gtAcquire).pending = s.pending ∧ (s.gtAcquire).tick = s.tick ∧ (s.gtAcquire).objs = s.objs := by
  simp [State.gtAcquire]

@[simp] theorem State.cellStale_frame (s : State) (b : Nat) :
    (s.cellStale b).pending = s.pending ∧ (s.cellStale b).tick = s.tick ∧ (s.cellStale b).objs = s.objs := by
  simp [State.cellStale, apply_ite State.pending, apply_ite State.tick, apply_ite State.objs]

@[simp] theorem State.permitGiven_frame (s : State) :
    (s.permitGiven).pending = s.pending ∧ (s.permitGiven).tick = s.tick ∧ (s.permitGiven).objs = s.objs := by
  simp [State.permitGiven]

@[simp] theorem State.limOnSetting_frame (s : State) (b : Nat) :
    (s.limOnSetting b).pending = s.pending ∧ (s.limOnSetting b).tick = s.tick ∧ (s.limOnSetting b).objs = s.objs := by
  simp [State.limOnSetting, apply_ite State.pending, apply_ite State.tick, apply_ite State.objs]

@[simp] theorem State.limChanged_frame (s : State) (b : Nat) (c : Bool) :
    (s.limChanged b c).pending = s.pending ∧ (s.limChanged b c).tick = s.tick ∧ (s.limChanged b c).objs = s.objs := by
  simp [State.limChanged, apply_ite State.pending, apply_ite State.tick, apply_ite State.objs]

@[simp] theorem State.limEdge_frame (s : State) (b : Nat) (c : Bool) (d : Nat) :
    (s.limEdge b c d).pending = s.pending ∧ (s.limEdge b c d).tick = s.tick ∧ (s.limEdge b c d).objs = s.objs := by
  simp [State.limEdge, apply_ite State.pending, apply_ite State.tick, apply_ite State.objs]

@[simp] theorem State.tripWake_frame (o : State) (b : Nat) (s : State) :
    (o.tripWake b s).pending = s.pending ∧ (o.tripWake b s).tick = s.tick ∧ (o.tripWake b s).objs = s.objs := by
  simp [State.tripWake, apply_ite State.pending, apply_ite State.tick, apply_ite State.objs]


@[simp] theorem State.sessionIdle_frame (s : State) (b : Word) (c : Nat) :
    (s.sessionIdle b c).pending = s.pending ∧ (s.sessionIdle b c).tick = s.tick ∧ (s.sessionIdle b c).objs = s.objs := by
  simp [State.sessionIdle, apply_ite State.pending, apply_ite State.tick, apply_ite State.objs]

@[simp] theorem State.vanaWake_frame (o : State) (s : State) :
    (o.vanaWake s).pending = s.pending ∧ (o.vanaWake s).tick = s.tick ∧ (o.vanaWake s).objs = s.objs := by
  simp [State.vanaWake, apply_ite State.pending, apply_ite State.tick, apply_ite State.objs]

@[simp] theorem State.anaRail_frame (s : State) :
    (s.anaRail).pending = s.pending ∧ (s.anaRail).tick = s.tick ∧ (s.anaRail).objs = s.objs := by
  simp [State.anaRail, apply_ite State.pending, apply_ite State.tick, apply_ite State.objs]

@[simp] theorem State.coreMismatch_frame (s : State) :
    (s.coreMismatch).pending = s.pending ∧ (s.coreMismatch).tick = s.tick ∧ (s.coreMismatch).objs = s.objs := by
  simp [State.coreMismatch]

@[simp] theorem State.tickLost_frame (s : State) (b : Nat) :
    (s.tickLost b).pending = s.pending ∧ (s.tickLost b).tick = s.tick ∧ (s.tickLost b).objs = s.objs := by
  simp [State.tickLost, apply_ite State.pending, apply_ite State.tick, apply_ite State.objs]

@[simp] theorem State.logWindowEnd_frame (s : State) :
    (s.logWindowEnd).pending = s.pending ∧ (s.logWindowEnd).tick = s.tick := by
  simp [State.logWindowEnd]

@[simp] theorem State.logGap_frame (s : State) (b : Nat) :
    (s.logGap b).pending = s.pending ∧ (s.logGap b).tick = s.tick := by
  unfold State.logGap; split <;> simp

@[simp] theorem State.numberTick_frame (s : State) :
    (s.numberTick).pending = s.pending := by
  simp [State.numberTick]

@[simp] theorem State.edgeFirst_frame (s : State) :
    (s.edgeFirst).pending = s.pending ∧ (s.edgeFirst).tick = s.tick := by
  simp [State.edgeFirst]

@[simp] theorem State.edgeAngles_frame (s : State) :
    (s.edgeAngles).pending = s.pending ∧ (s.edgeAngles).tick = s.tick ∧ (s.edgeAngles).objs = s.objs := by
  simp [State.edgeAngles]

@[simp] theorem State.edgeUnits_frame (s : State) :
    (s.edgeUnits).pending = s.pending ∧ (s.edgeUnits).tick = s.tick := by
  simp [State.edgeUnits]


theorem State.modulate_frame (s : State) : (s.modulate.1).pending = s.pending ∧ (s.modulate.1).tick = s.tick ∧ (s.modulate.1).objs = s.objs := by
  unfold State.modulate
  dsimp only
  split <;> simp

@[simp] theorem State.edgeFrames_frame (s : State) :
    (s.edgeFrames).pending = s.pending ∧ (s.edgeFrames).tick = s.tick ∧ (s.edgeFrames).objs = s.objs := by
  unfold State.edgeFrames
  simp [State.modulate_frame]

@[simp] theorem State.atEdge_frame (s : State) :
    (s.atEdge).pending = s.pending := by
  simp [State.atEdge]

@[simp] theorem State.law_pending (s : State) (k n : Nat) (f : State → State) (h : (f s).pending = s.pending) : (s.law k n f).pending = s.pending := by
  unfold State.law; split <;> simp [h]

@[simp] theorem State.law_tick (s : State) (k n : Nat) (f : State → State) (h : (f s).tick = s.tick) : (s.law k n f).tick = s.tick := by
  unfold State.law; split <;> simp [h]

@[simp] theorem State.law_objs (s : State) (k n : Nat) (f : State → State) (h : (f s).objs = s.objs) : (s.law k n f).objs = s.objs := by
  unfold State.law; split <;> simp [h]


@[simp] theorem State.beat0_frame (s : State) :
    (s.beat0).pending = s.pending ∧ (s.beat0).tick = s.tick := by
  simp [State.beat0]

@[simp] theorem State.beat1_frame (s : State) :
    (s.beat1).pending = s.pending ∧ (s.beat1).tick = s.tick ∧ (s.beat1).objs = s.objs := by
  simp [State.beat1]

@[simp] theorem State.beat2_frame (s : State) :
    (s.beat2).pending = s.pending ∧ (s.beat2).tick = s.tick ∧ (s.beat2).objs = s.objs := by
  simp [State.beat2]

@[simp] theorem State.beat3_frame (s : State) (b : TickInputs) :
    (s.beat3 b).pending = s.pending ∧ (s.beat3 b).tick = s.tick ∧ (s.beat3 b).objs = s.objs := by
  simp [State.beat3]

@[simp] theorem State.takeSupplies_frame (s : State) (b : TickInputs) :
    (s.takeSupplies b).pending = s.pending ∧ (s.takeSupplies b).tick = s.tick ∧ (s.takeSupplies b).objs = s.objs := ⟨rfl, rfl, rfl⟩

@[simp] theorem State.beats_frame (s : State) (b : TickInputs) :
    (s.beats b).pending = s.pending ∧ (s.beats b).tick = s.tick := by
  simp [State.beats, apply_ite State.pending, apply_ite State.tick]

@[simp] theorem State.endTick_frame (s : State) :
    (s.endTick).pending = s.pending := by
  simp [State.endTick]

@[simp] theorem State.tickAll_frame (s : State) (b : TickInputs) :
    (s.tickAll b).pending = s.pending := by
  simp [State.tickAll]

end Sys2Proof.Machine
end

