-- ==== Sys2Proof/Laws/Run.lean ====
section
/-!
SUPPORT. What the end of a command does, and from it what a command does: one lemma for the commands of the module's units, one for a command
of the host that its mailbox executes at once.
-/
set_option linter.all false
namespace Sys2Proof.Machine

/-! ### The end of a command touches what `ended` names -/

theorem State.ended_rfl (f : State) : f = f.ended f := rfl

theorem State.ended_trans {f g t : State} (h1 : g = f.ended g) (h2 : t = g.ended t) : t = f.ended t := by
  rw [h2, h1]; rfl

theorem foldl_ended {α : Type} (f : State → α → State) (hf : ∀ s a, f s a = s.ended (f s a)) (l : List α) (s : State) :
    l.foldl f s = s.ended (l.foldl f s) := by
  induction l generalizing s with
  | nil => rfl
  | cons a l ih => exact State.ended_trans (hf s a) (ih _)

theorem LogS.keeps_rfl (a : LogS) : a.Keeps a := ⟨rfl, fun _ => List.prefix_rfl⟩

theorem LogS.keeps_trans {a b c : LogS} (h1 : a.Keeps b) (h2 : b.Keeps c) : a.Keeps c := by
  refine ⟨?_, fun p => (h1.2 p).trans (h2.2 p)⟩
  rw [h2.1, h1.1]

theorem modify_append_prefix {α : Type} (l : List (List α)) (n : Nat) (x : List α) (p : Nat) :
    l.getD p [] <+: (l.modify n (· ++ x)).getD p [] := by
  simp only [List.getD_eq_getElem?_getD, List.getElem?_modify]
  cases h : l[p]? with
  | none => simp
  | some y =>
    simp only [Option.map_some, Option.getD_some]
    split <;> simp

theorem LogS.push_keeps (l : LogS) (e : LogEntry) : l.Keeps (l.push e) := by
  refine ⟨rfl, fun p => ?_⟩
  exact modify_append_prefix l.ports _ [e] p

/-- An event of class 0 is queued at its port while the tick runs: no limit of rate holds it back (R281). -/
theorem State.post_safety (s : State) (c i : Nat) (d : List Byte) (hc : eventClass c d = 0) (ht : s.ticking = true) :
    s.post c i d = { s with
      log := s.log.push ⟨0, s.tick.now, s.tick.now, s.timeOf s.tick.now, false, c, 0, i, d, false, false, 1, s.tick.now⟩ } := by
  unfold State.post State.postAt State.postFine State.takeIn
  simp [hc, ht]

/-- The tick runs as before and the log is kept. -/
def State.Adds (f t : State) : Prop := t = f.ended t ∧ f.log.Keeps t.log

theorem State.adds_rfl (f : State) : f.Adds f := ⟨rfl, LogS.keeps_rfl _⟩

theorem State.adds_trans {f g t : State} (h1 : f.Adds g) (h2 : g.Adds t) : f.Adds t :=
  ⟨State.ended_trans h1.1 h2.1, LogS.keeps_trans h1.2 h2.2⟩

theorem State.adds_ticking {f t : State} (h : f.Adds t) : t.ticking = f.ticking := by rw [h.1]; rfl

theorem State.post_adds (s : State) (c i : Nat) (d : List Byte) (hc : eventClass c d = 0) (ht : s.ticking = true) : s.Adds (s.post c i d) := by
  rw [State.post_safety s c i d hc ht]
  exact ⟨rfl, LogS.push_keeps _ _⟩

theorem foldl_adds {α : Type} (f : State → α → State) (hf : ∀ (s : State) (a : α), s.ticking = true → s.Adds (f s a)) (l : List α) (s : State)
    (ht : s.ticking = true) : s.Adds (l.foldl f s) := by
  induction l generalizing s with
  | nil => exact State.adds_rfl _
  | cons a l ih =>
    have h := hf s a ht
    exact State.adds_trans h (ih _ (by rw [State.adds_ticking h]; exact ht))

theorem State.noteWake_adds (s : State) (w : WakeSource) : s.Adds (s.noteWake w) := by
  unfold State.noteWake
  split
  · split <;> exact ⟨rfl, LogS.keeps_rfl _⟩
  · exact State.adds_rfl _

theorem eventClass_2901 (d : List Byte) : eventClass 0x2901 d = 0 := rfl
theorem eventClass_2909 (d : List Byte) : eventClass 0x2909 d = 0 := rfl

theorem State.demandEvent_adds (s : State) (d : Nat × Nat × Nat) (ht : s.ticking = true) : s.Adds (s.demandEvent d) := by
  unfold State.demandEvent
  dsimp only
  split
  · have h := State.post_adds s 0x2909 noInst [BitVec.ofNat 8 (min d.2.1 4)] (eventClass_2909 _) ht
    exact State.adds_trans h (State.post_adds _ _ _ _ (eventClass_2901 _) (by rw [State.adds_ticking h]; exact ht))
  · exact State.post_adds _ _ _ _ (eventClass_2901 _) ht

/-- The kernel's list of demands and its acknowledgement are of what the end of a command may touch. -/
theorem State.active_adds (s : State) (now : List (Nat × Nat × Nat)) (ack : Bool) :
    s.Adds { s with saf := { s.saf with active := now, ackPending := ack } } := ⟨rfl, LogS.keeps_rfl _⟩

/-- Noting the demands blocks nothing and opens nothing. -/
theorem State.noteDemands_adds (s : State) (ht : s.ticking = true) : s.Adds s.noteDemands := by
  unfold State.noteDemands
  dsimp only
  have h := foldl_adds State.demandEvent State.demandEvent_adds (s.demandSources.filter fun d => !s.saf.active.contains d) s ht
  split
  · exact State.adds_trans h (State.active_adds _ _ _)
  · exact State.adds_trans (State.adds_trans h (State.noteWake_adds _ _)) (State.active_adds _ _ _)

/-- New lanes and cells are of what the end of a command may touch. -/
theorem State.lanesCells_ended (s : State) (ls : List Lane) (cs : List Cell) :
    { s with lanes := ls, cells := cs } = s.ended { s with lanes := ls, cells := cs } := rfl
theorem State.blockLane_ended (s : State) (l : Nat) : s.blockLane l = s.ended (s.blockLane l) := by
  unfold State.blockLane State.setLane
  dsimp only
  exact State.lanesCells_ended s _ _

theorem State.blockAll_ended (s : State) : s.blockAll = s.ended s.blockAll := by
  unfold State.blockAll
  have h := foldl_ended State.blockLane (fun s l => State.blockLane_ended s l) (List.range 48) s
  generalize (List.range 48).foldl State.blockLane s = t at h
  exact State.ended_trans h rfl

theorem State.blockAll_log (s : State) : s.blockAll.log = s.log := by
  show ((List.range 48).foldl State.blockLane s).log = s.log
  generalize List.range 48 = l
  induction l generalizing s with
  | nil => rfl
  | cons a l ih => exact ih _

theorem State.pulseRemoval_adds (s : State) : s.Adds s.pulseRemoval := by
  unfold State.pulseRemoval
  have h : s.Adds s.blockAll := ⟨State.blockAll_ended s, by rw [State.blockAll_log]; exact LogS.keeps_rfl _⟩
  dsimp only
  generalize s.blockAll = t at h
  exact State.adds_trans h ⟨rfl, LogS.keeps_rfl _⟩

theorem State.sfSend_adds (s : State) (k : Nat) : s.Adds (s.sfSend k) := ⟨rfl, LogS.keeps_rfl _⟩

theorem State.sfEvent_adds (s : State) : s.Adds s.sfEvent := by
  unfold State.sfEvent
  split
  · exact State.adds_rfl _
  · dsimp only
    split
    · exact State.adds_trans (g := { s with saf := { s.saf with txPr := s.outPr, txScs := s.outScs } }) ⟨rfl, LogS.keeps_rfl _⟩
        (State.sfSend_adds _ _)
    · exact ⟨rfl, LogS.keeps_rfl _⟩

theorem State.demandEvent_ack (s : State) (d : Nat × Nat × Nat) : (s.demandEvent d).saf.ackPending = s.saf.ackPending := by
  have hp : ∀ (u : State) (c i : Nat) (d : List Byte), (u.post c i d).saf = u.saf := by
    intro u c i d
    unfold State.post State.postAt State.postFine State.takeIn
    dsimp only
    (repeat' split) <;> rfl
  unfold State.demandEvent
  dsimp only
  split <;> simp [hp]

theorem State.foldl_demandEvent_ack (l : List (Nat × Nat × Nat)) (s : State) :
    (l.foldl State.demandEvent s).saf.ackPending = s.saf.ackPending := by
  induction l generalizing s with
  | nil => rfl
  | cons a l ih => rw [List.foldl_cons, ih, State.demandEvent_ack]

theorem State.noteWake_ack (s : State) (w : WakeSource) : (s.noteWake w).saf.ackPending = s.saf.ackPending := by
  unfold State.noteWake
  split
  · split <;> rfl
  · rfl

theorem State.blockAll_saf (s : State) : s.blockAll.saf = s.saf := by
  show ((List.range 48).foldl State.blockLane s).saf = s.saf
  generalize List.range 48 = l
  induction l generalizing s with
  | nil => rfl
  | cons a l ih => exact ih _

/-! ### The whole end of a command, where a tick boundary will come -/

/-- It is these three things. -/
theorem State.settle_eq (s : State) (b : Bool) (ht : s.ticking = true) (hp : s.pwr.state = .s0) (hm : s.saf.tickMissing = false) :
    s.settle b = (if s.noteDemands.prDemand && s.noteDemands.saf.switches.any id then s.noteDemands.pulseRemoval else s.noteDemands).sfEvent := by
  have hn := State.noteDemands_adds s ht
  unfold State.settle
  simp only [ht, Bool.not_true, Bool.and_false, Bool.false_eq_true, if_false]
  generalize hg : (if (s.noteDemands.prDemand && s.noteDemands.saf.switches.any id) = true then s.noteDemands.pulseRemoval else s.noteDemands) = g
  have hge : s.Adds g := by
    rw [← hg]
    split
    · exact State.adds_trans hn (State.pulseRemoval_adds _)
    · exact hn
  have hnb : g.noBoundary = false := by
    rw [hge.1]
    simp [State.noBoundary, State.ended, State.ticking, hp, hm]
    simpa [State.ticking] using ht
  simp only [hnb, Bool.and_false, Bool.false_and, Bool.false_eq_true, if_false]

theorem State.settle_adds (s : State) (b : Bool) (ht : s.ticking = true) (hp : s.pwr.state = .s0) (hm : s.saf.tickMissing = false) : s.Adds (s.settle b) := by
  rw [State.settle_eq s b ht hp hm]
  have hn := State.noteDemands_adds s ht
  split
  · exact State.adds_trans (State.adds_trans hn (State.pulseRemoval_adds _)) (State.sfEvent_adds _)
  · exact State.adds_trans hn (State.sfEvent_adds _)

theorem State.noteDemands_keeps (s : State) :
    s.noteDemands.lanes = s.lanes ∧ s.noteDemands.cells = s.cells ∧ s.noteDemands.saf.switches = s.saf.switches ∧
      s.noteDemands.prDemand = s.prDemand := by
  have hw : ∀ (u : State) (w : WakeSource), (u.noteWake w).lanes = u.lanes ∧ (u.noteWake w).cells = u.cells ∧ (u.noteWake w).saf = u.saf ∧
      (u.noteWake w).conv = u.conv ∧ (u.noteWake w).objs = u.objs ∧ (u.noteWake w).pair = u.pair := by
    intro u w
    unfold State.noteWake
    split
    · split <;> exact ⟨rfl, rfl, rfl, rfl, rfl, rfl⟩
    · exact ⟨rfl, rfl, rfl, rfl, rfl, rfl⟩
  have hp : ∀ (u : State) (c i : Nat) (d : List Byte), (u.post c i d).lanes = u.lanes ∧ (u.post c i d).cells = u.cells ∧
      (u.post c i d).saf = u.saf ∧ (u.post c i d).conv = u.conv ∧ (u.post c i d).objs = u.objs ∧
      (u.post c i d).pair = u.pair := by
    intro u c i d
    unfold State.post State.postAt State.postFine State.takeIn
    dsimp only
    (repeat' split) <;> exact ⟨rfl, rfl, rfl, rfl, rfl, rfl⟩
  have hd : ∀ (u : State) (d : Nat × Nat × Nat), (u.demandEvent d).lanes = u.lanes ∧ (u.demandEvent d).cells = u.cells ∧
      (u.demandEvent d).saf = u.saf ∧ (u.demandEvent d).conv = u.conv ∧ (u.demandEvent d).objs = u.objs ∧
      (u.demandEvent d).pair = u.pair := by
    intro u d
    unfold State.demandEvent
    dsimp only
    split <;> simp [hp]
  have hf : ∀ (l : List (Nat × Nat × Nat)) (u : State), (l.foldl State.demandEvent u).lanes = u.lanes ∧
      (l.foldl State.demandEvent u).cells = u.cells ∧ (l.foldl State.demandEvent u).saf = u.saf ∧
      (l.foldl State.demandEvent u).conv = u.conv ∧ (l.foldl State.demandEvent u).objs = u.objs ∧
      (l.foldl State.demandEvent u).pair = u.pair := by
    intro l
    induction l with
    | nil => intro u; exact ⟨rfl, rfl, rfl, rfl, rfl, rfl⟩
    | cons a l ih =>
      intro u
      have h1 := ih (u.demandEvent a)
      have h2 := hd u a
      simp only [List.foldl_cons]
      refine ⟨h1.1.trans h2.1, h1.2.1.trans h2.2.1, h1.2.2.1.trans h2.2.2.1, h1.2.2.2.1.trans h2.2.2.2.1, h1.2.2.2.2.1.trans h2.2.2.2.2.1, h1.2.2.2.2.2.trans h2.2.2.2.2.2⟩
  have key : ∀ u v : State, v.saf = { u.saf with active := v.saf.active, ackPending := v.saf.ackPending } → v.conv = u.conv → v.objs = u.objs → v.pair = u.pair →
      v.prDemand = u.prDemand := by
    intro u v h1 h2 h3 h4
    unfold State.prDemand State.demandSources State.hostPr State.hostScs State.kernelFaults State.isProducer State.producer State.siIn
      State.siDemandA State.siDemandB State.cfgN State.cfg
    rw [h1, h2, h3, h4]
  unfold State.noteDemands
  dsimp only
  have h := hf (s.demandSources.filter fun d => !s.saf.active.contains d) s
  split
  · refine ⟨h.1, h.2.1, by rw [h.2.2.1], key _ _ ?_ h.2.2.2.1 h.2.2.2.2.1 h.2.2.2.2.2⟩
    dsimp only; rw [h.2.2.1]
  · have h2 := hw ((s.demandSources.filter fun d => !s.saf.active.contains d).foldl State.demandEvent s) .safety
    refine ⟨h2.1.trans h.1, h2.2.1.trans h.2.1, by rw [h2.2.2.1, h.2.2.1], key _ _ ?_ (h2.2.2.2.1.trans h.2.2.2.1) (h2.2.2.2.2.1.trans h.2.2.2.2.1) (h2.2.2.2.2.2.trans h.2.2.2.2.2)⟩
    dsimp only; rw [h2.2.2.1, h.2.2.1]

theorem State.sfEvent_keeps (s : State) : s.sfEvent.lanes = s.lanes ∧ s.sfEvent.cells = s.cells ∧ s.sfEvent.saf.switches = s.saf.switches := by
  unfold State.sfEvent
  split
  · exact ⟨rfl, rfl, rfl⟩
  · dsimp only
    split <;> exact ⟨rfl, rfl, rfl⟩

theorem State.Calm.noDemand {s : State} (h : s.Calm) : s.prDemand = false ∧ s.scsDemand = false := by
  obtain ⟨h1, h2, h3, h4, h5⟩ := h
  simp [State.prDemand, State.scsDemand, h1, h2]

theorem State.Calm.settles {s : State} (h : s.Calm) (b : Bool) (ht : s.ticking = true) (hp : s.pwr.state = .s0) (hm : s.saf.tickMissing = false) : s.settle b = s := by
  have hd := h.noDemand
  obtain ⟨h1, h2, h3, h4, h5⟩ := h
  have hn : s.noteDemands = s := by
    have hs : ({ s.saf with active := [], ackPending := s.saf.ackPending } : Safety) = s.saf := by rw [← h3]
    unfold State.noteDemands
    simp only [h1, List.filter_nil, List.foldl_nil, List.isEmpty_nil, if_true, State.anyDemand, hd.1, hd.2, Bool.or_false, hs]
  rw [State.settle_eq s b ht hp hm, hn]
  simp only [hd.1, Bool.false_and, Bool.false_eq_true, if_false]
  unfold State.sfEvent
  simp [h4, h5]

theorem State.ended_demands (f t : State) : (f.ended t).demandSources = f.demandSources ∧ (f.ended t).prDemand = f.prDemand ∧
    (f.ended t).anyDemand = f.anyDemand ∧ (f.ended t).outPr = f.outPr ∧ (f.ended t).outScs = f.outScs := ⟨rfl, rfl, rfl, rfl, rfl⟩

theorem State.noteDemands_noted (s : State) (ht : s.ticking = true) :
    s.noteDemands.saf.active = s.demandSources ∧ s.noteDemands.saf.ackPending = (s.saf.ackPending || s.anyDemand) := by
  refine ⟨rfl, ?_⟩
  unfold State.noteDemands
  dsimp only
  have h : s.Adds ((s.demandSources.filter fun d => !s.saf.active.contains d).foldl State.demandEvent s) :=
    foldl_adds State.demandEvent (fun s a ht => State.demandEvent_adds s a ht) _ s ht
  split
  · have ha : ∀ t : State, t = s.ended t → (t.saf.ackPending || t.anyDemand) = (t.saf.ackPending || s.anyDemand) := by
      intro t h; rw [h, (State.ended_demands s t).2.2.1]
    rw [ha _ h.1, State.foldl_demandEvent_ack]
  · have h2 := State.adds_trans h (State.noteWake_adds _ .safety)
    have ha : ∀ t : State, t = s.ended t → (t.saf.ackPending || t.anyDemand) = (t.saf.ackPending || s.anyDemand) := by
      intro t h; rw [h, (State.ended_demands s t).2.2.1]
    rw [ha _ h2.1, State.noteWake_ack, State.foldl_demandEvent_ack]

theorem State.sfEvent_bits (s : State) : s.sfEvent.saf.txPr = s.outPr ∧ s.sfEvent.saf.txScs = s.outScs ∧ s.sfEvent.saf.active = s.saf.active ∧
    s.sfEvent.saf.ackPending = s.saf.ackPending := by
  unfold State.sfEvent
  split
  · rename_i h
    simp only [Bool.and_eq_true, decide_eq_true_eq] at h
    exact ⟨h.1.symm, h.2.symm, rfl, rfl⟩
  · dsimp only
    split <;> exact ⟨rfl, rfl, rfl, rfl⟩

theorem State.pulseRemoval_saf (s : State) : s.pulseRemoval.saf = { s.saf with switches := List.replicate 6 false } := by
  show ({ s.blockAll.saf with switches := List.replicate 6 false } : Safety) = _
  have : s.blockAll.saf = s.saf := State.blockAll_saf s
  rw [this]

/-- What every command of an awake module ends with. -/
theorem State.settle_ends (f : State) (b : Bool) (ht : f.ticking = true) (hp : f.pwr.state = .s0) (hm : f.saf.tickMissing = false) : Ends f (f.settle b) := by
  have ha := State.settle_adds f b ht hp hm
  have hn := State.noteDemands_keeps f
  have hd := State.noteDemands_noted f ht
  have hna := State.noteDemands_adds f ht
  have hs : ∀ g : State, f.Adds g → g.saf.active = f.noteDemands.saf.active → g.saf.ackPending = f.noteDemands.saf.ackPending →
      g.sfEvent.saf.active = f.demandSources ∧ g.sfEvent.saf.ackPending = (f.saf.ackPending || f.anyDemand) ∧
      g.sfEvent.saf.txPr = f.outPr ∧ g.sfEvent.saf.txScs = f.outScs := by
    intro g hg h1 h2
    have h := State.sfEvent_bits g
    have ho : g.outPr = f.outPr ∧ g.outScs = f.outScs := by
      rw [hg.1]; exact ⟨rfl, rfl⟩
    exact ⟨by rw [h.2.2.1, h1, hd.1], by rw [h.2.2.2, h2, hd.2], by rw [h.1, ho.1], by rw [h.2.1, ho.2]⟩
  have hend := State.settle_eq f b ht hp hm
  have hall : (f.settle b).saf.active = f.demandSources ∧ (f.settle b).saf.ackPending = (f.saf.ackPending || f.anyDemand) ∧
      (f.settle b).saf.txPr = f.outPr ∧ (f.settle b).saf.txScs = f.outScs := by
    rw [hend]
    split
    · exact hs _ (State.adds_trans hna (State.pulseRemoval_adds _)) (by rw [State.pulseRemoval_saf]) (by rw [State.pulseRemoval_saf])
    · exact hs _ hna rfl rfl
  refine ⟨ha.1, ha.2, fun h => h.settles b ht hp hm, fun h => ?_, fun h => ?_, hall.1, hall.2.1, hall.2.2⟩
  · rw [hend]
    simp only [hn.2.2.2, h, Bool.false_and, Bool.false_eq_true, if_false]
    have hs := State.sfEvent_keeps f.noteDemands
    exact ⟨hs.1.trans hn.1, hs.2.1.trans hn.2.1, hs.2.2.trans hn.2.2.1⟩
  · rw [hend]
    simp only [hn.2.2.2, h, Bool.true_and]
    split
    · rw [(State.sfEvent_keeps _).2.2, State.pulseRemoval_saf]; rfl
    · rw [(State.sfEvent_keeps _).2.2]; simp_all

/-! ### Commands -/

theorem State.clearOut_awake {s : State} (h : s.Awake) : s.clearOut.Awake := h
theorem State.Awake.ticks {s : State} (h : s.Awake) : s.ticking = true := by simp [State.ticking, h.2.2.1]

/-- A command of one of the module's units does `f` when its effect is `f` and the module still runs. -/
theorem does_safe {c : Instr} {s f : State} {E : State → State} (hs : s.Awake) (hc : exec c s = runSafe true s E) (hE : E s.clearOut = f)
    (hf : f.Awake) : Does c s f := by
  refine ⟨f.settle true, ?_, State.settle_ends f true hf.ticks hf.2.1 hf.2.2.2⟩
  have ht := (State.clearOut_awake hs).ticks
  rw [hc]
  simp [runSafe, guarded, State.unlessReset, hs.1, hE, ht]

/-- The same for a command of the host. -/
theorem does_host {c : Instr} {s f : State} {E : State → State} (hs : s.Awake) (hc : exec c s = runHost true s E)
    (hE : (E s.clearOut).pump = f) (hf : f.Awake) : Does c s f := by
  refine ⟨f.settle true, ?_, State.settle_ends f true hf.ticks hf.2.1 hf.2.2.2⟩
  have ht := (State.clearOut_awake hs).ticks
  rw [hc]
  simp [runHost, guarded, State.unlessReset, hs.1, hE, ht]

/-- The same for a command that acts in reset too. -/
theorem does_always {c : Instr} {s f : State} {E : State → State} (hs : s.Awake) (hc : exec c s = runAlways true s E) (hE : E s.clearOut = f)
    (hf : f.Awake) : Does c s f := by
  refine ⟨f.settle true, ?_, State.settle_ends f true hf.ticks hf.2.1 hf.2.2.2⟩
  rw [hc]
  simp [runAlways, guarded, hs.ticks, hE, hf.1]

end Sys2Proof.Machine
end

