-- ==== Sys2Proof/Laws/Mail.lean ====
section
/-!
SUPPORT. A command of the host that its mailbox executes at once: the mailboxes' turns start it and nothing else, and its answer is sent.
-/
set_option linter.all false
namespace Sys2Proof.Machine

theorem getD_modify_same {α : Type} (l : List α) (n : Nat) (f : α → α) (d : α) (h : n < l.length) : (l.modify n f).getD n d = f (l.getD n d) := by
  simp [List.getD_eq_getElem?_getD, List.getElem?_modify, h]

theorem getD_modify_other {α : Type} (l : List α) (n k : Nat) (f : α → α) (d : α) (h : k ≠ n) : (l.modify n f).getD k d = l.getD k d := by
  simp [List.getD_eq_getElem?_getD, List.getElem?_modify, Ne.symm h]

theorem State.mbox_setMbox_same (s : State) (n : Nat) (f : Mailbox → Mailbox) (h : n < s.host.mbs.length) :
    (s.setMbox n f).mbox n = f (s.mbox n) := getD_modify_same _ _ _ _ h

theorem State.mbox_setMbox_other (s : State) (n k : Nat) (f : Mailbox → Mailbox) (h : k ≠ n) : (s.setMbox n f).mbox k = s.mbox k :=
  getD_modify_other _ _ _ _ _ h

theorem State.setMbox_setMbox (s : State) (n : Nat) (f g : Mailbox → Mailbox) :
    (s.setMbox n f).setMbox n g = s.setMbox n fun x => g (f x) := by
  unfold State.setMbox modifyAt
  simp only [List.modify_modify_eq, Function.comp_def]

/-- The reply of a message. -/
def replyOf (m : Msg) (opcode : BitVec 16) : Reply := { mb := m.mb, session := m.session, opcode := opcode, tag := m.tag, peer := m.seq.peer }

theorem replyOf_response (m : Msg) (op : BitVec 16) (a : Ans) : (replyOf m op).response a = msgResponse m op a := rfl

/-- A command that runs is answered. -/
theorem State.runs_reply (s : State) (m : Msg) (op : BitVec 16) (c : HostCmd) (a : Ans) (h : s.host.mbs.length = 8)
    (hst : s.host.starting = false) : (s.runs m op c).reply (replyOf m op) a = s.answer m op a := by
  have hm : m.mb.val < s.host.mbs.length := by have := m.mb.isLt; omega
  have hr : ((s.runs m op c).mbox (replyOf m op).mb.val).runs (replyOf m op) = true := by
    show ((s.runs m op c).mbox m.mb.val).runs (replyOf m op) = true
    unfold State.runs
    rw [State.mbox_setMbox_same s _ _ hm]
    simp [Mailbox.runs, replyOf]
  have hw : (s.runs m op c).host.starting = false := hst
  unfold State.reply
  rw [hr, hw, Bool.not_false, Bool.and_self, if_pos rfl]
  show (((s.runs m op c).setMbox m.mb.val fun x =>
      { x with running := none, unacked := x.unacked ++ [msgResponse m op a], last := some (msgResponse m op a) }).emit
      (.mbResp m.session m.mb (msgResponse m op a) false)) = s.answer m op a
  unfold State.runs
  rw [State.setMbox_setMbox]
  rfl

/-- A mailbox that has nothing to start starts nothing. -/
theorem State.startNext_idle (s : State) (n : Nat) (h : (s.mbox n).queue = []) : s.startNext n = s := by
  unfold State.startNext
  rw [h]
  split <;> first | rfl | (rename_i h1 h2; cases h2)

theorem foldl_startNext_idle (l : List Nat) (s : State) (h : ∀ n, (s.mbox n).queue = []) : l.foldl State.startNext s = s := by
  induction l with
  | nil => rfl
  | cons a l ih => rw [List.foldl_cons, State.startNext_idle s a (h a), ih]

theorem State.turn_idle (s : State) (h : ∀ n, (s.mbox n).queue = []) : s.turn = s := by
  unfold State.turn
  split
  · exact foldl_startNext_idle _ _ h
  · rfl

/-- Mailboxes whose owners have open sessions are kept. -/
theorem State.releaseMbs_idle (s : State) (h : ∀ n o, (s.mbox n).owner = some o → s.isOpen o = true) : s.releaseMbs = s := by
  have hk : s.host.mbs.map (Mailbox.release s.isOpen) = s.host.mbs := by
    apply List.ext_getElem
    · simp
    intro n h1 h2
    have hn : s.mbox n = s.host.mbs[n] := by simp [State.mbox, List.getD_eq_getElem?_getD, h2]
    have ho := h n
    rw [hn] at ho
    rw [List.getElem_map]
    unfold Mailbox.release
    split
    · rename_i o hoo
      rw [ho o hoo]
      rfl
    · rfl
  unfold State.releaseMbs
  rw [hk]

/-- Nothing waits in a mailbox and every owner has an open session. -/
def State.MailDone (s : State) : Prop := ∀ n, (s.mbox n).queue = [] ∧ ∀ o, (s.mbox n).owner = some o → s.isOpen o = true

theorem State.pump_done (s : State) (h : s.MailDone) : s.pump = s := by
  unfold State.pump
  have hq := fun n => (h n).1
  rw [State.turn_idle s hq, State.turn_idle s hq, State.turn_idle s hq, State.turn_idle s hq]
  exact State.releaseMbs_idle s fun n => (h n).2

/-- One mailbox with one command: the turns start it. -/
theorem State.pump_one (s t : State) (n : Nat) (r : Reply) (c : HostCmd) (hn : n < 8) (hs : s.serves = true)
    (ho : ∀ k, k ≠ n → (s.mbox k).queue = []) (hq : (s.mbox n).queue = [(r, c)]) (hr : (s.mbox n).running = none)
    (ht : (s.setMbox n fun m => { m with running := some (r, c), queue := [] }).startCmd r c = t) (hd : t.MailDone) : s.pump = t := by
  have h1 : s.startNext n = t := by
    unfold State.startNext
    rw [hr, hq]
    exact ht
  have hi : ∀ k, k ≠ n → s.startNext k = s := fun k hk => State.startNext_idle s k (ho k hk)
  have hit : ∀ k, t.startNext k = t := fun k => State.startNext_idle t k (hd k).1
  have hturn : s.turn = t := by
    unfold State.turn
    rw [if_pos hs]
    have : ∀ l : List Nat, n ∈ l → l.foldl State.startNext s = t := by
      intro l
      induction l with
      | nil => intro h; cases h
      | cons a l ih =>
        intro h
        rw [List.foldl_cons]
        by_cases ha : a = n
        · rw [ha, h1]
          exact foldl_startNext_idle _ _ fun k => (hd k).1
        · rw [hi a ha]
          rcases List.mem_cons.1 h with h | h
          · exact absurd h.symm ha
          · exact ih h
    exact this _ (List.mem_range.2 hn)
  unfold State.pump
  have hqt := fun n => (hd n).1
  rw [hturn, State.turn_idle t hqt, State.turn_idle t hqt, State.turn_idle t hqt]
  exact State.releaseMbs_idle t fun n => (hd n).2

/-! ### A message that is taken -/

theorem State.session_tookFrame (s : State) (id o : Word) (seq : FrameNo) : ((s.tookFrame id seq).session o).isSome = (s.session o).isSome := by
  unfold State.session State.tookFrame
  simp only [List.find?_map, Option.isSome_map]
  congr 1
  apply List.find?_congr
  intro x _
  simp only [Function.comp_apply]
  split <;> rfl

theorem State.isOpen_took (s : State) (m : Msg) (o : Word) : (s.took m).isOpen o = s.isOpen o :=
  State.session_tookFrame s.clearOut m.session o m.seq

theorem State.mbs_took_length (s : State) (m : Msg) : (s.took m).host.mbs.length = s.host.mbs.length := by
  simp [State.took, modifyAt]

theorem State.mbox_took_other (s : State) (m : Msg) (k : Nat) (h : k ≠ m.mb.val) : (s.took m).mbox k = s.mbox k :=
  getD_modify_other _ _ _ _ _ h

theorem State.mbox_took_same (s : State) (m : Msg) (h : s.host.mbs.length = 8) :
    (s.took m).mbox m.mb.val = { s.mbox m.mb.val with owner := some m.session, lastTag := m.tag } :=
  getD_modify_same _ _ _ _ (by have := m.mb.isLt; omega)

/-- A free mailbox takes a new command of its owner, or of any session where it has none. -/
theorem State.enqueue_free (s : State) (r : Reply) (c : HostCmd) (ho : ∀ o, (s.mbox r.mb.val).owner = some o → o = r.session)
    (hq : (s.mbox r.mb.val).queue = []) (hr : (s.mbox r.mb.val).running = none) (ha : (s.mbox r.mb.val).answered r.tag = none)
    (hu : (s.mbox r.mb.val).unacked.length < 4) :
    s.enqueue r c = s.setMbox r.mb.val fun m => { m with owner := some r.session, lastTag := r.tag, queue := m.queue ++ [(r, c)] } := by
  unfold State.enqueue
  dsimp only
  rw [if_neg, if_neg, ha]
  · dsimp only
    rw [if_neg]
    simp only [Mailbox.credits, Mailbox.executing, hq, hr, List.length_nil, Option.isSome_none, Bool.false_eq_true, if_false]; omega
  · simp [Mailbox.holds, hq, hr]
  · split
    · rename_i o h; simp [ho o h]
    · simp

theorem modifyAt_congr (s : State) (n : Nat) (f g : Mailbox → Mailbox) (h : f (s.mbox n) = g (s.mbox n)) :
    modifyAt s.host.mbs n f = modifyAt s.host.mbs n g := by
  apply List.ext_getElem?
  intro k
  unfold modifyAt
  rw [List.getElem?_modify, List.getElem?_modify]
  by_cases hk : n = k
  · subst hk
    by_cases hl : n < s.host.mbs.length
    · have hb : s.mbox n = s.host.mbs[n] := by simp [State.mbox, List.getD_eq_getElem?_getD, hl]
      rw [hb] at h
      simp [hl, h]
    · simp [hl]
  · simp [hk]

theorem State.setMbox_congr (s : State) (n : Nat) (f g : Mailbox → Mailbox) (h : f (s.mbox n) = g (s.mbox n)) :
    s.setMbox n f = s.setMbox n g := by
  unfold State.setMbox
  rw [modifyAt_congr s n f g h]

theorem State.took_eq (s : State) (m : Msg) :
    s.took m = (s.clearOut.tookFrame m.session m.seq).setMbox m.mb.val fun x => { x with owner := some m.session, lastTag := m.tag } := rfl

/-- What the acceptance of a message that is taken leaves. -/
theorem State.acceptMsg_takes (s : State) (m : Msg) (op : BitVec 16) (ro : Bool) (c : HostCmd) (hr : s.pwr.inReset = false)
    (h : s.Takes m ro) :
    s.clearOut.acceptMsg m op ro c = (s.took m).setMbox m.mb.val fun x => { x with queue := [(replyOf m op, c)] } := by
  obtain ⟨hst, hidle, hlen, hun, hans, hown, hmbs, x, hx, hseq, hro⟩ := h
  have hs : s.clearOut.serves = true := by
    show (!s.host.starting && !s.pwr.inReset) = true
    rw [hst, hr]; rfl
  have hx' : s.clearOut.session m.session = some x := hx
  have hc : (if x.ro && !ro then HostCmd.bad stAuth else if m.lenOk then c else HostCmd.bad stRange) = c := by
    rw [hlen]
    cases hxr : x.ro with
    | false => simp
    | true => simp [hro hxr]
  unfold State.acceptMsg State.frame
  rw [hs, hx']
  have hlt : ¬ m.seq.n ≤ x.lastSeq := by omega
  simp only [Bool.not_true, Bool.false_eq_true, if_false, hlt, hc]
  obtain ⟨hq, hrun, _⟩ := hidle m.mb.val
  rw [State.took_eq, State.setMbox_setMbox]
  rw [State.enqueue_free (s.clearOut.tookFrame m.session m.seq) { mb := m.mb, session := m.session, opcode := op, tag := m.tag, peer := m.seq.peer } c hown hq hrun hans hun]
  apply State.setMbox_congr
  have hbox : (s.clearOut.tookFrame m.session m.seq).mbox m.mb.val = s.mbox m.mb.val := rfl
  dsimp only
  rw [hbox, hq]
  rfl

theorem State.took_idle (s : State) (m : Msg) (ro : Bool) (h : s.Takes m ro) (k : Nat) (hk : k ≠ m.mb.val) :
    ((s.took m).mbox k).queue = [] ∧ (∀ o, ((s.took m).mbox k).owner = some o → (s.took m).isOpen o = true) := by
  rw [State.mbox_took_other s m k hk]
  exact ⟨(h.2.1 k).1, fun o ho => by rw [State.isOpen_took]; exact (h.2.1 k).2.2 o ho⟩

/-- The mailboxes of a state that differs from `s.took m` in nothing of the host's but the running command and the answer. -/
theorem State.runs_done (s v : State) (m : Msg) (ro : Bool) (h : s.Takes m ro) (hmbs : v.host.mbs = (s.took m).host.mbs)
    (hses : v.host.sessions = (s.took m).host.sessions) (g : Mailbox → Mailbox) (hgq : ∀ x, (g x).queue = x.queue)
    (hgo : ∀ x, (g x).owner = x.owner) (w : State) (hw : w.host.mbs = modifyAt v.host.mbs m.mb.val g)
    (hws : w.host.sessions = v.host.sessions) : w.MailDone := by
  obtain ⟨hst, hidle, hlen, hun, hans, hown, hl, x, hx, hseq, hro⟩ := h
  have hopen : ∀ o, w.isOpen o = s.isOpen o := by
    intro o
    rw [← State.isOpen_took s m o]
    unfold State.isOpen State.session
    rw [hws, hses]
  have hml : m.mb.val < (s.took m).host.mbs.length := by rw [State.mbs_took_length, hl]; exact m.mb.isLt
  intro n
  by_cases hn : n = m.mb.val
  · subst hn
    have hb : w.mbox m.mb.val = g ((s.took m).mbox m.mb.val) := by
      unfold State.mbox
      rw [hw, hmbs]
      exact getD_modify_same _ _ _ _ hml
    rw [State.mbox_took_same s m hl] at hb
    rw [hb, hgq, hgo]
    refine ⟨(hidle m.mb.val).1, fun o ho => ?_⟩
    rw [hopen]
    simp only [Option.some.injEq] at ho
    subst ho
    unfold State.isOpen
    rw [hx]; rfl
  · have hb : w.mbox n = s.mbox n := by
      rw [← State.mbox_took_other s m n hn]
      unfold State.mbox
      rw [hw, hmbs]
      exact getD_modify_other _ _ _ _ _ hn
    rw [hb]
    exact ⟨(hidle n).1, fun o ho => by rw [hopen]; exact (hidle n).2.2 o ho⟩

/-- A command that a mailbox takes at once does what `startCmd` does with it. -/
theorem State.takes_pump (s t : State) (m : Msg) (op : BitVec 16) (ro : Bool) (c : HostCmd) (hr : s.pwr.inReset = false)
    (h : s.Takes m ro) (ht : ((s.took m).runs m op c).startCmd (replyOf m op) c = t) (hd : t.MailDone) :
    (s.clearOut.acceptMsg m op ro c).pump = t := by
  rw [State.acceptMsg_takes s m op ro c hr h]
  have h' := h
  obtain ⟨hst, hidle, hlen, hun, hans, hown, hl, x, hx, hseq, hro⟩ := h'
  have hml : m.mb.val < (s.took m).host.mbs.length := by rw [State.mbs_took_length, hl]; exact m.mb.isLt
  refine State.pump_one _ t m.mb.val (replyOf m op) c m.mb.isLt ?_ ?_ ?_ ?_ ?_ hd
  · show (!s.host.starting && !s.pwr.inReset) = true
    rw [hst, hr]; rfl
  · intro k hk
    rw [State.mbox_setMbox_other _ _ _ _ hk]
    exact (State.took_idle s m ro h k hk).1
  · rw [State.mbox_setMbox_same _ _ _ hml]
  · rw [State.mbox_setMbox_same _ _ _ hml, State.mbox_took_same s m hl]
    exact (hidle m.mb.val).2.1
  · rw [← ht, State.setMbox_setMbox]
    congr 1
    unfold State.runs
    apply State.setMbox_congr
    dsimp only
    rw [State.mbox_took_same s m hl]
    dsimp only
    rw [(hidle m.mb.val).1]
    rfl

/-- A command of the host that is answered at once: `v` is what it does beside the answer. -/
theorem does_answer {i : Instr} {s v : State} {m : Msg} {op : BitVec 16} {ro : Bool} {c : HostCmd} {a : Ans} (hs : s.Awake)
    (hi : exec i s = runHost true s fun s => s.acceptMsg m op ro c) (h : s.Takes m ro)
    (hv : ((s.took m).runs m op c).startCmd (replyOf m op) c = (v.runs m op c).reply (replyOf m op) a)
    (hm : v.host.mbs = (s.took m).host.mbs) (hses : v.host.sessions = (s.took m).host.sessions)
    (hst : v.host.starting = false) (ha : v.Awake) : Does i s (v.answer m op a) := by
  have hl : v.host.mbs.length = 8 := by rw [hm, State.mbs_took_length]; exact h.2.2.2.2.2.2.1
  refine does_host hs hi ?_ ha
  refine State.takes_pump s _ m op ro c hs.1 h ?_ ?_
  · rw [hv, State.runs_reply v m op c a hl hst]
  · exact State.runs_done s v m ro h hm hses
      (fun x => { x with running := none, unacked := x.unacked ++ [msgResponse m op a], last := some (msgResponse m op a) })
      (fun _ => rfl) (fun _ => rfl) _ rfl rfl

/-- A command of the host that stays in execution: `v` is what it does at once. -/
theorem does_run {i : Instr} {s v : State} {m : Msg} {op : BitVec 16} {ro : Bool} {c : HostCmd} (hs : s.Awake)
    (hi : exec i s = runHost true s fun s => s.acceptMsg m op ro c) (h : s.Takes m ro)
    (hv : ((s.took m).runs m op c).startCmd (replyOf m op) c = v.runs m op c)
    (hm : v.host.mbs = (s.took m).host.mbs) (hses : v.host.sessions = (s.took m).host.sessions)
    (ha : v.Awake) : Does i s (v.runs m op c) := by
  refine does_host hs hi ?_ ha
  refine State.takes_pump s _ m op ro c hs.1 h hv ?_
  exact State.runs_done s v m ro h hm hses (fun x => { x with running := some (replyOf m op, c) }) (fun _ => rfl) (fun _ => rfl) _ rfl rfl

/-- In S0 a command starts unless a sleep entry turns its domain off. -/
theorem State.startCmd_awake (s : State) (r : Reply) (c : HostCmd) (h : s.pwr.state = .s0) (hc : s.closing (cmdDomain c) = false) :
    s.startCmd r c = s.perform r c := by
  unfold State.startCmd
  have : s.domainOff (cmdDomain c) = false := by cases hd : cmdDomain c <;> simp [State.domainOff, h]
  rw [this, hc]
  simp

/-- With fewer than four sessions held, the identifier of a new one is not 0 and no session has it. -/
theorem State.newSession_unused (s : State) (h : s.sessionsHeld < 4) : s.unusedId s.newSession = true := by
  unfold State.newSession
  generalize hl : ((List.range 5).map fun k => Config.sessionId s.free + BitVec.ofNat 32 k) = l
  cases hf : l.find? s.unusedId with
  | some a => exact List.find?_some hf
  | none =>
    exfalso
    have hn : l.Nodup := by
      rw [← hl]
      refine List.Nodup.map_on ?_ List.nodup_range
      intro a ha b hb hab
      simp only [List.mem_range] at ha hb
      bv_omega
    have hsub : l ⊆ 0 :: (s.host.sessions.map (·.id) ++ s.host.pendings.map (·.id)) := by
      intro a ha
      have := List.find?_eq_none.mp hf a ha
      simp [State.unusedId] at this
      simp only [List.mem_cons, List.mem_append, List.mem_map]
      by_cases h0 : a = 0
      · exact .inl h0
      · by_cases hs : ∃ x ∈ s.host.sessions, x.id = a
        · exact .inr (.inl hs)
        · refine .inr (.inr (this h0 fun x hx he => hs ⟨x, hx, he⟩))
    have hle := (hn.subperm hsub).length_le
    rw [← hl] at hle
    simp [State.sessionsHeld] at h hle
    omega

/-- Such an identifier names no open session. -/
theorem State.newSession_not_open (s : State) (h : s.sessionsHeld < 4) : s.newSession ≠ 0 ∧ s.isOpen s.newSession = false := by
  have := s.newSession_unused h
  simp [State.unusedId] at this
  refine ⟨this.1.1, ?_⟩
  simp only [State.isOpen, State.session, Option.isSome_eq_false_iff, Option.isNone_iff_eq_none, List.find?_eq_none]
  intro x hx
  simpa using this.1.2 x hx

end Sys2Proof.Machine
end

