-- ==== Sys2Proof/Laws/State.lean ====
section
/-!
SUPPORT. One lemma for each field of the state and each elementary update of it: what the update leaves alone.
-/
set_option linter.all false
namespace Sys2Proof.Machine

theorem State.postAt_eq (s : State) (t c i : Nat) (d : List Byte) : s.postAt t c i d = { s with log := (s.postAt t c i d).log } := by
  unfold State.postAt State.postFine State.takeIn
  dsimp only
  (repeat' split) <;> rfl

/-! ### setCfg -/

@[simp] theorem State.setCfg_pending (s : State) (i : Nat) (v : Int) : (s.setCfg i v).pending = s.pending := rfl
@[simp] theorem State.setCfg_tick (s : State) (i : Nat) (v : Int) : (s.setCfg i v).tick = s.tick := rfl
@[simp] theorem State.setCfg_conv (s : State) (i : Nat) (v : Int) : (s.setCfg i v).conv = s.conv := rfl
@[simp] theorem State.setCfg_bal (s : State) (i : Nat) (v : Int) : (s.setCfg i v).bal = s.bal := rfl
@[simp] theorem State.setCfg_gt (s : State) (i : Nat) (v : Int) : (s.setCfg i v).gt = s.gt := rfl
@[simp] theorem State.setCfg_fus (s : State) (i : Nat) (v : Int) : (s.setCfg i v).fus = s.fus := rfl
@[simp] theorem State.setCfg_loops (s : State) (i : Nat) (v : Int) : (s.setCfg i v).loops = s.loops := rfl
@[simp] theorem State.setCfg_cells (s : State) (i : Nat) (v : Int) : (s.setCfg i v).cells = s.cells := rfl
@[simp] theorem State.setCfg_arms (s : State) (i : Nat) (v : Int) : (s.setCfg i v).arms = s.arms := rfl
@[simp] theorem State.setCfg_mod (s : State) (i : Nat) (v : Int) : (s.setCfg i v).mod = s.mod := rfl
@[simp] theorem State.setCfg_trips (s : State) (i : Nat) (v : Int) : (s.setCfg i v).trips = s.trips := rfl
@[simp] theorem State.setCfg_lanes (s : State) (i : Nat) (v : Int) : (s.setCfg i v).lanes = s.lanes := rfl
@[simp] theorem State.setCfg_esc (s : State) (i : Nat) (v : Int) : (s.setCfg i v).esc = s.esc := rfl
@[simp] theorem State.setCfg_sig (s : State) (i : Nat) (v : Int) : (s.setCfg i v).sig = s.sig := rfl
@[simp] theorem State.setCfg_hands (s : State) (i : Nat) (v : Int) : (s.setCfg i v).hands = s.hands := rfl
@[simp] theorem State.setCfg_lim (s : State) (i : Nat) (v : Int) : (s.setCfg i v).lim = s.lim := rfl
@[simp] theorem State.setCfg_set (s : State) (i : Nat) (v : Int) : (s.setCfg i v).set = s.set := rfl
@[simp] theorem State.setCfg_meas (s : State) (i : Nat) (v : Int) : (s.setCfg i v).meas = s.meas := rfl
@[simp] theorem State.setCfg_reg (s : State) (i : Nat) (v : Int) : (s.setCfg i v).reg = s.reg := rfl
@[simp] theorem State.setCfg_time (s : State) (i : Nat) (v : Int) : (s.setCfg i v).time = s.time := rfl
@[simp] theorem State.setCfg_sched (s : State) (i : Nat) (v : Int) : (s.setCfg i v).sched = s.sched := rfl
@[simp] theorem State.setCfg_chr (s : State) (i : Nat) (v : Int) : (s.setCfg i v).chr = s.chr := rfl
@[simp] theorem State.setCfg_cond (s : State) (i : Nat) (v : Int) : (s.setCfg i v).cond = s.cond := rfl
@[simp] theorem State.setCfg_log (s : State) (i : Nat) (v : Int) : (s.setCfg i v).log = s.log := rfl
@[simp] theorem State.setCfg_saf (s : State) (i : Nat) (v : Int) : (s.setCfg i v).saf = s.saf := rfl
@[simp] theorem State.setCfg_train (s : State) (i : Nat) (v : Int) : (s.setCfg i v).train = s.train := rfl
@[simp] theorem State.setCfg_pair (s : State) (i : Nat) (v : Int) : (s.setCfg i v).pair = s.pair := rfl
@[simp] theorem State.setCfg_feed (s : State) (i : Nat) (v : Int) : (s.setCfg i v).feed = s.feed := rfl
@[simp] theorem State.setCfg_host (s : State) (i : Nat) (v : Int) : (s.setCfg i v).host = s.host := rfl
@[simp] theorem State.setCfg_pwr (s : State) (i : Nat) (v : Int) : (s.setCfg i v).pwr = s.pwr := rfl
@[simp] theorem State.setCfg_waiting (s : State) (i : Nat) (v : Int) : (s.setCfg i v).waiting = s.waiting := rfl
@[simp] theorem State.setCfg_free (s : State) (i : Nat) (v : Int) : (s.setCfg i v).free = s.free := rfl

/-! ### setSig -/

@[simp] theorem State.setSig_pending (s : State) (a : Nat) (w : Word) : (s.setSig a w).pending = s.pending := rfl
@[simp] theorem State.setSig_tick (s : State) (a : Nat) (w : Word) : (s.setSig a w).tick = s.tick := rfl
@[simp] theorem State.setSig_conv (s : State) (a : Nat) (w : Word) : (s.setSig a w).conv = s.conv := rfl
@[simp] theorem State.setSig_bal (s : State) (a : Nat) (w : Word) : (s.setSig a w).bal = s.bal := rfl
@[simp] theorem State.setSig_gt (s : State) (a : Nat) (w : Word) : (s.setSig a w).gt = s.gt := rfl
@[simp] theorem State.setSig_fus (s : State) (a : Nat) (w : Word) : (s.setSig a w).fus = s.fus := rfl
@[simp] theorem State.setSig_loops (s : State) (a : Nat) (w : Word) : (s.setSig a w).loops = s.loops := rfl
@[simp] theorem State.setSig_cells (s : State) (a : Nat) (w : Word) : (s.setSig a w).cells = s.cells := rfl
@[simp] theorem State.setSig_arms (s : State) (a : Nat) (w : Word) : (s.setSig a w).arms = s.arms := rfl
@[simp] theorem State.setSig_mod (s : State) (a : Nat) (w : Word) : (s.setSig a w).mod = s.mod := rfl
@[simp] theorem State.setSig_trips (s : State) (a : Nat) (w : Word) : (s.setSig a w).trips = s.trips := rfl
@[simp] theorem State.setSig_lanes (s : State) (a : Nat) (w : Word) : (s.setSig a w).lanes = s.lanes := rfl
@[simp] theorem State.setSig_esc (s : State) (a : Nat) (w : Word) : (s.setSig a w).esc = s.esc := rfl
@[simp] theorem State.setSig_hands (s : State) (a : Nat) (w : Word) : (s.setSig a w).hands = s.hands := rfl
@[simp] theorem State.setSig_lim (s : State) (a : Nat) (w : Word) : (s.setSig a w).lim = s.lim := rfl
@[simp] theorem State.setSig_set (s : State) (a : Nat) (w : Word) : (s.setSig a w).set = s.set := rfl
@[simp] theorem State.setSig_meas (s : State) (a : Nat) (w : Word) : (s.setSig a w).meas = s.meas := rfl
@[simp] theorem State.setSig_reg (s : State) (a : Nat) (w : Word) : (s.setSig a w).reg = s.reg := rfl
@[simp] theorem State.setSig_time (s : State) (a : Nat) (w : Word) : (s.setSig a w).time = s.time := rfl
@[simp] theorem State.setSig_sched (s : State) (a : Nat) (w : Word) : (s.setSig a w).sched = s.sched := rfl
@[simp] theorem State.setSig_chr (s : State) (a : Nat) (w : Word) : (s.setSig a w).chr = s.chr := rfl
@[simp] theorem State.setSig_cond (s : State) (a : Nat) (w : Word) : (s.setSig a w).cond = s.cond := rfl
@[simp] theorem State.setSig_log (s : State) (a : Nat) (w : Word) : (s.setSig a w).log = s.log := rfl
@[simp] theorem State.setSig_saf (s : State) (a : Nat) (w : Word) : (s.setSig a w).saf = s.saf := rfl
@[simp] theorem State.setSig_train (s : State) (a : Nat) (w : Word) : (s.setSig a w).train = s.train := rfl
@[simp] theorem State.setSig_pair (s : State) (a : Nat) (w : Word) : (s.setSig a w).pair = s.pair := rfl
@[simp] theorem State.setSig_feed (s : State) (a : Nat) (w : Word) : (s.setSig a w).feed = s.feed := rfl
@[simp] theorem State.setSig_host (s : State) (a : Nat) (w : Word) : (s.setSig a w).host = s.host := rfl
@[simp] theorem State.setSig_pwr (s : State) (a : Nat) (w : Word) : (s.setSig a w).pwr = s.pwr := rfl
@[simp] theorem State.setSig_objs (s : State) (a : Nat) (w : Word) : (s.setSig a w).objs = s.objs := rfl
@[simp] theorem State.setSig_waiting (s : State) (a : Nat) (w : Word) : (s.setSig a w).waiting = s.waiting := rfl
@[simp] theorem State.setSig_free (s : State) (a : Nat) (w : Word) : (s.setSig a w).free = s.free := rfl

/-! ### setLane -/

@[simp] theorem State.setLane_pending (s : State) (l : Nat) (f : Lane → Lane) : (s.setLane l f).pending = s.pending := rfl
@[simp] theorem State.setLane_tick (s : State) (l : Nat) (f : Lane → Lane) : (s.setLane l f).tick = s.tick := rfl
@[simp] theorem State.setLane_conv (s : State) (l : Nat) (f : Lane → Lane) : (s.setLane l f).conv = s.conv := rfl
@[simp] theorem State.setLane_bal (s : State) (l : Nat) (f : Lane → Lane) : (s.setLane l f).bal = s.bal := rfl
@[simp] theorem State.setLane_gt (s : State) (l : Nat) (f : Lane → Lane) : (s.setLane l f).gt = s.gt := rfl
@[simp] theorem State.setLane_fus (s : State) (l : Nat) (f : Lane → Lane) : (s.setLane l f).fus = s.fus := rfl
@[simp] theorem State.setLane_loops (s : State) (l : Nat) (f : Lane → Lane) : (s.setLane l f).loops = s.loops := rfl
@[simp] theorem State.setLane_cells (s : State) (l : Nat) (f : Lane → Lane) : (s.setLane l f).cells = s.cells := rfl
@[simp] theorem State.setLane_arms (s : State) (l : Nat) (f : Lane → Lane) : (s.setLane l f).arms = s.arms := rfl
@[simp] theorem State.setLane_mod (s : State) (l : Nat) (f : Lane → Lane) : (s.setLane l f).mod = s.mod := rfl
@[simp] theorem State.setLane_trips (s : State) (l : Nat) (f : Lane → Lane) : (s.setLane l f).trips = s.trips := rfl
@[simp] theorem State.setLane_esc (s : State) (l : Nat) (f : Lane → Lane) : (s.setLane l f).esc = s.esc := rfl
@[simp] theorem State.setLane_sig (s : State) (l : Nat) (f : Lane → Lane) : (s.setLane l f).sig = s.sig := rfl
@[simp] theorem State.setLane_hands (s : State) (l : Nat) (f : Lane → Lane) : (s.setLane l f).hands = s.hands := rfl
@[simp] theorem State.setLane_lim (s : State) (l : Nat) (f : Lane → Lane) : (s.setLane l f).lim = s.lim := rfl
@[simp] theorem State.setLane_set (s : State) (l : Nat) (f : Lane → Lane) : (s.setLane l f).set = s.set := rfl
@[simp] theorem State.setLane_meas (s : State) (l : Nat) (f : Lane → Lane) : (s.setLane l f).meas = s.meas := rfl
@[simp] theorem State.setLane_reg (s : State) (l : Nat) (f : Lane → Lane) : (s.setLane l f).reg = s.reg := rfl
@[simp] theorem State.setLane_time (s : State) (l : Nat) (f : Lane → Lane) : (s.setLane l f).time = s.time := rfl
@[simp] theorem State.setLane_sched (s : State) (l : Nat) (f : Lane → Lane) : (s.setLane l f).sched = s.sched := rfl
@[simp] theorem State.setLane_chr (s : State) (l : Nat) (f : Lane → Lane) : (s.setLane l f).chr = s.chr := rfl
@[simp] theorem State.setLane_cond (s : State) (l : Nat) (f : Lane → Lane) : (s.setLane l f).cond = s.cond := rfl
@[simp] theorem State.setLane_log (s : State) (l : Nat) (f : Lane → Lane) : (s.setLane l f).log = s.log := rfl
@[simp] theorem State.setLane_saf (s : State) (l : Nat) (f : Lane → Lane) : (s.setLane l f).saf = s.saf := rfl
@[simp] theorem State.setLane_train (s : State) (l : Nat) (f : Lane → Lane) : (s.setLane l f).train = s.train := rfl
@[simp] theorem State.setLane_pair (s : State) (l : Nat) (f : Lane → Lane) : (s.setLane l f).pair = s.pair := rfl
@[simp] theorem State.setLane_feed (s : State) (l : Nat) (f : Lane → Lane) : (s.setLane l f).feed = s.feed := rfl
@[simp] theorem State.setLane_host (s : State) (l : Nat) (f : Lane → Lane) : (s.setLane l f).host = s.host := rfl
@[simp] theorem State.setLane_pwr (s : State) (l : Nat) (f : Lane → Lane) : (s.setLane l f).pwr = s.pwr := rfl
@[simp] theorem State.setLane_objs (s : State) (l : Nat) (f : Lane → Lane) : (s.setLane l f).objs = s.objs := rfl
@[simp] theorem State.setLane_waiting (s : State) (l : Nat) (f : Lane → Lane) : (s.setLane l f).waiting = s.waiting := rfl
@[simp] theorem State.setLane_free (s : State) (l : Nat) (f : Lane → Lane) : (s.setLane l f).free = s.free := rfl

/-! ### setCell -/

@[simp] theorem State.setCell_pending (s : State) (c : Nat) (f : Cell → Cell) : (s.setCell c f).pending = s.pending := rfl
@[simp] theorem State.setCell_tick (s : State) (c : Nat) (f : Cell → Cell) : (s.setCell c f).tick = s.tick := rfl
@[simp] theorem State.setCell_conv (s : State) (c : Nat) (f : Cell → Cell) : (s.setCell c f).conv = s.conv := rfl
@[simp] theorem State.setCell_bal (s : State) (c : Nat) (f : Cell → Cell) : (s.setCell c f).bal = s.bal := rfl
@[simp] theorem State.setCell_gt (s : State) (c : Nat) (f : Cell → Cell) : (s.setCell c f).gt = s.gt := rfl
@[simp] theorem State.setCell_fus (s : State) (c : Nat) (f : Cell → Cell) : (s.setCell c f).fus = s.fus := rfl
@[simp] theorem State.setCell_loops (s : State) (c : Nat) (f : Cell → Cell) : (s.setCell c f).loops = s.loops := rfl
@[simp] theorem State.setCell_arms (s : State) (c : Nat) (f : Cell → Cell) : (s.setCell c f).arms = s.arms := rfl
@[simp] theorem State.setCell_mod (s : State) (c : Nat) (f : Cell → Cell) : (s.setCell c f).mod = s.mod := rfl
@[simp] theorem State.setCell_trips (s : State) (c : Nat) (f : Cell → Cell) : (s.setCell c f).trips = s.trips := rfl
@[simp] theorem State.setCell_lanes (s : State) (c : Nat) (f : Cell → Cell) : (s.setCell c f).lanes = s.lanes := rfl
@[simp] theorem State.setCell_esc (s : State) (c : Nat) (f : Cell → Cell) : (s.setCell c f).esc = s.esc := rfl
@[simp] theorem State.setCell_sig (s : State) (c : Nat) (f : Cell → Cell) : (s.setCell c f).sig = s.sig := rfl
@[simp] theorem State.setCell_hands (s : State) (c : Nat) (f : Cell → Cell) : (s.setCell c f).hands = s.hands := rfl
@[simp] theorem State.setCell_lim (s : State) (c : Nat) (f : Cell → Cell) : (s.setCell c f).lim = s.lim := rfl
@[simp] theorem State.setCell_set (s : State) (c : Nat) (f : Cell → Cell) : (s.setCell c f).set = s.set := rfl
@[simp] theorem State.setCell_meas (s : State) (c : Nat) (f : Cell → Cell) : (s.setCell c f).meas = s.meas := rfl
@[simp] theorem State.setCell_reg (s : State) (c : Nat) (f : Cell → Cell) : (s.setCell c f).reg = s.reg := rfl
@[simp] theorem State.setCell_time (s : State) (c : Nat) (f : Cell → Cell) : (s.setCell c f).time = s.time := rfl
@[simp] theorem State.setCell_sched (s : State) (c : Nat) (f : Cell → Cell) : (s.setCell c f).sched = s.sched := rfl
@[simp] theorem State.setCell_chr (s : State) (c : Nat) (f : Cell → Cell) : (s.setCell c f).chr = s.chr := rfl
@[simp] theorem State.setCell_cond (s : State) (c : Nat) (f : Cell → Cell) : (s.setCell c f).cond = s.cond := rfl
@[simp] theorem State.setCell_log (s : State) (c : Nat) (f : Cell → Cell) : (s.setCell c f).log = s.log := rfl
@[simp] theorem State.setCell_saf (s : State) (c : Nat) (f : Cell → Cell) : (s.setCell c f).saf = s.saf := rfl
@[simp] theorem State.setCell_train (s : State) (c : Nat) (f : Cell → Cell) : (s.setCell c f).train = s.train := rfl
@[simp] theorem State.setCell_pair (s : State) (c : Nat) (f : Cell → Cell) : (s.setCell c f).pair = s.pair := rfl
@[simp] theorem State.setCell_feed (s : State) (c : Nat) (f : Cell → Cell) : (s.setCell c f).feed = s.feed := rfl
@[simp] theorem State.setCell_host (s : State) (c : Nat) (f : Cell → Cell) : (s.setCell c f).host = s.host := rfl
@[simp] theorem State.setCell_pwr (s : State) (c : Nat) (f : Cell → Cell) : (s.setCell c f).pwr = s.pwr := rfl
@[simp] theorem State.setCell_objs (s : State) (c : Nat) (f : Cell → Cell) : (s.setCell c f).objs = s.objs := rfl
@[simp] theorem State.setCell_waiting (s : State) (c : Nat) (f : Cell → Cell) : (s.setCell c f).waiting = s.waiting := rfl
@[simp] theorem State.setCell_free (s : State) (c : Nat) (f : Cell → Cell) : (s.setCell c f).free = s.free := rfl

/-! ### setMbox -/

@[simp] theorem State.setMbox_pending (s : State) (n : Nat) (f : Mailbox → Mailbox) : (s.setMbox n f).pending = s.pending := rfl
@[simp] theorem State.setMbox_tick (s : State) (n : Nat) (f : Mailbox → Mailbox) : (s.setMbox n f).tick = s.tick := rfl
@[simp] theorem State.setMbox_conv (s : State) (n : Nat) (f : Mailbox → Mailbox) : (s.setMbox n f).conv = s.conv := rfl
@[simp] theorem State.setMbox_bal (s : State) (n : Nat) (f : Mailbox → Mailbox) : (s.setMbox n f).bal = s.bal := rfl
@[simp] theorem State.setMbox_gt (s : State) (n : Nat) (f : Mailbox → Mailbox) : (s.setMbox n f).gt = s.gt := rfl
@[simp] theorem State.setMbox_fus (s : State) (n : Nat) (f : Mailbox → Mailbox) : (s.setMbox n f).fus = s.fus := rfl
@[simp] theorem State.setMbox_loops (s : State) (n : Nat) (f : Mailbox → Mailbox) : (s.setMbox n f).loops = s.loops := rfl
@[simp] theorem State.setMbox_cells (s : State) (n : Nat) (f : Mailbox → Mailbox) : (s.setMbox n f).cells = s.cells := rfl
@[simp] theorem State.setMbox_arms (s : State) (n : Nat) (f : Mailbox → Mailbox) : (s.setMbox n f).arms = s.arms := rfl
@[simp] theorem State.setMbox_mod (s : State) (n : Nat) (f : Mailbox → Mailbox) : (s.setMbox n f).mod = s.mod := rfl
@[simp] theorem State.setMbox_trips (s : State) (n : Nat) (f : Mailbox → Mailbox) : (s.setMbox n f).trips = s.trips := rfl
@[simp] theorem State.setMbox_lanes (s : State) (n : Nat) (f : Mailbox → Mailbox) : (s.setMbox n f).lanes = s.lanes := rfl
@[simp] theorem State.setMbox_esc (s : State) (n : Nat) (f : Mailbox → Mailbox) : (s.setMbox n f).esc = s.esc := rfl
@[simp] theorem State.setMbox_sig (s : State) (n : Nat) (f : Mailbox → Mailbox) : (s.setMbox n f).sig = s.sig := rfl
@[simp] theorem State.setMbox_hands (s : State) (n : Nat) (f : Mailbox → Mailbox) : (s.setMbox n f).hands = s.hands := rfl
@[simp] theorem State.setMbox_lim (s : State) (n : Nat) (f : Mailbox → Mailbox) : (s.setMbox n f).lim = s.lim := rfl
@[simp] theorem State.setMbox_set (s : State) (n : Nat) (f : Mailbox → Mailbox) : (s.setMbox n f).set = s.set := rfl
@[simp] theorem State.setMbox_meas (s : State) (n : Nat) (f : Mailbox → Mailbox) : (s.setMbox n f).meas = s.meas := rfl
@[simp] theorem State.setMbox_reg (s : State) (n : Nat) (f : Mailbox → Mailbox) : (s.setMbox n f).reg = s.reg := rfl
@[simp] theorem State.setMbox_time (s : State) (n : Nat) (f : Mailbox → Mailbox) : (s.setMbox n f).time = s.time := rfl
@[simp] theorem State.setMbox_sched (s : State) (n : Nat) (f : Mailbox → Mailbox) : (s.setMbox n f).sched = s.sched := rfl
@[simp] theorem State.setMbox_chr (s : State) (n : Nat) (f : Mailbox → Mailbox) : (s.setMbox n f).chr = s.chr := rfl
@[simp] theorem State.setMbox_cond (s : State) (n : Nat) (f : Mailbox → Mailbox) : (s.setMbox n f).cond = s.cond := rfl
@[simp] theorem State.setMbox_log (s : State) (n : Nat) (f : Mailbox → Mailbox) : (s.setMbox n f).log = s.log := rfl
@[simp] theorem State.setMbox_saf (s : State) (n : Nat) (f : Mailbox → Mailbox) : (s.setMbox n f).saf = s.saf := rfl
@[simp] theorem State.setMbox_train (s : State) (n : Nat) (f : Mailbox → Mailbox) : (s.setMbox n f).train = s.train := rfl
@[simp] theorem State.setMbox_pair (s : State) (n : Nat) (f : Mailbox → Mailbox) : (s.setMbox n f).pair = s.pair := rfl
@[simp] theorem State.setMbox_feed (s : State) (n : Nat) (f : Mailbox → Mailbox) : (s.setMbox n f).feed = s.feed := rfl
@[simp] theorem State.setMbox_pwr (s : State) (n : Nat) (f : Mailbox → Mailbox) : (s.setMbox n f).pwr = s.pwr := rfl
@[simp] theorem State.setMbox_objs (s : State) (n : Nat) (f : Mailbox → Mailbox) : (s.setMbox n f).objs = s.objs := rfl
@[simp] theorem State.setMbox_waiting (s : State) (n : Nat) (f : Mailbox → Mailbox) : (s.setMbox n f).waiting = s.waiting := rfl
@[simp] theorem State.setMbox_free (s : State) (n : Nat) (f : Mailbox → Mailbox) : (s.setMbox n f).free = s.free := rfl

/-! ### emit -/

@[simp] theorem State.emit_pending (s : State) (o : HostOut) : (s.emit o).pending = s.pending := rfl
@[simp] theorem State.emit_tick (s : State) (o : HostOut) : (s.emit o).tick = s.tick := rfl
@[simp] theorem State.emit_conv (s : State) (o : HostOut) : (s.emit o).conv = s.conv := rfl
@[simp] theorem State.emit_bal (s : State) (o : HostOut) : (s.emit o).bal = s.bal := rfl
@[simp] theorem State.emit_gt (s : State) (o : HostOut) : (s.emit o).gt = s.gt := rfl
@[simp] theorem State.emit_fus (s : State) (o : HostOut) : (s.emit o).fus = s.fus := rfl
@[simp] theorem State.emit_loops (s : State) (o : HostOut) : (s.emit o).loops = s.loops := rfl
@[simp] theorem State.emit_cells (s : State) (o : HostOut) : (s.emit o).cells = s.cells := rfl
@[simp] theorem State.emit_arms (s : State) (o : HostOut) : (s.emit o).arms = s.arms := rfl
@[simp] theorem State.emit_mod (s : State) (o : HostOut) : (s.emit o).mod = s.mod := rfl
@[simp] theorem State.emit_trips (s : State) (o : HostOut) : (s.emit o).trips = s.trips := rfl
@[simp] theorem State.emit_lanes (s : State) (o : HostOut) : (s.emit o).lanes = s.lanes := rfl
@[simp] theorem State.emit_esc (s : State) (o : HostOut) : (s.emit o).esc = s.esc := rfl
@[simp] theorem State.emit_sig (s : State) (o : HostOut) : (s.emit o).sig = s.sig := rfl
@[simp] theorem State.emit_hands (s : State) (o : HostOut) : (s.emit o).hands = s.hands := rfl
@[simp] theorem State.emit_lim (s : State) (o : HostOut) : (s.emit o).lim = s.lim := rfl
@[simp] theorem State.emit_set (s : State) (o : HostOut) : (s.emit o).set = s.set := rfl
@[simp] theorem State.emit_meas (s : State) (o : HostOut) : (s.emit o).meas = s.meas := rfl
@[simp] theorem State.emit_reg (s : State) (o : HostOut) : (s.emit o).reg = s.reg := rfl
@[simp] theorem State.emit_time (s : State) (o : HostOut) : (s.emit o).time = s.time := rfl
@[simp] theorem State.emit_sched (s : State) (o : HostOut) : (s.emit o).sched = s.sched := rfl
@[simp] theorem State.emit_chr (s : State) (o : HostOut) : (s.emit o).chr = s.chr := rfl
@[simp] theorem State.emit_cond (s : State) (o : HostOut) : (s.emit o).cond = s.cond := rfl
@[simp] theorem State.emit_log (s : State) (o : HostOut) : (s.emit o).log = s.log := rfl
@[simp] theorem State.emit_saf (s : State) (o : HostOut) : (s.emit o).saf = s.saf := rfl
@[simp] theorem State.emit_train (s : State) (o : HostOut) : (s.emit o).train = s.train := rfl
@[simp] theorem State.emit_pair (s : State) (o : HostOut) : (s.emit o).pair = s.pair := rfl
@[simp] theorem State.emit_feed (s : State) (o : HostOut) : (s.emit o).feed = s.feed := rfl
@[simp] theorem State.emit_pwr (s : State) (o : HostOut) : (s.emit o).pwr = s.pwr := rfl
@[simp] theorem State.emit_objs (s : State) (o : HostOut) : (s.emit o).objs = s.objs := rfl
@[simp] theorem State.emit_waiting (s : State) (o : HostOut) : (s.emit o).waiting = s.waiting := rfl
@[simp] theorem State.emit_free (s : State) (o : HostOut) : (s.emit o).free = s.free := rfl

/-! ### fresh -/

@[simp] theorem State.fresh_pending (s : State) : (s.fresh).pending = s.pending := rfl
@[simp] theorem State.fresh_tick (s : State) : (s.fresh).tick = s.tick := rfl
@[simp] theorem State.fresh_conv (s : State) : (s.fresh).conv = s.conv := rfl
@[simp] theorem State.fresh_bal (s : State) : (s.fresh).bal = s.bal := rfl
@[simp] theorem State.fresh_gt (s : State) : (s.fresh).gt = s.gt := rfl
@[simp] theorem State.fresh_fus (s : State) : (s.fresh).fus = s.fus := rfl
@[simp] theorem State.fresh_loops (s : State) : (s.fresh).loops = s.loops := rfl
@[simp] theorem State.fresh_cells (s : State) : (s.fresh).cells = s.cells := rfl
@[simp] theorem State.fresh_arms (s : State) : (s.fresh).arms = s.arms := rfl
@[simp] theorem State.fresh_mod (s : State) : (s.fresh).mod = s.mod := rfl
@[simp] theorem State.fresh_trips (s : State) : (s.fresh).trips = s.trips := rfl
@[simp] theorem State.fresh_lanes (s : State) : (s.fresh).lanes = s.lanes := rfl
@[simp] theorem State.fresh_esc (s : State) : (s.fresh).esc = s.esc := rfl
@[simp] theorem State.fresh_sig (s : State) : (s.fresh).sig = s.sig := rfl
@[simp] theorem State.fresh_hands (s : State) : (s.fresh).hands = s.hands := rfl
@[simp] theorem State.fresh_lim (s : State) : (s.fresh).lim = s.lim := rfl
@[simp] theorem State.fresh_set (s : State) : (s.fresh).set = s.set := rfl
@[simp] theorem State.fresh_meas (s : State) : (s.fresh).meas = s.meas := rfl
@[simp] theorem State.fresh_reg (s : State) : (s.fresh).reg = s.reg := rfl
@[simp] theorem State.fresh_time (s : State) : (s.fresh).time = s.time := rfl
@[simp] theorem State.fresh_sched (s : State) : (s.fresh).sched = s.sched := rfl
@[simp] theorem State.fresh_chr (s : State) : (s.fresh).chr = s.chr := rfl
@[simp] theorem State.fresh_cond (s : State) : (s.fresh).cond = s.cond := rfl
@[simp] theorem State.fresh_log (s : State) : (s.fresh).log = s.log := rfl
@[simp] theorem State.fresh_saf (s : State) : (s.fresh).saf = s.saf := rfl
@[simp] theorem State.fresh_train (s : State) : (s.fresh).train = s.train := rfl
@[simp] theorem State.fresh_pair (s : State) : (s.fresh).pair = s.pair := rfl
@[simp] theorem State.fresh_feed (s : State) : (s.fresh).feed = s.feed := rfl
@[simp] theorem State.fresh_host (s : State) : (s.fresh).host = s.host := rfl
@[simp] theorem State.fresh_pwr (s : State) : (s.fresh).pwr = s.pwr := rfl
@[simp] theorem State.fresh_objs (s : State) : (s.fresh).objs = s.objs := rfl
@[simp] theorem State.fresh_waiting (s : State) : (s.fresh).waiting = s.waiting := rfl

/-! ### condEvent -/

@[simp] theorem State.condEvent_pending (s : State) (b : Nat) : (s.condEvent b).pending = s.pending := rfl
@[simp] theorem State.condEvent_tick (s : State) (b : Nat) : (s.condEvent b).tick = s.tick := rfl
@[simp] theorem State.condEvent_conv (s : State) (b : Nat) : (s.condEvent b).conv = s.conv := rfl
@[simp] theorem State.condEvent_bal (s : State) (b : Nat) : (s.condEvent b).bal = s.bal := rfl
@[simp] theorem State.condEvent_gt (s : State) (b : Nat) : (s.condEvent b).gt = s.gt := rfl
@[simp] theorem State.condEvent_fus (s : State) (b : Nat) : (s.condEvent b).fus = s.fus := rfl
@[simp] theorem State.condEvent_loops (s : State) (b : Nat) : (s.condEvent b).loops = s.loops := rfl
@[simp] theorem State.condEvent_cells (s : State) (b : Nat) : (s.condEvent b).cells = s.cells := rfl
@[simp] theorem State.condEvent_arms (s : State) (b : Nat) : (s.condEvent b).arms = s.arms := rfl
@[simp] theorem State.condEvent_mod (s : State) (b : Nat) : (s.condEvent b).mod = s.mod := rfl
@[simp] theorem State.condEvent_trips (s : State) (b : Nat) : (s.condEvent b).trips = s.trips := rfl
@[simp] theorem State.condEvent_lanes (s : State) (b : Nat) : (s.condEvent b).lanes = s.lanes := rfl
@[simp] theorem State.condEvent_esc (s : State) (b : Nat) : (s.condEvent b).esc = s.esc := rfl
@[simp] theorem State.condEvent_sig (s : State) (b : Nat) : (s.condEvent b).sig = s.sig := rfl
@[simp] theorem State.condEvent_hands (s : State) (b : Nat) : (s.condEvent b).hands = s.hands := rfl
@[simp] theorem State.condEvent_lim (s : State) (b : Nat) : (s.condEvent b).lim = s.lim := rfl
@[simp] theorem State.condEvent_set (s : State) (b : Nat) : (s.condEvent b).set = s.set := rfl
@[simp] theorem State.condEvent_meas (s : State) (b : Nat) : (s.condEvent b).meas = s.meas := rfl
@[simp] theorem State.condEvent_reg (s : State) (b : Nat) : (s.condEvent b).reg = s.reg := rfl
@[simp] theorem State.condEvent_time (s : State) (b : Nat) : (s.condEvent b).time = s.time := rfl
@[simp] theorem State.condEvent_sched (s : State) (b : Nat) : (s.condEvent b).sched = s.sched := rfl
@[simp] theorem State.condEvent_chr (s : State) (b : Nat) : (s.condEvent b).chr = s.chr := rfl
@[simp] theorem State.condEvent_log (s : State) (b : Nat) : (s.condEvent b).log = s.log := rfl
@[simp] theorem State.condEvent_saf (s : State) (b : Nat) : (s.condEvent b).saf = s.saf := rfl
@[simp] theorem State.condEvent_train (s : State) (b : Nat) : (s.condEvent b).train = s.train := rfl
@[simp] theorem State.condEvent_pair (s : State) (b : Nat) : (s.condEvent b).pair = s.pair := rfl
@[simp] theorem State.condEvent_feed (s : State) (b : Nat) : (s.condEvent b).feed = s.feed := rfl
@[simp] theorem State.condEvent_host (s : State) (b : Nat) : (s.condEvent b).host = s.host := rfl
@[simp] theorem State.condEvent_pwr (s : State) (b : Nat) : (s.condEvent b).pwr = s.pwr := rfl
@[simp] theorem State.condEvent_objs (s : State) (b : Nat) : (s.condEvent b).objs = s.objs := rfl
@[simp] theorem State.condEvent_waiting (s : State) (b : Nat) : (s.condEvent b).waiting = s.waiting := rfl
@[simp] theorem State.condEvent_free (s : State) (b : Nat) : (s.condEvent b).free = s.free := rfl

/-! ### postAt -/

@[simp] theorem State.postAt_pending (s : State) (t c i : Nat) (d : List Byte) : (s.postAt t c i d).pending = s.pending := by rw [State.postAt_eq]
@[simp] theorem State.postAt_tick (s : State) (t c i : Nat) (d : List Byte) : (s.postAt t c i d).tick = s.tick := by rw [State.postAt_eq]
@[simp] theorem State.postAt_conv (s : State) (t c i : Nat) (d : List Byte) : (s.postAt t c i d).conv = s.conv := by rw [State.postAt_eq]
@[simp] theorem State.postAt_bal (s : State) (t c i : Nat) (d : List Byte) : (s.postAt t c i d).bal = s.bal := by rw [State.postAt_eq]
@[simp] theorem State.postAt_gt (s : State) (t c i : Nat) (d : List Byte) : (s.postAt t c i d).gt = s.gt := by rw [State.postAt_eq]
@[simp] theorem State.postAt_fus (s : State) (t c i : Nat) (d : List Byte) : (s.postAt t c i d).fus = s.fus := by rw [State.postAt_eq]
@[simp] theorem State.postAt_loops (s : State) (t c i : Nat) (d : List Byte) : (s.postAt t c i d).loops = s.loops := by rw [State.postAt_eq]
@[simp] theorem State.postAt_cells (s : State) (t c i : Nat) (d : List Byte) : (s.postAt t c i d).cells = s.cells := by rw [State.postAt_eq]
@[simp] theorem State.postAt_arms (s : State) (t c i : Nat) (d : List Byte) : (s.postAt t c i d).arms = s.arms := by rw [State.postAt_eq]
@[simp] theorem State.postAt_mod (s : State) (t c i : Nat) (d : List Byte) : (s.postAt t c i d).mod = s.mod := by rw [State.postAt_eq]
@[simp] theorem State.postAt_trips (s : State) (t c i : Nat) (d : List Byte) : (s.postAt t c i d).trips = s.trips := by rw [State.postAt_eq]
@[simp] theorem State.postAt_lanes (s : State) (t c i : Nat) (d : List Byte) : (s.postAt t c i d).lanes = s.lanes := by rw [State.postAt_eq]
@[simp] theorem State.postAt_esc (s : State) (t c i : Nat) (d : List Byte) : (s.postAt t c i d).esc = s.esc := by rw [State.postAt_eq]
@[simp] theorem State.postAt_sig (s : State) (t c i : Nat) (d : List Byte) : (s.postAt t c i d).sig = s.sig := by rw [State.postAt_eq]
@[simp] theorem State.postAt_hands (s : State) (t c i : Nat) (d : List Byte) : (s.postAt t c i d).hands = s.hands := by rw [State.postAt_eq]
@[simp] theorem State.postAt_lim (s : State) (t c i : Nat) (d : List Byte) : (s.postAt t c i d).lim = s.lim := by rw [State.postAt_eq]
@[simp] theorem State.postAt_set (s : State) (t c i : Nat) (d : List Byte) : (s.postAt t c i d).set = s.set := by rw [State.postAt_eq]
@[simp] theorem State.postAt_meas (s : State) (t c i : Nat) (d : List Byte) : (s.postAt t c i d).meas = s.meas := by rw [State.postAt_eq]
@[simp] theorem State.postAt_reg (s : State) (t c i : Nat) (d : List Byte) : (s.postAt t c i d).reg = s.reg := by rw [State.postAt_eq]
@[simp] theorem State.postAt_time (s : State) (t c i : Nat) (d : List Byte) : (s.postAt t c i d).time = s.time := by rw [State.postAt_eq]
@[simp] theorem State.postAt_sched (s : State) (t c i : Nat) (d : List Byte) : (s.postAt t c i d).sched = s.sched := by rw [State.postAt_eq]
@[simp] theorem State.postAt_chr (s : State) (t c i : Nat) (d : List Byte) : (s.postAt t c i d).chr = s.chr := by rw [State.postAt_eq]
@[simp] theorem State.postAt_cond (s : State) (t c i : Nat) (d : List Byte) : (s.postAt t c i d).cond = s.cond := by rw [State.postAt_eq]
@[simp] theorem State.postAt_saf (s : State) (t c i : Nat) (d : List Byte) : (s.postAt t c i d).saf = s.saf := by rw [State.postAt_eq]
@[simp] theorem State.postAt_train (s : State) (t c i : Nat) (d : List Byte) : (s.postAt t c i d).train = s.train := by rw [State.postAt_eq]
@[simp] theorem State.postAt_pair (s : State) (t c i : Nat) (d : List Byte) : (s.postAt t c i d).pair = s.pair := by rw [State.postAt_eq]
@[simp] theorem State.postAt_feed (s : State) (t c i : Nat) (d : List Byte) : (s.postAt t c i d).feed = s.feed := by rw [State.postAt_eq]
@[simp] theorem State.postAt_host (s : State) (t c i : Nat) (d : List Byte) : (s.postAt t c i d).host = s.host := by rw [State.postAt_eq]
@[simp] theorem State.postAt_pwr (s : State) (t c i : Nat) (d : List Byte) : (s.postAt t c i d).pwr = s.pwr := by rw [State.postAt_eq]
@[simp] theorem State.postAt_objs (s : State) (t c i : Nat) (d : List Byte) : (s.postAt t c i d).objs = s.objs := by rw [State.postAt_eq]
@[simp] theorem State.postAt_waiting (s : State) (t c i : Nat) (d : List Byte) : (s.postAt t c i d).waiting = s.waiting := by rw [State.postAt_eq]
@[simp] theorem State.postAt_free (s : State) (t c i : Nat) (d : List Byte) : (s.postAt t c i d).free = s.free := by rw [State.postAt_eq]

/-! ### post -/

@[simp] theorem State.post_pending (s : State) (c i : Nat) (d : List Byte) : (s.post c i d).pending = s.pending := State.postAt_pending _ _ _ _ _
@[simp] theorem State.post_tick (s : State) (c i : Nat) (d : List Byte) : (s.post c i d).tick = s.tick := State.postAt_tick _ _ _ _ _
@[simp] theorem State.post_conv (s : State) (c i : Nat) (d : List Byte) : (s.post c i d).conv = s.conv := State.postAt_conv _ _ _ _ _
@[simp] theorem State.post_bal (s : State) (c i : Nat) (d : List Byte) : (s.post c i d).bal = s.bal := State.postAt_bal _ _ _ _ _
@[simp] theorem State.post_gt (s : State) (c i : Nat) (d : List Byte) : (s.post c i d).gt = s.gt := State.postAt_gt _ _ _ _ _
@[simp] theorem State.post_fus (s : State) (c i : Nat) (d : List Byte) : (s.post c i d).fus = s.fus := State.postAt_fus _ _ _ _ _
@[simp] theorem State.post_loops (s : State) (c i : Nat) (d : List Byte) : (s.post c i d).loops = s.loops := State.postAt_loops _ _ _ _ _
@[simp] theorem State.post_cells (s : State) (c i : Nat) (d : List Byte) : (s.post c i d).cells = s.cells := State.postAt_cells _ _ _ _ _
@[simp] theorem State.post_arms (s : State) (c i : Nat) (d : List Byte) : (s.post c i d).arms = s.arms := State.postAt_arms _ _ _ _ _
@[simp] theorem State.post_mod (s : State) (c i : Nat) (d : List Byte) : (s.post c i d).mod = s.mod := State.postAt_mod _ _ _ _ _
@[simp] theorem State.post_trips (s : State) (c i : Nat) (d : List Byte) : (s.post c i d).trips = s.trips := State.postAt_trips _ _ _ _ _
@[simp] theorem State.post_lanes (s : State) (c i : Nat) (d : List Byte) : (s.post c i d).lanes = s.lanes := State.postAt_lanes _ _ _ _ _
@[simp] theorem State.post_esc (s : State) (c i : Nat) (d : List Byte) : (s.post c i d).esc = s.esc := State.postAt_esc _ _ _ _ _
@[simp] theorem State.post_sig (s : State) (c i : Nat) (d : List Byte) : (s.post c i d).sig = s.sig := State.postAt_sig _ _ _ _ _
@[simp] theorem State.post_hands (s : State) (c i : Nat) (d : List Byte) : (s.post c i d).hands = s.hands := State.postAt_hands _ _ _ _ _
@[simp] theorem State.post_lim (s : State) (c i : Nat) (d : List Byte) : (s.post c i d).lim = s.lim := State.postAt_lim _ _ _ _ _
@[simp] theorem State.post_set (s : State) (c i : Nat) (d : List Byte) : (s.post c i d).set = s.set := State.postAt_set _ _ _ _ _
@[simp] theorem State.post_meas (s : State) (c i : Nat) (d : List Byte) : (s.post c i d).meas = s.meas := State.postAt_meas _ _ _ _ _
@[simp] theorem State.post_reg (s : State) (c i : Nat) (d : List Byte) : (s.post c i d).reg = s.reg := State.postAt_reg _ _ _ _ _
@[simp] theorem State.post_time (s : State) (c i : Nat) (d : List Byte) : (s.post c i d).time = s.time := State.postAt_time _ _ _ _ _
@[simp] theorem State.post_sched (s : State) (c i : Nat) (d : List Byte) : (s.post c i d).sched = s.sched := State.postAt_sched _ _ _ _ _
@[simp] theorem State.post_chr (s : State) (c i : Nat) (d : List Byte) : (s.post c i d).chr = s.chr := State.postAt_chr _ _ _ _ _
@[simp] theorem State.post_cond (s : State) (c i : Nat) (d : List Byte) : (s.post c i d).cond = s.cond := State.postAt_cond _ _ _ _ _
@[simp] theorem State.post_saf (s : State) (c i : Nat) (d : List Byte) : (s.post c i d).saf = s.saf := State.postAt_saf _ _ _ _ _
@[simp] theorem State.post_train (s : State) (c i : Nat) (d : List Byte) : (s.post c i d).train = s.train := State.postAt_train _ _ _ _ _
@[simp] theorem State.post_pair (s : State) (c i : Nat) (d : List Byte) : (s.post c i d).pair = s.pair := State.postAt_pair _ _ _ _ _
@[simp] theorem State.post_feed (s : State) (c i : Nat) (d : List Byte) : (s.post c i d).feed = s.feed := State.postAt_feed _ _ _ _ _
@[simp] theorem State.post_host (s : State) (c i : Nat) (d : List Byte) : (s.post c i d).host = s.host := State.postAt_host _ _ _ _ _
@[simp] theorem State.post_pwr (s : State) (c i : Nat) (d : List Byte) : (s.post c i d).pwr = s.pwr := State.postAt_pwr _ _ _ _ _
@[simp] theorem State.post_objs (s : State) (c i : Nat) (d : List Byte) : (s.post c i d).objs = s.objs := State.postAt_objs _ _ _ _ _
@[simp] theorem State.post_waiting (s : State) (c i : Nat) (d : List Byte) : (s.post c i d).waiting = s.waiting := State.postAt_waiting _ _ _ _ _
@[simp] theorem State.post_free (s : State) (c i : Nat) (d : List Byte) : (s.post c i d).free = s.free := State.postAt_free _ _ _ _ _

/-! ### clearOut -/

@[simp] theorem State.clearOut_pending (s : State) : (s.clearOut).pending = s.pending := rfl
@[simp] theorem State.clearOut_tick (s : State) : (s.clearOut).tick = s.tick := rfl
@[simp] theorem State.clearOut_conv (s : State) : (s.clearOut).conv = s.conv := rfl
@[simp] theorem State.clearOut_bal (s : State) : (s.clearOut).bal = s.bal := rfl
@[simp] theorem State.clearOut_gt (s : State) : (s.clearOut).gt = s.gt := rfl
@[simp] theorem State.clearOut_fus (s : State) : (s.clearOut).fus = s.fus := rfl
@[simp] theorem State.clearOut_loops (s : State) : (s.clearOut).loops = s.loops := rfl
@[simp] theorem State.clearOut_cells (s : State) : (s.clearOut).cells = s.cells := rfl
@[simp] theorem State.clearOut_arms (s : State) : (s.clearOut).arms = s.arms := rfl
@[simp] theorem State.clearOut_mod (s : State) : (s.clearOut).mod = s.mod := rfl
@[simp] theorem State.clearOut_trips (s : State) : (s.clearOut).trips = s.trips := rfl
@[simp] theorem State.clearOut_lanes (s : State) : (s.clearOut).lanes = s.lanes := rfl
@[simp] theorem State.clearOut_esc (s : State) : (s.clearOut).esc = s.esc := rfl
@[simp] theorem State.clearOut_sig (s : State) : (s.clearOut).sig = s.sig := rfl
@[simp] theorem State.clearOut_hands (s : State) : (s.clearOut).hands = s.hands := rfl
@[simp] theorem State.clearOut_lim (s : State) : (s.clearOut).lim = s.lim := rfl
@[simp] theorem State.clearOut_set (s : State) : (s.clearOut).set = s.set := rfl
@[simp] theorem State.clearOut_meas (s : State) : (s.clearOut).meas = s.meas := rfl
@[simp] theorem State.clearOut_reg (s : State) : (s.clearOut).reg = s.reg := rfl
@[simp] theorem State.clearOut_sched (s : State) : (s.clearOut).sched = s.sched := rfl
@[simp] theorem State.clearOut_chr (s : State) : (s.clearOut).chr = s.chr := rfl
@[simp] theorem State.clearOut_cond (s : State) : (s.clearOut).cond = s.cond := rfl
@[simp] theorem State.clearOut_log (s : State) : (s.clearOut).log = s.log := rfl
@[simp] theorem State.clearOut_saf (s : State) : (s.clearOut).saf = s.saf := rfl
@[simp] theorem State.clearOut_train (s : State) : (s.clearOut).train = s.train := rfl
@[simp] theorem State.clearOut_pair (s : State) : (s.clearOut).pair = s.pair := rfl
@[simp] theorem State.clearOut_feed (s : State) : (s.clearOut).feed = s.feed := rfl
@[simp] theorem State.clearOut_pwr (s : State) : (s.clearOut).pwr = s.pwr := rfl
@[simp] theorem State.clearOut_objs (s : State) : (s.clearOut).objs = s.objs := rfl
@[simp] theorem State.clearOut_waiting (s : State) : (s.clearOut).waiting = s.waiting := rfl
@[simp] theorem State.clearOut_free (s : State) : (s.clearOut).free = s.free := rfl

/-! ### What is computed from the objects alone -/

theorem State.cfg_congr {s t : State} (h : t.objs = s.objs) (i : Nat) : t.cfg i = s.cfg i := by unfold State.cfg; rw [h]
theorem State.cfgN_congr {s t : State} (h : t.objs = s.objs) (i : Nat) : t.cfgN i = s.cfgN i := by unfold State.cfgN State.cfg; rw [h]

end Sys2Proof.Machine
end

