-- ==== Sys2Proof/Laws/Store.lean ====
section
/-!
SUPPORT. The store of the written objects' values (00, Default; R18): reading after writing, and the canonical form every write keeps, so
that equal values are equal data.
-/
namespace Sys2Proof.Machine

/-! ### The canonical form -/

theorem mem_objsInsert (l : List (Nat × Int)) (i : Nat) (v : Int) (p : Nat × Int) (h : p ∈ objsInsert l i v) : p = (i, v) ∨ p ∈ l := by
  induction l with
  | nil => simpa [objsInsert] using h
  | cons q l ih =>
    obtain ⟨j, w⟩ := q
    unfold objsInsert at h
    split at h
    · simpa using h
    split at h
    · simp only [List.mem_cons] at h ⊢; tauto
    · simp only [List.mem_cons] at h ⊢
      rcases h with h | h
      · tauto
      · rcases ih h with h | h <;> tauto

theorem objsInsert_wf (l : List (Nat × Int)) (i : Nat) (v : Int) (hv : v ≠ objDefault i) (h : objsWf l = true) :
    objsWf (objsInsert l i v) = true := by
  induction l with
  | nil => simp [objsInsert, objsWf, hv]
  | cons q l ih =>
    obtain ⟨j, w⟩ := q
    simp only [objsWf, Bool.and_eq_true, decide_eq_true_eq, List.all_eq_true] at h
    obtain ⟨⟨hw, hl⟩, hr⟩ := h
    unfold objsInsert
    split
    · rename_i hij
      simp only [objsWf, Bool.and_eq_true, decide_eq_true_eq, List.all_eq_true, List.mem_cons]
      refine ⟨⟨hv, ?_⟩, ⟨hw, hl⟩, hr⟩
      rintro p (rfl | hp)
      · exact hij
      · exact lt_trans hij (hl p hp)
    split
    · rename_i hij
      subst hij
      simp only [objsWf, Bool.and_eq_true, decide_eq_true_eq, List.all_eq_true]
      exact ⟨⟨hv, hl⟩, hr⟩
    · simp only [objsWf, Bool.and_eq_true, decide_eq_true_eq, List.all_eq_true]
      refine ⟨⟨hw, ?_⟩, ih hr⟩
      intro p hp
      rcases mem_objsInsert l i v p hp with rfl | hp
      · simp only; omega
      · exact hl p hp

theorem objsFilter_wf (l : List (Nat × Int)) (p : Nat × Int → Bool) (h : objsWf l = true) : objsWf (l.filter p) = true := by
  induction l with
  | nil => rfl
  | cons q l ih =>
    obtain ⟨j, w⟩ := q
    simp only [objsWf, Bool.and_eq_true, decide_eq_true_eq, List.all_eq_true] at h
    obtain ⟨⟨hw, hl⟩, hr⟩ := h
    rw [List.filter_cons]
    split
    · simp only [objsWf, Bool.and_eq_true, decide_eq_true_eq, List.all_eq_true]
      exact ⟨⟨hw, fun p hp => hl p (List.mem_of_mem_filter hp)⟩, ih hr⟩
    · exact ih hr

theorem objsSet_wf (l : List (Nat × Int)) (i : Nat) (v : Int) (h : objsWf l = true) : objsWf (objsSet l i v) = true := by
  unfold objsSet
  split
  · exact objsFilter_wf _ _ h
  · rename_i hv; exact objsInsert_wf _ _ _ hv h

/-! ### Reading after writing -/

theorem objsGet_insert_same (l : List (Nat × Int)) (i : Nat) (v : Int) : objsGet (objsInsert l i v) i = v := by
  induction l with
  | nil => simp [objsInsert, objsGet]
  | cons q l ih =>
    obtain ⟨j, w⟩ := q
    unfold objsInsert
    split
    · simp [objsGet]
    split
    · simp [objsGet]
    · rename_i h
      simp [objsGet, h, ih]

theorem objsGet_insert_other (l : List (Nat × Int)) (i k : Nat) (v : Int) (h : k ≠ i) : objsGet (objsInsert l i v) k = objsGet l k := by
  induction l with
  | nil => simp [objsInsert, objsGet, h]
  | cons q l ih =>
    obtain ⟨j, w⟩ := q
    unfold objsInsert
    split
    · simp [objsGet, h]
    split
    · rename_i hij
      subst hij
      simp [objsGet, h]
    · simp only [objsGet, ih]

theorem objsGet_filter_same (l : List (Nat × Int)) (i : Nat) : objsGet (l.filter fun p => p.1 ≠ i) i = objDefault i := by
  induction l with
  | nil => rfl
  | cons q l ih =>
    obtain ⟨j, w⟩ := q
    rw [List.filter_cons]
    split
    · rename_i h
      simp only [ne_eq, decide_not, Bool.not_eq_true', decide_eq_false_iff_not] at h
      simp only [objsGet, if_neg (Ne.symm h), ih]
    · exact ih

theorem objsGet_filter_other (l : List (Nat × Int)) (i k : Nat) (h : k ≠ i) : objsGet (l.filter fun p => p.1 ≠ i) k = objsGet l k := by
  induction l with
  | nil => rfl
  | cons q l ih =>
    obtain ⟨j, w⟩ := q
    rw [List.filter_cons]
    split
    · simp only [objsGet, ih]
    · rename_i hj
      simp only [ne_eq, decide_not, Bool.not_eq_true', decide_eq_false_iff_not, not_not] at hj
      simp only [objsGet, ih]
      rw [if_neg (by omega)]

/-- An object reads as what was written to it. -/
theorem objsGet_set_same (l : List (Nat × Int)) (i : Nat) (v : Int) : objsGet (objsSet l i v) i = v := by
  unfold objsSet
  split
  · rename_i h
    rw [objsGet_filter_same, h]
  · exact objsGet_insert_same l i v

/-- Every other object reads as before. -/
theorem objsGet_set_other (l : List (Nat × Int)) (i k : Nat) (v : Int) (h : k ≠ i) : objsGet (objsSet l i v) k = objsGet l k := by
  unfold objsSet
  split
  · exact objsGet_filter_other l i k h
  · exact objsGet_insert_other l i k v h

@[simp] theorem State.setCfg_cfg_same (s : State) (i : Nat) (v : Int) : (s.setCfg i v).cfg i = v := objsGet_set_same s.objs i v
@[simp] theorem State.setCfg_cfg_other (s : State) (i k : Nat) (v : Int) (h : k ≠ i) : (s.setCfg i v).cfg k = s.cfg k :=
  objsGet_set_other s.objs i k v h

end Sys2Proof.Machine
end

