-- ==== Sys2Proof/Laws/StoreFrame.lean ====
section
/-!
SUPPORT. Every operation that writes an object keeps the store's canonical form; the others leave the store alone (Laws/Frame.lean).
-/
set_option linter.all false
namespace Sys2Proof.Machine

@[simp] theorem foldl_wf {α : Type} (f : State → α → State) (hf : ∀ s a, objsWf s.objs = true → objsWf (f s a).objs = true) (l : List α)
    (s : State) (h : objsWf s.objs = true) : objsWf (l.foldl f s).objs = true := by
  induction l generalizing s with
  | nil => exact h
  | cons a l ih => exact ih _ (hf _ _ h)

@[simp] theorem State.law_wf (s : State) (k n : Nat) (f : State → State) (h : objsWf s.objs = true) (hf : objsWf (f s).objs = true) :
    objsWf (s.law k n f).objs = true := by unfold State.law; split <;> assumption
@[simp] theorem State.whenDue_wf (s : State) (b : Bool) (f : State → State) (h : objsWf s.objs = true) (hf : objsWf (f s).objs = true) :
    objsWf (s.whenDue b f).objs = true := by unfold State.whenDue; split <;> assumption

@[simp] theorem State.setCfg_wf (s : State) (b : Nat) (c : Int) (h : objsWf s.objs = true) : objsWf (s.setCfg b c).objs = true := by
  unfold State.setCfg; exact objsSet_wf _ _ _ h

@[simp] theorem State.putObj_wf (s : State) (b : Nat) (c : Int) (h : objsWf s.objs = true) : objsWf (s.putObj b c).objs = true := by
  unfold State.putObj
  first | (simp [h]; done) | (simp [h, apply_ite State.objs]; done) | ((repeat' split) <;> simp [h, apply_ite State.objs])

@[simp] theorem State.putDirect_wf (s : State) (b : Nat) (c : Int) (h : objsWf s.objs = true) : objsWf (s.putDirect b c).objs = true := by
  unfold State.putDirect
  first | (simp [h]; done) | (simp [h, apply_ite State.objs]; done) | ((repeat' split) <;> simp [h, apply_ite State.objs])

@[simp] theorem State.axisGo_wf (s : State) (b : Nat) (c : Int) (d : Int) (e : Bool) (f : Nat) (h : objsWf s.objs = true) : objsWf (s.axisGo b c d e f).objs = true := by
  unfold State.axisGo
  first | (simp [h]; done) | (simp [h, apply_ite State.objs]; done) | ((repeat' split) <;> simp [h, apply_ite State.objs])

@[simp] theorem State.axisStopped_wf (s : State) (b : Nat) (c : Nat) (h : objsWf s.objs = true) : objsWf (s.axisStopped b c).objs = true := by
  unfold State.axisStopped
  dsimp only
  repeat' (first | (with_reducible exact h) | split | simp [h, apply_ite State.objs, apply_ite objsWf])

@[simp] theorem State.axisTick_wf (s : State) (b : Nat) (h : objsWf s.objs = true) : objsWf (s.axisTick b).objs = true := by
  unfold State.axisTick
  dsimp only
  repeat' (first | (with_reducible exact h) | split | (with_reducible apply State.axisStopped_wf) | (with_reducible apply State.axisGo_wf) | simp [h, apply_ite State.objs, apply_ite objsWf])

@[simp] theorem State.handsBeat_wf (s : State) (h : objsWf s.objs = true) : objsWf (s.handsBeat).objs = true := by
  unfold State.handsBeat
  simp only [State.setPu_frame, State.setSigN_frame]
  exact foldl_wf _ (fun s a h => State.axisTick_wf s a h) _ _ h

@[simp] theorem State.dcfDetect_wf (s : State) (h : objsWf s.objs = true) : objsWf (s.dcfDetect).objs = true := by
  unfold State.dcfDetect
  with_reducible dsimp only
  by_cases hr : (decide (s.cfg Obj.DCF_MODE = 1) && !s.fus.rideLost) = true
  · simp only [hr, if_true]
    apply State.putDirect_wf
    simp only [State.post_frame, State.condEvent_frame]
    exact h
  · simp only [hr, if_false, State.post_frame, State.condEvent_frame]
    exact h

@[simp] theorem State.hook_wf (s : State) (b : Nat) (c : Int) (d : Int) (h : objsWf s.objs = true) : objsWf (s.hook b c d).objs = true := by
  unfold State.hook
  dsimp only
  repeat' (first | (with_reducible exact h) | split | simp [h, apply_ite State.objs, apply_ite objsWf])

@[simp] theorem State.writeObj_wf (s : State) (b : Nat) (c : Int) (h : objsWf s.objs = true) : objsWf (s.writeObj b c).objs = true := by
  unfold State.writeObj
  first | (simp [h]; done) | (simp [h, apply_ite State.objs]; done) | ((repeat' split) <;> simp [h, apply_ite State.objs])

@[simp] theorem State.writeVal_wf (s : State) (b : Nat) (c : ObjVal) (h : objsWf s.objs = true) : objsWf (s.writeVal b c).objs = true := by
  unfold State.writeVal
  first | (simp [h]; done) | (simp [h, apply_ite State.objs]; done) | ((repeat' split) <;> simp [h, apply_ite State.objs])

@[simp] theorem State.applyWaiting_wf (s : State) (b : ApplyPoint) (h : objsWf s.objs = true) : objsWf (s.applyWaiting b).objs = true := by
  unfold State.applyWaiting
  exact foldl_wf _ (fun s a h => by simp [h]) _ _ h

@[simp] theorem State.applySafety_wf (s : State) (h : objsWf s.objs = true) : objsWf (s.applySafety).objs = true := by
  unfold State.applySafety
  first | (simp [h]; done) | (simp [h, apply_ite State.objs]; done) | ((repeat' split) <;> simp [h, apply_ite State.objs])

@[simp] theorem State.land_wf (s : State) (b : Nat) (c : ObjVal) (h : objsWf s.objs = true) : objsWf (s.land b c).objs = true := by
  unfold State.land
  first | (simp [h]; done) | (simp [h, apply_ite State.objs]; done) | ((repeat' split) <;> simp [h, apply_ite State.objs])

@[simp] theorem State.itemDo_wf (s : State) (b : Nat) (c : Item) (h : objsWf s.objs = true) : objsWf (s.itemDo b c).objs = true := by
  unfold State.itemDo
  first | (simp [h]; done) | (simp [h, apply_ite State.objs]; done) | ((repeat' split) <;> simp [h, apply_ite State.objs])

@[simp] theorem State.itemsDo_wf (s : State) (b : List Item) (c : Option (Nat × Nat)) (h : objsWf s.objs = true) : objsWf (s.itemsDo b c).objs = true := by
  unfold State.itemsDo
  split <;> exact foldl_wf _ (fun s a h => by simp [h]) _ _ h

@[simp] theorem State.applyGroup_wf (s : State) (b : Group) (h : objsWf s.objs = true) : objsWf (s.applyGroup b).objs = true := by
  unfold State.applyGroup
  first | (simp [h]; done) | (simp [h, apply_ite State.objs]; done) | ((repeat' split) <;> simp [h, apply_ite State.objs])

@[simp] theorem State.groupStep_wf (s : State) (h : objsWf s.objs = true) : objsWf (s.groupStep).objs = true := by
  unfold State.groupStep
  first | (simp [h]; done) | (simp [h, apply_ite State.objs]; done) | ((repeat' split) <;> simp [h, apply_ite State.objs])

@[simp] theorem State.applyChange_wf (s : State) (h : objsWf s.objs = true) : objsWf (s.applyChange).objs = true := by
  unfold State.applyChange
  simp [h]

@[simp] theorem State.convTo_wf (s : State) (b : ConvState) (c : Nat) (h : objsWf s.objs = true) : objsWf (s.convTo b c).objs = true := by
  unfold State.convTo
  dsimp only
  repeat' (first | (with_reducible exact h) | split | simp [h, apply_ite State.objs, apply_ite objsWf])

@[simp] theorem State.takeReqs_wf (a : List ConvReq) (b : Bool) (s : State) (h : objsWf s.objs = true) : objsWf (State.takeReqs a b s).objs = true := by
  induction a generalizing b s with
  | nil => simpa [State.takeReqs] using h
  | cons r rs ih =>
    unfold State.takeReqs
    dsimp only
    repeat' (first | split | (apply ih) | simp [h])

@[simp] theorem State.goPr_wf (s : State) (h : objsWf s.objs = true) : objsWf (s.goPr).objs = true := by
  unfold State.goPr State.splitReqs
  simp [h]

@[simp] theorem State.goScs_wf (s : State) (h : objsWf s.objs = true) : objsWf (s.goScs).objs = true := by
  unfold State.goScs State.splitReqs
  simp [h]

@[simp] theorem State.resolve_wf (s : State) (h : objsWf s.objs = true) : objsWf (s.resolve).objs = true := by
  unfold State.resolve
  first | (simp [h]; done) | (simp [h, apply_ite State.objs]; done) | ((repeat' split) <;> simp [h, apply_ite State.objs])

@[simp] theorem State.prechargeDone_wf (s : State) (h : objsWf s.objs = true) : objsWf (s.prechargeDone).objs = true := by
  unfold State.prechargeDone
  first | (simp [h]; done) | (simp [h, apply_ite State.objs]; done) | ((repeat' split) <;> simp [h, apply_ite State.objs])

@[simp] theorem State.settle_wf (s : State) (b : Bool) (h : objsWf s.objs = true) : objsWf (s.settle b).objs = true := by
  unfold State.settle
  simp [h, apply_ite State.objs, apply_ite objsWf]

@[simp] theorem State.logWindowEnd_wf (s : State) (h : objsWf s.objs = true) : objsWf (s.logWindowEnd).objs = true := by
  unfold State.logWindowEnd
  first | (simp [h]; done) | (simp [h, apply_ite State.objs]; done) | ((repeat' split) <;> simp [h, apply_ite State.objs])

@[simp] theorem State.logGap_wf (s : State) (b : Nat) (h : objsWf s.objs = true) : objsWf (s.logGap b).objs = true := by
  unfold State.logGap; split <;> simp [h]

@[simp] theorem State.releaseGroups_wf (s : State) (b : List Group) (h : objsWf s.objs = true) : objsWf (s.releaseGroups b).objs = true := by
  unfold State.releaseGroups
  exact foldl_wf _ (fun s a h => by simp [h]) _ _ h

@[simp] theorem State.migrateEnd_wf (s : State) (h : objsWf s.objs = true) : objsWf (s.migrateEnd).objs = true := by
  unfold State.migrateEnd
  split
  · exact h
  · simp only [State.replyTo_frame, State.nextMigration_frame, State.sparesSettled_frame]
    exact foldl_wf _ (fun s a h => by simp [h]) _ _ (by simp [h])

@[simp] theorem State.schedGroup_wf (s : State) (b : Nat) (c : Nat) (d : Lateness) (e : List Item) (f : Option (Nat × Nat)) (h : objsWf s.objs = true) : objsWf (s.schedGroup b c d e f).objs = true := by
  unfold State.schedGroup
  first | (simp [h]; done) | (simp [h, apply_ite State.objs]; done) | ((repeat' split) <;> simp [h, apply_ite State.objs])

@[simp] theorem State.schedAct_wf (s : State) (b : Nat) (c : Action) (h : objsWf s.objs = true) : objsWf (s.schedAct b c).objs = true := by
  unfold State.schedAct
  dsimp only
  repeat' (first | (with_reducible exact h) | split | simp [h, State.handsBegin, apply_ite State.objs, apply_ite objsWf])

@[simp] theorem State.schedDue_wf (s : State) (h : objsWf s.objs = true) : objsWf (s.schedDue).objs = true := by
  unfold State.schedDue
  dsimp only
  repeat' (first | (with_reducible exact h) | split | simp [h, apply_ite State.objs, apply_ite objsWf])

@[simp] theorem State.retest_wf (s : State) (b : Reply) (c : Nat) (h : objsWf s.objs = true) : objsWf (s.retest b c).objs = true := by
  unfold State.retest
  dsimp only
  repeat' (first | (with_reducible exact h) | split | simp [h, apply_ite State.objs, apply_ite objsWf])

@[simp] theorem State.startEngineSpare_wf (s : State) (b : Reply) (c : Nat) (d : Nat) (h : objsWf s.objs = true) : objsWf (s.startEngineSpare b c d).objs = true := by
  unfold State.startEngineSpare
  first | (simp [h]; done) | (simp [h, apply_ite State.objs]; done) | ((repeat' split) <;> simp [h, apply_ite State.objs])

@[simp] theorem State.perform_wf (s : State) (b : Reply) (c : HostCmd) (h : objsWf s.objs = true) : objsWf (s.perform b c).objs = true := by
  unfold State.perform
  first | (simp [h]; done) | (simp [h, apply_ite State.objs]; done) | ((repeat' split) <;> simp [h, apply_ite State.objs])

@[simp] theorem State.startCmd_wf (s : State) (b : Reply) (c : HostCmd) (h : objsWf s.objs = true) : objsWf (s.startCmd b c).objs = true := by
  unfold State.startCmd
  first | (simp [h]; done) | (simp [h, apply_ite State.objs]; done) | ((repeat' split) <;> simp [h, apply_ite State.objs])

@[simp] theorem State.startNext_wf (s : State) (b : Nat) (h : objsWf s.objs = true) : objsWf (s.startNext b).objs = true := by
  unfold State.startNext
  first | (simp [h]; done) | (simp [h, apply_ite State.objs]; done) | ((repeat' split) <;> simp [h, apply_ite State.objs])

@[simp] theorem State.turn_wf (s : State) (h : objsWf s.objs = true) : objsWf (s.turn).objs = true := by
  unfold State.turn
  split
  · exact foldl_wf _ (fun s a h => by simp [h]) _ _ h
  · exact h

@[simp] theorem State.pump_wf (s : State) (h : objsWf s.objs = true) : objsWf (s.pump).objs = true := by
  unfold State.pump
  simp only [State.releaseMbs_frame]
  repeat' (first | (with_reducible exact h) | apply State.turn_wf)

@[simp] theorem State.windowStarts_wf (o : State) (s : State) (h : objsWf s.objs = true) : objsWf (State.windowStarts o s).objs = true := by
  unfold State.windowStarts
  first | (simp [h]; done) | (simp [h, apply_ite State.objs]; done) | ((repeat' split) <;> simp [h, apply_ite State.objs])

@[simp] theorem State.beat0_wf (s : State) (h : objsWf s.objs = true) : objsWf (s.beat0).objs = true := by
  unfold State.beat0
  first | (simp [h]; done) | (simp [h, apply_ite State.objs]; done) | ((repeat' split) <;> simp [h, apply_ite State.objs])

@[simp] theorem State.beats_wf (s : State) (b : TickInputs) (h : objsWf s.objs = true) : objsWf (s.beats b).objs = true := by
  unfold State.beats
  dsimp only
  split <;> simp [h]

@[simp] theorem State.edgeFirst_wf (s : State) (h : objsWf s.objs = true) : objsWf (s.edgeFirst).objs = true := by
  unfold State.edgeFirst
  first | (simp [h]; done) | (simp [h, apply_ite State.objs]; done) | ((repeat' split) <;> simp [h, apply_ite State.objs])

@[simp] theorem State.edgeUnits_wf (s : State) (h : objsWf s.objs = true) : objsWf (s.edgeUnits).objs = true := by
  unfold State.edgeUnits
  first | (simp [h]; done) | (simp [h, apply_ite State.objs]; done) | ((repeat' split) <;> simp [h, apply_ite State.objs])

@[simp] theorem State.atEdge_wf (s : State) (h : objsWf s.objs = true) : objsWf (s.atEdge).objs = true := by
  unfold State.atEdge State.edgeFrames
  simp [State.modulate_frame]
  apply State.edgeUnits_wf
  simp
  apply State.resolve_wf
  apply State.edgeFirst_wf
  unfold State.numberTick
  exact State.logGap_wf _ _ h

@[simp] theorem State.endTick_wf (s : State) (h : objsWf s.objs = true) : objsWf (s.endTick).objs = true := by
  unfold State.endTick
  first | (simp [h]; done) | (simp [h, apply_ite State.objs]; done) | ((repeat' split) <;> simp [h, apply_ite State.objs])

@[simp] theorem State.tickAll_wf (s : State) (b : TickInputs) (h : objsWf s.objs = true) : objsWf (s.tickAll b).objs = true := by
  unfold State.tickAll
  apply State.endTick_wf
  apply State.beats_wf
  exact State.atEdge_wf _ h

theorem objsFold_wf (l : List Waiting) (o : List (Nat × Int)) (h : objsWf o = true) :
    objsWf (l.foldr (fun w o => objsSet o w.index w.value) o) = true := by
  induction l with
  | nil => exact h
  | cons w l ih => exact objsSet_wf _ _ _ ih

@[simp] theorem State.storeObjs_wf (s : State) (h : objsWf s.objs = true) : objsWf s.storeObjs = true := objsFold_wf _ _ h

/-- The parameter store's list of values holds the value of the store for each object. -/
theorem State.storeObjs_get (s : State) (i : Nat) : objsGet s.storeObjs i = s.storeVal i := by
  unfold State.storeObjs State.storeVal
  induction s.waiting with
  | nil => rfl
  | cons w l ih =>
    by_cases hp : (w.point == ApplyPoint.setOnly) = true
    · rw [List.filter_cons, if_pos hp, List.foldr_cons]
      by_cases hi : w.index = i
      · subst hi
        rw [objsGet_set_same, List.find?_cons_of_pos (by simp [hp])]
      · rw [objsGet_set_other _ _ _ _ (fun h => hi h.symm), ih, List.find?_cons_of_neg (by simp [hi])]
    · rw [List.filter_cons, if_neg hp, ih, List.find?_cons_of_neg (by simp [hp])]

@[simp] theorem State.powerLost_wf (s : State) (h : objsWf s.objs = true) : objsWf (s.powerLost).objs = true :=
  objsFilter_wf _ _ (s.storeObjs_wf h)

@[simp] theorem State.resetKept_wf (s : State) (h : objsWf s.objs = true) : objsWf (s.resetKept).objs = true :=
  objsFilter_wf _ _ (s.storeObjs_wf h)

@[simp] theorem State.resetAssert_wf (s : State) (b : Nat) (h : objsWf s.objs = true) : objsWf (s.resetAssert b).objs = true := by
  unfold State.resetAssert
  first | (simp [h]; done) | (simp [h, apply_ite State.objs]; done) | ((repeat' split) <;> simp [h, apply_ite State.objs])

@[simp] theorem State.holdupExpired_wf (s : State) (h : objsWf s.objs = true) : objsWf (s.holdupExpired).objs = true := by
  unfold State.holdupExpired
  first | (simp [h]; done) | (simp [h, apply_ite State.objs]; done) | ((repeat' split) <;> simp [h, apply_ite State.objs])

end Sys2Proof.Machine
end

