-- ==== Sys2Proof/Laws/TickFrame.lean ====
section
/-!
SUPPORT. What the operations that touch the tick counter do to it (R14, R242): the present tick's number stays, and the next one's stays or
lies ahead of it.
-/
set_option linter.all false
namespace Sys2Proof.Machine

/-- The tick has the same number, and the number of the next tick is as before or lies ahead of it. -/
def Tick.Stays (a b : Tick) : Prop := b.now = a.now ∧ b.started = a.started ∧ (b.next = a.next ∨ a.now < b.next)

theorem Tick.stays_rfl (a : Tick) : a.Stays a := ⟨rfl, rfl, .inl rfl⟩

theorem Tick.stays_next {a b : Tick} (h : a.Stays b) (n : Nat) (hn : b.now < n) : a.Stays { b with next := n } := by
  obtain ⟨h1, h2, h3⟩ := h
  exact ⟨h1, h2, .inr (by simp only; omega)⟩

theorem foldl_stays {α : Type} (t : Tick) (f : State → α → State) (hf : ∀ s a, t.Stays s.tick → t.Stays (f s a).tick) (l : List α)
    (s : State) (h : t.Stays s.tick) : t.Stays (l.foldl f s).tick := by
  induction l generalizing s with
  | nil => exact h
  | cons a l ih => exact ih _ (hf _ _ h)

theorem State.renumber_stays (t : Tick) (s : State) (b : Option Nat) (h : t.Stays s.tick) : t.Stays (s.renumber b).tick := by
  unfold State.renumber
  dsimp only
  split
  · exact h
  simp only [apply_ite State.tick, State.post_frame, ite_self]
  refine Tick.stays_next h _ ?_
  (repeat' split) <;> omega

theorem State.lockDeclared_stays (t : Tick) (s : State) (b : Nat) (c : Option Nat) (h : t.Stays s.tick) : t.Stays (s.lockDeclared b c).tick := by
  unfold State.lockDeclared
  dsimp only
  split
  · exact h
  split
  · simpa using h
  have hr := State.renumber_stays t s c h
  simp only [apply_ite State.tick, State.post_frame, ite_self]
  split <;> assumption

theorem State.resumeTick_stays (t : Tick) (s : State) (b : Nat) (h : t.Stays s.tick) : t.Stays (s.resumeTick b).tick := by
  unfold State.resumeTick
  dsimp only
  split
  · exact h
  simp only [apply_ite State.tick, State.post_frame, State.pulseKept_frame, ite_self]
  refine Tick.stays_next h _ ?_
  (repeat' split) <;> omega

theorem State.relocked_stays (t : Tick) (s : State) (b : Nat) (h : t.Stays s.tick) : t.Stays (s.relocked b).tick := by
  unfold State.relocked
  simpa using State.resumeTick_stays t s b h

theorem State.startOk_stays (t : Tick) (s : State) (b : Nat) (c : StartFlags) (d : Nat) (h : t.Stays s.tick) : t.Stays (s.startOk b c d).tick := by
  unfold State.startOk
  try dsimp only
  repeat' (first | (with_reducible exact h) | split | (with_reducible apply State.renumber_stays) | (with_reducible apply State.lockDeclared_stays) | (with_reducible apply State.relocked_stays) | simp [h, apply_ite State.tick])

theorem State.startRun_stays (t : Tick) (s : State) (b : Nat) (c : Nat) (d : StartFlags) (e : Nat) (h : t.Stays s.tick) : t.Stays (s.startRun b c d e).tick := by
  unfold State.startRun
  try dsimp only
  repeat' (first | (with_reducible exact h) | split | (with_reducible apply State.renumber_stays) | (with_reducible apply State.lockDeclared_stays) | (with_reducible apply State.relocked_stays) | (with_reducible apply State.startOk_stays) | simp [h, apply_ite State.tick])

theorem State.wakeRetry_stays (t : Tick) (s : State) (b : StartFlags) (h : t.Stays s.tick) : t.Stays (s.wakeRetry b).tick := by
  unfold State.wakeRetry
  try dsimp only
  repeat' (first | (with_reducible exact h) | split | (with_reducible apply State.renumber_stays) | (with_reducible apply State.lockDeclared_stays) | (with_reducible apply State.relocked_stays) | (with_reducible apply State.startOk_stays) | (with_reducible apply State.startRun_stays) | simp [h, apply_ite State.tick])

theorem State.resetRelease_stays (t : Tick) (s : State) (b : Nat) (c : Bool) (d : StartFlags) (h : t.Stays s.tick) : t.Stays (s.resetRelease b c d).tick := by
  unfold State.resetRelease
  try dsimp only
  repeat' (first | (with_reducible exact h) | split | (with_reducible apply State.renumber_stays) | (with_reducible apply State.lockDeclared_stays) | (with_reducible apply State.relocked_stays) | (with_reducible apply State.startOk_stays) | (with_reducible apply State.startRun_stays) | (with_reducible apply State.wakeRetry_stays) | simp [h, apply_ite State.tick])

theorem State.powerUp_stays (t : Tick) (s : State) (b : PowerOn) (h : t.Stays s.tick) : t.Stays (s.powerUp b).tick := by
  unfold State.powerUp
  try dsimp only
  repeat' (first | (with_reducible exact h) | split | (with_reducible apply State.renumber_stays) | (with_reducible apply State.lockDeclared_stays) | (with_reducible apply State.relocked_stays) | (with_reducible apply State.startOk_stays) | (with_reducible apply State.startRun_stays) | (with_reducible apply State.wakeRetry_stays) | (with_reducible apply State.resetRelease_stays) | simp [h, apply_ite State.tick])

theorem State.wakeUp_stays (t : Tick) (s : State) (b : Nat) (c : StartFlags) (h : t.Stays s.tick) : t.Stays (s.wakeUp b c).tick := by
  unfold State.wakeUp
  try dsimp only
  repeat' (first | (with_reducible exact h) | split | (with_reducible apply State.renumber_stays) | (with_reducible apply State.lockDeclared_stays) | (with_reducible apply State.relocked_stays) | (with_reducible apply State.startOk_stays) | (with_reducible apply State.startRun_stays) | (with_reducible apply State.wakeRetry_stays) | (with_reducible apply State.resetRelease_stays) | (with_reducible apply State.powerUp_stays) | simp [h, apply_ite State.tick])

theorem State.hostWake_stays (t : Tick) (s : State) (b : Reply) (c : Nat) (d : StartFlags) (h : t.Stays s.tick) : t.Stays (s.hostWake b c d).tick := by
  unfold State.hostWake
  try dsimp only
  repeat' (first | (with_reducible exact h) | split | (with_reducible apply State.renumber_stays) | (with_reducible apply State.lockDeclared_stays) | (with_reducible apply State.relocked_stays) | (with_reducible apply State.startOk_stays) | (with_reducible apply State.startRun_stays) | (with_reducible apply State.wakeRetry_stays) | (with_reducible apply State.resetRelease_stays) | (with_reducible apply State.powerUp_stays) | (with_reducible apply State.wakeUp_stays) | simp [h, apply_ite State.tick])

theorem State.wakeBy_stays (t : Tick) (s : State) (b : Nat) (c : StartFlags) (h : t.Stays s.tick) : t.Stays (s.wakeBy b c).tick := by
  unfold State.wakeBy
  split
  · exact State.wakeUp_stays t s b c h
  · exact h

theorem State.wakeEvent_stays (t : Tick) (s : State) (b : WakeFact) (c : StartFlags) (h : t.Stays s.tick) : t.Stays (s.wakeEvent b c).tick := by
  unfold State.wakeEvent
  dsimp only
  repeat' (first | (with_reducible exact h) | (with_reducible apply State.wakeBy_stays) | split)

theorem State.wakeAgain_stays (t : Tick) (s : State) (e : SleepEntry) (h : t.Stays s.tick) : t.Stays (s.wakeAgain e).tick := by
  unfold State.wakeAgain
  split
  · exact State.wakeUp_stays t s _ _ h
  · refine State.wakeUp_stays t _ _ _ ?_; simpa using h
  · exact h

theorem State.entryDone_stays (t : Tick) (s : State) (b : SleepEntry) (h : t.Stays s.tick) : t.Stays (s.entryDone b).tick := by
  unfold State.entryDone
  dsimp only
  repeat' (first | (with_reducible exact h) | split | (with_reducible apply State.renumber_stays) | (with_reducible apply State.lockDeclared_stays) | (with_reducible apply State.relocked_stays) | (with_reducible apply State.startOk_stays) | (with_reducible apply State.startRun_stays) | (with_reducible apply State.wakeRetry_stays) | (with_reducible apply State.resetRelease_stays) | (with_reducible apply State.powerUp_stays) | (with_reducible apply State.wakeUp_stays) | (with_reducible apply State.hostWake_stays) | (with_reducible apply State.wakeEvent_stays) | (with_reducible apply State.wakeAgain_stays) | simp [h, apply_ite State.tick])

theorem State.entryStep_stays (t : Tick) (s : State) (b : SleepEntry) (h : t.Stays s.tick) : t.Stays (s.entryStep b).tick := by
  unfold State.entryStep
  try dsimp only
  repeat' (first | (with_reducible exact h) | split | (with_reducible apply State.renumber_stays) | (with_reducible apply State.lockDeclared_stays) | (with_reducible apply State.relocked_stays) | (with_reducible apply State.startOk_stays) | (with_reducible apply State.startRun_stays) | (with_reducible apply State.wakeRetry_stays) | (with_reducible apply State.resetRelease_stays) | (with_reducible apply State.powerUp_stays) | (with_reducible apply State.wakeUp_stays) | (with_reducible apply State.hostWake_stays) | (with_reducible apply State.wakeEvent_stays) | (with_reducible apply State.entryDone_stays) | simp [h, apply_ite State.tick])

theorem State.entryEdge_stays (t : Tick) (s : State) (h : t.Stays s.tick) : t.Stays (s.entryEdge).tick := by
  unfold State.entryEdge
  try dsimp only
  repeat' (first | (with_reducible exact h) | split | (with_reducible apply State.renumber_stays) | (with_reducible apply State.lockDeclared_stays) | (with_reducible apply State.relocked_stays) | (with_reducible apply State.startOk_stays) | (with_reducible apply State.startRun_stays) | (with_reducible apply State.wakeRetry_stays) | (with_reducible apply State.resetRelease_stays) | (with_reducible apply State.powerUp_stays) | (with_reducible apply State.wakeUp_stays) | (with_reducible apply State.hostWake_stays) | (with_reducible apply State.wakeEvent_stays) | (with_reducible apply State.entryDone_stays) | (with_reducible apply State.entryStep_stays) | simp [h, apply_ite State.tick])

theorem State.pstateReq_stays (t : Tick) (s : State) (b : Reply) (c : Nat) (d : Nat) (e : StartFlags) (h : t.Stays s.tick) : t.Stays (s.pstateReq b c d e).tick := by
  unfold State.pstateReq
  try dsimp only
  repeat' (first | (with_reducible exact h) | split | (with_reducible apply State.renumber_stays) | (with_reducible apply State.lockDeclared_stays) | (with_reducible apply State.relocked_stays) | (with_reducible apply State.startOk_stays) | (with_reducible apply State.startRun_stays) | (with_reducible apply State.wakeRetry_stays) | (with_reducible apply State.resetRelease_stays) | (with_reducible apply State.powerUp_stays) | (with_reducible apply State.wakeUp_stays) | (with_reducible apply State.hostWake_stays) | (with_reducible apply State.wakeEvent_stays) | (with_reducible apply State.entryDone_stays) | (with_reducible apply State.entryStep_stays) | (with_reducible apply State.entryEdge_stays) | simp [h, apply_ite State.tick])

theorem State.perform_stays (t : Tick) (s : State) (b : Reply) (c : HostCmd) (h : t.Stays s.tick) : t.Stays (s.perform b c).tick := by
  unfold State.perform
  try dsimp only
  repeat' (first | (with_reducible exact h) | split | (with_reducible apply State.renumber_stays) | (with_reducible apply State.lockDeclared_stays) | (with_reducible apply State.relocked_stays) | (with_reducible apply State.startOk_stays) | (with_reducible apply State.startRun_stays) | (with_reducible apply State.wakeRetry_stays) | (with_reducible apply State.resetRelease_stays) | (with_reducible apply State.powerUp_stays) | (with_reducible apply State.wakeUp_stays) | (with_reducible apply State.hostWake_stays) | (with_reducible apply State.wakeEvent_stays) | (with_reducible apply State.entryDone_stays) | (with_reducible apply State.entryStep_stays) | (with_reducible apply State.entryEdge_stays) | (with_reducible apply State.pstateReq_stays) | simp [h, apply_ite State.tick])

theorem State.startCmd_stays (t : Tick) (s : State) (b : Reply) (c : HostCmd) (h : t.Stays s.tick) : t.Stays (s.startCmd b c).tick := by
  unfold State.startCmd
  try dsimp only
  repeat' (first | (with_reducible exact h) | split | (with_reducible apply State.renumber_stays) | (with_reducible apply State.lockDeclared_stays) | (with_reducible apply State.relocked_stays) | (with_reducible apply State.startOk_stays) | (with_reducible apply State.startRun_stays) | (with_reducible apply State.wakeRetry_stays) | (with_reducible apply State.resetRelease_stays) | (with_reducible apply State.powerUp_stays) | (with_reducible apply State.wakeUp_stays) | (with_reducible apply State.hostWake_stays) | (with_reducible apply State.wakeEvent_stays) | (with_reducible apply State.entryDone_stays) | (with_reducible apply State.entryStep_stays) | (with_reducible apply State.entryEdge_stays) | (with_reducible apply State.pstateReq_stays) | (with_reducible apply State.perform_stays) | simp [h, apply_ite State.tick])

theorem State.startNext_stays (t : Tick) (s : State) (b : Nat) (h : t.Stays s.tick) : t.Stays (s.startNext b).tick := by
  unfold State.startNext
  try dsimp only
  repeat' (first | (with_reducible exact h) | split | (with_reducible apply State.renumber_stays) | (with_reducible apply State.lockDeclared_stays) | (with_reducible apply State.relocked_stays) | (with_reducible apply State.startOk_stays) | (with_reducible apply State.startRun_stays) | (with_reducible apply State.wakeRetry_stays) | (with_reducible apply State.resetRelease_stays) | (with_reducible apply State.powerUp_stays) | (with_reducible apply State.wakeUp_stays) | (with_reducible apply State.hostWake_stays) | (with_reducible apply State.wakeEvent_stays) | (with_reducible apply State.entryDone_stays) | (with_reducible apply State.entryStep_stays) | (with_reducible apply State.entryEdge_stays) | (with_reducible apply State.pstateReq_stays) | (with_reducible apply State.perform_stays) | (with_reducible apply State.startCmd_stays) | simp [h, apply_ite State.tick])

theorem State.turn_stays (t : Tick) (s : State) (h : t.Stays s.tick) : t.Stays (s.turn).tick := by
  unfold State.turn
  split
  · exact foldl_stays t _ (fun s a h => State.startNext_stays t s a h) _ _ h
  · exact h

theorem State.pump_stays (t : Tick) (s : State) (h : t.Stays s.tick) : t.Stays (s.pump).tick := by
  unfold State.pump
  simp only [State.releaseMbs_frame]
  repeat' (first | (with_reducible exact h) | apply State.turn_stays)

theorem State.endTick_stays (t : Tick) (s : State) (h : t.Stays s.tick) : t.Stays (s.endTick).tick := by
  unfold State.endTick
  try dsimp only
  repeat' (first | (with_reducible exact h) | split | (with_reducible apply State.renumber_stays) | (with_reducible apply State.lockDeclared_stays) | (with_reducible apply State.relocked_stays) | (with_reducible apply State.startOk_stays) | (with_reducible apply State.startRun_stays) | (with_reducible apply State.wakeRetry_stays) | (with_reducible apply State.resetRelease_stays) | (with_reducible apply State.powerUp_stays) | (with_reducible apply State.wakeUp_stays) | (with_reducible apply State.hostWake_stays) | (with_reducible apply State.wakeEvent_stays) | (with_reducible apply State.entryDone_stays) | (with_reducible apply State.entryStep_stays) | (with_reducible apply State.entryEdge_stays) | (with_reducible apply State.pstateReq_stays) | (with_reducible apply State.perform_stays) | (with_reducible apply State.startCmd_stays) | (with_reducible apply State.startNext_stays) | (with_reducible apply State.turn_stays) | (with_reducible apply State.pump_stays) | simp [h, apply_ite State.tick])

end Sys2Proof.Machine
end

