-- ==== Sys2Proof/Laws/Train.lean ====
section
/-!
SUPPORT. A train frame is read as it was written (R320), and one that failed its check is sent on as one that fails it (R322).
-/
namespace Sys2Proof.Machine

theorem payload_bits (n hi lo : Nat) (h : n < 2 ^ 64) : DWord.bits (BitVec.ofNat 64 n) hi lo = n / 2 ^ lo % 2 ^ (hi + 1 - lo) := by
  rw [DWord.bits, BitVec.toNat_ofNat, Nat.mod_eq_of_lt h]

theorem payload_bit (n i : Nat) (h : n < 2 ^ 64) : (BitVec.ofNat 64 n).getLsbD i = decide (n / 2 ^ i % 2 = 1) := by
  rw [BitVec.getLsbD, BitVec.toNat_ofNat, Nat.mod_eq_of_lt h, Nat.testBit_eq_decide_div_mod_eq]

/-- The two halves of a payload. -/
theorem halves (a b : Nat) (ha : a < 2 ^ 32) (hb : b < 2 ^ 32) :
    (a % 2 ^ 32 * 2 ^ 32 + b) / 2 ^ 32 % 2 ^ (63 + 1 - 32) = a ∧ (a % 2 ^ 32 * 2 ^ 32 + b) / 2 ^ 0 % 2 ^ (31 + 1 - 0) = b := by
  rw [Nat.mod_eq_of_lt ha, Nat.mul_comm a, Nat.mul_add_div (by norm_num), Nat.div_eq_of_lt hb, Nat.add_zero]
  refine ⟨Nat.mod_eq_of_lt ha, ?_⟩
  rw [Nat.pow_zero, Nat.div_one, Nat.mul_add_mod, Nat.mod_eq_of_lt hb]

theorem TrainFrame.body_length (f : TrainFrame) : f.body.length = 3 + f.slots.length := by
  simp [TrainFrame.body]; omega

/-- What a frame that is sent with the check `c` is found to be. -/
theorem trainGood_body (f : TrainFrame) (c : Word) (h : f.slots.length = trainSlots) :
    trainGood (f.body ++ [controlBlock tyEof (c.toNat * 2 ^ 24)]) = decide (c = trainCheck f.body) := by
  have hb : f.body.length = trainBlocks - 1 := by rw [f.body_length, h]; rfl
  have hc : DWord.bits (controlBlock tyEof (c.toNat * 2 ^ 24)).payload 55 24 = c.toNat := by
    have := c.isLt
    rw [controlBlock, payload_bits _ _ _ (by omega)]
    omega
  have hs : (f.body.take 1).all (blockIsControl · tySof) = true := by simp [TrainFrame.body, blockIsControl, controlBlock]
  have hd : (f.body.drop 1).all blockIsData = true := by simp [TrainFrame.body, blockIsData, dataBlock]
  have he : blockIsControl (controlBlock tyEof (c.toNat * 2 ^ 24)) tyEof = true := by simp [blockIsControl, controlBlock]
  simp only [trainGood, List.take_left' hb, List.drop_left' hb, List.length_append, List.length_singleton, List.all_cons, List.all_nil, hb, hc, hs,
    hd, he, BitVec.toNat_inj]
  simp [trainBlocks]

/-- The frame check of a frame that is sent is good where the frame's was. -/
theorem trainGood_wire (f : TrainFrame) (h : f.slots.length = trainSlots) : trainGood f.wire = f.good := by
  have hn : ∀ c : Word, ~~~c ≠ c := by
    intro c he
    have := congrArg (fun x => x.getLsbD 0) he
    simp at this
  rw [TrainFrame.wire, trainGood_body f _ h]
  cases f.good
  · simpa using hn _
  · simp

theorem TrainFrame.sof_lt (f : TrainFrame) : f.sof < 2 ^ 56 := by
  have h := f.rootSerial.isLt
  cases hw : f.west <;> cases hr : f.wrapped <;> cases ha : f.acting <;> simp only [TrainFrame.sof, hw, hr, ha, b2n] <;> norm_num at h ⊢ <;> omega

/-- The fields of a SOF payload. -/
theorem TrainFrame.sof_fields (f : TrainFrame) :
    f.sof / 2 ^ 24 % 2 ^ 32 = f.rootSerial.toNat ∧ decide (f.sof / 2 ^ 23 % 2 = 1) = f.west ∧ decide (f.sof / 2 ^ 22 % 2 = 1) = f.wrapped ∧
      decide (f.sof / 2 ^ 21 % 2 = 1) = f.acting := by
  have h := f.rootSerial.isLt
  cases hw : f.west <;> cases hr : f.wrapped <;> cases ha : f.acting <;> simp only [TrainFrame.sof, hw, hr, ha, b2n] <;>
    norm_num at h ⊢ <;> omega

/-- Reading a frame gives what was written. -/
theorem readTrain_wire (f : TrainFrame) (h : f.slots.length = trainSlots) (hs : f.txSec < 2 ^ 48) (hn : f.txNs < 2 ^ 32) :
    readTrain f.wire = f := by
  have hg := trainGood_wire f h
  have hw := f.sof_fields
  have hl := f.sof_lt
  have ht := f.rootTick.isLt
  have hr : (List.range trainSlots).map (fun a => (f.wire.getD (3 + a) (dataBlock 0)).payload) = f.slots := by
    apply List.ext_getElem (by simp [h])
    intro i h1 h2
    simp [TrainFrame.wire, TrainFrame.body, Nat.add_comm 3 i, List.getElem?_append, h2, dataBlock]
  have h0 : f.wire.getD 0 (dataBlock 0) = controlBlock tySof f.sof := rfl
  have h1 : f.wire.getD 1 (dataBlock 0) = dataBlock (f.txSec % 2 ^ 48 * 2 ^ 16) := by simp [TrainFrame.wire, TrainFrame.body]
  have h2 : f.wire.getD 2 (dataBlock 0) = dataBlock (f.txNs % 2 ^ 32 * 2 ^ 32 + f.rootTick.toNat) := by
    simp [TrainFrame.wire, TrainFrame.body]
  have b0 := payload_bits f.sof 55 24 (by omega)
  have b1 := payload_bits (f.txSec % 2 ^ 48 * 2 ^ 16) 63 16 (by omega)
  have b2 := payload_bits (f.txNs % 2 ^ 32 * 2 ^ 32 + f.rootTick.toNat) 63 32 (by omega)
  have b3 := payload_bits (f.txNs % 2 ^ 32 * 2 ^ 32 + f.rootTick.toNat) 31 0 (by omega)
  have e0 : f.sof / 2 ^ 24 % 2 ^ (55 + 1 - 24) = f.rootSerial.toNat := hw.1
  have e1 : f.txSec % 2 ^ 48 * 2 ^ 16 / 2 ^ 16 % 2 ^ (63 + 1 - 16) = f.txSec := by norm_num at hs ⊢; omega
  have e2 : (f.txNs % 2 ^ 32 * 2 ^ 32 + f.rootTick.toNat) / 2 ^ 32 % 2 ^ (63 + 1 - 32) = f.txNs := (halves f.txNs _ hn ht).1
  have e3 : (f.txNs % 2 ^ 32 * 2 ^ 32 + f.rootTick.toNat) / 2 ^ 0 % 2 ^ (31 + 1 - 0) = f.rootTick.toNat := (halves f.txNs _ hn ht).2
  have p := fun i => payload_bit f.sof i (by omega)
  simp only [readTrain, hr, hg, h0, h1, h2]
  simp only [controlBlock, dataBlock, b0, b1, b2, b3, e0, e1, e2, e3, p, hw.2, BitVec.ofNat_toNat,
    BitVec.setWidth_eq]

end Sys2Proof.Machine
end

