-- ==== Sys2Proof/Tests/Slice0.lean ====
section
/-!
SUPPORT. The author's tests: an ill-formed term for each check of `Instr.wf`, small facts of the specification on one step, and for each
statement with hypotheses a state and operands that meet the hypotheses of its clauses, at a boundary value where there is one.
-/
namespace Sys2Proof.Tests
set_option Elab.async false
open Sys2Proof Sys2Proof.Machine

/-! ### The check of form -/

theorem test_wf_tickEdge_short : Instr.wf (.tickEdge ⟨List.replicate 23 (List.replicate 5 0), 0, 0, 0, 0⟩) = false := by decide
theorem test_wf_tickEdge_samples : Instr.wf (.tickEdge ⟨List.replicate 24 (List.replicate 4 0), 0, 0, 0, 0⟩) = false := by decide
theorem test_wf_tickEdge : Instr.wf (.tickEdge ⟨List.replicate 24 (List.replicate 5 0), 0, 0, 0, 0⟩) = true := by decide
theorem test_wf_windowResult : Instr.wf (.windowResult [] []) = false := by decide
theorem test_wf_windowResult_ok : Instr.wf (.windowResult (List.replicate 24 true) (List.replicate 24 ⟨0, 0, 0⟩)) = true := by decide
theorem test_wf_sfFrame : Instr.wf (.sfFrameRx true (List.replicate 45 0) 0) = false := by decide
theorem test_wf_hello : Instr.wf (.hello ⟨List.replicate 15 0, {}⟩ 0) = false := by decide
theorem test_wf_prove : Instr.wf (.prove 0 (List.replicate 31 0) {}) = false := by decide
theorem test_wf_pdelayReq : Instr.wf (.ptpPdelayReqRx 0 (List.replicate 9 0) 0) = false := by decide
theorem test_illFormed_faults : exec (.hello ⟨[], {}⟩ 0) State.reset = .fault .illFormed := rfl

/-! ### A state in service -/

/-- The outcome is a next state with a property. -/
def nextIs (o : Host.Outcome State Fault Refusal) (p : State → Bool) : Bool := match o with | .next t => p t | _ => false


/-- A module in S0 with its tick: SOLO, IDLE, no demand, one session of the OP slot. -/
def base : State :=
  { State.reset with
    pwr := { State.reset.pwr with started := true }
    reg := { State.reset.reg with gated := false, locked := true }
    tick := { now := 100, next := 101, started := true }
    host := { State.reset.host with sessions := [{ id := 7, ro := false, key := [], lastSeq := 3 }] }
    saf := { State.reset.saf with
      chA := List.replicate 8 true, chB := List.replicate 8 true, readA := List.replicate 8 true, readB := List.replicate 8 true
      startDone := true, startRunning := false, vioOk := true, switches := List.replicate 6 true }
    conv := { State.reset.conv with state := .idle } }

/-- A message its mailbox takes. -/
def msg : Msg := { session := 7, seq := ⟨4, {}⟩, mb := 2, tag := 9, lenOk := true }

theorem base_awake : base.Awake := ⟨rfl, rfl, rfl, rfl⟩
theorem base_no_demand : base.prDemand = false := by decide
theorem base_mailIdle : base.MailIdle := by
  intro n
  have h : base.mbox n = {} := by
    change (List.replicate 8 ({} : Mailbox)).getD n {} = {}
    rcases Nat.lt_or_ge n 8 with h | h
    · interval_cases n <;> rfl
    · rw [List.getD_eq_default _ _ (by simpa using h)]
  simp [h]
theorem base_takes (ro : Bool) : base.Takes msg ro :=
  ⟨rfl, base_mailIdle, rfl, by decide, by decide, (by intro o h; cases h), rfl, ⟨{ id := 7, ro := false, key := [], lastSeq := 3 }, rfl, by decide, by intro h; cases h⟩⟩

theorem base_lane (l : Nat) : base.lane l = {} := by
  change (List.replicate 48 ({} : Lane)).getD l {} = {}
  rcases Nat.lt_or_ge l 48 with h | h
  · interval_cases l <;> rfl
  · rw [List.getD_eq_default _ _ (by simpa using h)]

/-! ### Facts of the specification, one step each -/

/-- R309: opening SAFETY_KEY for 20 ms ends the configuration session. -/
theorem test_key_opened_ends_session :
    nextIs (exec (.safetyKeyChange false 20) (let s : State := { base with saf := { base.saf with keyClosed := true, session := true } }; s))
      (fun t => !t.saf.session && !t.saf.keyClosed) = true := by decide +kernel
/-- R124: the active value for TRIP_FILT samples latches the input, which is the first of its series. -/
theorem test_trip_latches :
    nextIs (exec (.tripEdge 3 true ⟨10, false⟩) base) (fun t => flag t.trips.latch 3 && decide (t.trips.first = 3)) = true := by decide +kernel
/-- R343: RESET_N low for 1 ms holds the module in reset, and a shorter low does not. -/
theorem test_reset_low : nextIs (exec (.resetAssert 1000) base) (fun t => t.pwr.inReset) = true := by decide +kernel
theorem test_reset_short : nextIs (exec (.resetAssert 999) base) (fun t => !t.pwr.inReset) = true := by decide +kernel
/-- R287: a core mismatch opens every switch. -/
theorem test_core_mismatch : nextIs (exec .coreMismatch base) (fun t => !t.saf.switches.any id) = true := by decide +kernel
/-- R363: an opcode of no row is answered BAD_OPCODE (0x02). -/
theorem test_bad_opcode :
    nextIs (exec (.mbMsgBadOpcode msg 0x0FFF) base)
      (fun t => t.host.out = [.mbResp 7 2 { opcode := 0x0FFF, tag := 9, status := 2, reason := 0, params := [] } false]) = true := by decide +kernel

/-! ### Witnesses: each clause of a statement has a state and operands that meet its hypotheses -/

/-- A lane that is UP; no test darkens it. -/
def upLane : State := { base with lanes := base.lanes.set 47 { state := .up } }
theorem witness_TickEdgeNumbersItsTick_lanes :
    upLane.reg.gated = false ∧ upLane.lanes.length = 48 ∧ upLane.waiting = [] ∧ (upLane.lane 47).state = .up ∧ upLane.mod.gap = 0 ∧
      ({ upLane with mod := { upLane.mod with gap := 8 } } : State).mod.gap ≠ 0 := by decide +kernel
theorem witness_TickEdgeNumbersItsTick :
    Instr.wf (.tickEdge ⟨List.replicate 24 (List.replicate 5 0), 0, 0, 0, 0⟩) = true ∧ base.pwr.inReset = false ∧ base.reg.gated = false ∧
      State.reset.pwr.inReset = false ∧ State.reset.reg.gated = true := by decide

theorem witness_StoreStaysCanonical : objsWf [(Obj.MOD_ENABLE, 0)] = true ∧ step State.reset = .next State.reset := ⟨by decide, rfl⟩
theorem witness_DemandsKeepTheSwitchesOpen :
    base.prDemand = false ∧ base.outPr = base.saf.txPr ∧ base.outScs = base.saf.txScs ∧ step base = .next base :=
  ⟨by decide, by decide, by decide, rfl⟩
theorem witness_TickNumbersRise : base.tick.now < base.tick.next ∧ step base = .next base := ⟨by decide, rfl⟩

/-- LOCKED with setting active and its permit given; the next command makes the tracker coast. -/
def setLocked : State :=
  { base with
    gt := { base.gt with state := .locked, absentTicks := 20000 }, set := { base.set with active := true, permit := true }
    pending := [.gtCoastStart] }
theorem witness_PermitNeedsALockedTracker :
    setLocked.set.permit = true ∧ setLocked.set.active = true ∧ setLocked.gt.state = .locked ∧
      nextIs (step setLocked) (fun t => t.gt.state = .coasting) = true := by decide +kernel

theorem witness_ResetHoldsTheBlock :
    Instr.wf .frtStart = true ∧ Instr.wf (.hello ⟨[], {}⟩ 0) = false ∧ ({ base with pwr := { base.pwr with inReset := true } } : State).pwr.inReset = true := by
  decide

/-- Counters of the fusee at their thresholds. -/
def frtLow : State := { base with fus := { base.fus with frtLow := max 1 (4 * base.cfgN Obj.FRT_TIME), enrgRamp := true, enrgTicks := base.cfgN Obj.ENRG_TIME * 4000 } }
def frtHigh : State := { base with fus := { base.fus with frt := true, frtHigh := max 1 (4 * base.cfgN Obj.FRT_TIME) } }
theorem witness_FrtAndEnergisationEnd :
    frtLow.Awake ∧ (frtLow.fus.frt = false ∧ max 1 (4 * frtLow.cfgN Obj.FRT_TIME) ≤ frtLow.fus.frtLow) ∧
      (frtHigh.fus.frt = true ∧ max 1 (4 * frtHigh.cfgN Obj.FRT_TIME) ≤ frtHigh.fus.frtHigh) ∧
      base.fus.frtLow < max 1 (4 * base.cfgN Obj.FRT_TIME) ∧ base.fus.frt = false ∧
      (frtLow.fus.enrgRamp = true ∧ frtLow.cfgN Obj.ENRG_TIME * 4000 ≤ frtLow.fus.enrgTicks) ∧ base.fus.enrgRamp = false ∧
      ({ base with fus := { base.fus with enrgRamp := true, enrgTicks := base.cfgN Obj.ENRG_TIME * 4000 - 1 } } : State).fus.enrgTicks <
        base.cfgN Obj.ENRG_TIME * 4000 :=
  ⟨⟨rfl, rfl, rfl, rfl⟩, by decide +kernel⟩

def dcfLow (mode : Int) (ride armed : Bool) (n : Nat) : State :=
  { base with
    conv := { base.conv with state := .run }
    fus := { base.fus with dcfArmed := armed, dcfLow := n, dcfHigh := n, rideLost := !ride, dcfRecovering := true, dcfU := 2 * 2 ^ 60 }
    objs := if mode = 0 then [] else [(Obj.DCF_MODE, mode)] }
theorem witness_DcFaultIsTaken :
    (dcfLow 1 true true 40).Awake ∧ ((dcfLow 1 true true 40).fus.dcfArmed = true ∧ (dcfLow 1 true true 40).conv.state = .run ∧
      max 1 ((dcfLow 1 true true 40).cfgN Obj.DCF_TIME) ≤ (dcfLow 1 true true 40).fus.dcfLow ∧ (dcfLow 1 true true 40).cfg Obj.DCF_MODE = 1 ∧
      (dcfLow 1 true true 40).fus.rideLost = false) ∧ (dcfLow 0 false true 40).cfg Obj.DCF_MODE ≠ 1 ∧
      ((dcfLow 0 true false 40).fus.dcfArmed = false ∧ max 1 ((dcfLow 0 true false 40).cfgN Obj.DCF_TIME) ≤ (dcfLow 0 true false 40).fus.dcfHigh) ∧
      ((dcfLow 0 true false 40).fus.dcfRecovering = true ∧ (dcfLow 0 true false 40).sigPu 0x092 2 ≤ (dcfLow 0 true false 40).fus.dcfU) ∧
      (base.conv.state ≠ .run ∧ base.conv.state ≠ .scs) :=
  ⟨⟨rfl, rfl, rfl, rfl⟩, by decide +kernel⟩

def tracker (st : GtState) (absent qual : Nat) : State :=
  { base with gt := { base.gt with
      state := st, absentTicks := absent, qualTicks := qual, fit := { sumMag := 100 * 80000, magMax := 105, magMin := 95 } } }
/-- The fitted cycle passes the checks of R53. -/
def fitInside (s : State) : Prop :=
  |(s.gt.fit.slope s.nomCycle).1| * 1000 ≤ s.cfg Obj.FREQ_LIMIT * ((s.gt.fit.slope s.nomCycle).2 * s.stepNom) ∧
    10 * (s.gt.fit.magMax - s.gt.fit.magMin) * s.nomCycle ≤ s.gt.fit.sumMag
/-- Its magnitude has varied by one LSB too much. -/
def unsteady : State := { tracker .acquiring 0 80000 with gt := { (tracker .acquiring 0 80000).gt with fit := { sumMag := 100 * 80000, magMax := 106, magMin := 95 } } }
def gridUp : State := { tracker .coasting 0 0 with sig := (base.sig.set 0x029 0x40000000).set 0x02A 0xE0000000 |>.set 0x02B 0xE0000000 }
theorem witness_TrackerChangesState :
    (tracker .acquiring 20000 0).Awake ∧ 4 * (tracker .acquiring 20000 0).cfgN Obj.GT_ABSENT_TIME ≤ (tracker .acquiring 20000 0).gt.absentTicks ∧
      4 * (tracker .locked 20000 0).cfgN Obj.GT_ABSENT_TIME ≤ (tracker .locked 20000 0).gt.absentTicks ∧
      (tracker .locked 19999 0).gt.absentTicks < 4 * (tracker .locked 19999 0).cfgN Obj.GT_ABSENT_TIME ∧
      (gridUp.gt.state = .coasting ∧ gridUp.gridBack = true) ∧ (tracker .coasting 0 0).gridBack = false ∧
      ((tracker .acquiring 0 80000).nomCycle ≤ (tracker .acquiring 0 80000).gt.qualTicks ∧ fitInside (tracker .acquiring 0 80000)) ∧
      (unsteady.nomCycle ≤ unsteady.gt.qualTicks ∧ ¬fitInside unsteady) ∧
      (tracker .acquiring 0 79999).gt.qualTicks < (tracker .acquiring 0 79999).nomCycle := by
  unfold fitInside; exact ⟨⟨rfl, rfl, rfl, rfl⟩, by decide +kernel⟩

def staleCell (age : Nat) (seen : Bool) : State :=
  { base with
    cells := base.cells.set 0 { age := some age, staleSeen := seen, wasRanked := true }, objs := [(Obj.CELL_COUNT, 4), (Obj.ARM_MAP, 0)] }
theorem witness_StaleCellsLeaveTheRanking :
    (staleCell 49 false).Awake ∧ (0 : Nat) < (staleCell 49 false).laneCells 0 ∧ ((staleCell 49 false).cell 0).age = some 49 ∧
      (staleCell 49 false).cfgN Obj.STALE_TICKS < 49 ∧ ((staleCell 49 true).cell 0).staleSeen = true ∧
      ((staleCell 4048 true).cfg Obj.CELL_FAIL_TIME ≠ 0 ∧ ((staleCell 4048 true).cell 0).retired = none ∧
        (staleCell 4048 true).cfgN Obj.STALE_TICKS + (staleCell 4048 true).cfgN Obj.CELL_FAIL_TIME ≤ 4048) ∧
      4047 < (staleCell 4047 true).cfgN Obj.STALE_TICKS + (staleCell 4047 true).cfgN Obj.CELL_FAIL_TIME ∧
      (staleCell 49 false).laneArm 0 < 6 ∧ 6 ≤ base.laneArm 0 ∧ (staleCell 49 false).laneCells 0 ≤ 4 :=
  ⟨⟨rfl, rfl, rfl, rfl⟩, by decide +kernel⟩

/-- A group accepted two ticks before the next one is the first of the queue. -/
def group (items : List Item) : Group := { acc := 99, items := items, isSet := false, reply := none, move := none }
def queued (s : State) (items : List Item) : State := { s with esc := { s.esc with groups := [group items] } }
def lost : State := { base with cells := base.cells.set 5 { retired := some .lost }, objs := [(Obj.CELL_COUNT, 4), (Obj.ARM_MAP, 0)] }
theorem witness_CellsAreReadmitted :
    (queued lost [.action Obj.CELL_READMIT 5]).Awake ∧ (queued lost [.action Obj.CELL_READMIT 5]).esc.groups = [group [.action Obj.CELL_READMIT 5]] ∧
      lost.esc.migration = none ∧ lost.esc.waiting = [] ∧ lost.esc.noSpare = [] ∧ (group []).acc + 2 ≤ lost.tick.next ∧
      lost.esc.groupTick ≠ some lost.tick.next ∧ (queued lost [.action Obj.CELL_READMIT 5]).schedGroupDue = false ∧ lost.conv.state = .idle ∧ (lost.cell 5).retired ≠ none ∧ (lost.cell 4).retired = none ∧
      ({ lost with conv := { lost.conv with state := .run } } : State).conv.state ≠ .pr ∧ (lost.cell 4).age = none := by
  refine ⟨⟨rfl, rfl, rfl, rfl⟩, ?_⟩; decide +kernel
def laneReady : State := { lost with lanes := lost.lanes.set 0 { state := .up } }
theorem witness_CellsAreReadmitted_report :
    laneReady.arms.charge.length = 6 ∧ laneReady.arms.discharge.length = 6 ∧ (3 : Nat) < laneReady.cells.length ∧
      laneReady.laneArm (3 / 64) = 0 ∧ laneReady.cellInUse 3 = true ∧ laneReady.laneUp (3 / 64) = true ∧ (laneReady.cell 3).retired = none ∧
      (laneReady.cell 3).take = false := by decide +kernel

def setting (dwell now : Nat) : State := { base with set := { base.set with active := true, dwell := dwell }, tick := { now := now, next := now + 1, started := true } }
theorem witness_SettingPermitsOrTimesOut :
    (setting 400001 240000000).Awake ∧ (setting 400001 0).cfgN Obj.SET_DWELL * 4000 < (setting 400001 0).set.dwell ∧
      base.set.active = false ∧ (setting 0 0).cfg Obj.SET_TIMEOUT ≠ 0 ∧
      (setting 0 240000000).set.startTick + (setting 0 240000000).cfgN Obj.SET_TIMEOUT * 4000 ≤ (setting 0 240000000).tick.now ∧
      (setting 0 239999999).tick.now < (setting 0 239999999).set.startTick + (setting 0 239999999).cfgN Obj.SET_TIMEOUT * 4000 :=
  ⟨⟨rfl, rfl, rfl, rfl⟩, by decide +kernel⟩

def quiet : State := { base with lim := { base.lim with quiet := base.lim.quiet.set 7 true }, tick := { now := 4000000, next := 4000001, started := true } }
theorem witness_LimitInputsAreFiltered :
    quiet.Awake ∧ max 1 (base.cfgN (Obj.LIM_FILT + 7)) ≤ 400 ∧ 399 < max 1 (base.cfgN (Obj.LIM_FILT + 7)) ∧ base.lim.filtered.length = 8 ∧
      base.lim.chatter.length = 8 ∧ (true != (base.cfgN Obj.LIM_POL).testBit 7) ≠ flag base.lim.filtered 7 ∧
      (flag quiet.lim.quiet 7 = true ∧ flag quiet.lim.filtered 7 = false ∧
        (quiet.lim.changes.getD 7 []).headD 0 + 4000 * quiet.cfgN (Obj.LIM_QUIET + 7) ≤ quiet.tick.now) ∧ flag base.lim.quiet 7 = false :=
  ⟨⟨rfl, rfl, rfl, rfl⟩, by decide +kernel⟩

def tripped : State := { base with conv := { base.conv with state := .run }, trips := { base.trips with filtered := base.trips.filtered.set 15 true } }
/-- The first of a series has latched in the sample in progress. -/
def sameSample : State := { tripped with trips := { tripped.trips with latch := tripped.trips.latch.set 9 true, first := 9, sampleFirst := true } }
theorem witness_TripInputsLatch :
    tripped.Awake ∧ base.trips.latch.length = 16 ∧ base.trips.filtered.length = 16 ∧ base.trips.pin.length = 16 ∧
      ((true != (base.cfgN Obj.TRIP_POL).testBit 15) = true ∧ flag base.trips.filtered 15 = false ∧ base.cfgN (Obj.TRIP_FILT + 15) ≤ 10) ∧
      (base.cfgN (Obj.TRIP_ARMS + 15) ≠ 0 ∧ tripped.conv.state = .run ∧ base.conv.state ≠ .run) ∧
      (sameSample.trips.latch.any id = true ∧ sameSample.trips.sampleFirst = true) ∧
      ((false != (tripped.cfgN Obj.TRIP_POL).testBit 15) = false ∧ tripped.trips.intern.getD 15 0 = 0 ∧ flag tripped.trips.filtered 15 = true) :=
  ⟨⟨rfl, rfl, rfl, rfl⟩, by decide +kernel⟩

/-- One cell an arm is needed, and each arm has one above the level. -/
def charged : State :=
  { base with
    conv := { base.conv with state := .precharge }
    lanes := (List.range 48).map fun l => if l < 6 then { state := .up } else {}
    cells := (List.range 3072).map fun c => if c % 64 = 0 then { vcap := 20000, age := some 0, wasRanked := true } else {}
    arms := { base.arms with charge := (List.range 6).map fun j => [64 * j], discharge := (List.range 6).map fun j => [64 * j] }
    objs := [(Obj.N_NEED, 1)] ++ (List.range 6).map (fun l => (Obj.ARM_MAP + l, (l : Int))) ++ (List.range 6).map (fun l => (Obj.CELL_COUNT + l, 1)) }
theorem witness_PrechargeCompletes :
    charged.Awake ∧ charged.conv.state = .precharge ∧ charged.pair.role ≠ .standby ∧ charged.precharged = true ∧ charged.prDemand = false ∧
      ({ charged with conv := { charged.conv with prechg := true } } : State).conv.prechg = true ∧
      ({ charged with conv := { charged.conv with prechg := true } } : State).follows = none ∧ charged.conv.reqs = [] ∧
      ({ charged with saf := { charged.saf with mainDie := true } } : State).prDemand = true ∧ base.conv.state ≠ .precharge := by
  refine ⟨⟨rfl, rfl, rfl, rfl⟩, ?_⟩; decide +kernel

/-- Engine 14 executes in beat 0 a step that carries the residue check (opcode 1). -/
def checkedTable : State :=
  { base with esc := { base.esc with bankA := { base.esc.bankA with
      tables := base.esc.bankA.tables.set 14 { dir := [(0, 1), (0, 0), (0, 0), (0, 0)], steps := (List.replicate 1024 0).set 0 (BitVec.ofNat 64 (2 ^ 58)) } } } }
def spareGone : State := { base with esc := { base.esc with engines := base.esc.engines.set 15 { failed := true } } }
theorem witness_EngineFaultsMigrate :
    base.Awake ∧ base.esc.engines.length = 16 ∧ base.esc.map.length = 16 ∧ (base.esc.engine 14).failed = false ∧ base.esc.logicalOf 14 = 14 ∧
      base.esc.phys 14 = 14 ∧ 14 ≤ 15 - base.cfgN Obj.SPARES ∧ base.esc.migration = none ∧
      (base.setEngine 14 fun e => { e with failed := true }).freeSlots = [15] ∧
      (spareGone.setEngine 14 fun e => { e with failed := true }).freeSlots = [] ∧
      (checkedTable.residueAt 14 ⟨0, false⟩ = true ∧ checkedTable.residueAt 14 ⟨1, false⟩ = false ∧ checkedTable.residueAt 14 ⟨0, true⟩ = false ∧ checkedTable.esc.engines = base.esc.engines ∧
        checkedTable.esc.map = base.esc.map) ∧
      (base.esc.logicalOf 15 = 15 ∧ base.esc.phys 15 = 15 ∧ 15 - base.cfgN Obj.SPARES < 15) ∧ (spareGone.esc.engine 15).failed = true :=
  ⟨⟨rfl, rfl, rfl, rfl⟩, by decide +kernel⟩

def moving : Migration := { logical := 3, slot := 15, start := 28, byCommand := false, reply := none }
def migrating : State := { base with esc := { base.esc with migration := some moving } }
theorem witness_MigrationEnds :
    migrating.Awake ∧ migrating.esc.migration = some moving ∧ migrating.esc.engines.length = 16 ∧ migrating.esc.map.length = 16 ∧
      (moving.start + 73 ≤ migrating.tick.next ∧ moving.logical ≠ moving.slot ∧ moving.logical < 16 ∧ moving.slot < 16 ∧
        migrating.esc.phys moving.slot < 16 ∧ migrating.esc.groups = [] ∧ migrating.esc.waiting = [] ∧ moving.reply = none) ∧
      migrating.tick.next < ({ moving with start := 29 } : Migration).start + 73 :=
  ⟨⟨rfl, rfl, rfl, rfl⟩, by decide +kernel⟩

def coefStep : State := queued base [.coef true 0 5 (BitVec.ofNat 64 (2 ^ 40))]
theorem witness_CoefficientGroupApplies :
    coefStep.Awake ∧ coefStep.esc.groups = [group [.coef true 0 5 (BitVec.ofNat 64 (2 ^ 40))]] ∧ coefStep.esc.migration = none ∧
      coefStep.esc.waiting = [] ∧ coefStep.esc.noSpare = [] ∧ (group []).acc + 2 ≤ coefStep.tick.next ∧
      coefStep.esc.groupTick ≠ some coefStep.tick.next ∧ coefStep.schedGroupDue = false ∧ coefStep.tick.next < ({ group [] with acc := 100 } : Group).acc + 2 := by
  refine ⟨⟨rfl, rfl, rfl, rfl⟩, ?_⟩; decide +kernel

def swapAt (due : Nat) : State := { base with esc := { base.esc with swap := some ⟨due, none⟩ } }
theorem witness_BankSwapActs :
    (swapAt 101).Awake ∧ (swapAt 101).esc.swap = some ⟨101, none⟩ ∧ (101 : Nat) ≤ (swapAt 101).tick.next ∧ (swapAt 101).esc.migration = none ∧
      (swapAt 101).esc.waiting = [] ∧ (swapAt 101).esc.groups = [] ∧ (swapAt 101).esc.swapCount = 0 ∧
      ({ (swapAt 101).esc with swapTick := 101, swapCount := 1 } : Esc).swapTick = (swapAt 101).tick.next ∧ (swapAt 102).tick.next < 102 := by
  refine ⟨⟨rfl, rfl, rfl, rfl⟩, ?_⟩; decide +kernel

/-- An image of a header alone; its CRC field is given. -/
def image (magic : Nat) (crc : Nat) : List Byte :=
  beBytes 4 magic ++ beBytes 2 1 ++ beBytes 2 0 ++ beBytes 4 64 ++ List.replicate 48 0 ++ beBytes 4 crc
def verifying (magic crc : Nat) : State := { base with esc := { base.esc with verify := some ⟨image magic crc, false, none, none⟩ } }
theorem witness_LoadedImageIsVerified_header :
    (verifying 0 0).Awake ∧ (verifying 0 0).esc.verify = some ⟨image 0 0, false, none, none⟩ ∧ imageHeaderOk (image 0 0) = false ∧
      imageHeaderOk (image 0x4C475442 0) = true :=
  ⟨⟨rfl, rfl, rfl, rfl⟩, by decide +kernel⟩
def imageCrc : Nat := (crc32c 0xFFFFFFFF (image 0x4C475442 0)).toNat
theorem witness_LoadedImageIsVerified_crc :
    imageCrcOk (image 0x4C475442 imageCrc) = true ∧ imageCrcOk (image 0x4C475442 (imageCrc + 1)) = false := by decide +kernel

def convKey (options : Byte) : SchedKey := ⟨1, options, 0, 0⟩
def action (options : Byte) (due : Nat) : Action :=
  { id := 1, key := convKey options, cmd := .convState (convKey options) 2, acc := 99, due := some due, pos := none, hold := false, reached := none
    jump := false, coasted := false }
def scheduled (options : Byte) (due : Nat) : State := { base with sched := { base.sched with pending := [action options due] } }
theorem witness_ScheduledActionActs :
    (scheduled 0 101).Awake ∧ (scheduled 0 101).sched.pending = [action 0 101] ∧
      ((action 0 101).acc + 2 ≤ (scheduled 0 101).tick.next ∧ 101 ≤ (scheduled 0 101).tick.next ∧ keyDiscard (action 0 101).key = false) ∧
      (100 < (scheduled 1 100).tick.next ∧ keyDiscard (action 1 100).key = true) ∧ (scheduled 0 102).tick.next < 102 := by
  refine ⟨⟨rfl, rfl, rfl, rfl⟩, ?_⟩; decide +kernel

def recording : State := { base with chr := { base.chr with state := .recording, cur := some { id := 1 } } }
def holdoff (n : Nat) (rs : List Record) : State :=
  { base with
    chr := { base.chr with state := .holdoff, closedTick := 1, records := rs }, tick := { now := n - 1, next := n, started := true } }
def suppressed : RateAcc := { src := 3, cls := 1, count := 20, suppressed := 4, firstCode := 0x2101, lastCode := 0x2102, firstTick := 50, lastTick := 90 }
def windowEnd : State := { base with tick := { now := 3999999, next := 4000000, started := true }, log := { base.log with acc := [suppressed] } }
theorem witness_RecordsAndLogWindowsClose :
    recording.Awake ∧ (recording.chr.state = .recording ∧ recording.chr.postLeft = 0 ∧ recording.chr.cur = some { id := 1 }) ∧
      base.chr.state ≠ .recording ∧
      ((holdoff 4000001 []).chr.state = .holdoff ∧ (holdoff 4000001 []).chr.disarm = false ∧
        (holdoff 4000001 []).chrView.cfgN Obj.CHR_HOLDOFF_MODE ≠ 1 ∧
        (holdoff 4000001 []).chr.closedTick + (holdoff 4000001 []).chrView.cfgN Obj.CHR_HOLDOFF * 4000 ≤ (holdoff 4000001 []).tick.next ∧
        (holdoff 4000001 []).chr.records.length < (holdoff 4000001 []).chrView.cfgN Obj.CHR_SLOTS) ∧
      ((holdoff 4000001 (List.replicate 16 {})).chrView.cfgN Obj.CHR_SLOTS ≤ (holdoff 4000001 (List.replicate 16 {})).chr.records.length ∧
        (holdoff 4000001 (List.replicate 16 {})).chrView.cfgB Obj.CHR_OVERWRITE_UNREAD = false ∧ base.chr.full = false) ∧ base.chr.state ≠ .holdoff ∧ windowEnd.waiting = [] ∧
      windowEnd.tick.next % (windowEnd.cfgN Obj.LOG_PERIOD * 4000) = 0 ∧ windowEnd.log.acc = [suppressed] ∧ suppressed.suppressed ≠ 0 ∧
      base.tick.next % (base.cfgN Obj.LOG_PERIOD * 4000) ≠ 0 := by
  refine ⟨⟨rfl, rfl, rfl, rfl⟩, ?_⟩; decide +kernel

/-- The window angle has passed its anchor since the last edge, by one step of the balance. -/
def passed (low opened : Bool) : State :=
  { base with
    bal := { base.bal with acc := 1, lastStep := 2 }
    pwr := { base.pwr with anaOk := true }
    meas := { base.meas with vanaOk := true, vanaLow := low, winOpen := opened, endTick := some 101, endFrac := 90, endFast := { base.meas.endFast with weight := 1 } } }
theorem witness_WindowBoundaryTurnsWindows :
    (passed false true).Awake ∧ ((passed false true).pwr.entry = none ∧ (passed false true).meas.vanaOk = true ∧ (passed false true).pwr.anaOk = true ∧
      (passed false true).anchorPassed = true ∧ (passed false true).meas.lastBound < ((passed false true).tick.now - 1) * 2048 ∧ (passed false true).meas.winFb = false ∧
      (passed false true).pwr.state = .s0 ∧ (passed false true).waiting = []) ∧
      ((passed false true).meas.winOpen = true ∧ (passed true false).meas.vanaLow = true ∧ (passed true false).meas.winOpen = false) ∧
      base.anchorPassed = false := by
  refine ⟨⟨rfl, rfl, rfl, rfl⟩, ?_⟩; decide +kernel

def aiZero : AiWindow := ⟨0, 0, 0⟩
theorem witness_WindowResultsStand :
    (passed false false).Awake ∧ (List.replicate 24 false).length = 24 ∧ (List.replicate 24 aiZero).length = 24 ∧ (passed false false).meas.winFb = false ∧
      (passed false false).meas.endTick = some 101 ∧ 101 ≤ (passed false false).tick.next ∧ (passed false false).meas.endStart ≤ (passed false false).meas.endFrac ∧
      0 < (passed false false).meas.endFast.weight ∧ base.meas.endFast.weight = 0 ∧
      base.meas.endTick = none ∧ (List.replicate 23 aiZero).length ≠ 24 ∧ (List.replicate 23 false).length ≠ 24 := by
  refine ⟨⟨rfl, rfl, rfl, rfl⟩, ?_⟩; decide +kernel

def fallBack (turns : Nat) : State :=
  { passed true false with meas := { (passed true false).meas with fbTurns := turns, refInUse := 1, refSettled := true, refMean := 2500000000 } }
theorem witness_SupplyAndReferenceAreWatched :
    (fallBack 8).Awake ∧ ((fallBack 8).meas.vanaOk = true ∧ (fallBack 8).pwr.anaOk = true ∧ (fallBack 8).meas.vanaLow = true ∧ (fallBack 8).anchorPassed = true ∧
      (fallBack 8).meas.winOpen = false ∧ (fallBack 8).meas.fbPowered = false ∧ (fallBack 8).cfgN Obj.WIN_FB_EVERY ≤ (fallBack 8).meas.fbTurns) ∧
      (fallBack 7).meas.fbTurns < (fallBack 7).cfgN Obj.WIN_FB_EVERY ∧ (fallBack 8).pwr.entry = none ∧ (10799 : Nat) < 10800 ∧
      (base.meas.vanaOk = false ∧ (11000 : Nat) < 11001 ∧ base.pwr.started = true) ∧ ((passed false false).meas.vanaLow = false ∧ (11699 : Nat) < 11700) ∧
      ((fallBack 8).meas.vanaLow = true ∧ (11800 : Nat) < 11801) ∧
      (base.meas.vanaOk = false ∧ base.pwr.lateVana = false ∧ ({ base with feed := { base.feed with aPresent := true } } : State).feed.aPresent = true) ∧
      ((fallBack 8).meas.refInUse = 1 ∧ (2399999999 : Int) < 2400000000 ∧ (fallBack 8).meas.refLost = false) ∧
      ((fallBack 8).meas.refSettled = true ∧ 20 * (fallBack 8).meas.refMean < |2500050001 - (fallBack 8).meas.refMean| * 1000000 ∧
        |2500050000 - (fallBack 8).meas.refMean| * 1000000 ≤ 20 * (fallBack 8).meas.refMean) := by
  refine ⟨⟨rfl, rfl, rfl, rfl⟩, ?_⟩; decide +kernel

def laneIn (x : Lane) : State := { base with lanes := base.lanes.set 47 x, objs := [(Obj.CELL_COUNT + 47, 64)] }
/-- The blocks of an uplink frame of a kind: SOF, tick number, status, body, and EOF with the check. -/
def uplinkBlocks (field kind tick : Nat) (body : List Nat) : List LaneBlock :=
  let bs := controlBlock tySof (field * 2 ^ 50 + kind * 2 ^ 48) :: ([tick, 0] ++ body).map dataBlock
  bs ++ [controlBlock tyEof ((crc32c 0xFFFFFFFF (bs.flatMap blockBytes)).toNat * 2 ^ 24)]
/-- Report of cell 63 with its VALID bit. -/
def report : Word := BitVec.ofNat 32 (63 * 2 ^ 26 + 20000 * 2 ^ 8 + 2 ^ 7)
theorem witness_UplinkFramesAreTaken :
    (laneIn {}).Awake ∧ (laneIn {}).lanes.length = 48 ∧ (laneIn {}).cells.length = 3072 ∧ ((laneIn {}).lane 47).state = .off ∧
      ((laneIn { state := .up }).lane 47).state = .up ∧
      (((laneIn { state := .seek, identRun := 15 }).lane 47).state = .seek ∧ ((laneIn { state := .seek, identRun := 15 }).lane 47).identRun = 15) ∧
      ([0, 0, 0, report][3]? = some report ∧ report.toNat / 2 ^ 26 = 4 * ((15 : DWord).toNat % 16) + 3 ∧
        4 * ((15 : DWord).toNat % 16) + 3 < (laneIn { state := .up }).laneCells 47 ∧ report.getLsbD 7 = true ∧ report.getLsbD 6 = false ∧
        report.getLsbD 4 = (laneIn { state := .up }).laneFb 47) := by
  refine ⟨⟨rfl, rfl, rfl, rfl⟩, ?_⟩; decide +kernel
/-- Blocks that read as a frame of each body, one of another lane among them, and blocks whose check is wrong (R139, R144). -/
theorem witness_UplinkFramesAreTaken_blocks :
    readUplink (uplinkBlocks 47 0 15 [0, report.toNat]) = some ⟨47, 15, 0, .telem [0, 0, 0, report]⟩ ∧
      readUplink (uplinkBlocks 47 1 15 [1, 2]) = some ⟨47, 15, 0, .ident 1 2⟩ ∧ readUplink (uplinkBlocks 46 1 15 [1, 2]) = some ⟨46, 15, 0, .ident 1 2⟩ ∧
      readUplink ((uplinkBlocks 47 1 15 [1, 2]).set 3 (dataBlock 3)) = none := by decide +kernel

/-- A full set of 256 equal measurements of `twoD`. -/
def measured (twoD : Int) : State :=
  laneIn { state := .sync, setN := 256, setMin := twoD, setMax := twoD, setSum := 256 * twoD, maxCells := 64, maxExec := 8, hbOk := true, fbOk := true }
theorem witness_LanesComeUpAndFall :
    (measured 313500).Awake ∧ (((measured 313500).lane 47).state = .sync ∧ 256 ≤ ((measured 313500).lane 47).setN ∧
      ((measured 313500).lane 47).setMax - ((measured 313500).lane 47).setMin ≤ 16) ∧
      (roundDiv ((measured 313500).lane 47).setSum 512 ≤ ((measured 313500).cfgN Obj.EXEC_DELAY * 20625 : Nat) - 8250 ∧
        (measured 313500).laneCells 47 ≤ ((measured 313500).lane 47).maxCells ∧
        (measured 313500).cfgN Obj.EXEC_DELAY ≤ ((measured 313500).lane 47).maxExec ∧
        (if (measured 313500).laneFb 47 then ((measured 313500).lane 47).fbOk else ((measured 313500).lane 47).hbOk) = true) ∧
      ((measured 313502).cfgN Obj.EXEC_DELAY * 20625 : Nat) - (8250 : Int) < roundDiv ((measured 313502).lane 47).setSum 512 ∧
      (((laneIn { state := .up, missRun := 64, far := 16 }).lane 47).state = .up ∧ 64 ≤ ((laneIn { state := .up, missRun := 64 }).lane 47).missRun ∧
        16 ≤ ((laneIn { state := .up, missRun := 64, far := 16 }).lane 47).far) ∧ ((laneIn {}).lane 47).state ≠ .up := by
  refine ⟨⟨rfl, rfl, rfl, rfl⟩, ?_⟩; decide +kernel

def refs (refclk ocxo rc : Bool) : State := { base with reg := { base.reg with refclk := refclk, ocxoOk := ocxo, refclkOk := rc, ramp := true, rampQ := [⟨100, 5⟩] } }
theorem witness_ReferencesSwitchAndRampsStart :
    (refs false true true).Awake ∧ ((refs false true true).reg.refclk = false ∧ (refs false true true).reg.ocxoOk = true ∧
      (refs false true true).reg.refclkOk = true) ∧ ((refs true true true).reg.refclk = true ∧ (refs true true true).reg.good false = true) ∧
      ((refs false true false).reg.good false = true ∧ (refs false true false).reg.refclk = false ∧ (refs false true false).reg.good (!false) = false) ∧
      (refs false true false).reg.good true = false ∧
      ((refs false true true).reg.rampQ = [⟨100, 5⟩] ∧ (refs false true true).reg.ramp = true ∧ (refs false true true).reg.rampRun = none) ∧
      base.reg.rampQ = [] :=
  ⟨⟨rfl, rfl, rfl, rfl⟩, by decide +kernel⟩

def unlocked (started : Bool) : State := { base with reg := { base.reg with gated := true, locked := false }, tick := { base.tick with started := started } }
def lowRise (locked low : Bool) : State := { base with reg := { base.reg with locked := locked, low := low } }
theorem witness_LockIsDeclaredAndLost :
    ((unlocked true).pwr.inReset = false ∧ (unlocked true).pwr.state = .s0 ∧ (unlocked true).reg.gated = true ∧ (unlocked true).reg.locked = false ∧
        (unlocked true).waiting = []) ∧
      (({ (unlocked true) with reg := { (unlocked true).reg with low := false } } : State).reg.low = false ∧ (500 : Nat) ≤ 1500) ∧
      ((unlocked false).tick.started = false ∧ (unlocked true).tick.started = true ∧ (unlocked true).reg.aonLost = false) ∧
      ((lowRise false true).reg.gated = false ∧ (lowRise false true).saf.tickMissing = false ∧ (lowRise false true).reg.locked = false ∧
        (lowRise false true).reg.low = true ∧ (499 : Nat) < 500 ∧ (1500 : Nat) < 1501) ∧ (lowRise true false).reg.locked = true ∧
      (2000 < (⟨2001, 0⟩ : RefCycle).errorPs ∧ (⟨1000, 2000⟩ : RefCycle).errorPs ≤ 2000 ∧ (1799 : Nat) < 1800) := by decide +kernel

def ptp (st : TimeState) (offs : List Int) (mode : Int) (ramp : Bool) : State :=
  { base with
    time := { base.time with state := st, gmPresent := true, offs8 := offs, gm := 5, reqOut := 1 }, reg := { base.reg with ramp := ramp }
    objs := if mode = objDefault Obj.PTP_MODE then [] else [(Obj.PTP_MODE, mode)] }
theorem witness_SyncDrivesTheTimeState :
    (ptp .free (List.replicate 7 1000) 1 false).Awake ∧ (ptp .free (List.replicate 7 1000) 1 false).pwr.entry = none ∧ ((ptp .free (List.replicate 7 1000) 1 false).cfgN Obj.PTP_MODE ≠ 0 ∧
      (ptp .free (List.replicate 7 1000) 1 false).cfgN Obj.PTP_DOMAIN = 0 ∧ (ptp .free (List.replicate 7 1000) 1 false).time.gmPresent = true ∧
      (ptp .free (List.replicate 7 1000) 1 false).time.master = false ∧ (ptp .free (List.replicate 7 1000) 1 false).reg.ramp = false ∧
      (((2000 : Int) :: List.replicate 7 1000).take 8).length = 8 ∧ median (((2000 : Int) :: List.replicate 7 1000).take 8) = 1000 ∧
      (((2000 : Int) :: List.replicate 7 1000).take 8).all (fun x => decide (|x - 1000| ≤ 1000)) = true) ∧
      ((((0 : Int) :: (ptp .free [] 1 false).time.offs8).take 8).length < 8 ∧ (ptp .free [] 1 true).reg.ramp = true) ∧
      ((ptp .locked [] 1 false).time.state = .locked ∧ (ptp .free [] 1 false).time.stepPending = none) ∧ (ptp .free [] 0 false).cfgN Obj.PTP_MODE = 0 := by
  refine ⟨⟨rfl, rfl, rfl, rfl⟩, ?_⟩; decide +kernel

/-- A port that may be master, whose PTP_PRIORITY1 is 100. -/
def mayMaster : State := { base with objs := [(Obj.PTP_SLAVE_ONLY, 0), (Obj.PTP_PRIORITY1, 100)], time := { base.time with master := true } }
/-- An Announce of another grandmaster with a priority1. -/
def announced (p : Nat) : Announce := ⟨0, 1, ⟨p, 248, 0x21, 0x4E5D, 128, Config.clockIdentity + 1, 0⟩, 37, true⟩
theorem mayMaster_ranks (p : Nat) (h : p ≠ 100) : betterMaster mayMaster.ownMaster (announced p).master = decide (100 < p) := by
  have hp : mayMaster.ownMaster.priority1 = 100 := by decide +kernel
  have hg : mayMaster.ownMaster.gmIdentity ≠ (announced p).master.gmIdentity := by
    change Config.clockIdentity ≠ Config.clockIdentity + 1; bv_omega
  have hq : (announced p).master.priority1 = p := rfl
  rw [betterMaster, if_neg hg]
  simp [masterRank, lexLower, hp, hq, h.symm]
theorem witness_PtpPortSpeaks :
    (ptp .free [] 1 false).Awake ∧ (ptp .free [] 1 false).pwr.entry = none ∧ (List.replicate 10 (0 : Byte)).length = 10 ∧
      ((ptp .free [] 1 false).cfgN Obj.PTP_MODE = 1 ∧ (ptp .free [] 1 false).cfgN Obj.PTP_DOMAIN = 0 ∧ (ptp .free [] 1 false).time.reqOut = 1) ∧
      ((ptp .free [] 2 false).cfgN Obj.PTP_MODE ≠ 1 ∧ (ptp .free [] 2 false).cfgN Obj.PTP_MODE ≠ 3 ∧ (ptp .free [] 2 false).cfgN Obj.PTP_MODE ≠ 0) ∧
      ((ptp .free [] 1 false).time.gm ≠ 0 ∧ (6 : DWord) ≠ (ptp .free [] 1 false).time.gm ∧ base.time.gm = 0 ∧ base.cfgB Obj.PTP_SLAVE_ONLY = true) ∧
      (mayMaster.time.master = true ∧ mayMaster.cfgB Obj.PTP_SLAVE_ONLY = false) ∧ (ptp .free [] 0 false).cfgN Obj.PTP_MODE = 0 := by
  refine ⟨⟨rfl, rfl, rfl, rfl⟩, ?_⟩; decide +kernel
theorem witness_PtpPortSpeaks_best :
    mayMaster.bestTaken (announced 101) = true ∧ betterMaster mayMaster.ownMaster (announced 101).master = true ∧
      betterMaster mayMaster.ownMaster (announced 99).master = false ∧
      ({ base with time := { base.time with best := some (2, (announced 0).master) } } : State).bestTaken (announced 1) = false := by
  refine ⟨rfl, mayMaster_ranks _ (by decide), mayMaster_ranks _ (by decide), ?_⟩
  simp [State.bestTaken, announced, betterMaster]

theorem witness_TimeStateFallsBack :
    (ptp .locked [] 1 false).Awake ∧ (ptp .locked [] 1 false).cfgN Obj.PTP_MODE ≠ 0 ∧ (ptp .locked [] 1 false).reg.ramp = false ∧
      (ptp .locked [] 1 false).time.state = .locked ∧ (ptp .locked [] 1 false).cfgN Obj.HOLDOVER_MAX ≠ 0 ∧
      ({ base with objs := [(Obj.HOLDOVER_MAX, 0)] } : State).cfgN Obj.HOLDOVER_MAX = 0 ∧ (ptp .free [] 1 false).time.state ≠ .locked ∧
      ((ptp .holdover [] 1 false).time.state = .holdover ∧
        (ptp .holdover [] 1 false).cfgN Obj.HOLDOVER_MAX ≤ (ptp .holdover [] 1 false).cfgN Obj.HOLDOVER_MAX) := by
  refine ⟨⟨rfl, rfl, rfl, rfl⟩, ?_⟩; decide +kernel

/-- The same with one binding, to no object. -/
def badImage : List Byte :=
  beBytes 4 0x4C475442 ++ beBytes 2 1 ++ beBytes 2 0 ++ beBytes 4 72 ++ beBytes 2 1 ++ List.replicate 46 0 ++ List.replicate 12 0
theorem witness_LoadedImageIsVerified_taken : repRejects (verifyReport base (imageOf (image 0x4C475442 imageCrc)) 1) = false := by decide +kernel
theorem witness_LoadedImageIsVerified_rejected :
    imageHeaderOk badImage = true ∧ repRejects (verifyReport base (imageOf badImage) 1) = true := by decide +kernel

def ring (east west orig : Bool) : State :=
  { base with train := { base.train with
      state := if orig then .root else .member, addr := 5, eastUp := east, westUp := west, originating := orig, unwrappedE := orig, unwrappedW := orig
      quietTicks := 104 } }
theorem witness_TrainPortsWrapTheRing :
    (ring true true false).Awake ∧ (ring true true false).pwr.entry = none ∧ (base.train.eastUp = false ∧ base.train.westUp = false ∧
        base.train.badRunE < 8 ∧ base.train.miswireE = false ∧ base.train.badRunW < 8 ∧ base.train.miswireW = false) ∧
      (let b := { base.train with badRunE := 8, badRunW := 7, miswireW := true }
       b.eastUp = false ∧ 8 ≤ b.badRunE ∧ b.westUp = false ∧ b.miswireW = true) ∧
      ((ring true true false).train.wrapped = false ∧ (ring true true false).train.state ≠ .none ∧ (ring true true false).train.eastUp = true ∧
        (ring true true false).train.westUp = true) ∧
      ((ring true true true).train.originating = true ∧ (ring true true true).train.unwrappedE = true ∧ (ring true true true).train.unwrappedW = true ∧
        (ring true true true).train.closed = false) ∧ base.train.originating = false := by
  refine ⟨⟨rfl, rfl, rfl, rfl⟩, ?_⟩; decide +kernel

def joined : List DWord := (List.replicate 32 (0 : DWord)).set 31 (slotWord 1 3 0)
def trainFrame (west good : Bool) (slots : List DWord) : TrainFrame := ⟨9, west, false, false, 0, 0, 77, slots, good⟩
/-- The fields stand in their blocks (R320). -/
theorem test_trainFrame_fields :
    let f := readTrain ([⟨0b10, 0x2D, 0x00000009C00000⟩, ⟨0b01, 0, 0x0000000000050000⟩, ⟨0b01, 0, 0x000000060000004D⟩] ++ joined.map (⟨0b01, 0, ·⟩))
    f.rootSerial = 9 ∧ f.west = true ∧ f.wrapped = true ∧ f.acting = false ∧ f.txSec = 5 ∧ f.txNs = 6 ∧ f.rootTick = 77 ∧ f.slots = joined := by
  decide +kernel
theorem witness_TrainFramesPassOn_wire (west good : Bool) : readTrain (trainFrame west good joined).wire = trainFrame west good joined :=
  readTrain_wire _ rfl (by simp [trainFrame]) (by simp [trainFrame])
theorem witness_TrainFramesPassOn :
    (ring true true false).Awake ∧ (ring true true false).pwr.entry = none ∧ (ring true true false).train.slots.length = 32 ∧ (ring true true false).train.ages.length = 32 ∧
      ((ring true true false).train.portUp true = true ∧ (trainFrame false true joined).good = true ∧
        (trainFrame false true joined).west ≠ true ∧ (trainFrame false true joined).wrapped = false ∧ (ring true true false).train.originating = false ∧
        (ring true true false).train.addr ≠ 0 ∧ (ring true true false).train.addr < 32 ∧ (ring true true false).train.portUp false = true) ∧
      (joined[31]? = some (slotWord 1 3 0) ∧ newerSlot (slotWord 1 3 0) ((ring true true false).train.slot 31) = true ∧
        joined[30]? = some 0 ∧ newerSlot 0 ((ring true true false).train.slot 30) = false) ∧
      (trainFrame false false joined).good = false ∧ (trainFrame true true joined).west = true ∧ (trainFrame true true joined).good = true ∧
      (ring true false false).train.portUp true = false ∧ ([] : List LaneBlock).length ≠ 36 := by
  refine ⟨⟨rfl, rfl, rfl, rfl⟩, ?_⟩; decide +kernel

/-- A GRANT to this module, whatever its serial number. -/
def grant (addr : Nat) : DWord := BitVec.ofNat 64 (3 * 2 ^ 60 + mySerial * 2 ^ 24 + addr % 32 * 2 ^ 19)
theorem grant_word (addr : Nat) : slotKind (grant addr) = 3 ∧ payWord (grant addr) = mySerial ∧ payAddr (grant addr) = addr % 32 := by
  have h : mySerial < 2 ^ 32 := Config.serial.isLt
  simp only [slotKind, payWord, payAddr, DWord.bits, grant, BitVec.toNat_ofNat]
  omega
def joining (stored : Nat) : State := { base with train := { base.train with state := .joining, stored := stored } }
theorem witness_TrainAddressesAreGranted :
    (ring true true true).Awake ∧ (ring true true true).pwr.entry = none ∧ ((ring true true true).train.originating = true ∧ slotKind (slotWord 2 1 (joinPay 55 31)) = 2 ∧
      (ring true true true).train.outMsg = [] ∧ payAddr (slotWord 2 1 (joinPay 55 31)) ≠ 0 ∧
      (ring true true true).train.table = [] ∧ (ring true true true).train.isPresent (payAddr (slotWord 2 1 (joinPay 55 31))) = false) ∧
      base.train.originating = false ∧
      ((joining 31).train.state = .joining ∧ (joining 31).train.originating = false ∧ (joining 31).train.full = false ∧ (joining 31).train.stored = 31) ∧
      ((ring true true false).train.state = .member ∧ 64 + 8 * (ring true true false).train.addr ≤ (ring true true false).train.quietTicks) ∧
      base.train.state ≠ .member := by
  refine ⟨⟨rfl, rfl, rfl, rfl⟩, ?_⟩; decide +kernel
theorem witness_TrainAddressesAreGranted_grant :
    slotKind (grant 31) = 3 ∧ payWord (grant 31) = mySerial ∧ payAddr (grant 31) = 31 ∧ payAddr (grant 0) = 0 :=
  ⟨(grant_word 31).1, (grant_word 31).2.1, (grant_word 31).2.2, (grant_word 0).2.2⟩

def armWord : DWord := slotWord 4 3 (armPay 0x50001 true)
/-- FIRE of ARM_ID 0x5_0001 at 25 µs, the module time of tick 100. -/
def fireWord1 : DWord := slotWord 6 3 (fire1Pay 0x50001 0)
def fireWord2 : DWord := slotWord 7 4 (fire2Pay 25000)
def armedBy (id : Nat) : State := { base with chr := { base.chr with state := .armed, armId := id, fixed := [(Obj.CHR_TRIG_EN, 0x80)] } }
/-- A record whose own trigger fell in tick 100. -/
def ownTrigger : Record := { id := 1, trigTick := 100 }
def ownRecord : State := { armedBy 0x50001 with chr := { (armedBy 0x50001).chr with state := .recording, cur := some ownTrigger, postLeft := 3 } }
def joinedArm : State := { armedBy 1 with objs := [(Obj.CHR_TRAIN_JOIN, 1)] }
/-- FIRE_1 has been taken from the slot of module 31. -/
def heard (s : State) : State := { s with train := { s.train with slots := s.train.slots.set 31 fireWord1 } }
/-- A later message stands there: the FIRE_1 has not been taken. -/
def refired : State := { base with train := { base.train with slots := base.train.slots.set 31 (slotWord 1 3 0) } }
theorem witness_TrainArmsAndFires :
    base.Awake ∧ base.pwr.entry = none ∧ base.train.full = false ∧ (31 : Fin 32).val ≠ 0 ∧ (31 : Fin 32).val ≠ base.train.addr ∧
      (newerSlot armWord (base.train.slot 31) = true ∧ slotKind armWord = 4 ∧
        ({ base with objs := [(Obj.CHR_TRAIN_JOIN, 1)] } : State).cfgB Obj.CHR_TRAIN_JOIN = true ∧ base.chr.state = .idle ∧ base.canArm = true ∧
        (armedBy 1).chr.state ≠ .idle ∧ joinedArm.chr.state ≠ .idle ∧ joinedArm.cfgB Obj.CHR_TRAIN_JOIN = true) ∧
      (slotKind (slotWord 5 3 (armPay 0x50001 false)) = 5 ∧ newerSlot (slotWord 5 3 (armPay 0x50001 false)) (base.train.slot 31) = true ∧
        (armedBy 0x50001).chr.armId = payWord (slotWord 5 3 (armPay 0x50001 false)) ∧ payWord (slotWord 5 3 (armPay 0x50001 false)) ≠ 0 ∧
        base.chr.armId ≠ payWord (slotWord 5 3 (armPay 0x50001 false))) ∧
      (slotKind fireWord1 = 6 ∧ slotKind fireWord2 = 7 ∧ slotSeq fireWord2 = (slotSeq fireWord1 + 1) % 16 ∧
        (heard (armedBy 0x50001)).train.slot 31 = fireWord1 ∧ newerSlot fireWord2 ((heard (armedBy 0x50001)).train.slot 31) = true ∧
        newerSlot fireWord2 (refired.train.slot 31) = true ∧ refired.train.slot 31 ≠ fireWord1 ∧ newerSlot fireWord1 (refired.train.slot 31) = false ∧ (armedBy 0x50001).chr.state = .armed ∧ (armedBy 0x50001).chr.armId = payWord fireWord1 ∧
        payWord fireWord1 ≠ 0 ∧ ((armedBy 0x50001).chrView.cfgN Obj.CHR_TRIG_EN).testBit 7 = true) ∧
      (ownRecord.chr.state = .recording ∧ ownRecord.chr.cur = some ownTrigger ∧ ownTrigger.flags.testBit 4 = false ∧
        ownTrigger.trigTick = (floorDiv (nearestSec (ownRecord.timeOf ownRecord.tick.now / 1000000000) (DWord.bits fireWord1 23 8) * 1000000000 +
          payWord fireWord2 - ownRecord.time.epoch) 250).toNat) ∧
      ({ ownTrigger with trigTick := 99 } : Record).trigTick ≠ 100 ∧ base.chr.armId ≠ payWord fireWord1 := by
  refine ⟨⟨rfl, rfl, rfl, rfl⟩, ?_⟩; decide +kernel

/-- A pair with partner 6: the age of its heartbeat, and what it carried last. -/
def pairOf (role : PairRole) (age : Nat) (hbLost : Bool) (word : DWord) (lanes : List Lane) : State :=
  { base with
    train := { base.train with state := .member, addr := 5, ages := base.train.ages.set 6 age }
    pair := { base.pair with role := role, seen := true, hbLost := hbLost, partner := word, ready := true, reported := .idle, abdicating := false }
    lanes := lanes ++ List.replicate (48 - lanes.length) {}
    objs := [(Obj.PAIR_PARTNER, 6), (Obj.PAIR_LOF_LANES, 1), (Obj.PAIR_REVERT, 1), (Obj.ARM_MAP, 0), (Obj.CELL_COUNT, 4)] }
/-- Heartbeat: leader, RUN, READY, preferred, partner 5. -/
def hbWord : DWord := slotWord 1 3 (1 * 2 ^ 54 + 3 * 2 ^ 51 + 1 * 2 ^ 48 + 5 * 2 ^ 42 + 1 * 2 ^ 33)
def following : Lane := { state := .up, heard := true, status := BitVec.ofNat 64 (1 * 2 ^ 46), silent := 8 }
theorem witness_PartnerHeartbeatIsFollowed :
    (pairOf .leader 8 false 0 []).Awake ∧ (pairOf .leader 8 false 0 []).pwr.entry = none ∧ (slotKind hbWord = 1 ∧ (pairOf .leader 8 false 0 []).train.full = false ∧ (pairOf .leader 8 false 0 []).partner ≠ 0 ∧
      (pairOf .leader 8 false 0 []).partner ≠ (pairOf .leader 8 false 0 []).train.addr ∧
      newerSlot hbWord ((pairOf .leader 8 false 0 []).train.slot (pairOf .leader 8 false 0 []).partner) = true ∧ hbPartner hbWord = 5) ∧
      ((pairOf .leader 8 false 0 []).pair.role = .leader ∧ (pairOf .leader 8 false 0 []).pair.seen = true ∧
        (pairOf .leader 8 false 0 []).pair.hbLost = false ∧
        8 ≤ (pairOf .leader 8 false 0 []).train.ages.getD (pairOf .leader 8 false 0 []).partner 8 ∧ (pairOf .leader 8 false 0 []).lanesFollowing = 0) ∧
      (pairOf .leader 7 false 0 []).train.ages.getD (pairOf .leader 7 false 0 []).partner 8 < 8 ∧
      ((pairOf .standby 4008 true 0 []).pair.hbLost = true ∧
        4008 ≤ (pairOf .standby 4008 true 0 []).train.ages.getD (pairOf .standby 4008 true 0 []).partner 8 ∧
        (pairOf .standby 4008 true 0 []).pair.linkLost = false) ∧
      (pairOf .standby 4007 true 0 []).train.ages.getD (pairOf .standby 4007 true 0 []).partner 8 < 4008 := by
  refine ⟨⟨rfl, rfl, rfl, rfl⟩, ?_⟩; decide +kernel
theorem witness_StandbyTakesTheCrown :
    (pairOf .standby 100 true 0 [following]).Awake ∧ (pairOf .standby 100 true 0 [following]).pair.role = .standby ∧
      (pairOf .standby 100 true 0 [following]).pair.seen = true ∧ (pairOf .standby 100 true 0 [following]).pair.mismatch = false ∧
      (pairOf .standby 100 true 0 [following]).cfgN Obj.PAIR_LOF_LANES ≤ (pairOf .standby 100 true 0 [following]).lanesAbsent ∧
      (pairOf .standby 100 true 0 [following]).condH = true ∧ (pairOf .standby 100 true 0 [following]).pair.reported ≠ .pr ∧
      (pairOf .standby 100 true 0 [following]).prDemand = false ∧ (pairOf .standby 100 true 0 [following]).pair.ready = true ∧
      base.pair.role ≠ .standby := by
  refine ⟨⟨rfl, rfl, rfl, rfl⟩, ?_⟩; decide +kernel
def leading (revert : Option Nat) (next : Nat) (abdicating : Bool) : State :=
  { pairOf .leader 1 false hbWord [following] with
    tick := { now := next - 1, next := next, started := true }
    pair := { (pairOf .leader 1 false hbWord [following]).pair with
      revertFrom := revert, abdicating := abdicating, abdicateTick := next - 64, takeovers := 1, takeoverTick := next - 40 } }
def tookOver : State := { base with pair := { base.pair with role := .leader, takeovers := 1, takeoverTick := 61 } }
theorem witness_LeaderAbdicates :
    (leading none 1000 false).Awake ∧ ((leading none 1000 false).pair.role = .leader ∧ (leading none 1000 false).pair.abdicating = false ∧
      (leading none 1000 false).partnerReady = true ∧ (leading none 1000 false).conv.state ≠ .pr ∧
      (leading none 1000 false).cfgN Obj.PAIR_LOF_LANES ≤ (leading none 1000 false).lanesSilent) ∧ base.pair.role ≠ .leader ∧
      ((leading none 1000 true).pair.abdicating = true ∧ (leading none 1000 true).pair.abdicateFeeds = false ∧
        (leading none 1000 true).pair.abdicateTick + 64 ≤ (leading none 1000 true).tick.next) ∧
      (tookOver.pair.takeovers ≠ 0 ∧ tookOver.pair.takeoverTick + 40 ≤ tookOver.tick.next ∧
        (tookOver.lanes.all fun x => decide (x.state ≠ .up)) = true) ∧
      base.pair.takeovers = 0 := by
  refine ⟨⟨rfl, rfl, rfl, rfl⟩, ?_⟩; decide +kernel
theorem witness_ReversionWaitsItsDelay :
    (leading (some 1) 240000001 false).Awake ∧ ((leading (some 1) 240000001 false).cfgB Obj.PAIR_REVERT = true ∧
      (leading (some 1) 240000001 false).cfgB Obj.PAIR_PREFERRED = false ∧ hbPreferred (leading (some 1) 240000001 false).pair.partner = true ∧
      (leading (some 1) 240000001 false).partnerReady = true ∧ (leading (some 1) 240000001 false).conv.state = .idle ∧
      (leading (some 1) 240000001 false).cfgN Obj.PAIR_REVERT_DELAY ≤ 60 ∧ (leading (some 1) 240000001 false).pair.revertFrom = some 1 ∧
      1 + (leading (some 1) 240000001 false).cfgN Obj.PAIR_REVERT_DELAY * 4000000 ≤ (leading (some 1) 240000001 false).tick.next) ∧
      (leading (some 1) 240000000 false).tick.next < 1 + (leading (some 1) 240000000 false).cfgN Obj.PAIR_REVERT_DELAY * 4000000 ∧
      (let h := { leading (some 1) 1000 true with pair := { (leading (some 1) 1000 true).pair with abdicateRevert := true } }
       h.pair.abdicateRevert = true ∧ h.pair.abdicating = true ∧ h.pair.abdicateFeeds = false) := by
  refine ⟨⟨rfl, rfl, rfl, rfl⟩, ?_⟩; decide +kernel

def feeds (a b : Bool) (inUse : Nat) (test : Option FeedTest) : State :=
  { base with feed := { base.feed with aPresent := a, bPresent := b, inUse := inUse, test := test, takeback := true, startTested := false } }
theorem witness_FeedsCarryTheLoad :
    (feeds false false 2 none).Awake ∧ (feeds false false 2 none).pwr.entry = none ∧ (feeds false false 2 none).feed.test = none ∧
      ((feeds false false 2 none).feed.present false = false ∧ (feeds false false 2 none).feed.inUse = 2) ∧
      ((feeds false true 1 none).feed.present false = false ∧ (feeds false true 1 none).feed.inUse = 1 ∧ (feeds false true 1 none).feed.bPresent = true) ∧
      ((feeds true true 0 none).feed.present false = true ∧ (feeds true true 0 none).feed.present (!false) = true ∧ (feeds true true 0 none).feed.inUse = 0) ∧
      ((feeds true false 0 none).feed.present (!false) = false ∧ (feeds true false 0 none).mayAbdicate = false) ∧
      ((feeds true true 0 none).feed.present true = true ∧ (feeds true true 0 none).feed.inUse ≠ 1) ∧
      ((feeds false false 2 none).feed.handed = false ∧ base.feed.inUse ≠ 2 ∧
        ({ base with feed := { base.feed with inUse := 2, handed := true } } : State).feed.handed = true) := by
  refine ⟨⟨rfl, rfl, rfl, rfl⟩, ?_⟩; decide +kernel
theorem witness_FeedTestsReport :
    (feeds true true 0 (some ⟨[false], 1, 0⟩)).Awake ∧ ((feeds true true 0 (some ⟨[false], 1, 0⟩)).feed.test = some ⟨[false], 1, 0⟩ ∧
        (feeds true true 0 (some ⟨[false], 1, 0⟩)).feed.inUse ≠ 2 ∧ (8799 : Nat) < 8800 ∧ (feeds true true 0 (some ⟨[false], 1, 0⟩)).feed.bPresent = true ∧
        (feeds true false 0 (some ⟨[false], 1, 0⟩)).feed.bPresent = false) ∧
      ((feeds true true 0 (some ⟨[false], 2, 1⟩)).feed.test = some ⟨[false], 2, 1⟩ ∧ (feeds true true 0 (some ⟨[false], 2, 1⟩)).feed.aPresent = true ∧
        (feeds true true 0 (some ⟨[false], 2, 1⟩)).feed.bPresent = true ∧ (feeds true true 0 (some ⟨[false], 2, 1⟩)).feed.inUse ≠ 2) ∧
      (feeds true true 1 none).feed.inUse = 1 ∧
      ((feeds true true 1 none).feed.test = none ∧ (feeds true true 1 none).feed.startTested = false ∧ (feeds true true 1 none).feed.bPresent = true) ∧
      ((feeds true true 1 none).feed.takeback = true ∧ (if (feeds true true 1 none).feed.retest then 60 else 10) ≤ (10 : Nat)) ∧
      base.feed.takeback = false ∧ ({ base with feed := { base.feed with startTested := true } } : State).feed.startTested = true := by
  refine ⟨⟨rfl, rfl, rfl, rfl⟩, ?_⟩; decide +kernel

/-- The refused deblock of the spec's example (R372): the response to CONV_STATE RUN with TI05 latched. -/
theorem test_response_bytes :
    (HostOut.body (.mbResp 7 2 ⟨0x0301, 0x002A, 0x08, 0x10, [0x02], {}⟩ false) 1).drop 12 =
      [0x00, 0x09, 0x02, 0x00, 0x03, 0x01, 0x00, 0x2A, 0x00, 0x01, 0x08, 0x10, 0x02] := by decide +kernel

def supervisor (starting : Bool) (fb : Option Word) : State := { base with host := { base.host with starting := starting, supFallback := fb, wdRuns := 3 } }
theorem witness_SupervisorRestarts :
    (supervisor true none).Awake ∧ (supervisor true none).host.starting = true ∧ (supervisor false none).host.starting = false ∧
      ((supervisor false (some 5)).host.supFallback = some 5 ∧ 3 ≤ (supervisor false (some 5)).host.wdRuns) ∧
      (let h := { supervisor true (some 5) with host := { (supervisor true (some 5)).host with supStaged := true, wdRuns := 0 } }
       h.host.supFallback = some 5 ∧ h.host.starting = true ∧ h.host.supStaged = true) ∧ base.host.supFallback = none :=
  ⟨⟨rfl, rfl, rfl, rfl⟩, by decide +kernel⟩

theorem witness_ResetKeepsWhatTheSpecKeeps :
    base.pwr.inReset = false ∧ base.chr.state ≠ .recording ∧
      (ownRecord.chr.state = .recording ∧ ownRecord.chr.cur = some ownTrigger ∧ 0 < ownRecord.chr.postLeft ∧
        ({ ownRecord with tick := { ownRecord.tick with now := 103, next := 104 } } : State).tick.now ≠ ownTrigger.trigTick) ∧
      (feeds false false 2 none).pwr.inReset = false ∧ (feeds false false 2 none).feed.inUse = 2 ∧ base.feed.inUse ≠ 2 ∧
      (let h := { feeds false false 2 none with pwr := { base.pwr with inReset := true, lastReset := 1 } }
       h.pwr.inReset = true ∧ h.pwr.lastReset = 1 ∧ h.feed.inUse = 2) := by
  decide +kernel

def passFlags : StartFlags := ⟨true, true, true, false, false, true, true⟩
def held (last : Nat) : State := { base with pwr := { base.pwr with inReset := true, lastReset := last }, feed := { base.feed with aPresent := true } }
def powered (st : PowerState) (attempt : Nat) : State := { base with pwr := { base.pwr with state := st, attempt := attempt } }
/-- Both references are lost. -/
def refless (s : State) : State := { s with reg := { s.reg with ocxoOk := false, refclkOk := false } }
/-- A wake from S2 with a step running. -/
def waking (step left : Nat) : State := { powered .s2 0 with pwr := { (powered .s2 0).pwr with waking := some ⟨5, step, left, passFlags⟩ } }
theorem witness_StartsPassOrFailAndWake :
    ((held 1).pwr.inReset = true ∧ (held 1).pwr.lastReset = 1 ∧ (held 1).reg.ocxoOk = true ∧ passFlags.railOk = true ∧ passFlags.regLocked = true ∧
      passFlags.escOk = true ∧ (refless (held 1)).pwr.inReset = true ∧ (refless (held 1)).pwr.lastReset = 1 ∧ (refless (held 1)).feed.aPresent = true ∧
      (refless (held 1)).reg.ocxoOk = false ∧ (refless (held 1)).reg.refclkOk = false) ∧
      ((held 2).pwr.lastReset = 2 ∧ (held 2).feed.aPresent = true ∧ passFlags.ocxoOk = true ∧ (held 2).pwr.resetLow = false ∧ (99 : Nat) < 100 ∧
        passFlags.badRise = true ∧ ({ (held 2) with pwr := { (held 2).pwr with resetLow := true } } : State).pwr.resetLow = true) ∧
      ((powered .wakeFail 3).pwr.inReset = false ∧ (powered .wakeFail 3).pwr.state = .wakeFail ∧ 1 ≤ (powered .wakeFail 3).pwr.attempt ∧
        (powered .wakeFail 3).pwr.attempt < 4 ∧ (powered .wakeFail 3).pwr.wakeReply = [] ∧ (powered .wakeFail 3).reg.ocxoOk = true) ∧
      (let r := refless { powered .wakeFail 2 with pwr := { (powered .wakeFail 2).pwr with retryFrom := 1 } }
       r.pwr.inReset = false ∧ r.pwr.state = .wakeFail ∧ r.pwr.attempt < 3 ∧ r.pwr.retryFrom = 1 ∧ r.reg.ocxoOk = false ∧ r.reg.refclkOk = false) ∧
      ((powered .s2 0).pwr.state = .s2 ∧ (powered .s2 0).reg.gated = false ∧ (powered .s2 0).saf.tickMissing = false ∧ ((powered .s2 0).cfgN Obj.WAKE_MASK).testBit 0 = true ∧
        (powered .s2 0).pwr.waking = none ∧ (powered .s2 0).pwr.entry = none ∧ (powered .s2 0).prDemand = false ∧ (powered .s1 0).pwr.state = .s1 ∧ (true != ((powered .s2 0).cfgN Obj.TRIP_POL).testBit 15) = true ∧ flag (powered .s2 0).pwr.aonTi 15 = false ∧
        ({ powered .s2 0 with objs := [(Obj.WAKE_MASK, 2)] } : State).cfgN Obj.WAKE_MASK = 2 ∧ (2 : Nat).testBit 1 = true ∧
        (true != ((powered .s2 0).cfgN Obj.LIM_POL).testBit 7) ≠ flag (powered .s2 0).pwr.aonLim 7) ∧
      ((waking 5 2).pwr.waking = some ⟨5, 5, 2, passFlags⟩ ∧ (1 : Nat) < 2 ∧ (waking 4 1).pwr.waking = some ⟨5, 4, 1, passFlags⟩ ∧
        (waking 6 1).pwr.waking = some ⟨5, 6, 1, passFlags⟩ ∧ passFlags.escOk = true ∧ ({ passFlags with escOk := false } : StartFlags).escOk = false) := by
  decide +kernel

/-- R381: POWER reads 6 through W5, and its end brings a module that wakes to S0. -/
theorem test_wake_ends : (waking 6 2).power = 6 ∧ (waking 6 2).wakeEdge.pwr.state = .s2 ∧ (waking 6 1).wakeEdge.pwr.state = .s0 := by decide +kernel

def siState (disc both a b : Bool) : State :=
  { base with saf := { base.saf with
      chA := base.saf.chA.set 7 a, chB := base.saf.chB.set 7 b, disc := base.saf.disc.set 7 disc, discBoth := base.saf.discBoth.set 7 both } }
/-- A channel that has not been read since the start-up test began. -/
def unread : State := { base with saf := { base.saf with readA := base.saf.readA.set 7 false } }
def kernelTi : State := { base with objs := [(Obj.SF_TI_PR, 0x8000)] }
def ackInput : State := { base with objs := [(Obj.SI_FUNC + 7, 3)] }
theorem witness_SafetyInputsDemand :
    base.Awake ∧ (flag base.saf.chA 7 ≠ false ∧ base.cfgN (Obj.SI_FILT + 7) ≤ 1000 ∧ flag base.saf.disc 7 = false ∧
      base.cfgN (Obj.SI_FUNC + 7) = 1 ∧ base.saf.chA.length = 8 ∧ base.saf.readA.length = 8) ∧
      (flag unread.saf.readA 7 = false ∧ flag base.saf.readA 7 = true ∧ flag base.saf.readB 7 = true) ∧ 999 < base.cfgN (Obj.SI_FILT + 7) ∧
      (flag (siState true true false true).saf.disc 7 = true ∧ flag (siState true true false true).saf.discBoth 7 = true ∧
        flag (siState true true false true).saf.chA 7 = false ∧ flag (siState true true false true).saf.chB 7 = true ∧
        (siState true true false true).saf.chA.length = 8 ∧ (siState true true false true).cfgN (Obj.SI_MODE + 7) = 0) ∧
      ((siState false false false true).siDemandA 7 ≠ (siState false false false true).siDemandB 7 ∧
        flag (siState false false false true).saf.disc 7 = false ∧ (siState false false false true).cfgN (Obj.SI_DISC + 7) < 101) ∧
      base.siDemandA 7 = base.siDemandB 7 ∧ (ackInput.cfgN (Obj.SI_FUNC + 7) = 3 ∧ ackInput.anyDemand = false) ∧ base.cfgN (Obj.SI_FUNC + 7) ≠ 3 ∧
      ((kernelTi.cfgN Obj.SF_TI_PR).testBit 15 = true ∧ flag kernelTi.saf.ti 15 = false ∧ kernelTi.cfgN Obj.SF_TI_FILT ≤ 100 ∧
        kernelTi.saf.ti.length = 16) ∧ (base.cfgN Obj.SF_TI_PR).testBit 15 = false := by
  refine ⟨⟨rfl, rfl, rfl, rfl⟩, ?_⟩; decide +kernel

def noVio : State := { base with saf := { base.saf with vioOk := false, switches := List.replicate 6 false } }
def starting : State := { base with saf := { base.saf with startRunning := true } }
theorem witness_KernelFaultsStopTheConverter :
    base.Awake ∧ (base.saf.vioOk = true ∧ (15999 : Nat) < 16000) ∧ (noVio.saf.vioOk = false ∧ (17000 : Nat) < 17001) ∧ base.emitterOn = true ∧
      (1000 * base.cfgN Obj.EM_TEST_PERIOD ≤ 3600000 ∧ 1000 * base.cfgN Obj.EM_TEST_PERIOD ≤ 2 * 3600000 ∧ 1000 * base.cfgN Obj.SO_TEST_PERIOD ≤ 3600000) ∧
      (0 < 1000 * base.cfgN Obj.EM_TEST_PERIOD ∧ 0 < 1000 * base.cfgN Obj.SO_TEST_PERIOD) ∧
      base.pwr.noTick = false ∧ ({ base with pwr := { base.pwr with noTick := true } } : State).pwr.noTick = true ∧ upLane.saf.switches.any id = true ∧
      upLane.lanes.length = 48 ∧ (upLane.lane 47).state = .up ∧ upLane.mod.gap = 0 ∧
      (let h := { noVio with conv := { noVio.conv with scsEnded := true } }
       h.anyDemand = true ∧ h.emitterOn = false) ∧
      noVio.emitterOn = false ∧ ({ base with conv := { base.conv with scsEnded := true } } : State).prDemand = true ∧ base.so1On = true ∧
      base.so2On = true ∧ (4500 : Nat) < 4501 ∧ starting.saf.startRunning = true ∧ starting.saf.vioOk = true ∧
      ({ starting with saf := { starting.saf with vioOk := false } } : State).saf.vioOk = false := by
  refine ⟨⟨rfl, rfl, rfl, rfl⟩, ?_⟩; decide +kernel

def inScs (lost session key : Bool) : State :=
  { base with conv := { base.conv with state := .scs }, saf := { base.saf with linkLost := lost, session := session, keyClosed := key, iEnv0 := 20000 } }
theorem witness_ScsEndsInPulseRemoval :
    (inScs false true true).Awake ∧ ((inScs false true true).saf.linkLost = false ∧ (inScs false true true).conv.state = .scs ∧
      (inScs false true true).conv.scsEnded = false ∧ 500 ≤ (inScs false true true).cfgN Obj.SCS_END_LEVEL ∧
      (inScs false true true).cfgN Obj.SCS_TMAX * 1000 ≤ 2000000 ∧ (inScs false true true).envelopeOut 20501 0 = true ∧ [[((2 : Fin 6), (-501 : Int)), (5, 500)]].map armsPeak = [501]) ∧
      ((inScs false true true).cfgN Obj.SCS_END_LEVEL < 501 ∧ 1999999 < (inScs false true true).cfgN Obj.SCS_TMAX * 1000 ∧
        (inScs false true true).envelopeOut 501 0 = false) ∧ (inScs true false false).saf.linkLost = true ∧ base.conv.state ≠ .scs ∧
      ((inScs false true true).saf.keyClosed = true ∧ (inScs false true true).saf.session = true) ∧
      ((inScs true false false).saf.keyClosed = false ∧ (inScs true false false).saf.session = false) := by
  refine ⟨⟨rfl, rfl, rfl, rfl⟩, ?_⟩; decide +kernel

/-- A frame of producer 31 with SEQ 9 and its CRC under the default seed; the group bits are given. -/
def sfRaw (crc : Nat) : List Byte := sfPayload 0 31 1 2 9 0 1 2 0 (List.replicate 10 0) 0 (BitVec.ofNat 32 crc)
def producers (x : Producer) : State :=
  { base with
    saf := { base.saf with producers := base.saf.producers.set 31 x }
    objs := [(Obj.SF_PRODUCERS, 2 ^ 31), (Obj.SF_ENABLE, 1), (Obj.SF_GROUPS, 1)] }
def sfGood : List Byte := sfRaw ((producers {}).sfCrc (sfRaw 0)).toNat
/-- The copy of the other network: NET 1 and another TX_TIME; and one that disagrees in its demands. -/
def sfOther (pr : Nat) : List Byte := sfPayload 1 31 1 2 9 0 pr 2 0 (List.replicate 10 7) 0 ((producers {}).sfCrc (sfRaw 0))
theorem witness_SafetyFramesArePaired :
    (producers {}).Awake ∧ (producers {}).cfgB Obj.SF_ENABLE = true ∧ base.cfgB Obj.SF_ENABLE = false ∧ (sfRaw 0).length = 46 ∧ sfSrc (sfRaw 0) = 31 ∧
      base.isProducer 31 = false ∧ (producers {}).isProducer 31 = true ∧ (producers {}).saf.producers.length = 32 ∧
      ((producers {}).producer 31).waiting = [] ∧ (producers {}).saf.sfAt = none ∧
      (let h := { producers {} with saf := { (producers {}).saf with sfAt := some 0 } }
       h.saf.sfAt = some 0 ∧ h.pwr.uptimeTicks < 0 + 4 * h.cfgN Obj.SF_PERIOD) ∧
      ((producers { waiting := [(true, sfOther 1)] }).producer 31).waiting = [(!false, sfOther 1)] ∧
      (sfMasked (sfOther 1) = sfMasked sfGood ∧ sfSeq (sfOther 1) = sfSeq sfGood ∧ sfOther 1 ≠ sfGood) ∧
      (sfMasked (sfOther 0) ≠ sfMasked sfGood ∧ sfSeq (sfOther 0) = sfSeq sfGood) ∧
      100 ≤ (producers {}).cfgN Obj.SF_ACCEPT_WIN ∧ (producers {}).cfgN Obj.SF_ACCEPT_WIN < 100000000 ∧
      ((producers { known := true, boot := 2, seq := 9 }).producer 31).ahead (sfBoot sfGood) (sfSeq sfGood) = false ∧
      ((producers { known := true, boot := 2, seq := 8 }).producer 31).ahead (sfBoot (sfRaw 0)) (sfSeq (sfRaw 0)) = true := by
  refine ⟨⟨rfl, rfl, rfl, rfl⟩, ?_⟩; decide +kernel
theorem witness_SafetyFramesArePaired_crc :
    sfByte sfGood 32 4 = ((producers {}).sfCrc sfGood).toNat ∧ sfByte (sfRaw 0) 32 4 ≠ ((producers {}).sfCrc (sfRaw 0)).toNat ∧ sfGood.length = 46 ∧
      sfSrc sfGood = 31 := by decide +kernel
theorem witness_WatchdogDemandsAndEnds :
    (producers { watchdog := true, good := 2, waiting := [(true, sfOther 1)] }).Awake ∧ (producers {}).saf.producers.length = 32 ∧
      ((producers {}).isProducer 31 = true ∧ (producers {}).cfgN Obj.SF_WATCHDOG ≤ 3000 ∧ ((producers {}).producer 31).watchdog = false) ∧
      2999 < (producers {}).cfgN Obj.SF_WATCHDOG ∧
      (((producers { watchdog := true, good := 2, waiting := [(true, sfOther 1)] }).producer 31).waiting = [(!false, sfOther 1)] ∧
        sfMasked (sfOther 1) = sfMasked sfGood ∧ sfSeq (sfOther 1) = sfSeq sfGood ∧
        ((producers { watchdog := true, good := 2, waiting := [(true, sfOther 1)] }).producer 31).ahead (sfBoot sfGood) (sfSeq sfGood) = true) := by
  refine ⟨⟨rfl, rfl, rfl, rfl⟩, ?_⟩; decide +kernel

def pend (n : Nat) : PendingSession := { id := BitVec.ofNat 32 n, ro := false, nh := [], nm := [] }
def pends (k : Nat) : State := { base with host := { base.host with pendings := (List.range k).map fun n => pend (n + 20) } }
theorem witness_SessionsOpenAndClose :
    (pends 2).Awake ∧ (pends 2).host.starting = false ∧ (Instr.wf (.hello ⟨List.replicate 16 0, {}⟩ 1) = true ∧ (1 : Byte).toNat ≤ 1 ∧
      (pends 2).sessionsHeld < 4 ∧ 4 ≤ (pends 3).sessionsHeld) ∧ (pends 2).host.pendings.find? (fun p => p.id == 20) = some (pend 20) ∧
      Instr.wf (.prove 20 (List.replicate 32 0) {}) = true ∧ (29 < (pends 2).cfgN Obj.HL_SESSION_TIMEOUT ∧ (pends 2).cfgN Obj.HL_SESSION_TIMEOUT ≤ 30 ∧
      (pends 2).isOpen 7 = true) ∧ ((pends 2).session 7 = some { id := 7, ro := false, key := [], lastSeq := 3 } ∧ (3 : Nat) < 4) := by
  refine ⟨⟨rfl, rfl, rfl, rfl⟩, ?_⟩; decide +kernel
/-- The two messages authentication codes: the right one, and one of another length. -/
theorem witness_SessionsOpenAndClose_mac (s : State) (p : PendingSession) :
    ∃ m m' : List Byte, m = hmac (s.host.key p.ro) (proveText ++ p.nh ++ p.nm) ∧ m' ≠ hmac (s.host.key p.ro) (proveText ++ p.nh ++ p.nm) :=
  ⟨_, 0 :: hmac (s.host.key p.ro) (proveText ++ p.nh ++ p.nm), rfl, by intro h; have := congrArg List.length h; simp at this⟩

def resp : Response := { opcode := 0x0201, tag := 9, status := 0, reason := 0, params := [] }
def mailWith (b : Mailbox) : State := { base with host := { base.host with mbs := base.host.mbs.set 7 b } }
def reply7 : Reply := { mb := 7, session := 7, opcode := 0x0201, tag := 9 }
def frag (flags : Byte) (offset n : Nat) : Fragment := { transfer := 5, flags := flags, offset := offset, data := List.replicate n 0, conforms := false }
def boundVerify : Verify := ⟨image 0 0, false, some reply7, some { id := 7, mb := 7, length := 139584, bytes := [1] }⟩
def boundLoad : State :=
  { mailWith { running := some (reply7, .tableLoad (frag 2 0 1)) } with
    esc := { base.esc with verify := some boundVerify } }
theorem witness_RegistersAndMailboxesServe :
    boundLoad.Awake ∧ reply7.mb = 7 ∧ (boundLoad.mbox 7).running = some (reply7, .tableLoad (frag 2 0 1)) ∧ boundLoad.esc.verify = some boundVerify ∧
      ((mailWith { owner := some 7, queue := [(reply7, .fwEnd)] }).mbox 7).owner = some 7 ∧ (0x80 : Byte).toNat.testBit 7 = true ∧
      (base.session 7 = some { id := 7, ro := false, key := [], lastSeq := 3 } ∧ (0x404 : Word).toNat % 4 = 0 ∧ 0x404 ≤ (0x404 : Word).toNat) ∧
      ((0x402 : Word).toNat % 4 ≠ 0 ∧ (64 : Nat) < 65) ∧ (0x304 : Word) ≠ 0x300 ∧
      ((((mailWith { owner := some 7, unacked := [resp] }).mbox 7).unacked)[0]? = some resp ∧ (base.mbox 7).unacked[0]? = none ∧
        ((mailWith { owner := some 7, unacked := [resp] }).mbox 7).unacked = [resp] ∧ ((mailWith { owner := some 7, unacked := [resp] }).mbox 7).owner = some 7) ∧
      (base.mbox 7).unacked = [] := by
  refine ⟨⟨rfl, rfl, rfl, rfl⟩, ?_⟩; decide +kernel

def entryEnable : ObjEntry := ⟨BitVec.ofNat 16 Obj.MOD_ENABLE, 0, .num 1⟩
/-- A session may still speak to a module in S2, which no demand holds; its mailboxes take the message. -/
theorem witness_RegistersAndMailboxesServe_off :
    ((powered .s2 0).pwr.inReset = false ∧ (powered .s2 0).pwr.state = .s2 ∧ (powered .s2 0).pwr.entry = none ∧ (powered .s2 0).prDemand = false ∧
      msg.session ≠ 0) ∧ ((2 : Byte).toNat ≠ 5 ∧ (objDef Obj.MOD_ENABLE).isSome = true ∧ objDomain Obj.MOD_ENABLE = .core ∧
      entryEnable.index.toNat = Obj.MOD_ENABLE ∧ ((powered .s2 0).session msg.session).any (·.ro) = false) := by decide +kernel
theorem witness_RegistersAndMailboxesServe_takes : (powered .s2 0).Takes msg false :=
  ⟨rfl, base_mailIdle, rfl, by decide, by decide, (by intro o h; cases h), rfl, ⟨{ id := 7, ro := false, key := [], lastSeq := 3 }, rfl, by decide, by intro h; cases h⟩⟩
/-- R361: a swap that meets a sleeping core is answered DOMAIN_OFF (0x0B); the access is counted and noted. -/
theorem test_domain_off :
    nextIs (exec (.tableSwap msg ⟨0, 0, 0, 0⟩) (powered .s2 0)) (fun t =>
      decide (t.host.out = [.mbResp 7 2 { opcode := 0x0202, tag := 9, status := 0x0B, reason := 0, params := [] } false]) && t.host.accessErr &&
        decide (t.host.accessErrs = 1)) = true := by decide +kernel

def logged : State := { base with log := { base.log with seq := 9, overSeq := some 4 } }
theorem witness_HostReadsAndArms :
    base.Awake ∧ base.pwr.entry = none ∧ (objDef 0x2301).isSome = true ∧ objDef 0x2A99 = none ∧ ([] : List (BitVec 16)).length < 1 ∧
      ((1 : Byte).toNat ≤ 1 ∧ 1 ≤ (20 : Byte).toNat ∧ (20 : Byte).toNat ≤ 20 ∧ logged.log.fullSeq 8 = some 8 ∧ logged.log.gone 8 = false ∧
        logged.log.gone 4 = true ∧ 20 < (21 : Byte).toNat) ∧
      ((holdoff 5 [{ id := 3 }]).chr.records.find? (fun x => x.id == 3) = some { id := 3 } ∧ (holdoff 5 [{ id := 3 }]).chr.cur = none) ∧
      (base.chr.state = .idle ∧ base.canArm = true) ∧ (armedBy 1).chr.state ≠ .idle ∧
      ({ base with chr := { base.chr with records := List.replicate 4 {} } } : State).canArm = false ∧ (armedBy 1).chr.state = .armed := by
  refine ⟨⟨rfl, rfl, rfl, rfl⟩, ?_⟩; decide +kernel

def keyNone : SchedKey := ⟨0, 0, 0, 0⟩
def keyTickAt : SchedKey := ⟨2, 0, 0, BitVec.ofNat 96 (500 * 2 ^ 32)⟩
def entryFNom : ObjEntry := ⟨BitVec.ofNat 16 Obj.F_NOM, 12, .num 60⟩
def entrySafety : ObjEntry := ⟨BitVec.ofNat 16 Obj.SF_ENABLE, 0, .num 1⟩
def fullQueue : State := { base with esc := { base.esc with groups := List.replicate 16 (group []) } }
def fits : State := { base with esc := { base.esc with bankB := { base.esc.bankB with fit := 15 } } }
def engineOut : State := { base with esc := { base.esc with engines := base.esc.engines.set 3 { failed := true } } }
def safetySession : State := { base with saf := { base.saf with session := true, keyClosed := true }, conv := { base.conv with state := .pr } }
/-- An image that binds MOD_ENABLE to 257 steps: a write of it asks for a group that no queue takes (R186). -/
def crowded : State :=
  { base with esc := { base.esc with bankB := { base.esc.bankB with binds := (List.range 257).map fun k => { obj := Obj.MOD_ENABLE, sub := 0, engine := 0, step := k } } } }
theorem witness_groupOver :
    crowded.groupOver [entryItem entryEnable] = some 0 ∧ base.groupOver [entryItem entryEnable] = none ∧ crowded.esc.groups.length < 16 ∧
      crowded.judgeWrite entryEnable = none ∧ crowded.judgeEntries [entryEnable] true = none := by decide +kernel
theorem witness_HostCommandsTakeTheirTurn_queued :
    base.pwr.entry = none ∧ (base.judgeWrite entryEnable = none ∧ isSafetyObj entryEnable.index.toNat = false ∧
      pointOf entryEnable.index.toNat = .nextTick ∧ entryEnable.index.toNat ≠ Obj.COEF_WRITE ∧ base.esc.groups.length < 16 ∧
      16 ≤ fullQueue.esc.groups.length) ∧
      (base.keyJudge keyNone = none ∧ keyNow keyNone = true ∧ base.judgeEntries [entryEnable] true = none ∧ atGroup entryEnable.index.toNat = true ∧
        base.judgeEntries [entryFNom] true = none ∧ atGroup entryFNom.index.toNat = false) ∧
      (base.keyJudge keyTickAt = none ∧ keyNow keyTickAt = false ∧ base.judgeEntries [entryEnable] false = none ∧ keyDiscard keyTickAt = false) ∧
      (base.judgeEntries [entrySafety] true).isSome = true ∧ fits.swapJudge = none ∧ (5 : Byte).toNat ≤ 5 := by decide +kernel
theorem witness_HostCommandsTakeTheirTurn_answered :
    (base.handsForm 1 0 [0] = none ∧ base.handsHeld 1 = none) ∧ (base.migrateJudge 0 = none ∧ base.esc.migration = none ∧ base.freeSlots = [15]) ∧
      (safetySession.judgeWrite entrySafety = none ∧ isSafetyObj entrySafety.index.toNat = true) ∧ (base.judgeWrite entrySafety).isSome = true ∧
      (base.judgeWrite entryFNom = none ∧ isSafetyObj entryFNom.index.toNat = false ∧ pointOf entryFNom.index.toNat ≠ .nextTick) ∧
      (base.migrateJudge 15).isSome = true ∧
      ((3 : Byte).toNat < 16 ∧ (engineOut.esc.engine 3).failed = true ∧ engineOut.idleOrPr = true ∧ engineOut.esc.engines.length = 16 ∧
        engineOut.isLogical (engineOut.esc.logicalOf 3) = true ∧ engineOut.esc.groups = []) ∧
      ({ engineOut with conv := { engineOut.conv with state := .run } } : State).idleOrPr = false ∧
      ({ tracker .locked 0 0 with conv := { base.conv with state := .run } } : State).settingJudge = none ∧ base.settingJudge.isSome = true := by
  decide +kernel

def loading (n : Nat) : State := { base with esc := { base.esc with load := some { id := 5, mb := 2, length := 139584, bytes := List.replicate n 0 } } }
def updating (n len : Nat) : State := { base with host := { base.host with fwSup := some { id := 0, mb := 2, length := len, bytes := List.replicate n 0 }, supStaged := true } }
theorem witness_TransfersFillInOrder :
    base.Awake ∧ ((frag 1 0 1008).data.length ≤ 1008 ∧ base.esc.load = none ∧ base.esc.loadBusy = false) ∧
      ((loading 8).esc.load = some { id := 5, mb := 2, length := 139584, bytes := List.replicate 8 0 } ∧ (frag 0 8 4).transfer.toNat = 5 ∧ msg.mb.val = 2 ∧
        (loading 8).esc.loadBusy = false ∧ (frag 0 7 4).offset ≠ (List.replicate 8 (0 : Byte)).length) ∧ base.host.fwSup = none ∧
      (base.saf.session = false ∧ base.host.supStaged = false) ∧
      ((updating 100 104).host.fwSup = some { id := 0, mb := 2, length := 104, bytes := List.replicate 100 0 } ∧ (updating 100 104).host.fwSk = none) ∧
      ((List.replicate 104 (0 : Byte)).length = 104 ∧ (List.replicate 100 (0 : Byte)).length ≠ 104) ∧ (updating 0 1).host.supStaged = true := by
  refine ⟨⟨rfl, rfl, rfl, rfl⟩, ?_⟩; decide +kernel

def badSet : State := { safetySession with saf := { safetySession.saf with staged := [(Obj.SCS_RATE, 100000)] } }
def fitsPl3 : State := { base with esc := { base.esc with bankA := { base.esc.bankA with fit := 7 } } }
theorem witness_SafetySessionsAndSleep :
    (base.pwr.inReset = false ∧ base.reg.gated = false ∧ base.pwr.entry = none ∧ base.pwr.state = .s0) ∧
      (({ base with saf := { base.saf with keyClosed := true } } : State).saf.keyClosed = true ∧ base.saf.session = false ∧ base.saf.keyClosed = false) ∧
      (safetySession.saf.session = true ∧ safetySession.conv.state = .pr ∧ safetySession.crossCheck = true ∧ badSet.crossCheck = false) ∧
      (base.pwr.plTarget = none ∧ base.sleepBar 1 2 = none ∧ (safetySession.sleepBar 1 2).isSome = true) ∧
      (base.levelBar 3 = none ∧ (3 : Nat) ≠ base.pwr.pl ∧ (fitsPl3.levelBar 3).isSome = true) ∧
      ((powered .s2 0).pwr.state = .s2 ∧ (powered .s2 0).pwr.waking = none ∧ (powered .s2 0).prDemand = false ∧ (waking 5 2).pwr.state = .s2 ∧
        (waking 5 2).pwr.waking.isSome ∧ (waking 5 2).prDemand = false) := by decide +kernel
theorem witness_SafetySessionsAndSleep_crc : setCrc safetySession.stagedVal ≠ setCrc safetySession.stagedVal + 1 := by
  intro h; simp at h

theorem witness_ObjectCommandsAreQueued :
    base.Awake ∧ base.judgeWrite ⟨0x2301, 0, .num 1⟩ = none ∧ (base.judgeWrite ⟨0x2245, 2, .num 3072⟩).isSome = true ∧ base.esc.groups.length < 16 ∧
      16 ≤ fullQueue.esc.groups.length ∧
      ({ base with esc := { base.esc with bankA := base.esc.bankA.setStep 0 5 (constWord ⟨0, 0⟩) } } : State).coefJudge (BitVec.ofNat 64 (5 * 2 ^ 48)) = none ∧
      (base.coefJudge (BitVec.ofNat 64 (2 ^ 40))).isSome = true := by
  refine ⟨⟨rfl, rfl, rfl, rfl⟩, ?_⟩; decide +kernel

theorem witness_ActionsActAtTheirBoundary :
    (queued base [.action Obj.TRIP_CLEAR 0x8000]).Awake ∧ ((group []).move = none ∧ (group []).isSet = false ∧ base.esc.groupTick ≠ some base.tick.next ∧
      (group []).acc + 2 ≤ base.tick.next ∧ (queued base [.action Obj.TRIP_CLEAR 0x8000]).schedGroupDue = false) ∧ ((0x8000 : Int).toNat.testBit 15 = true ∧ flag base.trips.filtered 15 = false ∧ flag tripped.trips.filtered 15 = true) ∧
      ((0x80 : Int).toNat.testBit 7 = true ∧ flag base.lim.filtered 7 = false ∧ flag base.lim.quiet 7 = false ∧ flag quiet.lim.quiet 7 = true) ∧
      (base.conv.state = .idle ∧ tripped.conv.state = .run) ∧ (base.set.active = false ∧ setLocked.set.active = true) ∧
      (base.fus.dcfActive = false ∧ ({ base with fus := { base.fus with dcfActive := true } } : State).fus.dcfActive = true) ∧
      ((leading none 1000 false).mayAbdicate = true ∧ base.mayAbdicate = false) ∧
      ((feeds true true 0 none).feed.test = none ∧ (3 : Int).toNat = 3 ∧ base.feed.bPresent = false ∧ (feeds true true 0 (some ⟨[false], 0, 0⟩)).feed.test.isSome = true) := by
  refine ⟨⟨rfl, rfl, rfl, rfl⟩, ?_⟩; decide +kernel
theorem witness_ActionsActAtTheirBoundary_more :
    ((scheduled 0 103).sched.pending.find? (fun a => a.id == (1 : Int).toNat) = some (action 0 103) ∧ (scheduled 0 103).dueSoon (action 0 103) = false ∧
      (scheduled 0 102).dueSoon (action 0 102) = true ∧ base.sched.pending.find? (fun a => a.id == (1 : Int).toNat) = none) ∧
      (logged.log.fullSeq 8 = some 8 ∧ base.log.fullSeq 99999 = none) ∧
      ((0xA1 * 2 ^ 56 + 200000 * 2 ^ 32 + 77 : Int).toNat / 2 ^ 56 = 0xA1 ∧ |(BitVec.ofNat 24 ((0xA1 * 2 ^ 56 + 200000 * 2 ^ 32 + 77 : Int).toNat / 2 ^ 32)).toInt| ≤ 200000 ∧
        base.reg.rampQ.length < 8) ∧ ((objDef Obj.MOD_ENABLE).map (·.point) = some .nextTick ∧ (objDef Obj.F_NOM).map (·.point) = some .stateChange) ∧
      (tripped.entryState tripped.cfg (tripped.itemsGet [.obj Obj.REG_MODE (.num 1)]) Obj.REG_MODE 1 = some (Ans.st stState) ∧
        base.entryState base.cfg (base.itemsGet [.obj Obj.MOD_ENABLE (.num 1)]) Obj.MOD_ENABLE 1 = none ∧
        base.entryState base.cfg (base.itemsGet [.obj Obj.F_NOM (.num 60)]) Obj.F_NOM 60 = none) := by
  decide +kernel

end Sys2Proof.Tests
end

section
/-!
PROOF. The close permit of setting and the grid angle tracker (R54, R210 to R213): `State.PermitSafe` is kept by every operation of the
state, in the order of the model, by every command, and so by every step. Most operations touch neither setting nor the tracker's state;
the ones that do are `setAbort`, `startSetting`, `settingEdge`, `permitGiven`, `permitLost`, `gtCoast`, `gtAcquire` and `reacquire`.
-/
namespace Sys2Proof.Machine

/-- R54's invariant: a close permit stands only while setting is active, and setting is active or asked for only in LOCKED. -/
def State.PermitSafe (s : State) : Prop :=
  (s.set.permit = true → s.set.active = true) ∧ (s.set.active = true ∨ s.set.starting = true → s.gt.state = .locked)

theorem State.permitLost_permit (s : State) : s.permitLost.set.permit = false := by
  unfold State.permitLost
  split
  · simp
  · next hp => simpa using hp

namespace State.PermitSafe

variable {s t : State} {c : Prop}

/-! ### How the operations are put together -/

theorem eitherOf {_ : Decidable c} (hs : c → s.PermitSafe) (ht : ¬c → t.PermitSafe) : (if c then s else t).PermitSafe := by
  split
  · next hc => exact hs hc
  · next hc => exact ht hc

theorem either {_ : Decidable c} (hs : s.PermitSafe) (ht : t.PermitSafe) : (if c then s else t).PermitSafe := .eitherOf (fun _ => hs) fun _ => ht

theorem whenThen {_ : Decidable c} (h : s.PermitSafe) (hf : s.PermitSafe → t.PermitSafe) : (if c then t else s).PermitSafe :=
  .either (hf h) h

theorem unlessThen {_ : Decidable c} (h : s.PermitSafe) (hf : s.PermitSafe → t.PermitSafe) : (if c then s else t).PermitSafe :=
  .either h (hf h)

theorem foldl {α : Type} {f : State → α → State} {l : List α} (h : s.PermitSafe)
    (hf : ∀ {s a}, s.PermitSafe → (f s a).PermitSafe) : (l.foldl f s).PermitSafe :=
  List.foldlRecOn l f h fun _ h _ _ => hf h

/-- Nothing but setting and the tracker's state counts. -/
theorem of_eq (h : s.PermitSafe) (hset : t.set = s.set) (hgt : t.gt.state = s.gt.state) : t.PermitSafe := by
  unfold State.PermitSafe
  rw [hset, hgt]
  exact h

theorem fresh (h : s.PermitSafe) : s.fresh.PermitSafe := h
theorem withSaf {x : Safety} (h : s.PermitSafe) : { s with saf := x }.PermitSafe := h

/-! ### Events, answers and the end of a step -/

theorem postFine {tick off code inst data} (h : s.PermitSafe) : (s.postFine tick off code inst data).PermitSafe := by
  unfold State.postFine
  exact .either h (.either h h)

theorem postAt {tick code inst data} (h : s.PermitSafe) : (s.postAt tick code inst data).PermitSafe := .postFine h
theorem post {code inst data} (h : s.PermitSafe) : (s.post code inst data).PermitSafe := .postAt h

theorem condEvent {bit} (h : s.PermitSafe) : (s.condEvent bit).PermitSafe := h

theorem closeRecord {cut st} (h : s.PermitSafe) : (s.closeRecord cut st).PermitSafe := by
  unfold State.closeRecord
  dsimp only
  split
  · exact h
  · exact .post h

theorem chronoStop (h : s.PermitSafe) : s.chronoStop.PermitSafe := .whenThen h fun h => .closeRecord h

theorem demandEvent {d} (h : s.PermitSafe) : (s.demandEvent d).PermitSafe := .post (.whenThen h .post)

theorem noteWake {w} (h : s.PermitSafe) : (s.noteWake w).PermitSafe := by
  unfold State.noteWake
  split
  · exact .either h h
  · exact h

theorem noteDemands (h : s.PermitSafe) : s.noteDemands.PermitSafe :=
  .withSaf (.unlessThen (.foldl h .demandEvent) .noteWake)
theorem blockAll (h : s.PermitSafe) : s.blockAll.PermitSafe := .fresh (.foldl h fun h => h)
theorem pulseRemoval (h : s.PermitSafe) : s.pulseRemoval.PermitSafe := .of_eq h.blockAll rfl rfl
theorem reply {r a} (h : s.PermitSafe) : (s.reply r a).PermitSafe := .either h h

theorem replyTo {r a} (h : s.PermitSafe) : (s.replyTo r a).PermitSafe := by
  cases r with
  | none => exact h
  | some r => exact .reply h

theorem actionDone {tick id flags late} (h : s.PermitSafe) : (s.actionDone tick id flags late).PermitSafe :=
  .either (.postAt h) (.postAt h)
theorem actionFailed {tick id late st} (h : s.PermitSafe) : (s.actionFailed tick id late st).PermitSafe := .postAt (.either h h)

theorem answerReq {r a} (h : s.PermitSafe) : (s.answerReq r a).PermitSafe := by
  unfold State.answerReq
  dsimp only
  split
  · exact .replyTo h
  · exact .either (.actionDone (.replyTo h)) (.actionFailed (.replyTo h))

theorem answerAll {rs} (h : s.PermitSafe) : (s.answerAll rs).PermitSafe := .foldl h .answerReq

/-! ### Setting (R210 to R213) -/

/-- Setting that is over is neither active nor asked for and gives no permit, whatever the tracker does. -/
theorem of_over (hp : s.set.permit = false) (ha : s.set.active = false) (hs : s.set.starting = false) : s.PermitSafe := by
  simp [State.PermitSafe, hp, ha, hs]

/-- Out of LOCKED setting is over. -/
theorem over_of_unlocked (h : s.PermitSafe) (hg : s.gt.state ≠ .locked) :
    s.set.permit = false ∧ s.set.active = false ∧ s.set.starting = false := by
  obtain ⟨hp, hl⟩ := h
  have ha : s.set.active = false := Bool.eq_false_iff.2 fun ha => hg (hl (.inl ha))
  have hs : s.set.starting = false := Bool.eq_false_iff.2 fun hs => hg (hl (.inr hs))
  exact ⟨Bool.eq_false_iff.2 fun hp' => by simp [ha] at hp; simp [hp] at hp', ha, hs⟩

theorem setAbort {reason} (h : s.PermitSafe) : (s.setAbort reason).PermitSafe := .either (.post (.of_over rfl rfl rfl)) h

/-- An abort ends setting whatever the tracker does. -/
theorem setAbort_of_noPermit {reason} (hp : s.set.permit = false) : (s.setAbort reason).PermitSafe :=
  .eitherOf (fun _ => .post (.of_over rfl rfl rfl)) fun hn => by
    simp at hn
    exact .of_over hp hn.1 hn.2

theorem setClosed : s.setClosed.PermitSafe := .post (.of_over rfl rfl rfl)

theorem permitLost (h : s.PermitSafe) : s.permitLost.PermitSafe :=
  .either (.post ⟨fun hp => (nomatch hp), h.2⟩) h

/-! ### Cells, lanes and the converter -/

theorem scsEnd {reason} (h : s.PermitSafe) : (s.scsEnd reason).PermitSafe := .unlessThen h fun h => .post h
theorem laneAges {l} (h : s.PermitSafe) : (s.laneAges l).PermitSafe := .foldl h fun h => h

theorem laneTo {l st reason} (h : s.PermitSafe) : (s.laneTo l st reason).PermitSafe :=
  .unlessThen h fun h => .post (.whenThen (.whenThen h fun h => .laneAges h) .condEvent)

theorem parkedOff (h : s.PermitSafe) : s.parkedOff.PermitSafe := .foldl h fun h => .whenThen h .laneTo
theorem enrgStart (h : s.PermitSafe) : s.enrgStart.PermitSafe := .either h (.either (.either (.post h) h) (.post h))
theorem enterRun (h : s.PermitSafe) : s.enterRun.PermitSafe := .enrgStart h
theorem enterScs (h : s.PermitSafe) : s.enterScs.PermitSafe := .whenThen (.post h) .scsEnd
theorem enterPr (h : s.PermitSafe) : s.enterPr.PermitSafe := .of_eq h.pulseRemoval rfl rfl

theorem enter {old new} (h : s.PermitSafe) : (s.enter old new).PermitSafe := by
  have hp : (if convBlocked new then s.parkedOff else s).PermitSafe := .whenThen h .parkedOff
  have hc : (if old = .pr then (if convBlocked new then s.parkedOff else s).closeSwitches
      else if convBlocked new then s.parkedOff else s).PermitSafe := .either hp hp
  cases new with
  | run => exact .unlessThen hc .enterRun
  | scs => exact .enterScs hc
  | pr => exact .enterPr hc
  | _ => exact hc

theorem leave {old new} (h : s.PermitSafe) : (s.leave old new).PermitSafe := .whenThen (.either h h) .setAbort

/-! ### Values of objects come into effect (R18) -/

theorem moveEnd {a reason} (h : s.PermitSafe) : (s.moveEnd a reason).PermitSafe := .post h
theorem axisDirect {a v} (h : s.PermitSafe) : (s.axisDirect a v).PermitSafe := .whenThen h .moveEnd
theorem rebind {i} (h : s.PermitSafe) : (s.rebind i).PermitSafe := .foldl h fun h => h
theorem putObj {i v} (h : s.PermitSafe) : (s.putObj i v).PermitSafe := .rebind h

theorem putDirect {i v} (h : s.PermitSafe) : (s.putDirect i v).PermitSafe := by
  unfold State.putDirect
  dsimp only
  split
  · exact .axisDirect (.putObj h)
  · exact .putObj h

theorem modSwitchedOff (h : s.PermitSafe) : s.modSwitchedOff.PermitSafe := .whenThen (.blockAll h) fun h => h
theorem blockArms {mask} (h : s.PermitSafe) : (s.blockArms mask).PermitSafe := .fresh (.foldl h fun h => .either h h)
theorem tripActs {n sent} (h : s.PermitSafe) : (s.tripActs n sent).PermitSafe :=
  .unlessThen h fun h => .whenThen (.unlessThen h .blockArms) fun h => h
theorem tripArmsChanged {n} (h : s.PermitSafe) : (s.tripArmsChanged n).PermitSafe := .whenThen h .tripActs
theorem laneAdmit {l} (h : s.PermitSafe) : (s.laneAdmit l).PermitSafe := .whenThen h .laneTo

theorem laneEnabled {l on} (h : s.PermitSafe) : (s.laneEnabled l on).PermitSafe := by
  unfold State.laneEnabled
  split
  · exact .unlessThen h fun h => .either (.laneTo h) (.laneTo h)
  · exact .whenThen h .laneTo
  · exact .whenThen h .laneTo
  · exact .whenThen h .laneTo
  · exact .unlessThen h .laneTo
  · exact .laneAdmit h
  · exact h

theorem laneCounted {l} (h : s.PermitSafe) : (s.laneCounted l).PermitSafe := by
  unfold State.laneCounted
  split
  · split
    · exact .laneTo h
    · exact .laneTo h
    · exact .laneTo h
    · exact h
  · exact .laneAdmit h

theorem discardWindow (h : s.PermitSafe) : s.discardWindow.PermitSafe := .either h h
theorem timeSet {st cause} (h : s.PermitSafe) : (s.timeSet st cause).PermitSafe := .unlessThen h fun h => .post h
theorem holdover {cause} (h : s.PermitSafe) : (s.holdover cause).PermitSafe :=
  .unlessThen h fun h => .whenThen (.timeSet h) .timeSet
theorem regMode {ramp} (h : s.PermitSafe) : (s.regMode ramp).PermitSafe :=
  .unlessThen h fun h => .whenThen h .holdover
theorem refSwitch {r} (h : s.PermitSafe) : (s.refSwitch r).PermitSafe := .post h
theorem unlock {lost} (h : s.PermitSafe) : (s.unlock lost).PermitSafe := by
  have hd := h.discardWindow
  exact .post hd
theorem refGone (h : s.PermitSafe) : s.refGone.PermitSafe := .either (.refSwitch h) (.either (.unlock h) h)
theorem refWrite {r} (h : s.PermitSafe) : (s.refWrite r).PermitSafe :=
  .unlessThen h fun h => .unlessThen (.refSwitch h) .refGone
theorem ptpModeSet {v} (h : s.PermitSafe) : (s.ptpModeSet v).PermitSafe := .either (.timeSet h) (.holdover h)
theorem closeSession {id cause} (h : s.PermitSafe) : (s.closeSession id cause).PermitSafe := .whenThen h fun h => .post h
theorem closeAll {cause} (h : s.PermitSafe) : (s.closeAll cause).PermitSafe := .foldl h .closeSession
theorem setRole {r} (h : s.PermitSafe) : (s.setRole r).PermitSafe := .either h h
theorem partnerSet {v} (h : s.PermitSafe) : (s.partnerSet v).PermitSafe := .setRole h

theorem hook {i old v} (h : s.PermitSafe) : (s.hook i old v).PermitSafe := by
  unfold State.hook
  split
  · exact .axisDirect h
  refine .either (.whenThen h .putDirect) <| .either h <| .either (.whenThen h .modSwitchedOff) <| .either (.unlessThen h .tripArmsChanged) <|
    .either (.laneEnabled h) <| .either (.laneCounted h) <| .either (.unlessThen h .laneAges) <| .either h <| .either (.unlessThen h .discardWindow) <|
    .either (.either h h) <| .either (.regMode h) <| .either (.refWrite h) <| .either h <| .either (.unlessThen h fun h => .ptpModeSet h) <|
    .either (.either h h) <| .either (.closeAll h) <| .either (.partnerSet h) h

theorem writeObj {i v} (h : s.PermitSafe) : (s.writeObj i v).PermitSafe := .hook (.putObj h)
theorem applyWaiting {p} (h : s.PermitSafe) : (s.applyWaiting p).PermitSafe := .foldl h .writeObj
theorem applyChange (h : s.PermitSafe) : s.applyChange.PermitSafe := by
  unfold State.applyChange
  dsimp only
  exact .applyWaiting h

theorem convTo {new cause} (h : s.PermitSafe) : (s.convTo new cause).PermitSafe :=
  .unlessThen h fun h => .enter (.applyChange (.leave (.post (.whenThen h .scsEnd))))

theorem goPr (h : s.PermitSafe) : s.goPr.PermitSafe := .answerAll (.convTo h)
theorem goScs (h : s.PermitSafe) : s.goScs.PermitSafe := .answerAll (.convTo h)
theorem sfEvent (h : s.PermitSafe) : s.sfEvent.PermitSafe := .unlessThen h fun h => .either h h

theorem settle {ticked} (h : s.PermitSafe) : (s.settle ticked).PermitSafe :=
  .sfEvent (.whenThen (.whenThen (.noteDemands (.whenThen h .chronoStop)) .pulseRemoval) .goPr)

/-! ### The end of a tick -/

theorem freqClampTo {on pos} (h : s.PermitSafe) : (s.freqClampTo on pos).PermitSafe := .either (.post h) (.either (.post h) h)
theorem tableClamps (h : s.PermitSafe) : s.tableClamps.PermitSafe := .whenThen h fun h => .freqClampTo h
theorem winnerNote (h : s.PermitSafe) : s.winnerNote.PermitSafe := .unlessThen h fun h => .post h
theorem windowStarts {before} (h : s.PermitSafe) : (State.windowStarts before s).PermitSafe := .whenThen h fun h => .applyWaiting h
theorem fallbackTick (h : s.PermitSafe) : s.fallbackTick.PermitSafe := .either (.either h h) (.either h (.either h (.either h h)))

theorem fireOut (h : s.PermitSafe) : s.fireOut.PermitSafe := by
  unfold State.fireOut
  split
  · exact h
  · exact h

theorem slotBeat (h : s.PermitSafe) : s.slotBeat.PermitSafe := by
  unfold State.slotBeat
  refine .unlessThen (.fireOut h) fun h => ?_
  split
  · exact .either h h
  · exact h

theorem trigger {t cause fire} (h : s.PermitSafe) : (s.trigger t cause fire).PermitSafe := by
  unfold State.trigger
  exact .post h

theorem armedTick {met} (h : s.PermitSafe) : (s.armedTick met).PermitSafe := by
  unfold State.armedTick
  dsimp only
  split
  · exact .whenThen h fun h => .trigger h
  · exact .unlessThen h fun h => .trigger h

theorem chronoTick (h : s.PermitSafe) : s.chronoTick.PermitSafe := by
  unfold State.chronoTick
  dsimp only
  split
  · exact .whenThen h fun h => .armedTick h
  · exact .either h h
  · exact .either h h
  · exact h

/-! ### Objects read and written by the host (R369 to R371) -/

theorem accessErr {kind x} (h : s.PermitSafe) : (s.accessErr kind x).PermitSafe := .post h

theorem clearRos {i} (h : s.PermitSafe) : (s.clearRos i).PermitSafe :=
  .either h <| .either h <| .either h <| .either h <| .either h <| .either h <| .either h <| .either h <| .either h <|
    .either h <| .either h <| .either h <| .either h <| .either h <| .either h <| .either h <| .either h <| .either h h

theorem readEntry {i} (h : s.PermitSafe) : (s.readEntry i).1.PermitSafe := by
  unfold State.readEntry
  split
  · exact h
  · dsimp only
    split
    · exact .accessErr h
    · exact .clearRos h

theorem readAll {is bs} (h : s.PermitSafe) : (s.readAll is bs).1.PermitSafe := by
  induction is generalizing s bs with
  | nil => exact h
  | cons i is ih =>
    unfold State.readAll
    dsimp only
    split
    · exact ih (.readEntry h)
    · exact h

theorem startObjRead {r is} (h : s.PermitSafe) : (s.startObjRead r is).PermitSafe := .either (.reply h) (.reply (.readAll h))
theorem entryRefused {i a} (h : s.PermitSafe) : (s.entryRefused i a).PermitSafe := .whenThen h .accessErr

theorem startObjWrite {r e} (h : s.PermitSafe) : (s.startObjWrite r e).PermitSafe := by
  unfold State.startObjWrite
  dsimp only
  split
  · exact .reply (.entryRefused h)
  · refine .either (.reply h) (.either (.reply h) (.either (.reply h) ?_))
    split
    · exact .reply h
    · exact .either (.reply h) (.either (.reply h) h)

theorem schedule {k cmd r} (h : s.PermitSafe) : (s.schedule k cmd r).PermitSafe := .either (.replyTo h) (.replyTo h)
theorem waitEntries {es} (h : s.PermitSafe) : (s.waitEntries es).PermitSafe := .foldl h fun h => h

theorem startObjWriteSet {r k es} (h : s.PermitSafe) : (s.startObjWriteSet r k es).PermitSafe := by
  unfold State.startObjWriteSet
  refine .either (.reply h) ?_
  split
  · exact .reply h
  split
  · exact .reply (.entryRefused h)
  refine .either (.reply h) ?_
  split
  · exact .reply h
  · exact .either (.schedule h) (.either (.reply (.waitEntries h)) (.either (.reply h) h))

theorem takeFragment {r t f} (h : s.PermitSafe) : (s.takeFragment r t f).PermitSafe := .either h (.reply h)

theorem startTableLoad {r f} (h : s.PermitSafe) : (s.startTableLoad r f).PermitSafe := by
  unfold State.startTableLoad
  refine .either (.reply h) (.either (.either (.reply h) (.either (.reply h) (.takeFragment h))) ?_)
  split
  · exact .reply h
  · exact .either (.reply h) (.either (.reply h) (.takeFragment h))

theorem startTableSwap {r k} (h : s.PermitSafe) : (s.startTableSwap r k).PermitSafe := by
  unfold State.startTableSwap
  split
  · exact .reply h
  refine .either (.reply h) (.either (.schedule h) ?_)
  split
  · exact .reply h
  · exact h

/-! ### Coefficient groups, engines and spares (R185 to R195) -/

theorem retested {p} (h : s.PermitSafe) : (s.retested p).PermitSafe := .either h (.either h h)
theorem sparesSettled (h : s.PermitSafe) : s.sparesSettled.PermitSafe := .either h h
theorem actionRefused {i} (h : s.PermitSafe) : (s.actionRefused i).PermitSafe := .either h (.either h h)

theorem writeVal {i v} (h : s.PermitSafe) : (s.writeVal i v).PermitSafe := by
  cases v with
  | num v => exact .writeObj h
  | time => exact h
  | str bs => exact .either h (.either h h)

theorem land {i v} (h : s.PermitSafe) : (s.land i v).PermitSafe := by
  unfold State.land
  split
  · exact .either (.writeObj h) h
  · exact .writeVal h

theorem tripClear {bm} (h : s.PermitSafe) : (s.tripClear bm).PermitSafe := .unlessThen h .post
theorem readmit {n} (h : s.PermitSafe) : (s.readmit n).PermitSafe := .either h h
theorem abdicate {cause} (h : s.PermitSafe) : (s.abdicate cause).PermitSafe := .post h
theorem feedResult {b result cause vmin imax} (h : s.PermitSafe) : (s.feedResult b result cause vmin imax).PermitSafe := .post h

theorem feedNext {cause bs} (h : s.PermitSafe) : (s.feedNext cause bs).PermitSafe := by
  induction bs generalizing s with
  | nil => exact h
  | cons b bs ih => exact .either h (ih (.feedResult h))

theorem feedTestStart {bm} (h : s.PermitSafe) : (s.feedTestStart bm).PermitSafe := .feedNext h

theorem actionDo {i v} (h : s.PermitSafe) : (s.actionDo i v).PermitSafe := by
  unfold State.actionDo
  exact .either (.tripClear h) <| .either (.readmit h) <| .either h <| .either h <| .either h <| .either (.either .setClosed (.setAbort h)) <|
    .either (.either h h) <| .either (.abdicate h) <| .either (.feedTestStart h) <| .either h <| .either h <| .either h <| .either h <| .either h h

theorem axisGo {a v sigma coord id} (h : s.PermitSafe) : (s.axisGo a v sigma coord id).PermitSafe := .putObj h

theorem itemDo {id item} (h : s.PermitSafe) : (s.itemDo id item).PermitSafe := by
  cases item with
  | obj i v => exact .land h
  | action i v => exact .actionDo h
  | coef b e k w => exact h
  | target a v sigma coord => exact .axisGo h

theorem itemsDo {items move} (h : s.PermitSafe) : (s.itemsDo items move).PermitSafe := by
  have hi : (items.foldl (State.itemDo · ((move.map (·.1)).getD 0)) s).PermitSafe := .foldl h .itemDo
  cases move with
  | none => exact hi
  | some p => exact hi

theorem applyGroup {g} (h : s.PermitSafe) : (s.applyGroup g).PermitSafe := by
  unfold State.applyGroup
  split
  · exact .replyTo (.actionRefused h)
  · exact .replyTo (.itemsDo h)

theorem releaseGroups {held} (h : s.PermitSafe) : (s.releaseGroups held).PermitSafe := .foldl h fun h => .applyGroup h

theorem retest {r p} (h : s.PermitSafe) : (s.retest r p).PermitSafe :=
  .either (.reply h) <| .either (.reply h) <| .either
    (.reply (.sparesSettled (.releaseGroups (.whenThen (.retested h) fun h => h)))) (.reply h)

theorem startMigration {n byCommand r} (h : s.PermitSafe) : (s.startMigration n byCommand r).PermitSafe := by
  unfold State.startMigration
  split
  · exact .postAt h
  · exact .either (.replyTo h) (.postAt h)

theorem askMigration {n byCommand r} (h : s.PermitSafe) : (s.askMigration n byCommand r).PermitSafe := .either h (.startMigration h)

theorem startEngineSpare {r mode engine} (h : s.PermitSafe) : (s.startEngineSpare r mode engine).PermitSafe := by
  unfold State.startEngineSpare
  refine .either (.retest h) (.either (.reply h) ?_)
  split
  · exact .reply h
  · exact .askMigration h

/-! ### Commands of the converter, the hands and setting (R30, R202, R210) -/

theorem convRequest {r} (h : s.PermitSafe) : (s.convRequest r).PermitSafe := by
  unfold State.convRequest
  split
  · exact .answerReq h
  · exact h

theorem startConvState {r k t} (h : s.PermitSafe) : (s.startConvState r k t).PermitSafe := by
  unfold State.startConvState
  refine .either (.reply h) ?_
  split
  · exact .reply h
  · exact .either (.convRequest h) (.either (.reply h) (.schedule h))

theorem handsBegin {axes options} (h : s.PermitSafe) : (s.handsBegin axes options).1.PermitSafe := .post h

theorem queueGroup {r items isSet move} (h : s.PermitSafe) : (s.queueGroup r items isSet move).PermitSafe := h

theorem startHandsTarget {r k axes options ts} (h : s.PermitSafe) : (s.startHandsTarget r k axes options ts).PermitSafe := by
  unfold State.startHandsTarget
  split
  · exact .reply h
  refine .either (.reply h) (.either (.schedule h) ?_)
  split
  · exact .reply h
  · exact .either (.reply h) (.either (.reply h) (.queueGroup (.handsBegin h)))

theorem locked_of_settingJudge (h : s.settingJudge = none) : s.gt.state = .locked := by
  unfold State.settingJudge at h
  dsimp only at h
  split at h
  · cases h
  split at h
  · cases h
  · next hg => simpa using hg

/-- Only here is setting asked for, and the refusals leave LOCKED alone (R210). -/
theorem startSetting {r} (h : s.PermitSafe) : (s.startSetting r).PermitSafe := by
  unfold State.startSetting
  split
  · exact .reply h
  · next hj => exact .reply ⟨h.1, fun _ => locked_of_settingJudge (s := s) hj⟩

/-! ### The chronograph and the log (R265 to R280) -/

theorem takeSlot (h : s.PermitSafe) : s.takeSlot.1.PermitSafe := by
  unfold State.takeSlot
  split
  · exact h
  · exact .post h

theorem armChrono {armId rep master} (h : s.PermitSafe) : (s.armChrono armId rep master).PermitSafe := .post (.takeSlot h)

theorem sendMsg {kind pay} (h : s.PermitSafe) : (s.sendMsg kind pay).PermitSafe := h

theorem chronoArm {r rep train} (h : s.PermitSafe) : (s.chronoArm r rep train).PermitSafe :=
  .either (.reply h) <| .either (.reply h) <| .either (.reply (.sendMsg (.armChrono h))) (.reply (.armChrono h))

theorem askDisarm (h : s.PermitSafe) : s.askDisarm.PermitSafe := .either h h
theorem chronoDisarm {r train} (h : s.PermitSafe) : (s.chronoDisarm r train).PermitSafe := .reply (.askDisarm (.either h h))

theorem startChronoArm {r o} (h : s.PermitSafe) : (s.startChronoArm r o).PermitSafe :=
  .either (.reply h) <| .either (.either (.reply h) (.reply h)) <| .either (.chronoArm h) (.chronoDisarm h)

theorem startChronoRead {r id part options offset length} (h : s.PermitSafe) :
    (s.startChronoRead r id part options offset length).PermitSafe := by
  unfold State.startChronoRead
  refine .either (.reply h) (.either (.reply h) (.either (.reply h) ?_))
  split
  · exact .reply h
  · exact .reply (.either h h)

theorem startLogRead {r ring most from_} (h : s.PermitSafe) : (s.startLogRead r ring most from_).PermitSafe :=
  .either (.reply h) (.reply h)

/-! ### Power states (R385 to R390) -/

theorem psReply {r a} (h : s.PermitSafe) : (s.psReply r a).PermitSafe := .reply h

theorem levelStart {r level} (h : s.PermitSafe) : (s.levelStart r level).PermitSafe := by
  unfold State.levelStart
  refine .either (.psReply h) (.either (.psReply h) ?_)
  split
  · exact .psReply h
  · exact h

theorem selectRef (h : s.PermitSafe) : s.selectRef.PermitSafe := .either (.refSwitch h) h
theorem startSteps {first f} (h : s.PermitSafe) : (s.startSteps first f).PermitSafe :=
  .whenThen (.whenThen (.either h h) .selectRef) fun h => .post h

theorem startFails {first k} (h : s.PermitSafe) : (s.startFails first k).PermitSafe := by
  have hd : (if 4 < first then s else s.discardWindow).PermitSafe := .unlessThen h .discardWindow
  unfold State.startFails
  refine .unlessThen ?_ fun h => ?_
  · exact .post (.of_eq hd rfl rfl)
  · generalize State.post _ 0x2B05 _ _ = u at h ⊢
    exact .of_eq (.foldl (.post h) .psReply) rfl rfl

theorem wakeFailed {first k} (h : s.PermitSafe) : (s.wakeFailed first k).PermitSafe :=
  .startFails (.whenThen h fun h => .foldl h .laneTo)

theorem lanesAdmit (h : s.PermitSafe) : s.lanesAdmit.PermitSafe := .foldl h .laneAdmit
theorem wakeGo {first step f} (h : s.PermitSafe) : (s.wakeGo first step f).PermitSafe := .whenThen h .lanesAdmit
theorem resumeTick {skip} (h : s.PermitSafe) : (s.resumeTick skip).PermitSafe := .either h (.whenThen h .post)
theorem timeAfterSleep {skip} (h : s.PermitSafe) : (s.timeAfterSleep skip).PermitSafe := .whenThen h .timeSet
theorem relocked {skip} (h : s.PermitSafe) : (s.relocked skip).PermitSafe := .timeAfterSleep h.resumeTick

theorem wakeUp {bit f} (h : s.PermitSafe) : (s.wakeUp bit f).PermitSafe := by
  unfold State.wakeUp
  dsimp only
  split
  · exact .wakeFailed (.startSteps (.post h))
  · exact .wakeGo (.whenThen (.startSteps (.post h)) .relocked)

theorem hostWake {r level f} (h : s.PermitSafe) : (s.hostWake r level f).PermitSafe := .wakeUp h

theorem answerEach {rs} (h : s.PermitSafe) : (s.answerEach rs).PermitSafe := by
  induction rs generalizing s with
  | nil => exact h
  | cons r rs ih => exact .either (.levelStart h) (ih (.levelStart h))

theorem wakeAnswer (h : s.PermitSafe) : s.wakeAnswer.PermitSafe := .answerEach h
theorem lanesWake (h : s.PermitSafe) : s.lanesWake.PermitSafe := .lanesAdmit (.foldl h fun h => .whenThen h .laneTo)
theorem startEnds (h : s.PermitSafe) : s.startEnds.PermitSafe := .wakeAnswer (.lanesWake h)

theorem startOk {first f skip} (h : s.PermitSafe) : (s.startOk first f skip).PermitSafe := by
  have hr : (if first ≤ 3 then s.relocked skip else s).PermitSafe := .whenThen h .relocked
  exact .startEnds (.whenThen (.whenThen hr fun h => h) fun h => h)

theorem startRun {first attempt f skip} (h : s.PermitSafe) : (s.startRun first attempt f skip).PermitSafe := by
  unfold State.startRun
  dsimp only
  split
  · exact .startFails (.startSteps h)
  · exact .startOk (.unlessThen (.startSteps h) fun h => h)

theorem sleepRefused {r target code} (h : s.PermitSafe) : (s.sleepRefused r target code).PermitSafe := .psReply (.post h)

theorem pstateReq {r state level f} (h : s.PermitSafe) : (s.pstateReq r state level f).PermitSafe := by
  unfold State.pstateReq
  refine .either (.psReply h) ?_
  split
  · exact .either h (.psReply h)
  refine .either (.either (.levelStart h) (.either (.hostWake h) (.either h (.startRun h)))) (.either (.psReply h) (.either (.psReply h) ?_))
  split
  · exact .sleepRefused h
  · exact .either (.psReply h) h

/-! ### Firmware and the safety session (R309, R310, R372, R374) -/

theorem startFwBegin {r target length} (h : s.PermitSafe) : (s.startFwBegin r target length).PermitSafe :=
  .either (.reply h) <| .either (.reply h) <| .either (.reply h) <| .either (.reply h) (.reply h)

theorem startFwData {r offset data} (h : s.PermitSafe) : (s.startFwData r offset data).PermitSafe := by
  unfold State.startFwData
  split
  · exact .reply h
  · exact .either (.reply h) (.either (.reply h) (.reply h))

theorem startFwEnd {r} (h : s.PermitSafe) : (s.startFwEnd r).PermitSafe := by
  unfold State.startFwEnd
  split
  · exact .reply h
  · exact .either (.reply h) (.either (.reply h) (.either (.reply h) (.reply (.post h))))

theorem startFwActivate {r target} (h : s.PermitSafe) : (s.startFwActivate r target).PermitSafe := by
  unfold State.startFwActivate
  refine .either (.reply h) (.either ?_ (.either (.reply h) (.reply h)))
  split
  · exact .reply h
  · exact .either (.reply h) (.post (.reply h))

theorem sessionOpen (h : s.PermitSafe) : s.sessionOpen.1.PermitSafe := by
  unfold State.sessionOpen
  repeat' split
  · exact h
  · exact h
  · exact .post h

theorem sessionCommit {crc} (h : s.PermitSafe) : (s.sessionCommit crc).1.PermitSafe := by
  unfold State.sessionCommit
  repeat' split
  · exact h
  · exact h
  · exact h
  · exact h
  · exact .post h

theorem sessionClose (h : s.PermitSafe) : s.sessionClose.1.PermitSafe := by
  unfold State.sessionClose
  split
  · exact h
  · exact .post h

theorem startSession {r sub crc} (h : s.PermitSafe) : (s.startSession r sub crc).PermitSafe := by
  unfold State.startSession
  refine .either (.reply h) ?_
  split
  · exact .reply (.sessionOpen h)
  · exact .reply (.sessionCommit h)
  · exact .reply (.sessionClose h)
  · exact .reply h

/-! ### A command's turn (R361, R363) -/

theorem perform {r cmd} (h : s.PermitSafe) : (s.perform r cmd).PermitSafe := by
  cases cmd with
  | objRead => exact .startObjRead h
  | objWrite => exact .startObjWrite h
  | objWriteSet => exact .startObjWriteSet h
  | tableLoad => exact .startTableLoad h
  | tableSwap => exact .startTableSwap h
  | engineSpare => exact .startEngineSpare h
  | convState => exact .startConvState h
  | handsTarget => exact .startHandsTarget h
  | settingStart => exact .startSetting h
  | chronoArm => exact .startChronoArm h
  | chronoRead => exact .startChronoRead h
  | logRead => exact .startLogRead h
  | pstateReq => exact .pstateReq h
  | fwBegin => exact .startFwBegin h
  | fwData => exact .startFwData h
  | fwEnd => exact .startFwEnd h
  | fwActivate => exact .startFwActivate h
  | safetySession => exact .startSession h
  | bad => exact .reply h

theorem startCmd {r cmd} (h : s.PermitSafe) : (s.startCmd r cmd).PermitSafe :=
  .either (.reply (.accessErr h)) (.either (.reply h) (.perform h))

theorem startNext {n} (h : s.PermitSafe) : (s.startNext n).PermitSafe := by
  unfold State.startNext
  split
  · exact .startCmd h
  · exact h

theorem turn (h : s.PermitSafe) : s.turn.PermitSafe := .whenThen h fun h => .foldl h .startNext
theorem pump (h : s.PermitSafe) : s.pump.PermitSafe := .of_eq h.turn.turn.turn.turn rfl rfl

/-! ### Sleep entry and wake (R388, R389) -/

theorem wakeAgain {e} (h : s.PermitSafe) : (s.wakeAgain e).PermitSafe := by
  unfold State.wakeAgain
  split
  · exact .wakeUp h
  · exact .wakeUp h
  · exact h

theorem stopTick (h : s.PermitSafe) : s.stopTick.PermitSafe := h

theorem entryDone {e} (h : s.PermitSafe) : (s.entryDone e).PermitSafe :=
  .wakeAgain (.whenThen (.psReply (.post h)) .stopTick)

theorem setEntry {e} (h : s.PermitSafe) : (s.setEntry e).PermitSafe := h

theorem entryUndo {e} (h : s.PermitSafe) : (s.entryUndo e).PermitSafe := by
  unfold State.entryUndo
  exact .setEntry (.whenThen (.either h h) .lanesWake)

theorem entryAbort {e kind code} (h : s.PermitSafe) : (s.entryAbort e kind code).PermitSafe :=
  .wakeAnswer (.psReply (.post (.entryUndo h)))

theorem entryOff {target} (h : s.PermitSafe) : (s.entryOff target).PermitSafe :=
  .unlessThen h fun h => .either h (.holdover (.discardWindow h))

theorem entryStep {e} (h : s.PermitSafe) : (s.entryStep e).PermitSafe := by
  unfold State.entryStep
  dsimp only
  split
  · exact h
  · exact .fresh (.foldl h fun h => .either (.whenThen h .laneTo) (.laneTo h))
  · exact .entryOff h
  · exact .either (.entryDone h) h

theorem entryEdge (h : s.PermitSafe) : s.entryEdge.PermitSafe := by
  unfold State.entryEdge
  split
  · exact h
  refine .either h (.either (.entryDone h) ?_)
  split
  · exact .entryAbort h
  · exact .entryStep h

theorem wakeStep {w} (h : s.PermitSafe) : (s.wakeStep w).PermitSafe :=
  .either (.wakeGo h) <| .either (.wakeGo h) <| .either (.startEnds h) (.wakeFailed h)

theorem wakeEdge (h : s.PermitSafe) : s.wakeEdge.PermitSafe := by
  unfold State.wakeEdge
  split
  · exact h
  · exact .either h (.wakeStep h)

theorem levelTo {level} (h : s.PermitSafe) : (s.levelTo level).PermitSafe := .unlessThen h fun h => .post h

theorem levelEdge (h : s.PermitSafe) : s.levelEdge.PermitSafe := by
  unfold State.levelEdge
  split
  · exact h
  · exact .either (.wakeAnswer (.psReply h.levelTo)) (.whenThen h .levelTo)

theorem frtCounts (h : s.PermitSafe) : s.frtCounts.PermitSafe := .of_eq h rfl rfl
theorem dcfCounts (h : s.PermitSafe) : s.dcfCounts.PermitSafe := .of_eq h rfl rfl
theorem stopEngines (h : s.PermitSafe) : s.stopEngines.PermitSafe := .of_eq h rfl rfl
theorem formVector {demand} (h : s.PermitSafe) : (s.formVector demand).PermitSafe := .of_eq h rfl rfl

theorem endTick (h : s.PermitSafe) : s.endTick.PermitSafe := by
  unfold State.endTick
  refine .pump (.entryEdge (.wakeEdge (.levelEdge (.of_eq (s := State.slotBeat _) ?_ rfl rfl))))
  exact .slotBeat (.chronoTick (.formVector (.stopEngines (.dcfCounts (.frtCounts (.tableClamps (.winnerNote (.windowStarts
    (.fallbackTick h)))))))))

/-! ### The beats (R22 to R24) -/

theorem setSigs {a ws} (h : s.PermitSafe) : (s.setSigs a ws).PermitSafe := by
  induction ws generalizing s a with
  | nil => exact h
  | cons w ws ih => exact ih h

theorem setSig {a w} (h : s.PermitSafe) : (s.setSig a w).PermitSafe := h
theorem setSigN {a n} (h : s.PermitSafe) : (s.setSigN a n).PermitSafe := h
theorem setPu {a k x} (h : s.PermitSafe) : (s.setPu a k x).PermitSafe := h
theorem gatherFast (h : s.PermitSafe) : s.gatherFast.PermitSafe := .either h h
theorem overEvents {old new} (h : s.PermitSafe) : (s.overEvents old new).PermitSafe := .foldl h fun h => .whenThen h .post

theorem roleSignals (h : s.PermitSafe) : s.roleSignals.PermitSafe :=
  .setSigs (.setSig (.setSig (.setSigs (.setSigs (.setSigs (.setSigs h))))))

theorem fastBeat {x} (h : s.PermitSafe) : (s.fastBeat x).PermitSafe := by
  have hg : ({ s with meas := s.meas.takeSamples x }.gatherFast).PermitSafe := .gatherFast h
  exact .setSigN (.either hg (.either (.setSigs hg) (.setSigN (.roleSignals (.setSigs (.of_eq hg.overEvents rfl rfl))))))

theorem engineBeat {o k n} (h : s.PermitSafe) : (State.engineBeat o s k n).1.PermitSafe := by
  unfold State.engineBeat
  dsimp only
  split
  · exact h
  · exact h

theorem tableBeat {k} (h : s.PermitSafe) : (s.tableBeat k).PermitSafe := by
  unfold State.tableBeat
  refine .foldl ?_ fun h => h
  exact List.foldlRecOn (motive := fun a : State × List (Nat × Word) => a.1.PermitSafe) _ _ h fun _ ha _ _ => .engineBeat ha

theorem fuseeMark (h : s.PermitSafe) : s.fuseeMark.PermitSafe := .either h h
theorem law {k n f} (h : s.PermitSafe) (hf : s.PermitSafe → (f s).PermitSafe) : (s.law k n f).PermitSafe := .whenThen h hf

theorem selection {o bits} (h : s.PermitSafe) : (State.selection o s bits).PermitSafe :=
  .setPu (.setPu (.setPu (.setSigN (.setSig (.setSig (.of_eq h rfl rfl))))))
theorem balancing {o} (h : s.PermitSafe) : (State.balancing o s).PermitSafe := .of_eq h rfl rfl
theorem circulating {o} (h : s.PermitSafe) : (State.circulating o s).PermitSafe := .of_eq h rfl rfl
theorem armCurrent {o k} (h : s.PermitSafe) : (State.armCurrent o s k).PermitSafe := .of_eq h rfl rfl
theorem admittance {o} (h : s.PermitSafe) : (State.admittance o s).PermitSafe := .of_eq h rfl rfl
theorem contenders {o} (h : s.PermitSafe) : (State.contenders o s).PermitSafe := .of_eq h rfl rfl
theorem thermal {o} (h : s.PermitSafe) : (State.thermal o s).PermitSafe := .of_eq h rfl rfl
theorem qvDroop {o} (h : s.PermitSafe) : (State.qvDroop o s).PermitSafe := .of_eq h rfl rfl
theorem voltageLoop {o} (h : s.PermitSafe) : (State.voltageLoop o s).PermitSafe := .of_eq h rfl rfl
theorem swingSignals (h : s.PermitSafe) : s.swingSignals.PermitSafe := .of_eq h rfl rfl
theorem vInst {o} (h : s.PermitSafe) : (State.vInst o s).PermitSafe := .of_eq h rfl rfl
theorem dcfHold (h : s.PermitSafe) : s.dcfHold.PermitSafe := .either h h
theorem energySum {o} (h : s.PermitSafe) : (State.energySum o s).PermitSafe := .either h h
theorem dcVoltageLoop {o} (h : s.PermitSafe) : (State.dcVoltageLoop o s).PermitSafe := .either h h

theorem settingBeat {o} (h : s.PermitSafe) : (State.settingBeat o s).PermitSafe := by
  unfold State.settingBeat
  dsimp only
  split
  · split
    · exact h
    · exact h
  · split
    · exact h
    · exact h

theorem axisArrived {a} (h : s.PermitSafe) : (s.axisArrived a).PermitSafe := .moveEnd h
theorem setAxis {a f} (h : s.PermitSafe) : (s.setAxis a f).PermitSafe := h
theorem axisStopped {a n} (h : s.PermitSafe) : (s.axisStopped a n).PermitSafe := .setAxis (.moveEnd (.putObj h))

theorem axisTick {a} (h : s.PermitSafe) : (s.axisTick a).PermitSafe := by
  unfold State.axisTick
  refine .either h ?_
  split
  · exact .either (.axisArrived h) (.either (.axisStopped h) h)
  · exact .either (.axisArrived h) h

theorem handsBeat (h : s.PermitSafe) : s.handsBeat.PermitSafe :=
  .setSigN (.setPu (.setPu (.setPu (.setPu (.setPu (.foldl h .axisTick))))))

theorem swing {o} (h : s.PermitSafe) : (State.swing o s).PermitSafe := .either (.freqClampTo h) (.freqClampTo h)

theorem beat0 (h : s.PermitSafe) : s.beat0.PermitSafe :=
  .law (.law (.law (.law (.tableBeat h) fun h => .dcVoltageLoop (.settingBeat (.handsBeat h)))
    fun h => .setSigN (.vInst (.swingSignals (.swing h)))) .qvDroop) .voltageLoop

theorem beat1 (h : s.PermitSafe) : s.beat1.PermitSafe := .law (.law (.law (.tableBeat h) .admittance) .contenders) .thermal

theorem beat2 (h : s.PermitSafe) : s.beat2.PermitSafe :=
  .fuseeMark (.dcfHold (.law (.law (.law (.law (.tableBeat h) .selection) .energySum) .balancing) .circulating))

theorem beat3 {x} (h : s.PermitSafe) : (s.beat3 x).PermitSafe :=
  .fuseeMark (.law (.law (.law (.tableBeat (.fastBeat h)) .armCurrent) .armCurrent) .armCurrent)

theorem beats {x} (h : s.PermitSafe) : (s.beats x).PermitSafe := .either (.fastBeat h) (.beat3 (.beat2 (.beat1 (.beat0 h))))

/-! ### The modulator and the frames of the tick (R109, R136) -/

theorem satEvents {arm p} (h : s.PermitSafe) : (s.satEvents arm p).PermitSafe := .whenThen (.whenThen h fun h => .post h) fun h => .post h

theorem storePlans {plans} (h : s.PermitSafe) : (s.storePlans plans).PermitSafe := by
  unfold State.storePlans
  refine .of_eq (s := List.foldl _ _ _) ?_ rfl rfl
  exact .foldl (.foldl h .satEvents) fun h => .foldl h fun h => h

theorem modulate (h : s.PermitSafe) : s.modulate.1.PermitSafe := by
  unfold State.modulate
  dsimp only
  exact .setSigs (.whenThen (.storePlans h) fun h => h)

theorem spill {l next late es} (h : s.PermitSafe) : (s.spill l next late es).PermitSafe := by
  induction es generalizing s late with
  | nil => exact h
  | cons e es ih =>
    unfold State.spill
    dsimp only
    split
    · exact .either (ih h) (ih h)
    · exact ih h

theorem frameLane {l own} (h : s.PermitSafe) : (s.frameLane l own).PermitSafe := .spill h

theorem frameLanes {out} (h : s.PermitSafe) : (s.frameLanes out).PermitSafe := by
  unfold State.frameLanes
  generalize List.range 48 = ls
  exact .of_eq (.foldl h .frameLane) rfl rfl

theorem condSignals (h : s.PermitSafe) : s.condSignals.PermitSafe := .of_eq h rfl rfl

theorem edgeFrames (h : s.PermitSafe) : s.edgeFrames.PermitSafe := by
  have hf : (s.modulate.1.frameLanes s.modulate.2).PermitSafe := .frameLanes (.modulate h)
  unfold State.edgeFrames
  dsimp only
  generalize s.modulate.1.frameLanes s.modulate.2 = u at hf ⊢
  exact .condSignals (.of_eq hf rfl rfl)

/-! ### The units that watch at an edge -/

theorem rideCheck (h : s.PermitSafe) : s.rideCheck.PermitSafe := .whenThen h .post
theorem retire {cell why} (h : s.PermitSafe) : (s.retire cell why).PermitSafe := .post h
theorem retireMarked (h : s.PermitSafe) : s.retireMarked.PermitSafe := .foldl h .retire
theorem rankSignals (h : s.PermitSafe) : s.rankSignals.PermitSafe := .setSigN (.setPu (.setSigs (.setSigs (.setSigs h))))

theorem redundEvents {arm low0 low1 short0 short1} (h : s.PermitSafe) : (s.redundEvents arm low0 low1 short0 short1).PermitSafe := by
  unfold State.redundEvents
  refine .either (.post ?_) (.either (.post ?_) ?_) <;> exact .either (.post h) (.either (.post h) h)

theorem evalRedund (h : s.PermitSafe) : s.evalRedund.PermitSafe := .of_eq (.whenThen h fun h => .foldl h .redundEvents) rfl rfl
theorem rankEdge (h : s.PermitSafe) : s.rankEdge.PermitSafe := by
  have hr : ({ s with cells := s.cells.map Cell.older }.retireMarked).PermitSafe := .retireMarked h
  exact .rankSignals (.evalRedund (.of_eq hr rfl rfl))

theorem windowEdge (h : s.PermitSafe) : s.windowEdge.PermitSafe := .either h h
theorem slipEdge (h : s.PermitSafe) : s.slipEdge.PermitSafe := .either (.post h) (.either h h)
theorem enrgEdge (h : s.PermitSafe) : s.enrgEdge.PermitSafe := .either h h

/-- Setting that was asked for in LOCKED becomes active there, without a permit (R210, R211). -/
theorem settingEdge (h : s.PermitSafe) : s.settingEdge.PermitSafe := by
  unfold State.settingEdge
  refine .either ?_ (.either ?_ (.permitLost ?_)) <;>
    exact .eitherOf (fun hc => .post ⟨fun hp => (nomatch hp), fun _ => h.2 (.inr hc)⟩) fun _ => h

theorem takeInternal (h : s.PermitSafe) : s.takeInternal.PermitSafe := .of_eq h rfl rfl
theorem scsCeilEdge (h : s.PermitSafe) : s.scsCeilEdge.PermitSafe := .of_eq h rfl rfl
theorem dcfEdge (h : s.PermitSafe) : s.dcfEdge.PermitSafe := .of_eq h rfl rfl

theorem edgeUnits (h : s.PermitSafe) : s.edgeUnits.PermitSafe :=
  .slipEdge (.settingEdge (.enrgEdge (.setSigN (.dcfEdge (.scsCeilEdge (.setSigN (.takeInternal (.rideCheck (.rankEdge
    (.windowEdge h))))))))))

/-! ### The angles (R43, R51) -/

theorem gtAngle (h : s.PermitSafe) : s.gtAngle.PermitSafe := .either h h
theorem gtCounts (h : s.PermitSafe) : s.gtCounts.PermitSafe := .of_eq h rfl rfl

/-- The edge moves the tracker's angle and counters, never its state. -/
theorem trackerEdge (h : s.PermitSafe) : s.trackerEdge.PermitSafe := by
  unfold State.trackerEdge
  refine .of_eq (s := ite _ _ _) ?_ rfl rfl
  exact .whenThen (.setSigN (.setSig (.setSig (.setSig (.setSig (.gtCounts (.gtAngle h))))))) .condEvent

theorem phaseEdge (h : s.PermitSafe) : s.phaseEdge.PermitSafe := .of_eq h rfl rfl
theorem schedEdge (h : s.PermitSafe) : s.schedEdge.PermitSafe := .of_eq h rfl rfl
theorem escSignals (h : s.PermitSafe) : s.escSignals.PermitSafe := .of_eq h rfl rfl
theorem edgeAngles (h : s.PermitSafe) : s.edgeAngles.PermitSafe := .escSignals (.schedEdge (.trackerEdge (.phaseEdge h)))

/-! ### What acts at an edge before the converter (R31, R330 to R339, R322 to R326) -/

theorem takeReported (h : s.PermitSafe) : s.takeReported.PermitSafe := .of_eq h rfl rfl
theorem lead (h : s.PermitSafe) : s.lead.PermitSafe := .takeReported (.of_eq h.setRole rfl rfl)
theorem takeCrown {cause} (h : s.PermitSafe) : (s.takeCrown cause).PermitSafe := .post (.of_eq h.lead rfl rfl)
theorem crownByIdle (h : s.PermitSafe) : s.crownByIdle.PermitSafe := .whenThen h .takeCrown

theorem takeReqs {rs made} (h : s.PermitSafe) : (State.takeReqs rs made s).PermitSafe := by
  induction rs generalizing s made with
  | nil => exact h
  | cons r rs ih =>
    unfold State.takeReqs
    split
    · exact ih (.answerReq h)
    · exact .either (ih h) (ih (.answerReq (.convTo (.whenThen h .crownByIdle))))

/-- At the boundary the converter first moves of its own accord, then takes the requests in turn (R30, R31). -/
theorem resolve (h : s.PermitSafe) : s.resolve.PermitSafe := by
  unfold State.resolve
  refine .takeReqs (.of_eq (.either (.goPr h) ?_) rfl rfl)
  split
  · exact .convTo h
  · exact .either h <| .either (.goScs h) <| .either (.convTo h) <| .either (.convTo h) <| .either (.convTo h) h

theorem linkBack (h : s.PermitSafe) : s.linkBack.PermitSafe := .whenThen h .post
theorem pairFormed {role} (h : s.PermitSafe) : (s.pairFormed role).PermitSafe := .unlessThen h fun h => .post h
theorem standbyEntries (h : s.PermitSafe) : s.standbyEntries.PermitSafe := .whenThen (.whenThen h .post) .post

theorem pairEdge (h : s.PermitSafe) : s.pairEdge.PermitSafe := by
  refine .unlessThen h fun h => ?_
  have hl : (if s.pair.hbLost && decide (s.sinceHb < hbTicks) then s.linkBack else s).PermitSafe := .whenThen h .linkBack
  exact .unlessThen hl fun hl => .either (.pairFormed (.lead hl)) (.of_eq hl.standbyEntries rfl rfl)

theorem originate (h : s.PermitSafe) : s.originate.PermitSafe := .either h h
theorem formed (h : s.PermitSafe) : s.formed.PermitSafe := .post h
theorem rootStart (h : s.PermitSafe) : s.rootStart.PermitSafe := .whenThen h fun h => .formed h

theorem joinEdge (h : s.PermitSafe) : s.joinEdge.PermitSafe := by
  unfold State.joinEdge
  split
  · exact .whenThen h fun h => .formed h
  · exact h

theorem rootYields {winner} (h : s.PermitSafe) : (s.rootYields winner).PermitSafe := .either h (.post h)

theorem yieldEdge (h : s.PermitSafe) : s.yieldEdge.PermitSafe := by
  unfold State.yieldEdge
  split
  · exact .whenThen h fun h => .rootYields h
  · exact h

theorem trainEdge (h : s.PermitSafe) : s.trainEdge.PermitSafe :=
  .unlessThen h fun h => .originate (.rootStart (.joinEdge (.yieldEdge h)))

theorem signEdge (h : s.PermitSafe) : s.signEdge.PermitSafe := .of_eq h rfl rfl
theorem mirrorOne {n} (h : s.PermitSafe) : (s.mirrorOne n).PermitSafe := .of_eq h rfl rfl
theorem mirrorEdge (h : s.PermitSafe) : s.mirrorEdge.PermitSafe := .signEdge (.foldl h .mirrorOne)

theorem regEdge (h : s.PermitSafe) : s.regEdge.PermitSafe := by
  unfold State.regEdge
  refine .either h ?_
  split
  · exact h
  · exact .either h h

theorem ppsEdge (h : s.PermitSafe) : s.ppsEdge.PermitSafe := .either h h

theorem stepEdge (h : s.PermitSafe) : s.stepEdge.PermitSafe := by
  unfold State.stepEdge
  split
  · exact h
  · exact .post h

theorem applySafety (h : s.PermitSafe) : s.applySafety.PermitSafe := .whenThen h fun h => .of_eq h.applyWaiting rfl rfl
theorem chronoEdge (h : s.PermitSafe) : s.chronoEdge.PermitSafe := .whenThen h .chronoStop
theorem remapKeys (h : s.PermitSafe) : s.remapKeys.PermitSafe := .of_eq h rfl rfl

theorem edgeFirst (h : s.PermitSafe) : s.edgeFirst.PermitSafe :=
  .pairEdge (.trainEdge (.mirrorEdge (.regEdge (.remapKeys (.ppsEdge (.stepEdge (.applySafety (.chronoEdge h))))))))

theorem logWindow (h : s.PermitSafe) : s.logWindow.PermitSafe := by
  unfold State.logWindow
  refine .of_eq (s := List.foldl _ _ _) ?_ rfl rfl
  exact .foldl h fun h => .either h h

theorem logWindowEnd (h : s.PermitSafe) : s.logWindowEnd.PermitSafe := .applyWaiting (.logWindow h)
theorem logGap {from_} (h : s.PermitSafe) : (s.logGap from_).PermitSafe := .whenThen h .logWindowEnd
theorem numberTick (h : s.PermitSafe) : s.numberTick.PermitSafe := .logGap h

/-! ### The whole tick -/

theorem atEdge (h : s.PermitSafe) : s.atEdge.PermitSafe := .edgeFrames (.edgeUnits (.edgeAngles (.resolve (.edgeFirst (.numberTick h)))))
theorem tickAll {x} (h : s.PermitSafe) : (s.tickAll x).PermitSafe := .endTick (.beats (.atEdge h))

/-! ### Rows of the converter's control (R72 to R133, R207 to R213) -/

theorem whenDue {due f} (h : s.PermitSafe) (hf : due = true → s.PermitSafe → (f s).PermitSafe) : (s.whenDue due f).PermitSafe :=
  .eitherOf (fun hd => hf (by simp at hd; exact hd.2) h) fun _ => h

theorem prechargeDone (h : s.PermitSafe) : s.prechargeDone.PermitSafe := .either h h
theorem frtBegin (h : s.PermitSafe) : s.frtBegin.PermitSafe := .postAt h
theorem frtEnd (h : s.PermitSafe) : s.frtEnd.PermitSafe := .postAt h
theorem dcfDetect (h : s.PermitSafe) : s.dcfDetect.PermitSafe := .either (.putDirect (.post h)) (.post h)
theorem dcfRearm (h : s.PermitSafe) : s.dcfRearm.PermitSafe := h
theorem dcfEnd (h : s.PermitSafe) : s.dcfEnd.PermitSafe := .post h
theorem enrgEnd (h : s.PermitSafe) : s.enrgEnd.PermitSafe := .postAt h

/-- A permit is given while setting is active (R211). -/
theorem permitGiven (hd : s.permitDue = true) (h : s.PermitSafe) : s.permitGiven.PermitSafe := by
  have ha : s.set.active = true := by simp [State.permitDue] at hd; exact hd.1.1
  exact .post ⟨fun _ => ha, h.2⟩

/-- The tracker leaves LOCKED here alone: setting ends with it, which withdraws the permit (R54, R213). In the other states there is neither. -/
theorem gtCoast (h : s.PermitSafe) : s.gtCoast.PermitSafe := by
  refine .eitherOf (fun _ => .setAbort_of_noPermit (State.permitLost_permit _)) fun hg => ?_
  obtain ⟨hp, ha, hs⟩ := h.over_of_unlocked hg
  exact .post (.of_over hp ha hs)

/-- Out of LOCKED there is no setting to lose. -/
theorem gtAcquire (hd : s.acquireDue = true) (h : s.PermitSafe) : s.gtAcquire.PermitSafe := by
  have hg : s.gt.state ≠ .locked := by simp [State.acquireDue] at hd; simp [hd.1]
  obtain ⟨hp, ha, hs⟩ := h.over_of_unlocked hg
  exact .of_over hp ha hs

theorem reacquire {fit} (h : s.PermitSafe) : (s.reacquire fit).PermitSafe :=
  .unlessThen h fun h => .either h (.postAt ⟨h.1, fun _ => rfl⟩)

theorem cellStale {cell} (h : s.PermitSafe) : (s.cellStale cell).PermitSafe := .either h h
theorem limOnSetting {n} (h : s.PermitSafe) : (s.limOnSetting n).PermitSafe := .whenThen h .setAbort
theorem limChanged {n active} (h : s.PermitSafe) : (s.limChanged n active).PermitSafe :=
  .noteWake (.limOnSetting (.whenThen (.post h) fun h => .post h))
theorem limEdge {n level samples} (h : s.PermitSafe) : (s.limEdge n level samples).PermitSafe := .unlessThen h .limChanged

theorem tripWake {n t} (h : t.PermitSafe) : (s.tripWake n t).PermitSafe := .whenThen h .noteWake
theorem tripActive {n same} (h : s.PermitSafe) : (s.tripActive n same).PermitSafe := .postFine (.tripActs (.either h h))
theorem tripEdge {n pin run same} (h : s.PermitSafe) : (s.tripEdge n pin run same).PermitSafe := .whenThen h .tripActive
theorem tripInactive {n pin run} (h : s.PermitSafe) : (s.tripInactive n pin run).PermitSafe := .either h h

/-! ### Rows of the escapement, the scheduler and the chronograph (R176 to R194, R252 to R270) -/

theorem spareFails {p} (h : s.PermitSafe) : (s.spareFails p).PermitSafe := by
  have hp : ({ s.outOfService p with esc := { (s.outOfService p).esc with spareFaultRos := true } }.post 0x2D07 p []).PermitSafe := .post h
  unfold State.spareFails
  dsimp only
  split
  · exact .whenThen hp fun h => .startMigration h
  · exact hp

theorem engineFails {p kind step stop} (h : s.PermitSafe) : (s.engineFails p kind step stop).PermitSafe := .askMigration (.postAt h)
theorem residueError {p x} (h : s.PermitSafe) : (s.residueError p x).PermitSafe :=
  .unlessThen h fun h => .either (.spareFails h) (.whenThen h fun h => .engineFails h)
theorem signatureError {p} (h : s.PermitSafe) : (s.signatureError p).PermitSafe :=
  .unlessThen h fun h => .either (.spareFails h) (.engineFails h)

theorem migrateTo {m} (h : s.PermitSafe) : (s.migrateTo m).PermitSafe := .postAt h

theorem nextMigration {ws} (h : s.PermitSafe) : (s.nextMigration ws).PermitSafe := by
  induction ws generalizing s with
  | nil => exact h
  | cons w ws ih => exact .either h (ih (.startMigration h))

theorem migrateEnd (h : s.PermitSafe) : s.migrateEnd.PermitSafe := by
  unfold State.migrateEnd
  split
  · exact h
  · exact .replyTo (.nextMigration (.sparesSettled (.foldl (.migrateTo h) fun h => .applyGroup h)))

theorem spareFault {p} (h : s.PermitSafe) : (s.spareFault p).PermitSafe := .whenThen h .spareFails

theorem groupStep (h : s.PermitSafe) : s.groupStep.PermitSafe := by
  unfold State.groupStep
  split
  · exact .applyGroup h
  · exact h

theorem doSwap {w} (h : s.PermitSafe) : (s.doSwap w).PermitSafe := .replyTo (.postAt h)

theorem swapStep (h : s.PermitSafe) : s.swapStep.PermitSafe := by
  unfold State.swapStep
  split
  · exact .whenThen h .doSwap
  · exact h

theorem verifyDone (h : s.PermitSafe) : s.verifyDone.PermitSafe := by
  unfold State.verifyDone
  split
  · exact h
  · exact .either (.replyTo (.post h)) (.either (.replyTo (.post h)) (.either (.replyTo (.post h)) (.replyTo (.post h))))

theorem schedGroup {id flags late items move} (h : s.PermitSafe) : (s.schedGroup id flags late items move).PermitSafe := by
  unfold State.schedGroup
  split
  · exact .actionFailed (.actionRefused h)
  · exact .either (.actionFailed h) (.actionDone (.itemsDo h))

theorem schedAct {d a} (h : s.PermitSafe) : (s.schedAct d a).PermitSafe := by
  unfold State.schedAct
  dsimp only
  split
  · split
    · exact .actionFailed h
    · exact .schedGroup h
  · split
    · exact .actionFailed h
    · exact .schedGroup (.handsBegin h)
  · split
    · exact .actionFailed h
    · exact .actionDone (.doSwap h)
  · exact h
  · exact h

theorem schedDue (h : s.PermitSafe) : s.schedDue.PermitSafe := by
  unfold State.schedDue
  split
  · exact h
  · exact .either (.postAt h) (.schedAct h)

theorem recordDone (h : s.PermitSafe) : s.recordDone.PermitSafe := .whenThen h .closeRecord
theorem holdoffExpired (h : s.PermitSafe) : s.holdoffExpired.PermitSafe :=
  .unlessThen h fun h => .either (.armChrono h) (.unlessThen h fun h => .post h)

/-! ### Rows of measurement (R225 to R233, R379) -/

theorem boundary {up} (h : s.PermitSafe) : (s.boundary up).PermitSafe := .either h (.either (.either h h) (.either h h))

theorem windowQuantities {ai len} (h : s.PermitSafe) : (s.windowQuantities ai len).PermitSafe :=
  .setSigN (.setPu (.setPu (.setPu (.setPu (.setPu h)))))
theorem windowEnergy {a b} (h : s.PermitSafe) : (s.windowEnergy a b).PermitSafe := .of_eq h rfl rfl

theorem driftInput {ovl n a} (h : s.PermitSafe) : (s.driftInput ovl n a).PermitSafe := .unlessThen h fun h => .whenThen h .post

theorem windowDone {ovl ai} (h : s.PermitSafe) : (s.windowDone ovl ai).PermitSafe := by
  unfold State.windowDone
  refine .of_eq (s := List.foldl _ _ _) ?_ rfl rfl
  exact .foldl (.setSigN (.windowEnergy (.windowQuantities h))) .driftInput

theorem windowResult {ovl ai} (h : s.PermitSafe) : (s.windowResult ovl ai).PermitSafe := .whenThen h .windowDone
theorem fbPowerUp (h : s.PermitSafe) : s.fbPowerUp.PermitSafe := .either h h
theorem vanaWake {t} (h : t.PermitSafe) : (s.vanaWake t).PermitSafe := .unlessThen h .noteWake
theorem vanaLost {mv ticks} (h : s.PermitSafe) : (s.vanaLost mv ticks).PermitSafe :=
  .whenThen h fun h => .post (.of_eq h.discardWindow rfl rfl)
theorem vanaPresent {mv ticks} (h : s.PermitSafe) : (s.vanaPresent mv ticks).PermitSafe := .either h h
theorem anaRail (h : s.PermitSafe) : s.anaRail.PermitSafe := .either h (.either h h)
theorem vanaLowChange {mv ticks} (h : s.PermitSafe) : (s.vanaLowChange mv ticks).PermitSafe := .either h h
theorem refCheck {r} (h : s.PermitSafe) : (s.refCheck r).PermitSafe := .whenThen h .post
theorem vanaOrder (h : s.PermitSafe) : s.vanaOrder.PermitSafe := .unlessThen h fun h => .post h

/-! ### Rows of the lanes (R142 to R152) -/

theorem setLane {l f} (h : s.PermitSafe) : (s.setLane l f).PermitSafe := h
theorem laneFollow {l w} (h : s.PermitSafe) : (s.laneFollow l w).PermitSafe := by
  unfold State.laneFollow
  dsimp only
  refine .either (.post ?_) ?_ <;> exact .either h h

theorem applyReport {cell vcap} (h : s.PermitSafe) : (s.applyReport cell vcap).PermitSafe := .either h h

theorem setCell {cell f} (h : s.PermitSafe) : (s.setCell cell f).PermitSafe := h
theorem markRetire {cell why} (h : s.PermitSafe) : (s.markRetire cell why).PermitSafe := h

theorem report {l i w} (h : s.PermitSafe) : (s.report l i w).PermitSafe := by
  unfold State.report
  refine .either (.unlessThen h fun h => .post h) (.either (.post h) ?_)
  refine .either ?_ (.applyReport (.setCell ?_)) <;>
    exact .either (.markRetire (.whenThen h .setLane)) (.whenThen (.whenThen h .setLane) .markRetire)

theorem reports {l n ws} (h : s.PermitSafe) : (s.reports l n ws).PermitSafe := .foldl h .report

theorem uplink {l arrival f} (h : s.PermitSafe) : (s.uplink l arrival f).PermitSafe := by
  unfold State.uplink
  dsimp only
  refine .unlessThen h fun h => .either (.laneTo h) ?_
  split
  · exact .whenThen (.setLane (.laneFollow h)) .laneTo
  · exact .unlessThen (.setLane (.laneFollow h)) .reports
  · exact .setLane (.laneFollow h)

theorem uplinkBlocks {l arrival bs} (h : s.PermitSafe) : (s.uplinkBlocks l arrival bs).PermitSafe := by
  unfold State.uplinkBlocks
  refine .unlessThen h fun h => ?_
  split
  · exact .uplink h
  · exact h

theorem delaySet {l} (h : s.PermitSafe) : (s.delaySet l).PermitSafe :=
  .unlessThen h fun h => .either (.either (.laneTo h) h) (.either (.laneTo h) (.either (.laneTo h) (.either (.laneTo h) (.laneTo h))))
theorem rxTimeout {l} (h : s.PermitSafe) : (s.rxTimeout l).PermitSafe := .whenThen h .laneTo
theorem delayStep {l} (h : s.PermitSafe) : (s.delayStep l).PermitSafe := .whenThen h fun h => .laneTo (.post h)

/-! ### Rows of the regulator and of time (R238 to R250) -/

theorem refLoss {r missing} (h : s.PermitSafe) : (s.refLoss r missing).PermitSafe := .unlessThen h fun h => .unlessThen h .refGone
theorem refGood {r cleanUs} (h : s.PermitSafe) : (s.refGood r cleanUs).PermitSafe := .either h h
theorem renumber {aon} (h : s.PermitSafe) : (s.renumber aon).PermitSafe := .unlessThen h fun h => .whenThen h .post

theorem lockDeclared {riseUs aon} (h : s.PermitSafe) : (s.lockDeclared riseUs aon).PermitSafe := by
  refine .unlessThen h fun h => .either (.post h) ?_
  have hr : (if s.reg.gated then s.renumber aon else s).PermitSafe := .whenThen h .renumber
  exact .whenThen (.of_eq hr rfl rfl) .post

theorem slip {ps since} (h : s.PermitSafe) : (s.slip ps since).PermitSafe := .either h (.unlock h)

theorem rampStart (h : s.PermitSafe) : s.rampStart.PermitSafe := by
  unfold State.rampStart
  split
  · exact .either h h
  · exact h

theorem timeLock (h : s.PermitSafe) : s.timeLock.PermitSafe := by
  have ht : (s.timeSet .locked 0).PermitSafe := .timeSet h
  exact .whenThen ht fun ht => .of_eq ht rfl rfl

theorem ptpSync {domain intervalNs measured ratio} (h : s.PermitSafe) : (s.ptpSync domain intervalNs measured ratio).PermitSafe :=
  .unlessThen h fun h => .either (.either h h) (.whenThen h .timeLock)
theorem ptpAnnounce {a} (h : s.PermitSafe) : (s.ptpAnnounce a).PermitSafe :=
  .unlessThen h fun h => .either h (.whenThen h .post)
theorem pdelayReq {domain requester turnaround} (h : s.PermitSafe) : (s.pdelayReq domain requester turnaround).PermitSafe := .either h h
theorem delayResp {domain mean peer} (h : s.PermitSafe) : (s.delayResp domain mean peer).PermitSafe := .either h h
theorem delayReqTx (h : s.PermitSafe) : s.delayReqTx.PermitSafe := .either h h
theorem syncTimeout (h : s.PermitSafe) : s.syncTimeout.PermitSafe := .unlessThen h .holdover
theorem announceTimeout (h : s.PermitSafe) : s.announceTimeout.PermitSafe := .unlessThen h fun h => .holdover h
theorem holdoverExpired {heldS} (h : s.PermitSafe) : (s.holdoverExpired heldS).PermitSafe := .whenThen h .timeSet
theorem masterTx (h : s.PermitSafe) : s.masterTx.PermitSafe := .either h h
theorem management {domain dataset write} (h : s.PermitSafe) : (s.management domain dataset write).PermitSafe := .either h h
theorem lockLoss {mv} (h : s.PermitSafe) : (s.lockLoss mv).PermitSafe := .either h h

/-! ### Rows of the train and the pair (R319 to R339) -/

theorem frameOn {west arrival f} (h : s.PermitSafe) : (s.frameOn west arrival f).PermitSafe := .either h (.either (.either h h) h)
theorem ringWrapped {west} (h : s.PermitSafe) : (s.ringWrapped west).PermitSafe := .unlessThen h fun h => .post h
theorem portDown {west} (h : s.PermitSafe) : (s.portDown west).PermitSafe := .whenThen h fun h => .ringWrapped h
theorem frameBad {west arrival f} (h : s.PermitSafe) : (s.frameBad west arrival f).PermitSafe := by
  have hf : (s.frameOn west arrival f).PermitSafe := .frameOn h
  unfold State.frameBad
  generalize s.frameOn west arrival f = u at hf ⊢
  exact .whenThen hf .portDown
theorem miswired {west} (h : s.PermitSafe) : (s.miswired west).PermitSafe := .unlessThen (.portDown h) .post
theorem ringHeal (h : s.PermitSafe) : s.ringHeal.PermitSafe := .whenThen h fun h => .post h
theorem frameTaken {west arrival f} (h : s.PermitSafe) : (s.frameTaken west arrival f).PermitSafe :=
  .either (.ringWrapped h) (.unlessThen h .ringHeal)

theorem trainFrame {west arrival bs} (h : s.PermitSafe) : (s.trainFrame west arrival bs).PermitSafe := by
  refine .unlessThen h fun h => .either (.frameBad h) (.either (.miswired h) ?_)
  have hf : ((s.frameTaken west arrival (readTrain bs)).frameOn west arrival (readTrain bs)).PermitSafe := .frameOn (.frameTaken h)
  exact .whenThen hf fun hf => .of_eq hf rfl rfl

theorem takeMsg {a kind w} (h : s.PermitSafe) (ht : s.takeMsg a kind w = some t) : t.PermitSafe := by
  unfold State.takeMsg at ht
  dsimp only at ht
  split at ht
  · cases ht
  split at ht
  · cases ht
    exact h
  split at ht
  · cases ht
    exact h
  · cases ht

theorem takeMsg_whenRuns {a kind w} (h : s.PermitSafe) (ht : (if s.trainRuns then s.takeMsg a kind w else none) = some t) : t.PermitSafe := by
  split at ht
  · exact h.takeMsg ht
  · cases ht

theorem follow (h : s.PermitSafe) : s.follow.PermitSafe := .of_eq h.setRole rfl rfl

theorem heartbeat {w} (h : s.PermitSafe) : (s.heartbeat w).PermitSafe := by
  unfold State.heartbeat
  split
  · exact h
  · next u hu =>
    have h := takeMsg_whenRuns h hu
    have hl : ({ u with pair := { u.pair with seen := true, partner := w, mismatch := hbPartner w ≠ u.train.addr } }.linkBack).PermitSafe :=
      .linkBack h
    refine .unlessThen hl fun hl => .either hl (.either (.pairFormed hl) (.either (.follow hl) (.either (.post (.follow hl)) hl)))

theorem trainJoin {w} (h : s.PermitSafe) : (s.trainJoin w).PermitSafe := .unlessThen h fun h => .unlessThen h fun h => .post h
theorem trainGrant {w} (h : s.PermitSafe) : (s.trainGrant w).PermitSafe :=
  .unlessThen h fun h => .either (.post h) (.whenThen h .post)

theorem trainArm {src w} (h : s.PermitSafe) : (s.trainArm src w).PermitSafe := by
  unfold State.trainArm
  split
  · exact h
  · next u hu =>
    have h := takeMsg_whenRuns h hu
    exact .unlessThen h fun h => .either (.post h) (.unlessThen h .armChrono)

theorem trainDisarm {src w} (h : s.PermitSafe) : (s.trainDisarm src w).PermitSafe := by
  unfold State.trainDisarm
  split
  · exact h
  · next u hu => exact .whenThen (takeMsg_whenRuns h hu) .askDisarm

theorem takeFire {a w1 w2} (h : s.PermitSafe) (ht : s.takeFire a w1 w2 = some t) : t.PermitSafe := by
  unfold State.takeFire at ht
  dsimp only at ht
  split at ht
  · split at ht
    · exact h.takeMsg ht
    · cases ht
  split at ht
  · exact h.takeMsg ht
  · obtain ⟨u, hu, ht⟩ := Option.bind_eq_some_iff.1 ht
    exact (h.takeMsg hu).takeMsg ht

theorem trainFire {src w1 w2} (h : s.PermitSafe) : (s.trainFire src w1 w2).PermitSafe := by
  unfold State.trainFire
  refine .unlessThen h fun h => ?_
  split
  · exact h
  · next u hu =>
    have h : u.PermitSafe := by
      split at hu
      · exact h.takeFire hu
      · cases hu
    exact .either h (.either h h)

theorem ringClosed (h : s.PermitSafe) : s.ringClosed.PermitSafe := .whenThen h .ringHeal
theorem actingRoot (h : s.PermitSafe) : s.actingRoot.PermitSafe := .whenThen h fun h => .post h
theorem portUp {west good} (h : s.PermitSafe) : (s.portUp west good).PermitSafe := .either h h
theorem linkFlag (h : s.PermitSafe) : s.linkFlag.PermitSafe := .unlessThen h fun h => .post h
theorem heartbeatLost (h : s.PermitSafe) : s.heartbeatLost.PermitSafe := .unlessThen h fun h => .whenThen h .linkFlag
theorem pairLinkLost (h : s.PermitSafe) : s.pairLinkLost.PermitSafe := .whenThen h fun h => .of_eq h.linkFlag rfl rfl
theorem takeover (h : s.PermitSafe) : s.takeover.PermitSafe := .whenThen h .takeCrown
theorem leaderLanesLost (h : s.PermitSafe) : s.leaderLanesLost.PermitSafe := .whenThen h .abdicate
theorem abdicateFailed (h : s.PermitSafe) : s.abdicateFailed.PermitSafe := .whenThen h fun h => .post h
theorem reversion {readyS} (h : s.PermitSafe) : (s.reversion readyS).PermitSafe := .whenThen h fun h => .abdicate (.post h)
theorem graceExpired (h : s.PermitSafe) : s.graceExpired.PermitSafe :=
  .unlessThen h fun h => .foldl h fun h => .whenThen h .laneFollow

/-! ### Rows of the feeds, the supervisor, reset and power (R340 to R345, R373, R381 to R390) -/

theorem feedPresent {b mv ms} (h : s.PermitSafe) : (s.feedPresent b mv ms).PermitSafe := .either h (.either h h)
theorem feedsLostBoth (h : s.PermitSafe) : s.feedsLostBoth.PermitSafe := by
  unfold State.feedsLostBoth
  refine .either (.of_eq (s := State.abdicate _ 2) ?_ rfl rfl) (.post h)
  exact .abdicate (.post h)

theorem feedAbsent {b mv us otherMv} (h : s.PermitSafe) : (s.feedAbsent b mv us otherMv).PermitSafe := by
  unfold State.feedAbsent
  dsimp only
  refine .either h (.either h (.either (.feedsLostBoth h) (.either (.feedsLostBoth ?_) ?_)))
  · exact .post (.noteWake h)
  · exact .post (.noteWake h)

theorem feedLossPr (h : s.PermitSafe) : s.feedLossPr.PermitSafe := .either h h
theorem feedRecovery {presentS} (h : s.PermitSafe) : (s.feedRecovery presentS).PermitSafe := .whenThen h .feedNext
theorem feedStartup (h : s.PermitSafe) : s.feedStartup.PermitSafe := .unlessThen h fun h => .feedNext h
theorem testReturn {b cause back pass} (h : s.PermitSafe) : (s.testReturn b cause back pass).PermitSafe :=
  .either h (.either (.post h) (.either h h))

theorem feedTestDone {vmin imax} (h : s.PermitSafe) : (s.feedTestDone vmin imax).PermitSafe := by
  unfold State.feedTestDone
  split
  · exact .feedNext (.testReturn (.feedResult h))
  · exact h

/-- Without power, and after a reset, setting is over: nothing of it is kept (R343, R383). -/
theorem powerLost : s.powerLost.PermitSafe := .of_over rfl rfl rfl
theorem resetKept : s.resetKept.PermitSafe := .of_over rfl rfl rfl
theorem holdupExpired (h : s.PermitSafe) : s.holdupExpired.PermitSafe := .either .powerLost h
theorem resetAssert {lowUs} (h : s.PermitSafe) : (s.resetAssert lowUs).PermitSafe := .either h (.either h .resetKept)

theorem supWatchdog (h : s.PermitSafe) : s.supWatchdog.PermitSafe := .whenThen h fun h => .post h
theorem supStart (h : s.PermitSafe) : s.supStart.PermitSafe := by
  have hc : (s.closeAll 2).PermitSafe := .closeAll h
  unfold State.supStart
  generalize s.closeAll 2 = u at hc ⊢
  exact .either (.post hc) hc
theorem supStarted (h : s.PermitSafe) : s.supStarted.PermitSafe := .whenThen h.supStart fun h => .post h

theorem fwFallback (h : s.PermitSafe) : s.fwFallback.PermitSafe := by
  unfold State.fwFallback
  split
  · exact h
  · exact .either (.post h) h

theorem leaveReset (h : s.PermitSafe) : s.leaveReset.PermitSafe := .post h
theorem powerUp {x} (h : s.PermitSafe) : (s.powerUp x).PermitSafe := .either h (.either h (.startRun (.of_eq h.leaveReset rfl rfl)))
theorem wakeRetry {f} (h : s.PermitSafe) : (s.wakeRetry f).PermitSafe := .whenThen h fun h => .startRun h
theorem resetRelease {held strapped f} (h : s.PermitSafe) : (s.resetRelease held strapped f).PermitSafe :=
  .either (.startRun (.of_eq h.leaveReset rfl rfl)) h

theorem wakeBy {bit f} (h : s.PermitSafe) : (s.wakeBy bit f).PermitSafe := .whenThen h .wakeUp

theorem wakeEvent {w f} (h : s.PermitSafe) : (s.wakeEvent w f).PermitSafe := by
  unfold State.wakeEvent
  refine .unlessThen h fun h => ?_
  split
  · split
    · exact .either (.wakeBy h) h
    · exact h
  · split
    · exact .wakeBy h
    · exact h
  · exact .wakeBy h
  · exact .wakeBy h
  · exact .wakeBy h

/-! ### Rows of the safety kernel (R285 to R309) -/

theorem siChange {n chB level run} (h : s.PermitSafe) : (s.siChange n chB level run).PermitSafe :=
  .either h (.either h (.either h (.either h h)))
theorem siDiscrepancy {n ms} (h : s.PermitSafe) : (s.siDiscrepancy n ms).PermitSafe := .unlessThen h fun h => .post h
theorem ackPress {n ms} (h : s.PermitSafe) : (s.ackPress n ms).PermitSafe := .either h h
theorem kernelTi {n level run} (h : s.PermitSafe) : (s.kernelTi n level run).PermitSafe := .either h h
theorem vioLost {mv ms} (h : s.PermitSafe) : (s.vioLost mv ms).PermitSafe := .whenThen h fun h => .post h
theorem vioPresent {mv ms} (h : s.PermitSafe) : (s.vioPresent mv ms).PermitSafe := .either h h
theorem scsMonitor {xs us} (h : s.PermitSafe) : (s.scsMonitor xs us).PermitSafe :=
  .either h (.either h (.either (.scsEnd h) (.either (.scsEnd h) (.either (.scsEnd h) h))))
theorem linkLost {us} (h : s.PermitSafe) : (s.linkLost us).PermitSafe := .unlessThen h fun h => .scsEnd h
theorem linkRestored {ms} (h : s.PermitSafe) : (s.linkRestored ms).PermitSafe := .either h h
theorem testPreempt {sw} (h : s.PermitSafe) : (s.testPreempt sw).PermitSafe := .of_eq h rfl rfl
theorem testFail {sw mv} (h : s.PermitSafe) : (s.testFail sw mv).PermitSafe := h
theorem switchTest {sw us on pass mv during} (h : s.PermitSafe) : (s.switchTest sw us on pass mv during).PermitSafe :=
  .either h (.either (.testPreempt h) (.either h (.testFail h)))

theorem emitterTest {x fallNs recovered mv during} (h : s.PermitSafe) : (s.emitterTest x fallNs recovered mv during).PermitSafe :=
  .unlessThen h fun h => .either (.of_eq h.switchTest rfl rfl) (.switchTest h)
theorem soTest {x mv vio other during} (h : s.PermitSafe) : (s.soTest x mv vio other during).PermitSafe := .unlessThen h .switchTest
theorem sfPeriodic (h : s.PermitSafe) : s.sfPeriodic.PermitSafe := .either h h
theorem setProducer {a f} (h : s.PermitSafe) : (s.setProducer a f).PermitSafe := h
theorem sfReject {a reason snb} (h : s.PermitSafe) : (s.sfReject a reason snb).PermitSafe := .post h

theorem sfRx {snb p since} (h : s.PermitSafe) : (s.sfRx snb p since).PermitSafe := by
  unfold State.sfRx
  refine .either h (.either (.sfReject h) ?_)
  dsimp only
  split
  · exact h
  · exact .either (.setProducer (.sfReject h)) (.either (.sfReject (.sfReject h)) (.either (.sfReject (.sfReject h)) h))

theorem sfSingle {a} (h : s.PermitSafe) : (s.sfSingle a).PermitSafe := by
  unfold State.sfSingle
  split
  · exact .sfReject h
  · exact h

theorem sfWatch {a us} (h : s.PermitSafe) : (s.sfWatch a us).PermitSafe := .unlessThen h fun h => .post h
theorem startTest {pass item} (h : s.PermitSafe) : (s.startTest pass item).PermitSafe := .either h (.either (.post h) (.post h))
theorem coreMismatch (h : s.PermitSafe) : s.coreMismatch.PermitSafe := h
theorem tickLost {us} (h : s.PermitSafe) : (s.tickLost us).PermitSafe := .either h h
theorem sessionAbort {reason} (h : s.PermitSafe) : (s.sessionAbort reason).PermitSafe := .whenThen h fun h => .post h
theorem keyChange {closed ms} (h : s.PermitSafe) : (s.keyChange closed ms).PermitSafe := .either h (.either h (.sessionAbort h))
theorem soShort {so2 ma} (h : s.PermitSafe) : (s.soShort so2 ma).PermitSafe := .unlessThen h fun h => .testFail h

/-! ### Rows of the host link (R353 to R366) -/

theorem hello {x slot} (h : s.PermitSafe) : (s.hello x slot).PermitSafe := .either h (.either h h)

theorem prove {id mac src} (h : s.PermitSafe) : (s.prove id mac src).PermitSafe := by
  unfold State.prove
  dsimp only
  split
  · exact h
  · exact .either (.post h) (.post h)

theorem dropPending {id} (h : s.PermitSafe) : (s.dropPending id).PermitSafe := h
theorem sessionIdle {id idleS} (h : s.PermitSafe) : (s.sessionIdle id idleS).PermitSafe := .whenThen h .closeSession

theorem frame {id f k} (h : s.PermitSafe) (hk : ∀ {x : Session} {u : State}, u.PermitSafe → (k x u).PermitSafe) : (s.frame id f k).PermitSafe := by
  unfold State.frame
  refine .either h ?_
  split
  · exact h
  · exact .either h (hk h)

theorem enqueue {r cmd} (h : s.PermitSafe) : (s.enqueue r cmd).PermitSafe := by
  unfold State.enqueue
  refine .either h (.either h ?_)
  split
  · exact h
  · exact .either h h

theorem acceptMsg {m op ro cmd} (h : s.PermitSafe) : (s.acceptMsg m op ro cmd).PermitSafe := .frame h .enqueue

theorem emit {o} (h : s.PermitSafe) : (s.emit o).PermitSafe := h

theorem regReadDo {id addr n} (h : s.PermitSafe) : (s.regReadDo id addr n).PermitSafe := by
  unfold State.regReadDo
  dsimp only
  split
  · exact .accessErr (.either h h)
  · exact .either h h

theorem regRead {id f addr n} (h : s.PermitSafe) : (s.regRead id f addr n).PermitSafe :=
  .either (.either h (.either h (.either (.regReadDo h) h))) (.frame h fun h => .either (.regReadDo h) (.emit h))

theorem doorbell {x v} (h : s.PermitSafe) : (s.doorbell x v).PermitSafe := .either h h
theorem regWrite {id f addr v} (h : s.PermitSafe) : (s.regWrite id f addr v).PermitSafe :=
  .frame h fun h => .either (.doorbell h) (.either h (.either (.accessErr h) h))

theorem resend {x} (h : s.PermitSafe) : (s.resend x).PermitSafe := by
  unfold State.resend
  split
  · exact h
  · exact h

theorem discardResp {mb} (h : s.PermitSafe) : (s.discardResp mb).PermitSafe := by
  unfold State.discardResp
  split
  · exact .post h
  · exact h

theorem entryBound {e} (h : s.PermitSafe) : (s.entryBound e).PermitSafe := .wakeAnswer (.psReply (.entryUndo h))

theorem cmdBound {mb} (h : s.PermitSafe) : (s.cmdBound mb).PermitSafe := by
  unfold State.cmdBound
  split
  · exact .reply h
  · split
    · exact .whenThen h .entryBound
    · exact h
  · exact h

theorem badFrame {why} (h : s.PermitSafe) : (s.badFrame why).PermitSafe := by
  cases why with
  | _ => exact h
end State.PermitSafe

/-! ### Commands -/

/-- What a command answers keeps the invariant: its next state does, where it has one. -/
def KeepsPermitSafe (o : Host.Outcome State Fault Refusal) : Prop := ∀ t, o = .next t → t.PermitSafe

namespace KeepsPermitSafe

variable {s t : State} {ok : Bool} {f : State → State}

theorem guarded (h : t.PermitSafe) : KeepsPermitSafe (guarded ok t) := by
  intro u hu
  cases ok with
  | true => cases hu; exact h
  | false => cases hu

theorem unlessReset (h : s.PermitSafe) (hf : ∀ {u : State}, u.PermitSafe → (f u).PermitSafe) : (s.unlessReset f).PermitSafe :=
  .either h (hf h)

theorem runSafe (h : s.PermitSafe) (hf : ∀ {u : State}, u.PermitSafe → (f u).PermitSafe) : KeepsPermitSafe (runSafe ok s f) :=
  .guarded (unlessReset h fun h => .settle (hf h))

theorem runHost (h : s.PermitSafe) (hf : ∀ {u : State}, u.PermitSafe → (f u).PermitSafe) : KeepsPermitSafe (runHost ok s f) :=
  .guarded (unlessReset h fun h => .settle (.pump (hf h)))

theorem runAlways (h : s.PermitSafe) (hf : ∀ {u : State}, u.PermitSafe → (f u).PermitSafe) : KeepsPermitSafe (runAlways ok s f) :=
  .guarded (.unlessThen (hf (u := s.clearOut) h) .settle)

theorem hostMsg {m op ro cmd} (h : s.PermitSafe) : KeepsPermitSafe (hostMsg s m op ro cmd) := .runHost h .acceptMsg

/-- A row that acts when it is due. -/
theorem runDue {due : State → Bool} (h : s.PermitSafe) (hf : ∀ {u : State}, due u = true → u.PermitSafe → (f u).PermitSafe) :
    KeepsPermitSafe (Machine.runSafe ok s fun s => s.whenDue (due s) f) := .runSafe h fun h => .whenDue h hf

end KeepsPermitSafe

/-- Every command keeps the invariant. -/
theorem exec_keepsPermitSafe {s : State} (h : s.PermitSafe) (i : Instr) : KeepsPermitSafe (exec i s) := by
  cases i <;> dsimp only [exec]
  -- the tick
  case tickEdge => exact .runDue h fun _ => .tickAll
  -- control
  case prechargeComplete => exact .runSafe h .prechargeDone
  case frtStart => exact .runDue h fun _ => .frtBegin
  case frtEnd => exact .runDue h fun _ => .frtEnd
  case dcfDetect => exact .runDue h fun _ => .dcfDetect
  case dcfRearm => exact .runDue h fun _ => .dcfRearm
  case dcfEnd => exact .runDue h fun _ => .dcfEnd
  case enrgEnd => exact .runDue h fun _ => .enrgEnd
  case gtCoastStart => exact .runDue h fun _ => .gtCoast
  case gtAcquireStart => exact .runDue h .gtAcquire
  case gtReacquired => exact .runDue h fun _ => .reacquire
  case cellStale => exact .runDue h fun _ => .cellStale
  case cellLost => exact .runSafe h fun h => .whenDue h fun _ => .retire
  case setPermit => exact .runDue h .permitGiven
  case setTimeout => exact .runDue h fun _ => .setAbort
  case limEdge => exact .runDue h fun _ => .limEdge
  case limQuietExpired => exact .runSafe h fun h => .whenDue h fun _ h => h
  case tripEdge => exact .runSafe h fun h => .tripWake (.tripEdge h)
  case tripInactiveEdge => exact .runSafe h .tripInactive
  -- the escapement, the scheduler, the chronograph and the log
  case engineResidueError => exact .runSafe h .residueError
  case engineSignatureError => exact .runSafe h .signatureError
  case migrateEnd => exact .runSafe h .migrateEnd
  case spareFault => exact .runSafe h .spareFault
  case coefGroupApply => exact .runSafe h .groupStep
  case tableSwapApply => exact .runSafe h .swapStep
  case tableVerifyDone => exact .runSafe h .verifyDone
  case schedActionDue => exact .runSafe h .schedDue
  case chrRecordDone => exact .runSafe h .recordDone
  case chrHoldoffExpired => exact .runSafe h .holdoffExpired
  case logWindowEnd => exact .runDue h fun _ => .logWindowEnd
  -- measurement
  case windowBoundary => exact .runDue h fun _ h => .windowStarts (.boundary h)
  case windowResult => exact .runDue h fun _ => .windowResult
  case fallbackPowerUp => exact .runSafe h .fbPowerUp
  case vanaLost => exact .runSafe h fun h => .vanaWake (.vanaLost h)
  case vanaPresent => exact .runSafe h fun h => .either (.vanaPresent h) (.vanaWake (.anaRail (.vanaPresent h)))
  case vanaLowChange => exact .runSafe h .vanaLowChange
  case refMonitorCheck => exact .runSafe h fun h => .whenThen h .refCheck
  case vanaOrder => exact .runSafe h .vanaOrder
  -- lanes
  case uplinkFrameRx => exact .runSafe h .uplinkBlocks
  case laneDelaySet => exact .runSafe h .delaySet
  case laneRxTimeout => exact .runSafe h .rxTimeout
  case delayStep => exact .runSafe h .delayStep
  -- the regulator and time
  case refLoss => exact .runSafe h .refLoss
  case refGood => exact .runSafe h .refGood
  case regLockDeclared => exact .runSafe h fun h => .unlessThen h .lockDeclared
  case regSlip => exact .runSafe h .slip
  case lockLossDeclared => exact .runSafe h .lockLoss
  case rampStart => exact .runSafe h .rampStart
  case ptpSyncRx => exact .runSafe h .ptpSync
  case ptpAnnounceRx => exact .runSafe h .ptpAnnounce
  case ptpPdelayReqRx => exact .runSafe h .pdelayReq
  case ptpPdelayRespRx | ptpDelayRespRx => exact .runSafe h .delayResp
  case ptpDelayReqTx => exact .runSafe h .delayReqTx
  case ptpSyncTimeout => exact .runSafe h .syncTimeout
  case ptpAnnounceTimeout => exact .runSafe h .announceTimeout
  case ptpMasterTx => exact .runSafe h .masterTx
  case ptpManagementRx => exact .runSafe h .management
  case holdoverExpired => exact .runSafe h .holdoverExpired
  -- the train and the pair
  case trainFrameRx => exact .runSafe h .trainFrame
  case trainHeartbeatRx => exact .runSafe h .heartbeat
  case trainJoinRx => exact .runSafe h .trainJoin
  case trainGrantRx => exact .runSafe h .trainGrant
  case trainArmRx => exact .runSafe h .trainArm
  case trainDisarmRx => exact .runSafe h .trainDisarm
  case trainFireRx => exact .runSafe h .trainFire
  case trainPortDown => exact .runSafe h .portDown
  case trainPortUp => exact .runSafe h .portUp
  case ringClosed => exact .runSafe h .ringClosed
  case actingRoot => exact .runSafe h .actingRoot
  case heartbeatLost => exact .runSafe h .heartbeatLost
  case pairLinkLost => exact .runSafe h .pairLinkLost
  case takeover => exact .runSafe h .takeover
  case leaderLanesLost => exact .runSafe h .leaderLanesLost
  case abdicateFailed => exact .runSafe h .abdicateFailed
  case reversion => exact .runSafe h .reversion
  case shadowGraceExpired => exact .runSafe h .graceExpired
  -- feeds, the supervisor, reset and power
  case feedPresent => exact .runAlways h .feedPresent
  case feedAbsent => exact .runAlways h .feedAbsent
  case feedLossPrDelay => exact .runAlways h .feedLossPr
  case holdupExpired => exact .runAlways h .holdupExpired
  case feedRecoveryTest => exact .runAlways h .feedRecovery
  case feedStartupTest => exact .runAlways h .feedStartup
  case feedTestDone => exact .runAlways h .feedTestDone
  case supWatchdogExpiry => exact .runSafe h .supWatchdog
  case supStart => exact .runSafe h fun h => .whenThen h .supStarted
  case fwFallback => exact .runSafe h .fwFallback
  case powerUp => exact .runAlways h .powerUp
  case wakeRetry => exact .runSafe h .wakeRetry
  case resetAssert => exact .runAlways h .resetAssert
  case resetRelease => exact .runAlways h .resetRelease
  case wakeEvent => exact .runSafe h .wakeEvent
  -- the safety kernel
  case safetyInputChange => exact .runSafe h .siChange
  case siDiscrepancy => exact .runSafe h .siDiscrepancy
  case restartAckPress => exact .runSafe h .ackPress
  case kernelTiChange => exact .runSafe h .kernelTi
  case vioLost => exact .runSafe h .vioLost
  case vioPresent => exact .runSafe h .vioPresent
  case scsMonitorCheck => exact .runSafe h .scsMonitor
  case sampleLinkLost => exact .runSafe h .linkLost
  case sampleLinkRestored => exact .runSafe h .linkRestored
  case emitterTest => exact .runSafe h .emitterTest
  case soTest => exact .runSafe h .soTest
  case sfPeriodicTx => exact .runSafe h .sfPeriodic
  case sfFrameRx => exact .runSafe h .sfRx
  case sfAcceptTimeout => exact .runSafe h .sfSingle
  case sfWatchdog => exact .runSafe h .sfWatch
  case startTestDone => exact .runSafe h .startTest
  case coreMismatch => exact .runSafe h .coreMismatch
  case tickMissing => exact .runSafe h .tickLost
  case safetyKeyChange => exact .runSafe h .keyChange
  case sessionInactivity => exact .runSafe h fun h => .unlessThen h .sessionAbort
  case soOvercurrent => exact .runSafe h .soShort
  -- the host link
  case hello => exact .runHost h fun h => .whenThen h .hello
  case prove => exact .runHost h fun h => .whenThen h .prove
  case proveTimeout => exact .runHost h fun h => .whenThen h .dropPending
  case hlSessionTimeout => exact .runHost h .sessionIdle
  case hlClose => exact .runHost h fun h => .frame h .closeSession
  case hlRxBadFrame => exact .runHost h fun h => .whenThen h .badFrame
  case regRead => exact .runHost h .regRead
  case regWriteOther | doorbellAck | doorbellFlush => exact .runHost h .regWrite
  case mbRespRetransmit => exact .runHost h fun h => .whenThen h .resend
  case mbRespDiscard => exact .runHost h fun h => .whenThen h .discardResp
  case mbCmdBound => exact .runHost h .cmdBound
  case tableLoadAbandon => exact .runHost h fun h => h
  case pstateReqSleep | pstateReqLevel => exact .runHost h fun h => .acceptMsg (.fresh h)
  case pstateReqWake => exact .runHost h .acceptMsg
  -- every other command is a message of a mailbox
  all_goals exact .hostMsg h

/-- A step keeps the invariant: it runs a command on the queue's rest, or idles. -/
theorem step_permitSafe {s t : State} (h : s.PermitSafe) (hs : step s = .next t) : t.PermitSafe := by
  unfold step at hs
  split at hs
  · cases hs
    exact h
  · next i rest _ =>
    have hr : ({ s with pending := rest } : State).PermitSafe := h
    exact exec_keepsPermitSafe hr i t hs

/-- Settles O6: the invariant is kept by every step (`step_permitSafe`), and in a state that keeps it out of LOCKED setting is over. -/
theorem permitNeedsALockedTracker : Obligations.PermitNeedsALockedTracker := by
  unfold Obligations.PermitNeedsALockedTracker
  intro s t h hs
  have ht : t.PermitSafe := step_permitSafe h hs
  exact ⟨ht.1, ht.2, fun _ hg => ht.over_of_unlocked hg⟩

end Sys2Proof.Machine
end

section
/-!
PROOF. A producer's watchdog (R306): what the three rows of a producer's account do to it (a watchdog that expires, a copy that completes an
accepted pair, a copy that is discarded), and when a watchdog stands among the sources of demands.
-/
namespace Sys2Proof.Machine

/-! ### What the end of a command leaves alone -/

namespace Ends

variable {f t : State}

theorem conv_eq (h : Ends f t) : t.conv = f.conv := by rw [h.frame]; rfl
theorem objs_eq (h : Ends f t) : t.objs = f.objs := by rw [h.frame]; rfl
theorem producer_eq (h : Ends f t) (a : Nat) : t.producer a = f.producer a := by rw [h.frame]; rfl
theorem demandSources_eq (h : Ends f t) : t.demandSources = f.demandSources := by
  rw [h.frame]
  exact (State.ended_demands f t).1

end Ends

/-! ### A producer's account -/

theorem State.producer_setProducer_same (s : State) {a : Nat} (g : Producer → Producer) (ha : a < s.saf.producers.length) :
    (s.setProducer a g).producer a = g (s.producer a) := getD_modify_same _ _ _ _ ha

@[simp] theorem State.setProducer_length (s : State) (a : Nat) (g : Producer → Producer) :
    (s.setProducer a g).saf.producers.length = s.saf.producers.length := by simp [State.setProducer, modifyAt]

@[simp] theorem State.setProducer_cfgN (s : State) (a : Nat) (g : Producer → Producer) (i : Nat) : (s.setProducer a g).cfgN i = s.cfgN i := rfl

@[simp] theorem State.post_producer (s : State) (c i : Nat) (d : List Byte) (a : Nat) : (s.post c i d).producer a = s.producer a := by
  simp [State.producer]

@[simp] theorem State.post_isProducer (s : State) (c i : Nat) (d : List Byte) (a : Nat) : (s.post c i d).isProducer a = s.isProducer a := by
  unfold State.isProducer
  rw [State.cfgN_congr (State.post_objs s c i d)]

/-- A discarded copy starts the count of accepted pairs anew and changes nothing else of its producer's account (R306). -/
theorem State.producer_sfReject_same (s : State) {a : Nat} (reason : Nat) (b : Bool) (ha : a < s.saf.producers.length) :
    (s.sfReject a reason b).producer a = { s.producer a with good := 0 } := by
  unfold State.sfReject
  rw [State.post_producer]
  exact State.producer_setProducer_same _ _ ha

/-! ### The module still runs -/

namespace State.Awake

variable {s : State}

theorem setProducer {a g} (h : s.Awake) : (s.setProducer a g).Awake := h

theorem post {c i d} (h : s.Awake) : (s.post c i d).Awake := by
  unfold State.Awake at h ⊢
  rwa [State.post_pwr, State.post_reg, State.post_saf]

theorem sfReject {a reason b} (h : s.Awake) : (s.sfReject a reason b).Awake := .post (.setProducer h)

end State.Awake

/-! ### A watchdog among the sources of demands (R287, R306) -/

/-- A producer's watchdog is a source of demands exactly while it acts: of the six lists of sources only the watchdogs' has kind 3. -/
theorem State.watchdog_mem_demandSources (s : State) (a : Nat) :
    (3, a, 0) ∈ s.demandSources ↔ a < 32 ∧ s.isProducer a = true ∧ (s.producer a).watchdog = true := by
  simp [State.demandSources, and_assoc]

theorem State.prDemand_of_mem {s : State} {k n : Nat} (h : (k, n, 0) ∈ s.demandSources) : s.prDemand = true := by
  have : (s.demandSources.any fun d => d.2.2 = 0) = true := List.any_eq_true.mpr ⟨_, h, by simp⟩
  simp [State.prDemand, this]

theorem State.watchdogActs_of_watchdog {s : State} (a : Fin 32) (hp : s.isProducer a.val = true) (hw : (s.producer a.val).watchdog = true) :
    s.watchdogActs = true :=
  List.any_eq_true.mpr ⟨a.val, List.mem_range.mpr a.isLt, by simp [hp, hw]⟩

/-! ### The watchdog's row -/

/-- The watchdog of producer `a` has expired: it demands PR, is counted and logged (R306). -/
def State.watchdogExpired (s : State) (a : Nat) : State :=
  let w : State := s.setProducer a fun x => { x with watchdog := true, good := 0 }
  State.post { w with saf := { w.saf with wdCount := s.saf.wdCount + 1 } } 0x2907 a (beBytes 4 (s.producer a).seq)

theorem State.sfWatch_expired {s : State} {a us : Nat} (ha : a < s.saf.producers.length) (hp : s.isProducer a = true)
    (hus : s.cfgN Obj.SF_WATCHDOG ≤ us) (hw : (s.producer a).watchdog = false) : s.sfWatch a us = s.watchdogExpired a := by
  have hseq : ((s.setProducer a fun x => { x with watchdog := true, good := 0 }).producer a).seq = (s.producer a).seq := by
    rw [State.producer_setProducer_same s _ ha]
  unfold State.sfWatch State.watchdogExpired
  rw [if_neg (by simp [hp, hus, hw])]
  exact congrArg (fun n => State.post _ 0x2907 a (beBytes 4 n)) hseq

theorem State.sfWatch_idle {s : State} {a us : Nat}
    (h : s.isProducer a = false ∨ us < s.cfgN Obj.SF_WATCHDOG ∨ (s.producer a).watchdog = true) : s.sfWatch a us = s := by
  unfold State.sfWatch
  rw [if_pos]
  simpa [or_assoc] using h

theorem State.producer_watchdogExpired (s : State) {a : Nat} (ha : a < s.saf.producers.length) :
    (s.watchdogExpired a).producer a = { s.producer a with watchdog := true, good := 0 } := by
  unfold State.watchdogExpired
  rw [State.post_producer]
  exact State.producer_setProducer_same s _ ha

@[simp] theorem State.watchdogExpired_isProducer (s : State) (a b : Nat) : (s.watchdogExpired a).isProducer b = s.isProducer b :=
  State.post_isProducer _ _ _ _ _

theorem State.Awake.watchdogExpired {s : State} {a : Nat} (h : s.Awake) : (s.watchdogExpired a).Awake := .post h

/-! ### A copy that completes an accepted pair -/

/-- The copy `p` of one network completes an accepted pair with the waiting copy `q` of the other (R305). -/
structure State.Accepts (s : State) (snb : Bool) (p q : List Byte) (since : Nat) : Prop where
  src : sfSrc p < 32
  listed : s.isProducer (sfSrc p) = true
  crc : sfByte p 32 4 = (s.sfCrc p).toNat
  waits : (s.producer (sfSrc p)).waiting = [(!snb, q)]
  agree : sfMasked q = sfMasked p
  seq : sfSeq q = sfSeq p
  within : since ≤ s.cfgN Obj.SF_ACCEPT_WIN
  ahead : (s.producer (sfSrc p)).ahead (sfBoot p) (sfSeq p) = true

/-- The pair leaves the waiting copies and sets its producer's demands. -/
def State.pairTaken (s : State) (p : List Byte) (w : Bool × List Byte) : State :=
  (s.setProducer (sfSrc p) fun x => { x with waiting := x.waiting.erase w }).setProducer (sfSrc p) fun x => x.take p (s.cfgN Obj.SF_GROUPS)

theorem State.Accepts.sfRx_eq {s : State} {snb : Bool} {p q : List Byte} {since : Nat} (h : s.Accepts snb p q since) :
    s.sfRx snb p since = s.pairTaken p (!snb, q) := by
  obtain ⟨hsrc, hp, hcrc, hw, hm, hseq, hus, ha⟩ := h
  have hfind : ((s.producer (sfSrc p)).waiting.find? fun w => w.1 != snb && sfSeq w.2 == sfSeq p) = some (!snb, q) := by
    simp [hw, hseq]
  simp [State.sfRx, State.pairTaken, hp, hcrc, hfind, hm, ha, Nat.not_le.mpr hsrc, Nat.not_lt.mpr hus]

theorem State.producer_pairTaken {s : State} {p : List Byte} (w : Bool × List Byte) (ha : sfSrc p < s.saf.producers.length) :
    (s.pairTaken p w).producer (sfSrc p) =
      Producer.take { s.producer (sfSrc p) with waiting := (s.producer (sfSrc p)).waiting.erase w } p (s.cfgN Obj.SF_GROUPS) := by
  unfold State.pairTaken
  rw [State.producer_setProducer_same _ _ (by rwa [State.setProducer_length]), State.producer_setProducer_same _ _ ha]

/-- The third accepted pair in a row ends the watchdog's demand; no pair begins one (R306). -/
theorem Producer.take_watchdog (x : Producer) (p : List Byte) (groups : Nat) :
    (x.take p groups).watchdog = (x.watchdog && decide (x.good < 2)) := by
  simp [Producer.take, Nat.succ_lt_succ_iff]

/-- The pairs before the third are counted. -/
theorem Producer.take_good {x : Producer} (p : List Byte) (groups : Nat) (h : x.good < 2) : (x.take p groups).good = x.good + 1 := by
  have : ¬3 ≤ x.good + 1 := by omega
  simp [Producer.take, this]

/-! ### The commands -/

section
variable {s : State} (hs : s.Awake)
include hs

theorem does_sfWatchdog_expired (a : Fin 32) {us : Nat} (ha : a.val < s.saf.producers.length) (hp : s.isProducer a.val = true)
    (hus : s.cfgN Obj.SF_WATCHDOG ≤ us) (hw : (s.producer a.val).watchdog = false) :
    Does (.sfWatchdog a us) s (s.clearOut.watchdogExpired a.val) :=
  does_safe hs rfl (State.sfWatch_expired (s := s.clearOut) ha hp hus hw) (.watchdogExpired (State.clearOut_awake hs))

theorem idles_sfWatchdog (a : Fin 32) {us : Nat}
    (h : s.isProducer a.val = false ∨ us < s.cfgN Obj.SF_WATCHDOG ∨ (s.producer a.val).watchdog = true) : Idles (.sfWatchdog a us) s :=
  does_safe hs rfl (State.sfWatch_idle (s := s.clearOut) h) (State.clearOut_awake hs)

theorem does_sfFrameRx_accepted {snb : Bool} {p q : List Byte} {since : Nat} (hwf : p.length = 46) (h : s.Accepts snb p q since) :
    Does (.sfFrameRx snb p since) s (s.clearOut.pairTaken p (!snb, q)) := by
  have hok : Instr.wf (.sfFrameRx snb p since) = true := decide_eq_true hwf
  have hexec : exec (.sfFrameRx snb p since) s = runSafe true s fun u => u.sfRx snb p since := by
    rw [← hok]
    rfl
  have hacc : s.clearOut.Accepts snb p q since := { h with }
  exact does_safe hs hexec hacc.sfRx_eq (State.clearOut_awake hs)

theorem does_sfAcceptTimeout_waiting (a : Fin 32) {w : Bool × List Byte} {ws : List (Bool × List Byte)}
    (hw : (s.producer a.val).waiting = w :: ws) :
    Does (.sfAcceptTimeout a) s ((s.clearOut.setProducer a.val fun x => { x with waiting := ws }).sfReject a.val 0 w.1) := by
  refine does_safe hs rfl ?_ (.sfReject (State.clearOut_awake hs))
  have : (s.clearOut.producer a.val).waiting = w :: ws := hw
  simp only [State.sfSingle, this]

end

/-- Settles O52: an expired watchdog is `does_sfWatchdog_expired`, and then it is a source of demands (`State.watchdog_mem_demandSources`); an
accepted pair counts and the third ends it (`Producer.take_watchdog`); a discarded copy starts the count anew (`State.producer_sfReject_same`). -/
theorem watchdogDemandsAndEnds : Obligations.WatchdogDemandsAndEnds := by
  unfold Obligations.WatchdogDemandsAndEnds
  intro s a hs hlen
  have ha : a.val < s.saf.producers.length := by omega
  refine ⟨fun us hp hus hw => ?expires, fun us h => idles_sfWatchdog hs a h, fun b p us hp hwf hsrc hcrc q hw hm hseq hus hahead => ?accepted,
    fun w ws hw => ?discarded⟩
  case expires =>
    have hx := State.producer_watchdogExpired s.clearOut ha
    have hwd : ((s.clearOut.watchdogExpired a.val).producer a.val).watchdog = true := by rw [hx]
    have hpr : (s.clearOut.watchdogExpired a.val).isProducer a.val = true := by rw [State.watchdogExpired_isProducer]; exact hp
    exact ⟨does_sfWatchdog_expired hs a ha hp hus hw,
      State.prDemand_of_mem ((State.watchdog_mem_demandSources _ _).mpr ⟨a.isLt, hpr, hwd⟩), State.watchdogActs_of_watchdog a hpr hwd⟩
  case accepted =>
    rw [← hsrc] at hp hw hahead ha ⊢
    obtain ⟨t, ht, he⟩ := does_sfFrameRx_accepted hs hwf ⟨hsrc ▸ a.isLt, hp, hcrc, hw, hm, hseq, hus, hahead⟩
    have hx := (he.producer_eq (sfSrc p)).trans (State.producer_pairTaken (s := s.clearOut) (!b, q) ha)
    refine ⟨t, ht, ?_, fun _ hg => ?_, fun hoff hmem => ?_, he.conv_eq, he.objs_eq⟩
    · rw [hx, Producer.take_watchdog]; rfl
    · rw [hx]
      exact Producer.take_good _ _ hg
    · obtain ⟨_, _, hon⟩ := (State.watchdog_mem_demandSources t _).mp hmem
      simp [hoff] at hon
  case discarded =>
    obtain ⟨t, ht, he⟩ := does_sfAcceptTimeout_waiting hs a hw
    have hx := (he.producer_eq a.val).trans (State.producer_sfReject_same _ 0 w.1 (by rwa [State.setProducer_length]))
    rw [State.producer_setProducer_same s.clearOut _ ha] at hx
    exact ⟨t, ht, by rw [hx], by rw [hx]; rfl⟩

end Sys2Proof.Machine
end

section
/-!
PROOF. The reversion of a pair (R337): when a leader reverts, that it abdicates then and does nothing otherwise, and that the reversion and
its failure both start the next wait.
-/
namespace Sys2Proof.Machine

/-! ### When a reversion is due -/

/-- All that a reversion waits for (R337): the configuration and the partner's rank, a leader that may abdicate (R335), no SCS, and a whole
PAIR_REVERT_DELAY both of the partner's readiness and since the reversion or failure before it. -/
structure State.ReversionDue (s : State) (readyS : Nat) : Prop where
  enabled : s.cfgB Obj.PAIR_REVERT = true
  unpreferred : s.cfgB Obj.PAIR_PREFERRED = false
  partnerPreferred : hbPreferred s.pair.partner = true
  leads : s.pair.role = .leader
  reigns : s.pair.abdicating = false
  partnerReady : s.partnerReady = true
  notPr : s.conv.state ≠ .pr
  notScs : s.conv.state ≠ .scs
  readyLong : s.cfgN Obj.PAIR_REVERT_DELAY ≤ readyS
  rested : ∀ t, s.pair.revertFrom = some t → t + s.revertTicks ≤ s.nextTick

theorem State.reversion_of_due {s : State} {readyS : Nat} (h : s.ReversionDue readyS) :
    s.reversion readyS = (s.post 0x2A19 noInst []).abdicate 3 := by
  obtain ⟨hon, hme, hother, hrole, habd, hready, hpr, hscs, hlong, hrest⟩ := h
  have hpending : s.revertPending = true := by simp [State.revertPending, hon, hme, hother, hrole, habd, hready]
  have hmay : s.mayAbdicate = true := by simp [State.mayAbdicate, hrole, habd, hready, hpr]
  unfold State.reversion
  cases hfrom : s.pair.revertFrom with
  | none => simp [hpending, hmay, hscs, hlong]
  | some t => simp [hpending, hmay, hscs, hlong, hrest t hfrom]

theorem State.reversion_of_not_due {s : State} {readyS : Nat} (h : ¬s.ReversionDue readyS) : s.reversion readyS = s := by
  unfold State.reversion
  refine if_neg fun hguard => h ?_
  simp only [State.revertPending, State.mayAbdicate, Bool.and_eq_true, Bool.not_eq_true', decide_eq_true_eq] at hguard
  obtain ⟨⟨⟨⟨⟨⟨⟨⟨⟨hon, hme⟩, hother⟩, hrole⟩, habd⟩, hready⟩, _, hpr⟩, hscs⟩, hlong⟩, hrest⟩ := hguard
  refine ⟨hon, hme, hother, hrole, habd, hready, hpr, hscs, hlong, fun t hfrom => ?_⟩
  simpa [hfrom] using hrest

/-! ### What a reversion and a failed abdication do -/

/-- A reversion abdicates, and the next one waits from this tick on (R335, R337). -/
def State.reverted (s : State) : State :=
  State.post { s.post 0x2A19 noInst [] with pair := { s.pair with
    abdicating := true, crown := false, abdicateTick := s.nextTick, abdicateFeeds := false, abdicateRevert := true
    revertFrom := some s.nextTick } } 0x2A12 noInst [3]

theorem State.abdicate_reversion (s : State) : (s.post 0x2A19 noInst []).abdicate 3 = s.reverted := by
  simp [State.abdicate, State.reverted, State.nextTick]

/-- Nobody has taken the crown that the leader laid down: it takes it back, and a reversion waits from tick `start` on (R335, R337). -/
def State.crownTakenBack (s : State) (start : Option Nat) : State :=
  State.post { s with pair := { s.pair with abdicating := false, crown := true, revertFrom := start } } 0x2A13 noInst []

/-- The tick from which the next reversion waits after an abdication without an answer: this one if that was a reversion (R337). -/
def State.revertRestart (s : State) : Option Nat := if s.pair.abdicateRevert then some s.nextTick else s.pair.revertFrom

theorem State.abdicateFailed_of_due {s : State} (habd : s.pair.abdicating = true) (hfeeds : s.pair.abdicateFeeds = false)
    (hdue : s.pair.abdicateTick + 64 ≤ s.nextTick) : s.abdicateFailed = s.crownTakenBack s.revertRestart := by
  unfold State.abdicateFailed
  exact if_pos (by simp [habd, hfeeds, hdue])

namespace State.Awake

variable {s : State}

theorem withPair (p : Pair) (h : s.Awake) : ({ s with pair := p } : State).Awake := h
theorem reverted (h : s.Awake) : s.reverted.Awake := .post (.withPair _ (.post h))
theorem crownTakenBack {start} (h : s.Awake) : (s.crownTakenBack start).Awake := .post (.withPair _ h)

end State.Awake

/-! ### The commands -/

section
variable {s : State} (hs : s.Awake)
include hs

theorem does_reversion {readyS : Nat} (h : s.ReversionDue readyS) : Does (.reversion readyS) s s.clearOut.reverted := by
  have hdue : s.clearOut.ReversionDue readyS := { h with }
  exact does_safe hs rfl ((State.reversion_of_due hdue).trans (State.abdicate_reversion _)) (.reverted (State.clearOut_awake hs))

theorem idles_reversion {readyS : Nat} (h : ¬s.ReversionDue readyS) : Idles (.reversion readyS) s := by
  have hdue : ¬s.clearOut.ReversionDue readyS := fun hd => h { hd with }
  exact does_safe hs rfl (State.reversion_of_not_due hdue) (State.clearOut_awake hs)

theorem does_abdicateFailed (habd : s.pair.abdicating = true) (hfeeds : s.pair.abdicateFeeds = false)
    (hdue : s.pair.abdicateTick + 64 ≤ s.nextTick) : Does .abdicateFailed s (s.clearOut.crownTakenBack s.revertRestart) :=
  does_safe hs rfl (State.abdicateFailed_of_due (s := s.clearOut) habd hfeeds hdue) (.crownTakenBack (State.clearOut_awake hs))

end

/-- Settles O42: a due reversion is `does_reversion`, each case of the second part lacks one condition of `State.ReversionDue`
(`idles_reversion`), and a failed one is `does_abdicateFailed`. -/
theorem reversionWaitsItsDelay : Obligations.ReversionWaitsItsDelay := by
  unfold Obligations.ReversionWaitsItsDelay
  intro s hs
  refine ⟨fun readyS hon hme hother hrole habd hready hpr hscs hlong hrest => ?reverts, fun readyS hlacks => ?waits,
    fun hrevert habd hfeeds hdue => ?fails⟩
  case reverts => exact does_reversion hs ⟨hon, hme, hother, hrole, habd, hready, hpr, hscs, hlong, hrest⟩
  case waits =>
    refine idles_reversion hs fun h => ?_
    obtain hon | hme | hother | hrole | hready | hscs | hshort | ⟨t, hfrom, hearly⟩ := hlacks
    · exact absurd h.enabled (by simp [hon])
    · exact absurd h.unpreferred (by simp [hme])
    · exact absurd h.partnerPreferred (by simp [hother])
    · exact hrole h.leads
    · exact absurd h.partnerReady (by simp [hready])
    · exact h.notScs hscs
    · exact absurd h.readyLong (Nat.not_le.mpr hshort)
    · exact absurd (h.rested t hfrom) (Nat.not_le.mpr hearly)
  case fails =>
    have hstart : s.revertRestart = some s.nextTick := if_pos hrevert
    exact hstart ▸ does_abdicateFailed hs habd hfeeds hdue

end Sys2Proof.Machine
end

section
/-!
PROOF. How a command runs, and what every command keeps: the queue of the commands behind it, the one form of the store of objects (R18) and the
order of the tick numbers (R14, R242); and what the end of every command leaves of demands, switches and safety frames (R287, R293, R303).
-/
namespace Sys2Proof.Machine

/-! ### What an effect keeps -/

/-- How the command `c` may move the tick counter from `a` to `b`: TICK_EDGE begins the next tick, the end of the hold-up leaves none, and
nothing else moves it but by the number of the next tick (R14, R242, R343). -/
def Tick.Goes (c : Instr) (a b : Tick) : Prop :=
  a.Stays b ∨ ((∃ x, c = .tickEdge x) ∧ Tick.Stays { now := a.next, next := a.next + 1, started := true } b) ∨
    (c = .holdupExpired ∧ b.started = false)

/-- What the effect `f` of the command `c` keeps of the queue, the store of objects and the tick counter. -/
structure Keeps (c : Instr) (f : State → State) : Prop where
  pending : ∀ s, (f s).pending = s.pending
  objs : ∀ s, objsWf s.objs = true → objsWf (f s).objs = true
  tick : ∀ s, Tick.Goes c s.tick (f s).tick

namespace Keeps

variable {c : Instr} {f g : State → State}

theorem of_stays (hp : ∀ s, (f s).pending = s.pending) (ho : ∀ s, objsWf s.objs = true → objsWf (f s).objs = true)
    (ht : ∀ s : State, s.tick.Stays (f s).tick) : Keeps c f := ⟨hp, ho, fun s => .inl (ht s)⟩

theorem of_frame (h : ∀ s, (f s).pending = s.pending ∧ (f s).tick = s.tick ∧ (f s).objs = s.objs) : Keeps c f :=
  .of_stays (fun s => (h s).1) (fun s hs => by rwa [(h s).2.2]) fun s => by rw [(h s).2.1]; exact Tick.stays_rfl _

theorem idle : Keeps c fun s => s := .of_frame fun _ => ⟨rfl, rfl, rfl⟩

theorem ite {p : State → Prop} [∀ s, Decidable (p s)] (hf : Keeps c f) (hg : Keeps c g) : Keeps c fun s => if p s then f s else g s where
  pending s := by
    split
    · exact hf.pending s
    · exact hg.pending s
  objs s h := by
    split
    · exact hf.objs s h
    · exact hg.objs s h
  tick s := by
    split
    · exact hf.tick s
    · exact hg.tick s

end Keeps

/-! ### The tick edge and the end of the hold-up -/

theorem State.atEdge_tick (s : State) : s.atEdge.tick = { now := s.tick.next, next := s.tick.next + 1, started := true } := by
  simp [State.atEdge, State.numberTick]

theorem State.tickAll_stays (s : State) (x : TickInputs) :
    Tick.Stays { now := s.tick.next, next := s.tick.next + 1, started := true } (s.tickAll x).tick := by
  unfold State.tickAll
  refine State.endTick_stays _ _ ?_
  rw [(State.beats_frame _ _).2, State.atEdge_tick]
  exact Tick.stays_rfl _

theorem keeps_tickEdge (x : TickInputs) : Keeps (.tickEdge x) fun s => s.whenDue true fun s => s.tickAll x where
  pending s := by simp
  objs s h := by simp [h]
  tick s := by
    unfold State.whenDue
    split
    · exact .inr (.inl ⟨⟨x, rfl⟩, s.tickAll_stays x⟩)
    · exact .inl (Tick.stays_rfl _)

theorem keeps_holdupExpired : Keeps .holdupExpired State.holdupExpired where
  pending s := by simp
  objs s h := by simp [h]
  tick s := by
    unfold State.holdupExpired
    split
    · exact .inr (.inr ⟨rfl, rfl⟩)
    · exact .inl (Tick.stays_rfl _)

/-! ### The three ways a command runs -/

/-- The rows of the feeds and of a module's start, which act in reset too (R382). -/
def Instr.ActsInReset : Instr → Prop
  | .feedPresent _ _ _ | .feedAbsent _ _ _ _ | .feedLossPrDelay | .holdupExpired | .feedRecoveryTest _ | .feedStartupTest | .feedTestDone _ _
  | .powerUp _ | .resetAssert _ | .resetRelease _ _ _ => True
  | _ => False

/-- The command `c` runs an effect that keeps what `Keeps` names: as a command of the module's units, as one of the host, or as one that acts
in reset too. -/
inductive Runs (c : Instr) : Prop
  | safe {f : State → State} (run : ∀ s, exec c s = runSafe (Instr.wf c) s f) (keeps : Keeps c f)
  | host {f : State → State} (run : ∀ s, exec c s = runHost (Instr.wf c) s f) (keeps : Keeps c f)
  | always {f : State → State} (inReset : Instr.ActsInReset c) (wf : Instr.wf c = true)
      (run : ∀ s, exec c s = runAlways true s f) (keeps : Keeps c f)

/-- Every command runs one of the three ways. -/
theorem exec_runs (c : Instr) : Runs c := by
  cases c
  case tickEdge x => exact .safe (fun _ => rfl) (keeps_tickEdge x)
  -- units whose effect touches neither the queue nor the tick nor an object
  case frtStart | frtEnd | dcfRearm | dcfEnd | enrgEnd | gtCoastStart | gtAcquireStart | gtReacquired | cellStale | cellLost | setPermit
      | setTimeout | limEdge | limQuietExpired | tripEdge | tripInactiveEdge | engineResidueError | engineSignatureError | spareFault
      | tableSwapApply | tableVerifyDone | chrRecordDone | chrHoldoffExpired | windowResult | fallbackPowerUp | vanaLost | vanaLowChange
      | vanaOrder | uplinkFrameRx | laneDelaySet | laneRxTimeout | delayStep | safetyInputChange | siDiscrepancy | restartAckPress
      | kernelTiChange | vioLost | vioPresent | scsMonitorCheck | sampleLinkLost | sampleLinkRestored | emitterTest | soTest | sfFrameRx
      | sfAcceptTimeout | sfWatchdog | startTestDone | coreMismatch | tickMissing | safetyKeyChange | soOvercurrent | supWatchdogExpiry
      | fwFallback | refLoss | refGood | regSlip | lockLossDeclared | rampStart | ptpSyncRx | ptpAnnounceRx | ptpPdelayReqRx
      | ptpPdelayRespRx | ptpDelayRespRx | ptpDelayReqTx | ptpSyncTimeout | ptpAnnounceTimeout | ptpMasterTx | ptpManagementRx
      | holdoverExpired | trainFrameRx | trainHeartbeatRx | trainJoinRx | trainGrantRx | trainArmRx | trainDisarmRx | trainFireRx
      | trainPortDown | trainPortUp | ringClosed | actingRoot | heartbeatLost | pairLinkLost | takeover | leaderLanesLost | abdicateFailed
      | reversion | shadowGraceExpired =>
    exact .safe (fun _ => rfl) (.of_frame fun s => by simp)
  case sfPeriodicTx =>
    refine .safe (fun _ => rfl) (.of_frame fun s => ?_)
    unfold State.sfPeriodic
    split <;> simp
  case refMonitorCheck | supStart => exact .safe (fun _ => rfl) (.ite (.of_frame fun s => by simp) .idle)
  case sessionInactivity => exact .safe (fun _ => rfl) (.ite .idle (.of_frame fun s => by simp))
  case vanaPresent => exact .safe (fun _ => rfl) (.ite (.of_frame fun s => by simp) (.of_frame fun s => by simp))
  -- units that write objects
  case prechargeComplete | dcfDetect | migrateEnd | coefGroupApply | schedActionDue | logWindowEnd | windowBoundary =>
    exact .safe (fun _ => rfl) (.of_stays (fun s => by simp) (fun s h => by simp [h]) fun s => by simp [Tick.stays_rfl])
  -- units that number the next tick
  case wakeRetry =>
    exact .safe (fun _ => rfl) (.of_stays (fun s => by simp) (fun s h => by simp [h]) fun s => State.wakeRetry_stays _ s _ (Tick.stays_rfl _))
  case wakeEvent =>
    exact .safe (fun _ => rfl) (.of_stays (fun s => by simp) (fun s h => by simp [h]) fun s => State.wakeEvent_stays _ s _ _ (Tick.stays_rfl _))
  case regLockDeclared =>
    exact .safe (fun _ => rfl) (.ite .idle
      (.of_stays (fun s => by simp) (fun s h => by simp [h]) fun s => State.lockDeclared_stays _ s _ _ (Tick.stays_rfl _)))
  -- the host link
  case hlSessionTimeout | hlClose | regRead | regWriteOther | doorbellAck | doorbellFlush | mbCmdBound | tableLoadAbandon | pstateReqSleep
      | pstateReqWake | pstateReqLevel =>
    exact .host (fun _ => rfl) (.of_frame fun s => by simp)
  case hello | prove | proveTimeout | hlRxBadFrame | mbRespRetransmit | mbRespDiscard =>
    exact .host (fun _ => rfl) (.ite (.of_frame fun s => by simp) .idle)
  -- messages of a mailbox
  case objRead | objWrite | objWriteSet | tableLoad | tableSwap | engineSpareMigrate | engineSpareRetest | convState | handsTarget
      | settingStart | chronoArm | chronoDisarm | chronoForce | chronoRead | logRead | fwBegin | fwData | fwEnd | fwActivate
      | safetySessionOpen | safetySessionCommit | safetySessionClose | mbMsgBadOpcode | coefWrite | tripClear | tripArmsWrite
      | cellExclude | cellReadmit | limChatClear | driftClear | setEndClosed | setEndCancel | dcfRecover | pairYield | feedTest
      | trainAddrClear | laneCntClear | schedCancel | logAck | rampCmd | modEnableWrite | laneEnWrite | regModeWrite | regRefWrite
      | regTrimWrite | sparesWrite =>
    exact .host (fun _ => rfl) (.of_frame fun s => by simp)
  -- feeds and reset
  case feedPresent b mv ms => exact .always (f := fun s => s.feedPresent b mv ms) trivial rfl (fun _ => rfl) (.of_frame fun s => by simp)
  case feedAbsent b mv us other => exact .always (f := fun s => s.feedAbsent b mv us other) trivial rfl (fun _ => rfl) (.of_frame fun s => by simp)
  case feedRecoveryTest n => exact .always (f := fun s => s.feedRecovery n) trivial rfl (fun _ => rfl) (.of_frame fun s => by simp)
  case feedTestDone vmin imax => exact .always (f := fun s => s.feedTestDone vmin imax) trivial rfl (fun _ => rfl) (.of_frame fun s => by simp)
  case feedLossPrDelay | feedStartupTest => exact .always trivial rfl (fun _ => rfl) (.of_frame fun s => by simp)
  case resetAssert us =>
    exact .always (f := fun s => s.resetAssert us) trivial rfl (fun _ => rfl)
      (.of_stays (fun s => by simp) (fun s h => by simp [h]) fun s => by simp [Tick.stays_rfl])
  case resetRelease =>
    exact .always trivial rfl (fun _ => rfl) (.of_stays (fun s => by simp) (fun s h => by simp [h]) fun s => State.resetRelease_stays _ s _ _ _ (Tick.stays_rfl _))
  case powerUp =>
    exact .always trivial rfl (fun _ => rfl) (.of_stays (fun s => by simp) (fun s h => by simp [h]) fun s => State.powerUp_stays _ s _ (Tick.stays_rfl _))
  case holdupExpired => exact .always trivial rfl (fun _ => rfl) keeps_holdupExpired

/-- What every command that answers a next state keeps. -/
structure Kept (c : Instr) (s t : State) : Prop where
  pending : t.pending = s.pending
  objs : objsWf s.objs = true → objsWf t.objs = true
  tick : Tick.Goes c s.tick t.tick

/-- Out of reset a command's next state is one that the end of a command has left. -/
def Settled (t : State) : Prop := t.pwr.inReset = true ∨ ∃ (u : State) (b : Bool), t = u.settle b

theorem Kept.settle {c : Instr} {s u : State} (b : Bool) (h : Kept c s u) : Kept c s (u.settle b) :=
  ⟨by simpa using h.pending, fun ho => State.settle_wf _ _ (h.objs ho), by simpa using h.tick⟩

theorem Kept.clearOut (c : Instr) (s : State) : Kept c s s.clearOut := ⟨rfl, id, .inl (Tick.stays_rfl _)⟩

theorem Keeps.kept {c : Instr} {f : State → State} (h : Keeps c f) (s : State) : Kept c s (f s.clearOut) :=
  ⟨h.pending s.clearOut, h.objs s.clearOut, h.tick s.clearOut⟩

theorem Tick.Stays.trans {a b d : Tick} (h : a.Stays b) (hd : b.Stays d) : a.Stays d := by
  obtain ⟨hn, hst, hx⟩ := h
  obtain ⟨hn', hst', hx'⟩ := hd
  exact ⟨hn'.trans hn, hst'.trans hst, by omega⟩

theorem Tick.Goes.trans_stays {c : Instr} {a b d : Tick} (h : Tick.Goes c a b) (hd : b.Stays d) : Tick.Goes c a d := by
  obtain hs | ⟨hx, hs⟩ | ⟨hc, hb⟩ := h
  · exact .inl (hs.trans hd)
  · exact .inr (.inl ⟨hx, hs.trans hd⟩)
  · exact .inr (.inr ⟨hc, hd.2.1.trans hb⟩)

theorem Kept.pump {c : Instr} {s u : State} (h : Kept c s u) : Kept c s u.pump := by
  exact ⟨by simpa using h.pending, fun ho => State.pump_wf _ (h.objs ho), h.tick.trans_stays (State.pump_stays _ u (Tick.stays_rfl _))⟩

/-- A command answers a next state exactly where its operands are well formed, and a fault otherwise; the next state keeps what `Kept` names. -/
theorem exec_answers (c : Instr) (s : State) :
    (Instr.wf c = true → ∃ t, exec c s = .next t ∧ Kept c s t ∧ Settled t) ∧ (Instr.wf c = false → exec c s = .fault .illFormed) := by
  cases exec_runs c with
  | safe run keeps =>
    refine ⟨fun hw => ⟨_, by rw [run, hw]; rfl, ?_⟩, fun hw => by rw [run, hw]; rfl⟩
    unfold State.unlessReset
    split
    · next hr => exact ⟨.clearOut c s, .inl hr⟩
    · exact ⟨(keeps.kept s).settle _, .inr ⟨_, _, rfl⟩⟩
  | host run keeps =>
    refine ⟨fun hw => ⟨_, by rw [run, hw]; rfl, ?_⟩, fun hw => by rw [run, hw]; rfl⟩
    unfold State.unlessReset
    split
    · next hr => exact ⟨.clearOut c s, .inl hr⟩
    · exact ⟨(keeps.kept s).pump.settle _, .inr ⟨_, _, rfl⟩⟩
  | always _ wf run keeps =>
    refine ⟨fun hw => ⟨_, by rw [run]; rfl, ?_⟩, fun hw => by rw [wf] at hw; cases hw⟩
    split
    · next hr => exact ⟨keeps.kept s, .inl hr⟩
    · exact ⟨(keeps.kept s).settle _, .inr ⟨_, _, rfl⟩⟩

theorem exec_next {c : Instr} {s t : State} (h : exec c s = .next t) : Kept c s t ∧ Settled t := by
  obtain ⟨hw, hf⟩ := exec_answers c s
  cases hc : Instr.wf c with
  | true =>
    obtain ⟨u, hu, hk⟩ := hw hc
    cases h.symm.trans hu
    exact hk
  | false => cases h.symm.trans (hf hc)

/-- A step runs the command at the front of the queue, or idles. -/
theorem step_next {s t : State} (h : step s = .next t) :
    (s.pending = [] ∧ t = s) ∨ ∃ c cs, s.pending = c :: cs ∧ exec c { s with pending := cs } = .next t := by
  unfold step at h
  split at h
  · next hp => cases h; exact .inl ⟨hp, rfl⟩
  · next c cs hp => exact .inr ⟨c, cs, hp, h⟩

/-- Settles O3: a step idles, or its command keeps the store (`exec_next`). -/
theorem storeStaysCanonical : Obligations.StoreStaysCanonical := by
  unfold Obligations.StoreStaysCanonical
  intro s t hs ht
  obtain ⟨_, rfl⟩ | ⟨c, cs, _, hc⟩ := step_next ht
  · exact hs
  · exact (exec_next hc).1.objs hs

theorem Tick.Stays.rises {a b : Tick} (h : a.Stays b) (ha : a.started = true → a.now < a.next) : b.started = true → b.now < b.next := by
  obtain ⟨hn, hst, hx⟩ := h
  intro hb
  have := ha (hst ▸ hb)
  omega

/-- Settles O5: by the three ways a command may move the tick counter (`Tick.Goes`). -/
theorem tickNumbersRise : Obligations.TickNumbersRise := by
  unfold Obligations.TickNumbersRise
  intro s t hs ht
  obtain ⟨_, rfl⟩ | ⟨c, cs, hp, hc⟩ := step_next ht
  · exact ⟨hs, .inl rfl⟩
  obtain hstay | ⟨⟨x, rfl⟩, hedge⟩ | ⟨rfl, hlost⟩ := (exec_next hc).1.tick
  · exact ⟨hstay.rises hs, .inl hstay.1⟩
  · exact ⟨hedge.rises fun _ => Nat.lt_succ_self _, .inr (.inl ⟨x, cs, hp, hedge.1⟩)⟩
  · exact ⟨fun h => by simp [hlost] at h, .inr (.inr ⟨cs, hp, hlost⟩)⟩

/-! ### Demands, switches and bits at the end of a command -/

/-- Every switch is open while a PR demand is active, and the outgoing bits are those the last frame has told. -/
def State.SwitchesSafe (s : State) : Prop :=
  (s.prDemand = true → s.saf.switches.any id = false) ∧ s.outPr = s.saf.txPr ∧ s.outScs = s.saf.txScs

theorem State.sfEvent_safe {s : State} (h : s.prDemand = true → s.saf.switches.any id = false) : s.sfEvent.SwitchesSafe := by
  obtain ⟨hframe, _⟩ := State.sfEvent_adds s
  obtain ⟨_, hpr, _, houtPr, houtScs⟩ := State.ended_demands s s.sfEvent
  rw [← hframe] at hpr houtPr houtScs
  obtain ⟨_, _, hsw⟩ := State.sfEvent_keeps s
  obtain ⟨htxPr, htxScs, _, _⟩ := State.sfEvent_bits s
  exact ⟨by rwa [hpr, hsw], houtPr.trans htxPr.symm, houtScs.trans htxScs.symm⟩

theorem State.replyTo_saf (s : State) (r : Option Reply) (a : Ans) : (s.replyTo r a).saf = s.saf := by
  cases r with
  | none => rfl
  | some r =>
    show (s.reply r a).saf = s.saf
    unfold State.reply
    split <;> rfl

theorem State.answerReq_saf (s : State) (r : ConvReq) (a : Ans) : (s.answerReq r a).saf = s.saf := by
  unfold State.answerReq State.actionDone State.actionFailed
  dsimp only
  split
  · rw [State.replyTo_saf]
  · split
    · split <;> simp [State.replyTo_saf, State.countLate]
    · split <;> simp [State.replyTo_saf, State.countLate]

theorem State.answerAll_saf (s : State) (rs : List ConvReq) : (s.answerAll rs).saf = s.saf :=
  List.foldlRecOn rs _ (motive := fun t : State => t.saf = s.saf) rfl fun t ht r _ => (State.answerReq_saf t r _).trans ht

/-- The converter's entry into PR opens every switch; in PR they stay as they are (R293). -/
theorem State.goPr_opens {s : State} (h : s.saf.switches.any id = false) : s.goPr.saf.switches.any id = false := by
  unfold State.goPr State.splitReqs
  dsimp only
  rw [State.answerAll_saf]
  unfold State.convTo
  dsimp only
  split
  · exact h
  · rfl

theorem State.pulseRemoval_opens (s : State) : s.pulseRemoval.saf.switches.any id = false := by
  rw [State.pulseRemoval_saf]
  rfl

theorem State.settle_safe (s : State) (b : Bool) : (s.settle b).SwitchesSafe := by
  unfold State.settle
  refine State.sfEvent_safe ?_
  generalize (if (b && !s.ticking) = true then s.chronoStop else s).noteDemands = n
  have hopen : ∀ r : State, r = (if (n.prDemand && n.saf.switches.any id) = true then n.pulseRemoval else n) →
      r.prDemand = true → r.saf.switches.any id = false := by
    rintro r rfl hr
    split
    · exact n.pulseRemoval_opens
    · next hn =>
      rw [if_neg hn] at hr
      simpa [hr] using hn
  generalize (if (n.prDemand && n.saf.switches.any id) = true then n.pulseRemoval else n) = r at hopen
  intro hp
  split
  · next hg =>
    simp only [Bool.and_eq_true] at hg
    exact State.goPr_opens (hopen r rfl hg.1.1)
  · next hg =>
    rw [if_neg hg] at hp
    exact hopen r rfl hp

/-- Settles O4: out of reset a command's next state is one that the end of a command has left (`exec_next`, `State.settle_safe`). -/
theorem demandsKeepTheSwitchesOpen : Obligations.DemandsKeepTheSwitchesOpen := by
  unfold Obligations.DemandsKeepTheSwitchesOpen
  intro s t hs ht hr
  obtain ⟨_, rfl⟩ | ⟨c, cs, _, hc⟩ := step_next ht
  · exact hs hr
  obtain hin | ⟨u, b, rfl⟩ := (exec_next hc).2
  · rw [hr] at hin; cases hin
  · exact u.settle_safe b

/-! ### One step, and the state after reset -/

/-- Settles O1. -/
theorem stepRunsTheFrontCommand : Obligations.StepRunsTheFrontCommand := by
  unfold Obligations.StepRunsTheFrontCommand
  intro c cs s
  exact ⟨rfl, fun hp => by unfold step; rw [hp]⟩

theorem lane_reset (l : Nat) : State.reset.lane l = {} := by
  show (List.replicate 48 ({} : Lane)).getD l {} = {}
  rw [List.getD_eq_getElem?_getD, List.getElem?_replicate]
  split <;> rfl

/-- Settles O2. -/
theorem resetIsAsTheSpecSays : Obligations.ResetIsAsTheSpecSays := by
  unfold Obligations.ResetIsAsTheSpecSays
  refine ⟨rfl, fun _ => rfl, fun l => ?_, rfl, rfl, rfl, rfl, rfl, rfl, rfl, rfl, rfl, rfl, rfl, rfl, ?_, ?_⟩
  · rw [lane_reset]
  · rfl
  · rfl

/-! ### Reset -/

/-- Settles O8: by the three ways a command runs (`exec_runs`); only the rows of the feeds and of the start act in reset. -/
theorem resetHoldsTheBlock : Obligations.ResetHoldsTheBlock := by
  unfold Obligations.ResetHoldsTheBlock
  intro c s
  obtain ⟨hok, hbad⟩ := exec_answers c s
  refine ⟨fun hw => ?_, hbad, fun hr hw hc => ?_⟩
  · obtain ⟨t, ht, hk, _⟩ := hok hw
    exact ⟨t, ht, hk.pending⟩
  cases exec_runs c with
  | safe run _ => simp [run, runSafe, guarded, State.unlessReset, hr, hw]
  | host run _ => simp [run, runHost, guarded, State.unlessReset, hr, hw]
  | always inReset _ _ _ =>
    exfalso
    unfold Instr.ActsInReset at inReset
    split at inReset
    case h_11 => exact inReset
    all_goals exact hc
end Sys2Proof.Machine
end

section
/-!
PROOF. What the end of a command leaves alone, field by field, and the shapes in which a command of the module's units is shown to do one thing or
nothing.
-/
namespace Sys2Proof.Machine

/-! ### The fields that the end of a command leaves alone -/

namespace Ends

variable {f t : State}

theorem tick_eq (h : Ends f t) : t.tick = f.tick := by rw [h.frame]; rfl
theorem pending_eq (h : Ends f t) : t.pending = f.pending := by rw [h.frame]; rfl
theorem bal_eq (h : Ends f t) : t.bal = f.bal := by rw [h.frame]; rfl
theorem gt_eq (h : Ends f t) : t.gt = f.gt := by rw [h.frame]; rfl
theorem fus_eq (h : Ends f t) : t.fus = f.fus := by rw [h.frame]; rfl
theorem loops_eq (h : Ends f t) : t.loops = f.loops := by rw [h.frame]; rfl
theorem arms_eq (h : Ends f t) : t.arms = f.arms := by rw [h.frame]; rfl
theorem mod_eq (h : Ends f t) : t.mod = f.mod := by rw [h.frame]; rfl
theorem trips_eq (h : Ends f t) : t.trips = f.trips := by rw [h.frame]; rfl
theorem esc_eq (h : Ends f t) : t.esc = f.esc := by rw [h.frame]; rfl
theorem sig_eq (h : Ends f t) : t.sig = f.sig := by rw [h.frame]; rfl
theorem hands_eq (h : Ends f t) : t.hands = f.hands := by rw [h.frame]; rfl
theorem lim_eq (h : Ends f t) : t.lim = f.lim := by rw [h.frame]; rfl
theorem set_eq (h : Ends f t) : t.set = f.set := by rw [h.frame]; rfl
theorem meas_eq (h : Ends f t) : t.meas = f.meas := by rw [h.frame]; rfl
theorem reg_eq (h : Ends f t) : t.reg = f.reg := by rw [h.frame]; rfl
theorem time_eq (h : Ends f t) : t.time = f.time := by rw [h.frame]; rfl
theorem sched_eq (h : Ends f t) : t.sched = f.sched := by rw [h.frame]; rfl
theorem chr_eq (h : Ends f t) : t.chr = f.chr := by rw [h.frame]; rfl
theorem cond_eq (h : Ends f t) : t.cond = f.cond := by rw [h.frame]; rfl
theorem train_eq (h : Ends f t) : t.train = f.train := by rw [h.frame]; rfl
theorem pair_eq (h : Ends f t) : t.pair = f.pair := by rw [h.frame]; rfl
theorem feed_eq (h : Ends f t) : t.feed = f.feed := by rw [h.frame]; rfl
theorem host_eq (h : Ends f t) : t.host = f.host := by rw [h.frame]; rfl
theorem waiting_eq (h : Ends f t) : t.waiting = f.waiting := by rw [h.frame]; rfl
theorem cfg_eq (h : Ends f t) (i : Nat) : t.cfg i = f.cfg i := State.cfg_congr h.objs_eq i
theorem cfgN_eq (h : Ends f t) (i : Nat) : t.cfgN i = f.cfgN i := State.cfgN_congr h.objs_eq i
theorem prDemand_eq (h : Ends f t) : t.prDemand = f.prDemand := by rw [h.frame]; exact (State.ended_demands f t).2.1

end Ends

/-- A command that does `f` answers a state of which all holds that the end of a command leaves of `f`. -/
theorem Does.next {c : Instr} {s f : State} {P : State → Prop} (h : Does c s f) (hP : ∀ t, Ends f t → P t) : ∃ t, exec c s = .next t ∧ P t :=
  h.imp fun t ht => ⟨ht.1, hP t ht.2⟩

/-! ### What emptying the outboxes leaves alone -/

@[simp] theorem State.clearOut_cfg (s : State) (i : Nat) : s.clearOut.cfg i = s.cfg i := rfl
@[simp] theorem State.clearOut_cfgN (s : State) (i : Nat) : s.clearOut.cfgN i = s.cfgN i := rfl
@[simp] theorem State.clearOut_cfgB (s : State) (i : Nat) : s.clearOut.cfgB i = s.cfgB i := rfl
@[simp] theorem State.clearOut_nextTick (s : State) : s.clearOut.nextTick = s.tick.next := rfl
@[simp] theorem State.clearOut_ticking (s : State) : s.clearOut.ticking = s.ticking := rfl
@[simp] theorem State.clearOut_cell (s : State) (c : Nat) : s.clearOut.cell c = s.cell c := rfl
@[simp] theorem State.clearOut_lane (s : State) (l : Nat) : s.clearOut.lane l = s.lane l := rfl
@[simp] theorem State.clearOut_laneArm (s : State) (l : Nat) : s.clearOut.laneArm l = s.laneArm l := rfl
@[simp] theorem State.clearOut_laneCells (s : State) (l : Nat) : s.clearOut.laneCells l = s.laneCells l := rfl

/-! ### The module still runs -/

namespace State.Awake

variable {s : State}

theorem postAt {tick c i d} (h : s.Awake) : (s.postAt tick c i d).Awake := by
  unfold State.Awake at h ⊢
  rwa [State.postAt_pwr, State.postAt_reg, State.postAt_saf]

theorem condEvent {b} (h : s.Awake) : (s.condEvent b).Awake := h
theorem setCell {c f} (h : s.Awake) : (s.setCell c f).Awake := h
theorem setLane {l f} (h : s.Awake) : (s.setLane l f).Awake := h
theorem clearOut (h : s.Awake) : s.clearOut.Awake := h

end State.Awake

/-! ### One thing or nothing -/

section
variable {c : Instr} {s : State} (hs : s.Awake)
include hs

theorem idles_safe {E : State → State} (hc : exec c s = runSafe true s E) (hE : E s.clearOut = s.clearOut) : Idles c s :=
  does_safe hs hc hE hs.clearOut

theorem idles_always {E : State → State} (hc : exec c s = runAlways true s E) (hE : E s.clearOut = s.clearOut) : Idles c s :=
  does_always hs hc hE hs.clearOut

/-- A row of a unit that works by the tick acts where it is due. -/
theorem does_due {due : State → Bool} {f : State → State} (hc : exec c s = runSafe true s fun s => s.whenDue (due s) f)
    (hd : due s.clearOut = true) (hf : (f s.clearOut).Awake) : Does c s (f s.clearOut) := by
  refine does_safe hs hc ?_ hf
  have ht := hs.ticks
  simp [State.whenDue, ht, hd]

theorem idles_due {due : State → Bool} {f : State → State} (hc : exec c s = runSafe true s fun s => s.whenDue (due s) f)
    (hd : due s.clearOut = false) : Idles c s :=
  idles_safe hs hc (by simp [State.whenDue, hd])

/-- A row whose effect leaves the state as it is does nothing. -/
theorem idles_still {due : State → Bool} {f : State → State} (hc : exec c s = runSafe true s fun s => s.whenDue (due s) f)
    (hf : f s.clearOut = s.clearOut) : Idles c s :=
  idles_safe hs hc (by simp [State.whenDue, hf])

end

end Sys2Proof.Machine
end

section
/-!
PROOF. The rows of the converter's control: fault ride-through, the energisation ramp and DC faults (R72 to R79).
-/
namespace Sys2Proof.Machine

/-! ### Fault ride-through and the energisation ramp -/

theorem State.frtStartDue_iff (s : State) : s.frtStartDue = true ↔ s.fus.frt = false ∧ s.frtTicks ≤ s.fus.frtLow := by
  simp [State.frtStartDue]

theorem State.frtEndDue_iff (s : State) : s.frtEndDue = true ↔ s.fus.frt = true ∧ s.frtTicks ≤ s.fus.frtHigh := by
  simp [State.frtEndDue]

theorem State.enrgEndDue_iff (s : State) : s.enrgEndDue = true ↔ s.fus.enrgRamp = true ∧ s.enrgLength ≤ s.fus.enrgTicks := by
  simp [State.enrgEndDue]

/-- Settles O9: each row does its own effect where it is due (`does_due`) and nothing where it is not (`idles_due`). -/
theorem frtAndEnergisationEnd : Obligations.FrtAndEnergisationEnd := by
  unfold Obligations.FrtAndEnergisationEnd
  refine ⟨fun s hs => ⟨fun h hlow => ?_, fun h hhigh => ?_, fun h => ?_, fun h => ?_⟩, fun s hs => ⟨fun h ht => ?_, fun h => ?_⟩⟩
  · exact does_due (due := State.frtStartDue) (f := State.frtBegin) hs rfl (s.frtStartDue_iff.mpr ⟨h, hlow⟩) (.postAt hs)
  · exact does_due (due := State.frtEndDue) (f := State.frtEnd) hs rfl (s.frtEndDue_iff.mpr ⟨h, hhigh⟩) (.postAt hs)
  · refine idles_due (due := State.frtStartDue) hs rfl (Bool.eq_false_iff.mpr fun hd => ?_)
    obtain ⟨hoff, hlow⟩ := s.frtStartDue_iff.mp hd
    obtain h | h := h
    · simp [h] at hoff
    · exact absurd hlow (Nat.not_le.mpr h)
  · refine idles_due (due := State.frtEndDue) hs rfl (Bool.eq_false_iff.mpr fun hd => ?_)
    obtain ⟨hon, hhigh⟩ := s.frtEndDue_iff.mp hd
    obtain h | h := h
    · simp [h] at hon
    · exact absurd hhigh (Nat.not_le.mpr h)
  · exact does_due (due := State.enrgEndDue) (f := State.enrgEnd) hs rfl (s.enrgEndDue_iff.mpr ⟨h, ht⟩) (.postAt hs)
  · refine idles_due (due := State.enrgEndDue) hs rfl (Bool.eq_false_iff.mpr fun hd => ?_)
    obtain ⟨hon, hlong⟩ := s.enrgEndDue_iff.mp hd
    obtain h | h := h
    · simp [h] at hon
    · exact absurd hlong (Nat.not_le.mpr h)

/-! ### A value that the module itself writes -/

theorem State.rebind_eq (s : State) (i : Nat) : s.rebind i = { s with esc := (s.rebind i).esc } :=
  List.foldlRecOn (i :: coefOwners i) _ (motive := fun t : State => t = { s with esc := t.esc }) rfl fun t ht j _ => by
    rw [ht]

theorem State.putObj_eq (s : State) (i : Nat) (v : Int) : s.putObj i v = { s with objs := objsSet s.objs i v, esc := (s.putObj i v).esc } :=
  State.rebind_eq (s.setCfg i v) i

theorem State.axisDirect_eq (s : State) (a : Nat) (v : Int) :
    s.axisDirect a v = { s with hands := (s.axisDirect a v).hands, log := (s.axisDirect a v).log } := by
  unfold State.axisDirect State.setAxis State.moveEnd State.post
  dsimp only
  split
  · rw [State.postAt_eq]
  · rfl

theorem State.putDirect_eq (s : State) (i : Nat) (v : Int) :
    s.putDirect i v = { s with objs := objsSet s.objs i v, esc := (s.putDirect i v).esc, hands := (s.putDirect i v).hands
                               log := (s.putDirect i v).log } := by
  unfold State.putDirect
  dsimp only
  split
  · rw [State.axisDirect_eq, State.putObj_eq]
  · rw [State.putObj_eq]

theorem State.putDirect_cfg_same (s : State) (i : Nat) (v : Int) : (s.putDirect i v).cfg i = v := by
  rw [State.putDirect_eq]
  exact objsGet_set_same s.objs i v

theorem State.Awake.putDirect {s : State} {i : Nat} {v : Int} (h : s.Awake) : (s.putDirect i v).Awake := by
  rw [State.putDirect_eq]
  exact h

/-! ### DC faults -/

/-- What every DC fault does first (R74): the detector is spent, and the fault is counted and logged. -/
def State.dcfNoted (s : State) : State :=
  ({ s with fus := { s.fus with dcfArmed := false, dcfHigh := 0, dcfCount := s.fus.dcfCount + 1 } }.condEvent 28).post 0x2105 noInst []

theorem State.dcfNoted_fus (s : State) :
    s.dcfNoted.fus = { s.fus with dcfArmed := false, dcfHigh := 0, dcfCount := s.fus.dcfCount + 1 } := by
  unfold State.dcfNoted
  rw [State.post_fus]
  rfl

theorem State.dcfNoted_objs (s : State) : s.dcfNoted.objs = s.objs := by
  unfold State.dcfNoted
  rw [State.post_objs]
  rfl

/-- The ride begins at a DC voltage of 0 with P_SET 0 (R77). -/
def State.rideBegun (s : State) : State :=
  { s.dcfNoted with fus := { s.dcfNoted.fus with dcfActive := true, dcfRecovering := false, dcfU := 0 } }.putDirect Obj.P_SET 0

/-- The trip input that DCF_TRIP_INPUT names is asserted (R75). -/
def State.dcfTripped (s : State) : State :=
  { s.dcfNoted with fus := { s.dcfNoted.fus with dcfAssert := s.dcfNoted.tripNamed Obj.DCF_TRIP_INPUT } }

theorem State.dcfDetect_ride {s : State} (hm : s.cfg Obj.DCF_MODE = 1) (hl : s.fus.rideLost = false) : s.dcfDetect = s.rideBegun := by
  unfold State.dcfDetect
  exact if_pos (by simp [hm, hl])

theorem State.dcfDetect_trip {s : State} (h : s.cfg Obj.DCF_MODE ≠ 1 ∨ s.fus.rideLost = true) : s.dcfDetect = s.dcfTripped := by
  unfold State.dcfDetect
  exact if_neg (by simpa [or_iff_not_imp_left] using h)

theorem State.rideBegun_fus (s : State) :
    s.rideBegun.fus = { s.dcfNoted.fus with dcfActive := true, dcfRecovering := false, dcfU := 0 } := by
  unfold State.rideBegun
  rw [State.putDirect_eq]

theorem State.dcfDue_iff (s : State) :
    s.dcfDue = true ↔ s.fus.dcfArmed = true ∧ (s.conv.state = .run ∨ s.conv.state = .scs) ∧ s.dcfTicks ≤ s.fus.dcfLow := by
  simp [State.dcfDue, State.released, and_assoc]

theorem State.dcfRearmDue_iff (s : State) :
    s.dcfRearmDue = true ↔ s.fus.dcfArmed = false ∧ (s.conv.state = .run ∨ s.conv.state = .scs) ∧ s.dcfTicks ≤ s.fus.dcfHigh := by
  simp [State.dcfRearmDue, State.released, and_assoc]

theorem State.dcfEndDue_iff (s : State) : s.dcfEndDue = true ↔ s.fus.dcfRecovering = true ∧ s.sigPu 0x092 2 ≤ s.fus.dcfU := by
  simp [State.dcfEndDue]

/-- Settles O10: the three rows are due exactly under their conditions, and a fault is ridden (`State.dcfDetect_ride`) or trips the input named
(`State.dcfDetect_trip`). -/
theorem dcFaultIsTaken : Obligations.DcFaultIsTaken := by
  unfold Obligations.DcFaultIsTaken
  intro s hs
  refine ⟨fun harmed hrun hlow => ?_, fun harmed hrun hhigh => ?_, fun hrec hu => ?_, fun hrun hscs => ⟨?_, ?_⟩⟩
  · have hdue : s.dcfDue = true := s.dcfDue_iff.mpr ⟨harmed, hrun, hlow⟩
    have hnoted : s.clearOut.dcfNoted.Awake := .post hs
    have hdoes := does_due (c := .dcfDetect) (due := State.dcfDue) (f := State.dcfDetect) hs rfl hdue
    by_cases hride : s.cfg Obj.DCF_MODE = 1 ∧ s.fus.rideLost = false
    · obtain ⟨hm, hl⟩ := hride
      rw [State.dcfDetect_ride (s := s.clearOut) hm hl] at hdoes
      refine (hdoes (.putDirect hnoted)).next fun t he => ?_
      rw [he.fus_eq, he.cfg_eq, State.rideBegun_fus, State.dcfNoted_fus]
      refine ⟨rfl, rfl, rfl, fun _ _ => ⟨rfl, rfl, rfl, State.putDirect_cfg_same _ _ _, rfl⟩, fun h => ?_⟩
      simp [hm, hl] at h
    · have htrip : s.cfg Obj.DCF_MODE ≠ 1 ∨ s.fus.rideLost = true := by simpa [or_iff_not_imp_left] using hride
      rw [State.dcfDetect_trip (s := s.clearOut) htrip] at hdoes
      refine (hdoes hnoted).next fun t he => ?_
      have hfus : s.clearOut.dcfTripped.fus = { s.clearOut.dcfNoted.fus with dcfAssert := s.clearOut.dcfNoted.tripNamed Obj.DCF_TRIP_INPUT } := rfl
      have hobjs : s.clearOut.dcfTripped.objs = s.objs := State.dcfNoted_objs s.clearOut
      rw [he.fus_eq, hfus, State.dcfNoted_fus]
      refine ⟨rfl, rfl, rfl, fun hm hl => absurd ⟨hm, hl⟩ hride, fun _ => ⟨?_, rfl, fun i => ?_⟩⟩
      · unfold State.tripNamed
        rw [State.cfgN_congr (State.dcfNoted_objs s.clearOut)]
        rfl
      · rw [he.cfg_eq, State.cfg_congr hobjs]
  · exact does_due (due := State.dcfRearmDue) (f := State.dcfRearm) hs rfl (s.dcfRearmDue_iff.mpr ⟨harmed, hrun, hhigh⟩) hs
  · exact does_due (due := State.dcfEndDue) (f := State.dcfEnd) hs rfl (s.dcfEndDue_iff.mpr ⟨hrec, hu⟩) (.post hs)
  · exact idles_due (due := State.dcfDue) hs rfl (Bool.eq_false_iff.mpr fun hd => by simpa [hrun, hscs] using (s.dcfDue_iff.mp hd).2.1)
  · exact idles_due (due := State.dcfRearmDue) hs rfl (Bool.eq_false_iff.mpr fun hd => by simpa [hrun, hscs] using (s.dcfRearmDue_iff.mp hd).2.1)

end Sys2Proof.Machine
end

section
/-!
PROOF. What follows a written value leaves alone, and that only a transition (`State.convTo`) changes the converter's state.
-/
namespace Sys2Proof.Machine
namespace State

/-- The part of the state that no written value touches, but a reference that is lost: the converter's state, the queue of groups, the power
state, the kernel, the gate of the outputs, and the flags of a start. -/
abbrev Core : Type := ConvState × List Group × Pwr × Safety × Bool × List Bool

/-- The flags that a start leaves: lock, filter fault, the two sources, the start of the supervisor and the strap of the train. -/
def startFlags (s : State) : List Bool := [s.reg.locked, s.reg.filterRos, s.reg.ocxoOk, s.reg.refclkOk, s.host.starting, s.train.strapped]

def core (s : State) : Core := (s.conv.state, s.esc.groups, s.pwr, s.saf, s.reg.gated, s.startFlags)

variable (s : State)

theorem post_core (c i : Nat) (d : List Byte) : (s.post c i d).core = s.core := by
  unfold State.post
  rw [State.postAt_eq]
  rfl

/-- A state of the same core runs as well. -/
theorem Awake.of_core {s t : State} (hs : s.Awake) (h : t.core = s.core) : t.Awake := by
  unfold State.core at h
  simp only [Prod.mk.injEq] at h
  obtain ⟨-, -, hpwr, hsaf, hgate, -⟩ := h
  unfold State.Awake
  rwa [hpwr, hsaf, hgate]

theorem foldl_core {α : Type} (f : State → α → State) (hf : ∀ s a, (f s a).core = s.core) (l : List α) :
    (l.foldl f s).core = s.core :=
  List.foldlRecOn l f (motive := fun t : State => t.core = s.core) rfl fun t ht a _ => (hf t a).trans ht

/-- Both branches leave the state as it is. -/
theorem ite_core {p : Prop} [Decidable p] {a b : State} {c : State.Core} (ha : a.core = c) (hb : b.core = c) :
    (if p then a else b).core = c := by
  split <;> assumption

theorem moveEnd_core (a r : Nat) : (s.moveEnd a r).core = s.core := by
  unfold State.moveEnd
  rw [State.post_core]

theorem axisDirect_core (a : Nat) (v : Int) : (s.axisDirect a v).core = s.core := by
  rw [State.axisDirect_eq]
  rfl

theorem rebind_groups (i : Nat) : (s.rebind i).esc.groups = s.esc.groups :=
  List.foldlRecOn (i :: coefOwners i) _ (motive := fun t : State => t.esc.groups = s.esc.groups) rfl fun _ ht _ _ => ht

theorem putObj_core (i : Nat) (v : Int) : (s.putObj i v).core = s.core := by
  have hgroups : (s.putObj i v).esc.groups = s.esc.groups := State.rebind_groups (s.setCfg i v) i
  unfold State.core
  rw [hgroups, State.putObj_eq]
  rfl

theorem putDirect_core (i : Nat) (v : Int) : (s.putDirect i v).core = s.core := by
  unfold State.putDirect
  dsimp only
  split
  · rw [State.axisDirect_core, State.putObj_core]
  · exact s.putObj_core i v

theorem blockAll_core : s.blockAll.core = s.core := by
  unfold State.blockAll
  generalize List.range 48 = lanes
  exact foldl_core s State.blockLane (fun _ _ => rfl) lanes

theorem modSwitchedOff_core : s.modSwitchedOff.core = s.core := by
  unfold State.modSwitchedOff
  dsimp only
  split <;> exact s.blockAll_core

theorem blockArms_core (mask : Nat) : (s.blockArms mask).core = s.core := by
  unfold State.blockArms
  generalize List.range 48 = lanes
  exact foldl_core s _ (fun t l => by split <;> rfl) lanes

theorem tripActs_core (n sent : Nat) : (s.tripActs n sent).core = s.core := by
  unfold State.tripActs
  dsimp only
  have hblock := ite_core (p := s.tripArms n ^^^ (s.tripArms n &&& sent) = 0) (a := s) rfl
    (s.blockArms_core (s.tripArms n ^^^ (s.tripArms n &&& sent)))
  exact ite_core rfl (ite_core hblock hblock)

theorem tripArmsChanged_core (n : Nat) : (s.tripArmsChanged n).core = s.core :=
  ite_core (s.tripActs_core n 0) rfl

theorem laneAges_core (l : Nat) : (s.laneAges l).core = s.core := by
  unfold State.laneAges
  generalize List.range 64 = cells
  exact foldl_core s _ (fun _ _ => by rfl) cells

theorem laneTo_core (l : Nat) (st : LaneState) (r : Nat) : (s.laneTo l st r).core = s.core := by
  unfold State.laneTo
  dsimp only
  refine ite_core rfl ((State.post_core _ _ _ _).trans ?_)
  have hages : ∀ t : State, (if st = .up then t.laneAges l else t).core = t.core := fun t => by
    split
    exacts [t.laneAges_core l, rfl]
  split <;> exact hages _

theorem laneAdmit_core (l : Nat) : (s.laneAdmit l).core = s.core := by
  unfold State.laneAdmit
  split
  · exact s.laneTo_core l _ _
  · rfl

theorem laneEnabled_core (l : Nat) (on : Bool) : (s.laneEnabled l on).core = s.core := by
  unfold State.laneEnabled
  (repeat' split) <;> simp [laneTo_core, laneAdmit_core]

theorem laneCounted_core (l : Nat) : (s.laneCounted l).core = s.core := by
  unfold State.laneCounted
  (repeat' split) <;> simp [laneTo_core, laneAdmit_core]

theorem discardWindow_core : s.discardWindow.core = s.core := by
  unfold State.discardWindow
  split <;> rfl

theorem timeSet_core (st : TimeState) (c : Nat) : (s.timeSet st c).core = s.core := by
  unfold State.timeSet
  dsimp only
  exact ite_core rfl (State.post_core _ _ _ _)

theorem holdover_core (c : Nat) : (s.holdover c).core = s.core := by
  unfold State.holdover
  dsimp only
  (repeat' split) <;> simp [timeSet_core]

theorem regMode_core (r : Bool) : (s.regMode r).core = s.core := by
  unfold State.regMode
  dsimp only
  exact ite_core rfl (ite_core (State.holdover_core _ _) rfl)

theorem refSwitch_core (r : Bool) : (s.refSwitch r).core = s.core := by
  unfold State.refSwitch
  rw [State.post_core]
  rfl

/-- A write of REG_REF that names a good source only switches (R238). -/
theorem refWrite_core {r : Bool} (h : s.reg.good r = true) : (s.refWrite r).core = s.core := by
  have hgood : (s.refSwitch r).reg.good r = true := by
    unfold State.refSwitch
    rw [State.post_reg]
    exact h
  unfold State.refWrite
  dsimp only
  rw [if_pos hgood]
  exact ite_core rfl (s.refSwitch_core r)

theorem ptpModeSet_core (v : Nat) : (s.ptpModeSet v).core = s.core := by
  unfold State.ptpModeSet
  split <;> simp [timeSet_core, holdover_core]

theorem closeSession_core (id : Word) (c : Nat) : (s.closeSession id c).core = s.core := by
  unfold State.closeSession
  dsimp only
  split
  · rw [State.post_core]
    rfl
  · rfl

theorem closeAll_core (c : Nat) : (s.closeAll c).core = s.core :=
  foldl_core s _ (fun t _ => t.closeSession_core _ _) s.host.sessions

theorem setRole_core (r : PairRole) : (s.setRole r).core = s.core := by
  unfold State.setRole
  split <;> rfl

theorem partnerSet_core (v : Int) : (s.partnerSet v).core = s.core :=
  s.setRole_core _

theorem reverifyAll_core : s.reverifyAll.core = s.core := by
  rfl

/-- What follows a written value leaves the core alone, but where it names a lost source as the loop's reference (R238). -/
theorem hook_core (i : Nat) (old v : Int) (hr : i = Obj.REG_REF → s.reg.good (v ≠ 0) = true) : (s.hook i old v).core = s.core := by
  unfold State.hook
  split
  · exact s.axisDirect_core _ v
  by_cases h : i = Obj.REG_REF
  · subst h
    exact s.refWrite_core (hr rfl)
  rw [if_neg (c := i = Obj.REG_REF) h]
  exact ite_core (ite_core (s.putDirect_core _ _) rfl) <| ite_core rfl <|
    ite_core (ite_core s.modSwitchedOff_core rfl) <| ite_core (ite_core rfl (s.tripArmsChanged_core _)) <|
    ite_core (s.laneEnabled_core _ _) <| ite_core (s.laneCounted_core _) <|
    ite_core (ite_core rfl (s.laneAges_core _)) <| ite_core rfl <| ite_core (ite_core rfl s.discardWindow_core) <|
    ite_core (ite_core rfl s.reverifyAll_core) <| ite_core (s.regMode_core _) <|
    ite_core rfl <| ite_core (ite_core rfl (State.ptpModeSet_core _ _)) <| ite_core (ite_core rfl rfl) <|
    ite_core (s.closeAll_core 3) <| ite_core (s.partnerSet_core v) rfl

theorem writeObj_core (i : Nat) (v : Int) (hr : i = Obj.REG_REF → s.reg.good (v ≠ 0) = true) : (s.writeObj i v).core = s.core :=
  (State.hook_core _ i _ v fun h => by rw [State.putObj_eq]; exact hr h).trans (s.putObj_core i v)

/-! ### The converter's state -/

theorem foldl_convState {α : Type} (f : State → α → State) (hf : ∀ s a, (f s a).conv.state = s.conv.state) (l : List α) :
    (l.foldl f s).conv.state = s.conv.state :=
  List.foldlRecOn l f (motive := fun t : State => t.conv.state = s.conv.state) rfl fun t ht a _ => (hf t a).trans ht

/-- A write of REG_REF, to a lost source as well, leaves the converter's state alone. -/
theorem refWrite_convState (r : Bool) : (s.refWrite r).conv.state = s.conv.state := by
  unfold State.refWrite State.refGone State.refSwitch State.unlock State.discardWindow
  dsimp only
  (repeat' split) <;> simp [State.post_conv, State.condEvent]

theorem hook_convState (i : Nat) (old v : Int) : (s.hook i old v).conv.state = s.conv.state := by
  by_cases h : i = Obj.REG_REF
  · subst h
    exact s.refWrite_convState _
  · exact congrArg Prod.fst (s.hook_core i old v fun hi => absurd hi h)

theorem writeObj_convState (i : Nat) (v : Int) : (s.writeObj i v).conv.state = s.conv.state :=
  (State.hook_convState _ i _ v).trans (congrArg Prod.fst (s.putObj_core i v))

theorem applyWaiting_convState (p : ApplyPoint) : (s.applyWaiting p).conv.state = s.conv.state :=
  foldl_convState _ _ (fun t _ => t.writeObj_convState _ _) _

theorem applyChange_convState : s.applyChange.conv.state = s.conv.state :=
  State.applyWaiting_convState _ _

theorem setAbort_convState (r : Nat) : (s.setAbort r).conv.state = s.conv.state := by
  unfold State.setAbort
  split
  · rw [State.post_conv]
  · rfl

theorem leave_convState (old new : ConvState) : (s.leave old new).conv.state = s.conv.state := by
  unfold State.leave
  dsimp only
  (repeat' split) <;> simp [setAbort_convState]

theorem parkedOff_convState : s.parkedOff.conv.state = s.conv.state := by
  unfold State.parkedOff
  generalize List.range 48 = lanes
  exact foldl_convState s _ (fun t l => by split; exacts [congrArg Prod.fst (t.laneTo_core l _ _), rfl]) lanes

theorem scsEnd_convState (r : Nat) : (s.scsEnd r).conv.state = s.conv.state := by
  unfold State.scsEnd
  split
  · rfl
  · rw [State.post_conv]

theorem enrgStart_convState : s.enrgStart.conv.state = s.conv.state := by
  unfold State.enrgStart
  dsimp only
  (repeat' split) <;> simp

theorem enterRun_convState : s.enterRun.conv.state = s.conv.state := State.enrgStart_convState _

theorem enterScs_convState : s.enterScs.conv.state = s.conv.state := by
  unfold State.enterScs
  dsimp only
  split <;> simp [scsEnd_convState]

theorem enterPr_convState : s.enterPr.conv.state = s.conv.state := congrArg Prod.fst s.blockAll_core

theorem enter_convState (old new : ConvState) : (s.enter old new).conv.state = s.conv.state := by
  have hfirst : (if convBlocked new then s.parkedOff else s).conv.state = s.conv.state := by
    split
    exacts [s.parkedOff_convState, rfl]
  have hswitch : ∀ t : State, (if old = .pr then t.closeSwitches else t).conv.state = t.conv.state := fun t => by split <;> rfl
  unfold State.enter
  dsimp only
  split
  · split
    · rw [hswitch, hfirst]
    · rw [enterRun_convState, hswitch, hfirst]
  · rw [enterScs_convState, hswitch, hfirst]
  · exact (hswitch _).trans hfirst
  · rw [enterPr_convState, hswitch, hfirst]
  · exact (hswitch _).trans hfirst

/-- A transition ends in its state (R30). -/
theorem convTo_convState (new : ConvState) (c : Nat) : (s.convTo new c).conv.state = new := by
  unfold State.convTo
  dsimp only
  split
  · assumption
  · rw [enter_convState, applyChange_convState, leave_convState, State.post_conv]
    rfl

theorem replyTo_convState (r : Option Reply) (a : Ans) : (s.replyTo r a).conv.state = s.conv.state := by
  cases r with
  | none => rfl
  | some r =>
    show (s.reply r a).conv.state = _
    unfold State.reply
    split <;> rfl

theorem actionDone_convState (t id flags : Nat) (late : Lateness) : (s.actionDone t id flags late).conv.state = s.conv.state := by
  unfold State.actionDone
  dsimp only
  split
  · rw [State.postAt_conv]
    rfl
  · rw [State.postAt_conv]
    rfl

theorem actionFailed_convState (t id late : Nat) (st : Byte) : (s.actionFailed t id late st).conv.state = s.conv.state := by
  unfold State.actionFailed
  rw [State.postAt_conv]
  split <;> rfl

theorem answerReq_convState (r : ConvReq) (a : Ans) : (s.answerReq r a).conv.state = s.conv.state := by
  have hreply : ∀ x, (s.replyTo r.reply x).conv.state = s.conv.state := fun x => s.replyTo_convState r.reply x
  unfold State.answerReq
  dsimp only
  split
  · exact hreply _
  · split
    · rw [State.actionDone_convState, hreply]
    · rw [State.actionFailed_convState, hreply]

theorem answerAll_convState (rs : List ConvReq) : (s.answerAll rs).conv.state = s.conv.state :=
  foldl_convState s _ (fun t r => t.answerReq_convState r _) rs

/-- A PR demand takes the converter to PR (R31). -/
theorem goPr_convState : s.goPr.conv.state = .pr :=
  (State.answerAll_convState _ _).trans (State.convTo_convState _ _ _)

/-- A request that waits for the next boundary (R31) leaves the state as it is, as does one that is answered. -/
theorem takeReqs_made_convState (rs : List ConvReq) : (State.takeReqs rs true s).conv.state = s.conv.state := by
  induction rs generalizing s with
  | nil => rfl
  | cons r rs ih =>
    unfold State.takeReqs
    dsimp only
    split
    · rw [ih, answerReq_convState]
    · rw [if_pos rfl, ih]
      rfl

end State
end Sys2Proof.Machine
end

section
/-!
PROOF. The grid angle tracker, setting, limit inputs, trip inputs and precharge (R52 to R54, R105, R123 to R133, R207 to R213).
-/
namespace Sys2Proof.Machine

/-! ### Setting ends -/

theorem State.permitLost_eq (s : State) : s.permitLost = { s with set := s.permitLost.set, log := s.permitLost.log } := by
  unfold State.permitLost State.post
  split
  · rw [State.postAt_eq]
  · rfl

theorem State.permitLost_set (s : State) : s.permitLost.set.active = s.set.active ∧ s.permitLost.set.starting = s.set.starting := by
  unfold State.permitLost
  split
  · rw [State.post_set]
    exact ⟨rfl, rfl⟩
  · exact ⟨rfl, rfl⟩

theorem State.setAbort_eq (s : State) (r : Nat) : s.setAbort r = { s with set := (s.setAbort r).set, log := (s.setAbort r).log } := by
  unfold State.setAbort State.post
  split
  · rw [State.postAt_eq]
  · rfl

theorem State.permitLost_setAbort (s : State) (r : Nat) : (s.permitLost.setAbort r).gt = s.gt ∧ (s.permitLost.setAbort r).bal = s.bal ∧
    (s.permitLost.setAbort r).conv = s.conv := by
  rw [State.setAbort_eq, State.permitLost_eq]
  exact ⟨rfl, rfl, rfl⟩

/-- An abort ends setting, with its reason where setting was active or asked for (R213). -/
theorem State.setAbort_set {s : State} (r : Nat) (hp : s.set.permit = false) :
    (s.setAbort r).set.permit = false ∧ (s.setAbort r).set.active = false ∧ (s.setAbort r).set.starting = false ∧
      (s.set.active = true ∨ s.set.starting = true → (s.setAbort r).set.abortReason = r) := by
  unfold State.setAbort
  split
  · rw [State.post_set]
    exact ⟨rfl, rfl, rfl, fun _ => rfl⟩
  · next h =>
    simp only [Bool.or_eq_true, not_or, Bool.not_eq_true] at h
    exact ⟨hp, h.1, h.2, fun ho => by simp [h.1, h.2] at ho⟩

theorem State.setAbort_of_active {s : State} (r : Nat) (h : s.set.active = true) : s.setAbort r =
    { s with set := { s.set.ended s.offsetsAtRest with abortReason := r, abortCount := s.set.abortCount + 1, abortedRos := true } }.post 0x250A
      noInst [BitVec.ofNat 8 r] := by
  unfold State.setAbort
  exact if_pos (by simp [h])

/-! ### The tracker -/

theorem State.coastDue_iff (s : State) : s.coastDue = true ↔ s.gt.state ≠ .coasting ∧ 4 * s.cfgN Obj.GT_ABSENT_TIME ≤ s.gt.absentTicks := by
  simp [State.coastDue]

theorem State.acquireDue_iff (s : State) : s.acquireDue = true ↔ s.gt.state = .coasting ∧ s.gridBack = true := by
  simp [State.acquireDue]

theorem State.fitDue_iff (s : State) : s.fitDue = true ↔ s.gt.state = .acquiring ∧ s.nomCycle ≤ s.gt.qualTicks := by
  simp [State.fitDue]

/-- The tracker coasts at the frequency it had when the grid fell (R52). -/
def State.coasts (s : State) : State :=
  { s with gt := { s.gt with state := .coasting, frozen := s.gt.meanAtFall, coasted := true, absentTicks := 0, qualTicks := 0 } }.post
    0x2003 noInst []

theorem State.coasts_gt (s : State) :
    s.coasts.gt = { s.gt with state := .coasting, frozen := s.gt.meanAtFall, coasted := true, absentTicks := 0, qualTicks := 0 } := by
  unfold State.coasts
  rw [State.post_gt]

theorem State.coasts_set (s : State) : s.coasts.set = s.set := by
  unfold State.coasts
  rw [State.post_set]

theorem State.coasts_bal (s : State) : s.coasts.bal = s.bal := by
  unfold State.coasts
  rw [State.post_bal]

theorem State.coasts_conv (s : State) : s.coasts.conv = s.conv := by
  unfold State.coasts
  rw [State.post_conv]

theorem State.Awake.coasts {s : State} (h : s.Awake) : s.coasts.Awake := .post h

theorem State.gtCoast_unlocked {s : State} (h : s.gt.state ≠ .locked) : s.gtCoast = s.coasts := by
  unfold State.gtCoast
  exact if_neg h

theorem State.gtCoast_locked {s : State} (h : s.gt.state = .locked) : s.gtCoast = s.coasts.permitLost.setAbort 3 := by
  unfold State.gtCoast
  exact if_pos h

/-- The least-squares fit of a cycle passes (R53). -/
theorem State.fitPasses_iff (s : State) : s.fitPasses = true ↔
    |(s.gt.fit.slope s.nomCycle).1| * 1000 ≤ s.cfg Obj.FREQ_LIMIT * ((s.gt.fit.slope s.nomCycle).2 * s.stepNom) ∧
      10 * (s.gt.fit.magMax - s.gt.fit.magMin) * s.nomCycle ≤ s.gt.fit.sumMag := by
  simp [State.fitPasses]

theorem State.reacquire_idle {s : State} (r : FitRounding) (h : s.fitDue = false) : s.reacquire r = s := by
  unfold State.reacquire
  exact if_pos (by simp [h])

theorem State.reacquire_fails {s : State} (r : FitRounding) (hd : s.fitDue = true) (hp : s.fitPasses = false) :
    s.reacquire r = { s with gt := { s.gt with qualTicks := 0 } } := by
  unfold State.reacquire
  rw [if_neg (by simp [hd]), if_pos (by simp [hp])]

/-- What a fit that passes makes of the tracker: it is LOCKED at the fitted angle and frequency, with the jump recorded (R53). -/
structure Tracker.FitTaken (s : State) (r : FitRounding) (g : Tracker) : Prop where
  state : g.state = .locked
  theta : g.theta = s.fitAngle r.angle
  omega : g.omega = sat32 (s.gt.fit.dev r.dev s.nomCycle s.stepNom)
  fitMag : g.fitMag = (s.gt.fit.mag r.mag s.nomCycle).toNat
  jumpCount : g.jumpCount = s.gt.jumpCount + 1
  jumpEdge : g.jumpEdge = true
  jumpRos : g.jumpRos = true

theorem State.reacquire_passes {s : State} (r : FitRounding) (hd : s.fitDue = true) (hp : s.fitPasses = true) :
    Tracker.FitTaken s r (s.reacquire r).gt ∧
      s.reacquire r = { s with gt := (s.reacquire r).gt, sched := (s.reacquire r).sched, log := (s.reacquire r).log } := by
  unfold State.reacquire
  rw [if_neg (by simp [hd]), if_neg (by simp [hp])]
  dsimp only
  rw [State.postAt_gt, State.postAt_sched]
  exact ⟨⟨rfl, rfl, rfl, rfl, rfl, rfl, rfl⟩, State.postAt_eq _ _ _ _ _⟩

theorem State.Awake.reacquire {s : State} {r : FitRounding} (h : s.Awake) : (s.reacquire r).Awake := by
  unfold State.reacquire
  split
  · exact h
  split
  · exact h
  · exact .postAt h

theorem does_gtReacquired {s : State} (hs : s.Awake) (r : FitRounding) : Does (.gtReacquired r) s (s.clearOut.reacquire r) :=
  does_due (due := fun _ => true) (f := fun s => s.reacquire r) hs rfl rfl (.reacquire hs)

theorem does_gtCoastStart {s : State} (hs : s.Awake) (h : s.gt.state ≠ .coasting) (ha : 4 * s.cfgN Obj.GT_ABSENT_TIME ≤ s.gt.absentTicks)
    (hf : s.clearOut.gtCoast.Awake) : Does .gtCoastStart s s.clearOut.gtCoast :=
  does_due (due := State.coastDue) (f := State.gtCoast) hs rfl (s.coastDue_iff.mpr ⟨h, ha⟩) hf

/-- Settles O11: the rows are due exactly under their conditions, a coast from LOCKED ends setting (`State.setAbort_set`), and a fit is taken or
starts another cycle (`State.reacquire_passes`, `State.reacquire_fails`). -/
theorem trackerChangesState : Obligations.TrackerChangesState := by
  unfold Obligations.TrackerChangesState
  intro s hs
  refine ⟨fun hg ha => ?_, fun hg ha => ?_, fun h => ?_, fun hg hb => ?_, fun h => ?_, ?fit⟩
  · have hf : s.clearOut.gtCoast = s.clearOut.coasts := State.gtCoast_unlocked (by simp [hg])
    have := does_gtCoastStart hs (by simp [hg]) ha (hf ▸ .coasts hs)
    rwa [hf] at this
  · have hf : s.clearOut.gtCoast = s.clearOut.coasts.permitLost.setAbort 3 := State.gtCoast_locked hg
    have hd := does_gtCoastStart hs (by simp [hg]) ha (by
      rw [hf, State.setAbort_eq, State.permitLost_eq]; exact State.Awake.coasts hs)
    rw [hf] at hd
    obtain ⟨hactive, hstarting⟩ := s.clearOut.coasts.permitLost_set
    obtain ⟨h1, h2, h3, h4⟩ := State.setAbort_set 3 (s.clearOut.coasts.permitLost_permit)
    rw [hactive, hstarting, State.coasts_set] at h4
    refine hd.next fun t he => ?_
    obtain ⟨hgt, hbal, hconv⟩ := s.clearOut.coasts.permitLost_setAbort 3
    rw [he.gt_eq, he.set_eq, he.bal_eq, he.conv_eq, hgt, hbal, hconv, State.coasts_gt, State.coasts_bal, State.coasts_conv]
    exact ⟨rfl, rfl, h1, h2, h3, rfl, rfl, h4⟩
  · exact idles_due (due := State.coastDue) hs rfl (Bool.eq_false_iff.mpr fun hd => by
      obtain ⟨hg, ha⟩ := s.coastDue_iff.mp hd
      obtain h | h := h
      · exact hg h
      · exact absurd ha (Nat.not_le.mpr h))
  · exact does_due (due := State.acquireDue) (f := State.gtAcquire) hs rfl (s.acquireDue_iff.mpr ⟨hg, hb⟩) hs
  · exact idles_due (due := State.acquireDue) hs rfl (Bool.eq_false_iff.mpr fun hd => by
      obtain ⟨hg, hb⟩ := s.acquireDue_iff.mp hd
      obtain h | h := h
      · exact h hg
      · simp [h] at hb)
  case fit =>
    intro r fit slope inside
    refine ⟨fun hg hq hin => ?_, fun hg hq hin => ?_, fun h => ?_⟩
    · obtain ⟨htaken, heq⟩ := State.reacquire_passes (s := s.clearOut) r (s.fitDue_iff.mpr ⟨hg, hq⟩) (s.fitPasses_iff.mpr hin)
      refine (does_gtReacquired hs r).next fun t he => ?_
      rw [he.gt_eq, he.bal_eq, he.conv_eq, he.objs_eq]
      exact ⟨htaken.state, htaken.theta, htaken.omega, htaken.fitMag, htaken.jumpCount, htaken.jumpEdge, htaken.jumpRos, by rw [heq]; rfl,
        by rw [heq]; rfl, by rw [heq]; rfl⟩
    · have hf := State.reacquire_fails (s := s.clearOut) r (s.fitDue_iff.mpr ⟨hg, hq⟩)
        (Bool.eq_false_iff.mpr fun hp => hin (s.fitPasses_iff.mp hp))
      have hd := does_gtReacquired hs r
      rwa [hf] at hd
    · have hf : s.clearOut.reacquire r = s.clearOut := State.reacquire_idle r (Bool.eq_false_iff.mpr fun hd => by
        obtain ⟨hg, hq⟩ := s.fitDue_iff.mp hd
        obtain h | h := h
        · exact h hg
        · exact absurd hq (Nat.not_le.mpr h))
      have hd := does_gtReacquired hs r
      rwa [hf] at hd

/-! ### Setting's permit and timeout -/

theorem State.permitDue_iff (s : State) :
    s.permitDue = true ↔ s.set.active = true ∧ s.set.permit = false ∧ s.cfgN Obj.SET_DWELL * 4000 < s.set.dwell := by
  simp only [State.permitDue, Bool.and_eq_true, Bool.not_eq_true', decide_eq_true_eq, and_assoc]
  rfl

theorem State.setTimeoutDue_iff (s : State) : s.setTimeoutDue = true ↔ s.set.active = true ∧ s.set.everPermit = false ∧
    s.cfg Obj.SET_TIMEOUT ≠ 0 ∧ s.set.startTick + s.cfgN Obj.SET_TIMEOUT * 4000 ≤ s.tick.now := by
  simp only [State.setTimeoutDue, Bool.and_eq_true, Bool.not_eq_true', decide_eq_true_eq, and_assoc]
  rfl

theorem State.Awake.setAbort {s : State} {r : Nat} (h : s.Awake) : (s.setAbort r).Awake := by
  rw [State.setAbort_eq]
  exact h

/-- Settles O14: the two rows are due exactly under their conditions. -/
theorem settingPermitsOrTimesOut : Obligations.SettingPermitsOrTimesOut := by
  unfold Obligations.SettingPermitsOrTimesOut
  intro s hs
  refine ⟨fun hon hnew hlong => ?_, fun h => ?_, fun hon hnever hset hlate => ?_, fun h => ?_⟩
  · exact does_due (due := State.permitDue) (f := State.permitGiven) hs rfl (s.permitDue_iff.mpr ⟨hon, hnew, hlong⟩) (.post hs)
  · refine idles_due (due := State.permitDue) hs rfl (Bool.eq_false_iff.mpr fun hd => ?_)
    obtain ⟨hon, hnew, hlong⟩ := s.permitDue_iff.mp hd
    obtain h | h | h := h
    · simp [h] at hon
    · simp [h] at hnew
    · exact absurd hlong (Nat.not_lt.mpr h)
  · have hd := does_due (c := .setTimeout) (due := State.setTimeoutDue) (f := fun s => s.setAbort 2) hs rfl
      (s.setTimeoutDue_iff.mpr ⟨hon, hnever, hset, hlate⟩) (.setAbort hs)
    rwa [State.setAbort_of_active (s := s.clearOut) 2 hon] at hd
  · refine idles_due (due := State.setTimeoutDue) (f := fun s => s.setAbort 2) hs rfl (Bool.eq_false_iff.mpr fun hd => ?_)
    obtain ⟨hon, hnever, hset, hlate⟩ := s.setTimeoutDue_iff.mp hd
    obtain h | h | h | h := h
    · simp [h] at hon
    · simp [h] at hnever
    · exact hset h
    · exact absurd hlate (Nat.not_le.mpr h)

/-! ### Limit inputs -/

theorem flag_setFlag_same {l : List Bool} {n : Nat} (b : Bool) (h : n < l.length) : flag (setFlag l n b) n = b := by
  simp [flag, setFlag, h]

theorem flag_setFlag_other (l : List Bool) {n k : Nat} (b : Bool) (h : k ≠ n) : flag (setFlag l n b) k = flag l k := by
  simp [flag, setFlag, h.symm]

theorem State.noteWake_eq (s : State) (w : WakeSource) : s.noteWake w = { s with pwr := { s.pwr with entry := (s.noteWake w).pwr.entry } } := by
  unfold State.noteWake
  split
  · split <;> rfl
  · rfl

theorem State.Awake.noteWake {s : State} {w : WakeSource} (h : s.Awake) : (s.noteWake w).Awake := by
  rw [State.noteWake_eq]
  exact h

/-- The limit inputs after a filtered change of input `n` (R208). -/
def State.limFiltered (s : State) (n : Nat) (active : Bool) : Limits :=
  { s.lim with
    filtered := setFlag s.lim.filtered n active, quiet := setFlag s.lim.quiet n (!active && s.cfg (Obj.LIM_QUIET + n) ≠ 0)
    changes := s.lim.changes.set n (s.tick.now :: s.recentChanges n), changeCount := s.lim.changeCount + 1 }

/-- A change of input `n` that latches its chatter (R209). -/
def State.chatters (s : State) (n : Nat) : Bool :=
  s.cfgN Obj.LIM_CHAT_N ≠ 0 && s.cfgN Obj.LIM_CHAT_N < (s.tick.now :: s.recentChanges n).length && !flag s.lim.chatter n

def State.limAfter (s : State) (n : Nat) (active : Bool) : Limits :=
  { s.limFiltered n active with chatter := if s.chatters n then setFlag s.lim.chatter n true else s.lim.chatter }

theorem State.limOnSetting_eq (s : State) (n : Nat) :
    s.limOnSetting n = { s with set := (s.limOnSetting n).set, log := (s.limOnSetting n).log } := by
  unfold State.limOnSetting
  split
  · exact State.setAbort_eq s _
  · rfl

/-- The filtered change is logged. -/
def State.limNoted (s : State) (n : Nat) (active : Bool) : State :=
  { s with lim := s.limFiltered n active }.post (if active then 0x2503 else 0x2504) n []

/-- A chatter that latches is logged (R209). -/
def State.chatterNoted (s : State) (n : Nat) : State :=
  { s with lim := { s.lim with chatter := setFlag s.lim.chatter n true } }.post 0x2505 n []

theorem State.limNoted_eq (s : State) (n : Nat) (active : Bool) :
    s.limNoted n active = { s with lim := s.limFiltered n active, log := (s.limNoted n active).log } := by
  unfold State.limNoted State.post
  rw [State.postAt_eq]

theorem State.chatterNoted_eq (s : State) (n : Nat) :
    s.chatterNoted n = { s with lim := { s.lim with chatter := setFlag s.lim.chatter n true }, log := (s.chatterNoted n).log } := by
  unfold State.chatterNoted State.post
  rw [State.postAt_eq]

theorem State.limChanged_steps (s : State) (n : Nat) (active : Bool) : s.limChanged n active =
    ((if s.chatters n then (s.limNoted n active).chatterNoted n else s.limNoted n active).limOnSetting n).noteWake (.lim (Fin.ofNat 8 n)) := by
  rfl

theorem State.limChanged_eq (s : State) (n : Nat) (active : Bool) : s.limChanged n active =
    { s with lim := s.limAfter n active, set := (s.limChanged n active).set, log := (s.limChanged n active).log
             pwr := { s.pwr with entry := (s.limChanged n active).pwr.entry } } := by
  rw [State.limChanged_steps, State.noteWake_eq, State.limOnSetting_eq]
  unfold State.limAfter
  split
  · rw [State.chatterNoted_eq, State.limNoted_eq]
    rfl
  · rw [State.limNoted_eq]
    rfl

theorem State.Awake.limChanged {s : State} {n : Nat} {active : Bool} (h : s.Awake) : (s.limChanged n active).Awake := by
  rw [State.limChanged_eq]
  exact h

theorem State.limEdge_change {s : State} {n run : Nat} {level : Bool} (hn : (level != (s.cfgN Obj.LIM_POL).testBit n) ≠ flag s.lim.filtered n)
    (hr : max 1 (s.cfgN (Obj.LIM_FILT + n)) ≤ run) : s.limEdge n level run = s.limChanged n (level != (s.cfgN Obj.LIM_POL).testBit n) := by
  unfold State.limEdge
  exact if_neg (by simpa [hn, Nat.one_le_iff_ne_zero] using hr)

theorem State.limEdge_idle {s : State} {n run : Nat} {level : Bool}
    (h : run < max 1 (s.cfgN (Obj.LIM_FILT + n)) ∨ (level != (s.cfgN Obj.LIM_POL).testBit n) = flag s.lim.filtered n) :
    s.limEdge n level run = s := by
  unfold State.limEdge
  exact if_pos (by simpa using h.symm)

/-- Chatter is latched by a change beyond LIM_CHAT_N of them, and stays (R209). -/
theorem State.limAfter_chatter {s : State} {n : Nat} (active : Bool) (h : n < s.lim.chatter.length) :
    flag (s.limAfter n active).chatter n = (flag s.lim.chatter n ||
      (s.cfgN Obj.LIM_CHAT_N ≠ 0 && decide (s.cfgN Obj.LIM_CHAT_N < (s.recentChanges n).length + 1))) := by
  unfold State.limAfter State.chatters
  dsimp only [List.length_cons]
  split
  · next hc =>
    obtain ⟨hc, -⟩ := Bool.and_eq_true_iff.mp hc
    rw [flag_setFlag_same true h, hc, Bool.or_true]
  · next hc =>
    cases hl : flag s.lim.chatter n
    · simpa [hl] using hc
    · rfl

theorem State.quietDue_iff (s : State) (n : Nat) : s.quietDue n = true ↔ flag s.lim.quiet n = true ∧ flag s.lim.filtered n = false ∧
    (s.lim.changes.getD n []).headD 0 + 4000 * s.cfgN (Obj.LIM_QUIET + n) ≤ s.tick.now := by
  simp [State.quietDue, and_assoc]

/-- Settles O15: a long enough run of the other level is a change (`State.limEdge_change`), a change beyond the count latches the chatter
(`State.limAfter_chatter`), and the quiet time ends where it is due (`State.quietDue_iff`). -/
theorem limitInputsAreFiltered : Obligations.LimitInputsAreFiltered := by
  unfold Obligations.LimitInputsAreFiltered
  intro s n hs
  refine ⟨fun level run hr hfl hch hnew => ?_, fun level run h => ?_, fun hq hf ht => ?_, fun h => ?_⟩
  · have hlim := State.limEdge_change (s := s.clearOut) hnew hr
    have hdoes := does_due (c := .limEdge n level run) (due := fun _ => true) (f := fun s => s.limEdge n.val level run) hs rfl rfl
      (hlim ▸ .limChanged hs)
    rw [hlim] at hdoes
    refine hdoes.next fun t he => ?_
    rw [he.lim_eq, he.bal_eq, he.conv_eq, he.hands_eq, he.objs_eq, State.limChanged_eq]
    exact ⟨flag_setFlag_same _ (by simp [hfl]), rfl, fun k hk => flag_setFlag_other _ _ hk,
      State.limAfter_chatter (s := s.clearOut) _ (by simp [hch]), rfl, rfl, rfl, rfl⟩
  · exact idles_still (due := fun _ => true) (f := fun s => s.limEdge n.val level run) hs rfl (State.limEdge_idle (s := s.clearOut) h)
  · exact does_due (due := fun s => s.quietDue n.val) (f := fun s => { s with lim := { s.lim with quiet := setFlag s.lim.quiet n.val false } }) hs rfl
      ((s.quietDue_iff n).mpr ⟨hq, hf, ht⟩) hs
  · exact idles_due (due := fun s => s.quietDue n.val) hs rfl (Bool.eq_false_iff.mpr fun hd => by
      simpa [h] using ((s.quietDue_iff n).mp hd).1)

/-! ### Trip inputs -/

theorem State.blockArms_eq (s : State) (m : Nat) :
    s.blockArms m = { s with lanes := (s.blockArms m).lanes, cells := (s.blockArms m).cells, free := s.free + 1 } := by
  unfold State.blockArms
  generalize List.range 48 = ls
  have hfold := List.foldlRecOn ls (fun (s : State) l => if s.laneArm l < 6 && m.testBit (s.laneArm l) then s.blockLane l else s) (b := s)
    (motive := fun t : State => t = { s with lanes := t.lanes, cells := t.cells }) rfl fun t ht l _ => by
      split
      · unfold State.blockLane State.setLane
        dsimp only
        rw [ht]
      · exact ht
  unfold State.fresh
  dsimp only
  rw [hfold]

/-- The block commands of a trip, on the arms that have not just had theirs (R124). -/
def State.tripBlocks (s : State) (n sent : Nat) : State :=
  if s.tripArms n ^^^ (s.tripArms n &&& sent) = 0 then s else s.blockArms (s.tripArms n ^^^ (s.tripArms n &&& sent))

theorem State.tripBlocks_eq (s : State) (n sent : Nat) : s.tripBlocks n sent =
    { s with lanes := (s.tripBlocks n sent).lanes, cells := (s.tripBlocks n sent).cells, free := (s.tripBlocks n sent).free } := by
  unfold State.tripBlocks
  split
  · rfl
  · rw [State.blockArms_eq]

theorem State.tripActs_none {s : State} {n : Nat} (sent : Nat) (h : s.tripArms n = 0) : s.tripActs n sent = s := if_pos h

theorem State.tripActs_some {s : State} {n : Nat} (sent : Nat) (h : s.tripArms n ≠ 0) : s.tripActs n sent =
    { s.tripBlocks n sent with conv := if s.conv.state = .run then { s.conv with tripMove := true } else s.conv } := by
  have hconv : (s.tripBlocks n sent).conv = s.conv := by rw [State.tripBlocks_eq]
  rw [← hconv]
  unfold State.tripActs
  rw [if_neg h]
  show (if (s.tripBlocks n sent).conv.state = .run then _ else s.tripBlocks n sent) = _
  split <;> rfl

theorem State.postFine_eq (s : State) (t : Nat) (off : Option Nat) (c i : Nat) (d : List Byte) :
    s.postFine t off c i d = { s with log := (s.postFine t off c i d).log } := by
  unfold State.postFine State.takeIn
  dsimp only
  (repeat' split) <;> rfl

theorem State.tripWake_eq (s t : State) (n : Nat) : s.tripWake n t = { t with pwr := { t.pwr with entry := (s.tripWake n t).pwr.entry } } := by
  unfold State.tripWake
  split
  · exact State.noteWake_eq t .trip
  · rfl

/-- What an active edge of input `n` has made of the trip inputs (R123, R124, R133). -/
structure Trips.Latched (t u : Trips) (n : Nat) (same : Bool) : Prop where
  filtered : u.filtered = setFlag t.filtered n true
  latch : u.latch = setFlag t.latch n true
  count : u.count = t.count + 1
  first : u.first = if t.latch.any id then if same && t.sampleFirst then min t.first n else t.first else n

theorem State.tripActs_keeps (s : State) (n sent : Nat) : s.tripActs n sent =
    { s with lanes := (s.tripActs n sent).lanes, cells := (s.tripActs n sent).cells, free := (s.tripActs n sent).free
             conv := if s.tripArms n ≠ 0 ∧ s.conv.state = .run then { s.conv with tripMove := true } else s.conv } := by
  by_cases h : s.tripArms n = 0
  · rw [State.tripActs_none sent h, if_neg (by simp [h])]
  · rw [State.tripActs_some sent h, State.tripBlocks_eq]
    simp [h]

/-- The inputs as an active edge leaves them, before the cells are blocked. -/
def State.tripNoted (s : State) (n : Nat) (same : Bool) : State :=
  { (if same then s else s.fresh) with trips := { s.trips with
    filtered := setFlag s.trips.filtered n true, latch := setFlag s.trips.latch n true, count := s.trips.count + 1
    first := if !s.trips.latch.any id then n
      else if !s.trips.latch.any id || (same && s.trips.sampleFirst) then min s.trips.first n else s.trips.first
    sampleFirst := !s.trips.latch.any id || (same && s.trips.sampleFirst)
    sampleOff := if same then s.trips.sampleOff else 10 * (s.freeNat % 25)
    sampleArms := (if same then s.trips.sampleArms else 0) ||| s.tripArms n } }

theorem State.tripNoted_eq (s : State) (n : Nat) (same : Bool) :
    s.tripNoted n same = { s with trips := (s.tripNoted n same).trips, free := (s.tripNoted n same).free } := by
  cases same <;> rfl

theorem State.tripNoted_latched (s : State) (n : Nat) (same : Bool) : s.trips.Latched (s.tripNoted n same).trips n same := by
  refine ⟨rfl, rfl, rfl, ?_⟩
  unfold State.tripNoted
  cases s.trips.latch.any id <;> simp

theorem State.tripActive_steps (s : State) (n : Nat) (same : Bool) : ∃ sent tick off inst data, s.tripActive n same =
    ((s.tripNoted n same).tripActs n sent).postFine tick off 0x2302 inst data := by
  cases same <;> exact ⟨_, _, _, _, _, rfl⟩

theorem State.tripActive_eq (s : State) (n : Nat) (same : Bool) :
    let t := s.tripActive n same
    t = { s with trips := t.trips, lanes := t.lanes, cells := t.cells, log := t.log, free := t.free
                 conv := if s.tripArms n ≠ 0 ∧ s.conv.state = .run then { s.conv with tripMove := true } else s.conv } ∧
      s.trips.Latched t.trips n same := by
  intro t
  obtain ⟨sent, tick, off, inst, data, ht⟩ : ∃ sent tick off inst data, t = _ := s.tripActive_steps n same
  have harms : (s.tripNoted n same).tripArms n = s.tripArms n := by rw [State.tripNoted_eq]; rfl
  have hconv : (s.tripNoted n same).conv = s.conv := by rw [State.tripNoted_eq]
  have hlatched := s.tripNoted_latched n same
  rw [ht, State.postFine_eq, State.tripActs_keeps, harms, hconv]
  refine ⟨?_, hlatched⟩
  rw [State.tripNoted_eq]

theorem State.takePin_tripIn {s : State} {n : Nat} {pin : Bool} (hn : n < s.trips.pin.length)
    (h : (pin != (s.cfgN Obj.TRIP_POL).testBit n) = true) : (s.takePin n pin).tripIn n = true := by
  have hpin : flag (s.takePin n pin).trips.pin n = true := (flag_setFlag_same _ hn).trans h
  simp [State.tripIn, State.tripSources, hpin, b2n]

theorem State.takePin_tripOut {s : State} {n : Nat} {pin : Bool} (hn : n < s.trips.pin.length)
    (h : (pin != (s.cfgN Obj.TRIP_POL).testBit n) = false) (hi : s.trips.intern.getD n 0 = 0) : (s.takePin n pin).tripIn n = false := by
  have hpin : flag (s.takePin n pin).trips.pin n = false := (flag_setFlag_same _ hn).trans h
  have hintern : (s.takePin n pin).trips.intern.getD n 0 = 0 := hi
  simp only [State.tripIn, State.tripSources, hpin, hintern, b2n]
  rfl

theorem State.tripEdge_active {s : State} {n run : Nat} {pin : Bool} (same : Bool) (hin : (s.takePin n pin).tripIn n = true)
    (hf : flag s.trips.filtered n = false) (hr : s.cfgN (Obj.TRIP_FILT + n) ≤ run) :
    s.tripEdge n pin run same = (s.takePin n pin).tripActive n same := by
  unfold State.tripEdge
  have hoff : flag (s.takePin n pin).trips.filtered n = false := hf
  exact if_pos (by rw [hin, hoff]; exact decide_eq_true hr)

theorem State.tripInactive_ends {s : State} {n run : Nat} {pin : Bool} (hout : (s.takePin n pin).tripIn n = false)
    (hf : flag s.trips.filtered n = true) (hr : s.cfgN (Obj.TRIP_FILT + n) ≤ run) : s.tripInactive n pin run =
      { s.takePin n pin with trips := { (s.takePin n pin).trips with filtered := setFlag s.trips.filtered n false } } := by
  unfold State.tripInactive
  have hon : flag (s.takePin n pin).trips.filtered n = true := hf
  exact if_pos (by rw [hout, hon]; exact decide_eq_true hr)

/-- Settles O16: a long enough run latches the input (`State.tripActive_eq`), and the end of the value leaves the latch. -/
theorem tripInputsLatch : Obligations.TripInputsLatch := by
  unfold Obligations.TripInputsLatch
  intro s n pin same run hs hlatch hfilt hpins
  have hpin : n.val < s.clearOut.trips.pin.length := by simp [hpins]
  refine ⟨fun hactive hoff hrun => ?_, fun hinactive hintern hon hrun => ?_⟩
  · have hedge := State.tripEdge_active (s := s.clearOut) same (State.takePin_tripIn hpin hactive) hoff hrun
    have hexec : exec (.tripEdge n pin ⟨run, same⟩) s =
      runSafe true s fun s => s.tripWake n.val (s.tripEdge n.val pin run same) := rfl
    obtain ⟨heq, hl⟩ := (s.clearOut.takePin n.val pin).tripActive_eq n.val same
    have hawake : (s.clearOut.tripWake n.val ((s.clearOut.takePin n.val pin).tripActive n.val same)).Awake := by
      rw [State.tripWake_eq, heq]
      exact hs
    have hdoes : Does (.tripEdge n pin ⟨run, same⟩) s _ := does_safe hs hexec (by rw [hedge]) hawake
    refine hdoes.next fun t he => ?_
    rw [he.trips_eq, he.conv_eq, he.bal_eq, he.esc_eq, he.hands_eq, he.objs_eq, State.tripWake_eq, heq]
    refine ⟨?_, ?_, hl.count, hl.first, fun k hk => ?_, fun harms hst => ?_, fun h => ?_, ?_, rfl, rfl, rfl, rfl⟩
    · exact hl.filtered ▸ flag_setFlag_same true (by simp [State.takePin, hfilt])
    · exact hl.latch ▸ flag_setFlag_same true (by simp [State.takePin, hlatch])
    · exact hl.latch ▸ flag_setFlag_other _ true hk
    · rw [if_pos ⟨harms, hst⟩]
    · refine if_neg ?_
      rintro ⟨harms, hst⟩
      exact h.elim harms fun h => h hst
    · show (ite _ _ _ : Conv).state = _
      split <;> rfl
  · have hin := State.tripInactive_ends (s := s.clearOut) (State.takePin_tripOut hpin hinactive hintern) hon hrun
    have hpin : s.clearOut.takePin n.val pin = { s.clearOut with trips := { s.trips with pin := s.trips.pin.set n.val false } } := by
      rw [← hinactive]
      rfl
    rw [hpin] at hin
    exact does_safe hs rfl hin hs

/-! ### Precharge -/

theorem State.prechargeDone_done {s : State} (hs : s.Awake) (hst : s.conv.state = .precharge) (hr : s.pair.role ≠ .standby)
    (hp : s.precharged = true) : s.prechargeDone = { s with conv := { s.conv with prechg := true } } := by
  unfold State.prechargeDone
  exact if_pos (by simp [hst, hs.ticks, hr, hp])

theorem State.prechargeDone_idle {s : State} (h : s.conv.state ≠ .precharge ∨ s.precharged = false ∨ s.pair.role = .standby) :
    s.prechargeDone = s := by
  unfold State.prechargeDone
  refine if_neg fun hc => ?_
  simp only [Bool.and_eq_true, decide_eq_true_eq] at hc
  obtain ⟨⟨⟨hst, -⟩, hr⟩, hp⟩ := hc
  obtain h | h | h := h
  · exact h hst
  · simp [h] at hp
  · exact hr h

/-- The transition of a boundary that no request asks for (R31). -/
def State.ownMove (s : State) : State :=
  if s.prDemand then s.goPr
  else match s.follows with
    | some c => s.convTo c 1
    | none =>
      if s.pair.role = .standby then s
      else if s.scsDemand && s.conv.state = .run then s.goScs
      else if s.conv.tripMove && s.conv.state = .run then s.convTo .ready 2
      else if s.conv.modDisMove && s.conv.state = .run then s.convTo .ready 6
      else if s.conv.prechg && s.conv.state = .precharge then { s with arms := { s.arms with prechgDone := true } }.convTo .ready 1
      else s

theorem State.resolve_eq (s : State) : s.resolve = State.takeReqs s.ownMove.conv.reqs (decide (s.ownMove.conv.state ≠ s.conv.state))
    { s.ownMove with conv := { s.ownMove.conv with reqs := [], tripMove := false, modDisMove := false, prechg := false }
                     pair := { s.ownMove.pair with inherits := false } } := rfl

/-- A boundary that has made a transition of its own takes no request (R31). -/
theorem State.resolve_ownMove {s : State} (h : s.ownMove.conv.state ≠ s.conv.state) : s.resolve.conv.state = s.ownMove.conv.state := by
  rw [State.resolve_eq, decide_eq_true h, State.takeReqs_made_convState]

/-- With nothing above it, the completed precharge takes PRECHARGE to READY (R31, R105). -/
theorem State.ownMove_precharged {s : State} (hst : s.conv.state = .precharge) (hp : s.conv.prechg = true) (hr : s.pair.role ≠ .standby)
    (hf : s.follows = none) (hd : s.prDemand = false) : s.ownMove.conv.state = .ready := by
  unfold State.ownMove
  simp only [hd, hf, hr, hst, hp, Bool.false_eq_true, if_false, if_true, decide_false, decide_true, Bool.and_false, Bool.and_true,
    reduceCtorEq]
  exact State.convTo_convState _ _ _

/-- A PR demand comes before every other cause of a transition (R31). -/
theorem State.ownMove_prDemand {s : State} (hd : s.prDemand = true) : s.ownMove.conv.state = .pr := by
  unfold State.ownMove
  rw [if_pos hd]
  exact s.goPr_convState

/-- Settles O17: the row notes the completed precharge, and the boundary takes it where nothing stands above it (`State.ownMove_precharged`). -/
theorem prechargeCompletes : Obligations.PrechargeCompletes := by
  unfold Obligations.PrechargeCompletes
  intro s hs
  refine ⟨fun hst hr hp => does_safe hs rfl (State.prechargeDone_done (s := s.clearOut) hs hst hr hp) hs,
    fun h => idles_safe hs rfl (State.prechargeDone_idle (s := s.clearOut) h), fun hst hp _ hr hf => ⟨fun hd => ?_, fun hd => ?_⟩⟩
  · have hready := State.ownMove_precharged hst hp hr hf hd
    exact (State.resolve_ownMove (by simp [hready, hst])).trans hready
  · have hpr := State.ownMove_prDemand hd
    exact (State.resolve_ownMove (by simp [hpr, hst])).trans hpr

end Sys2Proof.Machine
end

section
/-!
PROOF. Groups of writes at their boundary, cells that go stale and come back (R97 to R101, R186).
-/
namespace Sys2Proof.Machine

/-! ### An answer -/

theorem State.replyTo_eq (s : State) (r : Option Reply) (a : Ans) : s.replyTo r a = { s with host := (s.replyTo r a).host } := by
  cases r with
  | none => rfl
  | some r =>
    show s.reply r a = { s with host := (s.reply r a).host }
    unfold State.reply
    split <;> rfl

theorem State.Awake.replyTo {s : State} {r : Option Reply} {a : Ans} (h : s.Awake) : (s.replyTo r a).Awake := by
  rw [State.replyTo_eq]
  exact h

/-! ### A stale cell -/

theorem cellNumber_div (l : LaneId) (i : CellIx) : cellNumber l i / 64 = l.val := by
  have := i.isLt
  unfold cellNumber
  omega

theorem cellNumber_mod (l : LaneId) (i : CellIx) : cellNumber l i % 64 = i.val := by
  have := i.isLt
  unfold cellNumber
  omega

theorem State.cellInUse_number (s : State) (l : LaneId) (i : CellIx) : s.cellInUse (cellNumber l i) = decide (i.val < s.laneCells l.val) := by
  unfold State.cellInUse
  rw [cellNumber_div, cellNumber_mod]

theorem State.cellAge_some {s : State} {l : LaneId} {i : CellIx} (harm : s.laneArm l.val < 6) (hi : i.val < s.laneCells l.val) :
    s.cellAge (cellNumber l i) = (s.cell (cellNumber l i)).age := by
  unfold State.cellAge State.cellArm
  rw [State.cellInUse_number, cellNumber_div]
  exact if_pos (by simp [harm, hi])

theorem State.cellAge_none {s : State} {l : LaneId} {i : CellIx} (h : 6 ≤ s.laneArm l.val ∨ s.laneCells l.val ≤ i.val) :
    s.cellAge (cellNumber l i) = none := by
  unfold State.cellAge State.cellArm
  rw [State.cellInUse_number, cellNumber_div]
  exact if_neg (by simp; omega)

theorem State.stale_iff (s : State) (c : Nat) : s.stale c = true ↔ ∃ a, s.cellAge c = some a ∧ s.cfgN Obj.STALE_TICKS < a := by
  unfold State.stale
  split
  · next a h => simp [h]
  · next h => simp [h]

theorem State.cellStale_idle {s : State} {c : Nat} (h : s.stale c = false ∨ (s.cell c).staleSeen = true) : s.cellStale c = s := by
  unfold State.cellStale
  exact if_neg (by obtain h | h := h <;> simp [h])

theorem State.cellStale_drops {s : State} {c : Nat} (hu : s.cellInUse c = true) (hst : s.stale c = true) (hn : (s.cell c).staleSeen = false) :
    s.cellStale c = { s.setCell c fun (x : Cell) => { x with staleSeen := true } with
      arms := { s.arms.drop c with staleEvents := s.arms.staleEvents + 1 } } := by
  unfold State.cellStale
  exact if_pos (by simp [hu, hst, hn])

theorem State.cellLostDue_iff {s : State} {c a : Nat} (ha : (s.cell c).age = some a) : s.cellLostDue c = true ↔ s.cfg Obj.CELL_FAIL_TIME ≠ 0 ∧
    s.cellInUse c = true ∧ (s.cell c).retired = none ∧ s.stale c = true ∧ s.cfgN Obj.STALE_TICKS + s.cfgN Obj.CELL_FAIL_TIME ≤ a := by
  simp [State.cellLostDue, ha, and_assoc]

theorem State.cellLostDue_stale {s : State} {c : Nat} (h : s.cellLostDue c = true) : s.stale c = true := by
  simp only [State.cellLostDue, Bool.and_eq_true] at h
  exact h.1.2

theorem State.Awake.retire {s : State} {c : Nat} {r : RetireReason} (h : s.Awake) : (s.retire c r).Awake := .post h

/-- Settles O12: a stale cell leaves the orders once (`State.cellStale_drops`), and is retired where its loss is due. -/
theorem staleCellsLeaveTheRanking : Obligations.StaleCellsLeaveTheRanking := by
  unfold Obligations.StaleCellsLeaveTheRanking
  refine ⟨fun s l i hs h => ?_, fun s l i a hs harm hi ha hold => ?_⟩
  · have hstale : s.stale (cellNumber l i) = false := Bool.eq_false_iff.mpr fun hx => by
      obtain ⟨a, ha, -⟩ := (s.stale_iff _).mp hx
      simp [State.cellAge_none h] at ha
    refine ⟨idles_still (due := fun _ => true) (f := fun s => s.cellStale (cellNumber l i)) hs rfl
      (State.cellStale_idle (s := s.clearOut) (.inl hstale)), ?_⟩
    refine idles_due (due := fun s => s.cellLostDue (cellNumber l i)) hs rfl (Bool.eq_false_iff.mpr fun hd => ?_)
    exact Bool.false_ne_true (hstale.symm.trans (State.cellLostDue_stale (s := s.clearOut) hd))
  · have huse : s.cellInUse (cellNumber l i) = true := by rw [State.cellInUse_number]; exact decide_eq_true hi
    have hage : (s.cell (cellNumber l i)).age = some a := ha
    have hstale : s.stale (cellNumber l i) = true := (s.stale_iff _).mpr ⟨a, (State.cellAge_some harm hi).trans ha, hold⟩
    refine ⟨fun hn => ?_, fun hn => ?_, fun hf hr hlong => ?_, fun h => ?_⟩
    · have hdrop := State.cellStale_drops (s := s.clearOut) huse hstale hn
      have hdoes := does_due (c := .cellStale l i) (due := fun _ => true) (f := fun s => s.cellStale (cellNumber l i)) hs rfl rfl
        (by rw [hdrop]; exact hs)
      rw [hdrop] at hdoes
      exact hdoes
    · exact idles_still (due := fun _ => true) (f := fun s => s.cellStale (cellNumber l i)) hs rfl
        (State.cellStale_idle (s := s.clearOut) (.inr hn))
    · have hdoes := does_due (c := .cellLost l i) (due := fun s => s.cellLostDue (cellNumber l i)) (f := fun s => s.retire (cellNumber l i) .lost)
        hs rfl ((State.cellLostDue_iff hage).mpr ⟨hf, huse, hr, hstale, hlong⟩) (.retire hs)
      unfold State.retire at hdoes
      rw [cellNumber_div, cellNumber_mod] at hdoes
      exact hdoes
    · refine idles_due (due := fun s => s.cellLostDue (cellNumber l i)) hs rfl (Bool.eq_false_iff.mpr fun hd => ?_)
      obtain ⟨hf, -, -, -, hlong⟩ := (State.cellLostDue_iff (s := s.clearOut) hage).mp hd
      obtain h | h := h
      · exact hf h
      · exact absurd hlong (Nat.not_le.mpr h)

/-! ### The first group of the queue at its boundary -/

/-- Group `g` stands first in the queue, two ticks old, and nothing holds it or takes the slot of the next tick (R186, R193, R256). -/
structure State.GroupFirst (s : State) (g : Group) (rest : List Group) : Prop where
  queue : s.esc.groups = g :: rest
  noMigration : s.esc.migration = none
  noneWaits : s.esc.waiting = []
  spared : s.esc.noSpare = []
  old : g.acc + 2 ≤ s.tick.next
  slot : s.esc.groupTick ≠ some s.tick.next
  noScheduled : s.schedGroupDue = false

theorem State.GroupFirst.clearOut {s : State} {g : Group} {rest : List Group} (h : s.GroupFirst g rest) : s.clearOut.GroupFirst g rest :=
  ⟨h.queue, h.noMigration, h.noneWaits, h.spared, h.old, h.slot, h.noScheduled⟩

theorem State.groupHeld_false {s : State} (hm : s.esc.migration = none) (hw : s.esc.waiting = []) (hn : s.esc.noSpare = []) (g : Group) :
    s.groupHeld g = false := by
  simp [State.groupHeld, Esc.heldEngines, Esc.migrates, hm, hw, hn]

/-- The state in which the first group applies: it has left the queue and taken the tick's slot. -/
def State.groupTaken (s : State) (rest : List Group) : State :=
  { s.clearOut with esc := { s.esc with groups := rest, groupTick := some s.tick.next } }

theorem State.groupDue_front {s : State} {g : Group} {rest : List Group} (h : s.GroupFirst g rest) : s.groupDue = some g := by
  obtain ⟨hq, hm, hw, hn, hold, hslot, -⟩ := h
  unfold State.groupDue
  have hslot : s.esc.groupTick ≠ some s.nextTick := hslot
  rw [if_neg hslot, hq, List.find?_cons_of_pos (by simp [State.groupHeld_false hm hw hn]), Option.bind_some]
  exact if_pos hold

theorem State.groupStep_front {s : State} {g : Group} {rest : List Group} (hs : s.Awake) (h : s.GroupFirst g rest) :
    s.clearOut.groupStep = (s.groupTaken rest).applyGroup g := by
  have hdue : s.clearOut.groupDue = some g := State.groupDue_front h.clearOut
  have hsched : s.clearOut.schedGroupDue = false := h.noScheduled
  have hdrop : s.clearOut.dropGroup g = s.groupTaken rest := by
    unfold State.dropGroup State.groupTaken
    have hq : s.clearOut.esc.groups = g :: rest := h.queue
    rw [hq, List.erase_cons_head]
    rfl
  unfold State.groupStep
  simp only [State.clearOut_ticking, hs.ticks, hsched, Bool.not_false, Bool.and_self, if_true, hdue, hdrop]

/-- Nothing applies before the first group is two ticks old, or twice in one tick (R186). -/
theorem State.groupStep_idle {s : State} {g : Group} {rest : List Group} (hq : s.esc.groups = g :: rest) (hm : s.esc.migration = none)
    (hw : s.esc.waiting = []) (hn : s.esc.noSpare = []) (h : s.tick.next < g.acc + 2 ∨ s.esc.groupTick = some s.tick.next) : s.groupStep = s := by
  have hdue : s.groupDue = none := by
    unfold State.groupDue
    split
    · rfl
    · next hslot =>
      rw [hq, List.find?_cons_of_pos (by simp [State.groupHeld_false hm hw hn]), Option.bind_some]
      exact if_neg (Nat.not_le.mpr (h.resolve_right hslot))
  unfold State.groupStep
  simp [hdue]

theorem does_groupApply {s : State} {g : Group} {rest : List Group} (hs : s.Awake) (h : s.GroupFirst g rest)
    (ha : ((s.groupTaken rest).applyGroup g).Awake) : Does .coefGroupApply s ((s.groupTaken rest).applyGroup g) :=
  does_safe hs rfl (State.groupStep_front hs h) ha

/-- What a group of one item that acts makes of the state reached by its item: the tick is noted and answered (R186). -/
def State.groupDone (s f : State) (r : Option Reply) : State :=
  { f with esc := { f.esc with coefLast := s.tick.next } }.replyTo r (Ans.ok (beBytes 8 s.tick.next))

theorem State.applyGroup_one {s f : State} {g : Group} {x : Item} (hx : g.items = [x]) (hm : g.move = none) (hj : s.itemsJudge [x] = none)
    (hf : s.itemDo 0 x = f) (ht : f.tick = s.tick) : s.applyGroup g = s.groupDone f g.reply := by
  have hdo : s.itemsDo [x] none = { f with esc := { f.esc with coefLast := s.tick.next } } := by
    rw [← ht, ← hf]
    rfl
  unfold State.applyGroup
  rw [hx, hm, hj]
  dsimp only
  rw [hdo]
  unfold State.groupDone State.groupAns
  rw [← ht]
  rfl

theorem State.applyGroup_refuses {s : State} {g : Group} {i : Nat} {v : Int} {a : Ans} (hx : g.items = [.action i v]) (hg : g.isSet = false)
    (hj : s.actionJudge i v = some a) : s.applyGroup g = (s.actionRefused i).replyTo g.reply { a with params := [] } := by
  have hitems : s.itemsJudge [.action i v] = some (0, i, a) := by
    unfold State.itemsJudge
    simp [hj]
  unfold State.applyGroup
  rw [hx, hitems, hg]
  rfl

/-- Only TRIP_CLEAR and LIM_CHAT_CLEAR count what they refuse. -/
theorem State.actionRefused_uncounted (s : State) {i : Nat} (ht : i ≠ Obj.TRIP_CLEAR) (hl : i ≠ Obj.LIM_CHAT_CLEAR) : s.actionRefused i = s := by
  unfold State.actionRefused
  rw [if_neg ht, if_neg hl]

theorem State.itemsJudge_action {s : State} {i : Nat} {v : Int} (h : s.actionJudge i v = none) : s.itemsJudge [.action i v] = none := by
  unfold State.itemsJudge
  simp [h]

section
variable {s : State} {g : Group} {rest : List Group} (hs : s.Awake) (h : s.GroupFirst g rest)
include hs h

theorem does_groupActs {f : State} {x : Item} (hx : g.items = [x]) (hm : g.move = none) (hj : (s.groupTaken rest).itemsJudge [x] = none)
    (hf : (s.groupTaken rest).itemDo 0 x = f) (ht : f.tick = s.tick) (ha : f.Awake) : Does .coefGroupApply s (s.groupDone f g.reply) := by
  have happ : (s.groupTaken rest).applyGroup g = s.groupDone f g.reply := State.applyGroup_one hx hm hj hf ht
  have hd := does_groupApply hs h (by rw [happ]; exact .replyTo ha)
  rwa [happ] at hd

/-- The action of a group of its own acts at its boundary. -/
theorem does_groupAction {f : State} {i : Nat} {v : Int} (hx : g.items = [.action i v]) (hm : g.move = none)
    (hj : (s.groupTaken rest).actionJudge i v = none) (hf : (s.groupTaken rest).actionDo i v = f) (ht : f.tick = s.tick) (ha : f.Awake) :
    Does .coefGroupApply s (s.groupDone f g.reply) :=
  does_groupActs hs h hx hm (State.itemsJudge_action hj) hf ht ha

/-- An action that refuses at its boundary counts where it has a counter, and is answered. -/
theorem does_groupRefuses {i : Nat} {v : Int} {a : Ans} {f : State} (hx : g.items = [.action i v]) (hg : g.isSet = false)
    (hj : (s.groupTaken rest).actionJudge i v = some a) (hf : (s.groupTaken rest).actionRefused i = f) :
    Does .coefGroupApply s (f.replyTo g.reply { a with params := [] }) := by
  have happ : (s.groupTaken rest).applyGroup g = f.replyTo g.reply { a with params := [] } := by rw [State.applyGroup_refuses hx hg hj, hf]
  have hawake : f.Awake := by
    rw [← hf]
    unfold State.actionRefused
    split
    · exact hs
    split <;> exact hs
  have hd := does_groupApply hs h (by rw [happ]; exact .replyTo hawake)
  rwa [happ] at hd

end

/-- Settles O20: the first group of the queue applies alone (`does_groupActs`), and not before its tick (`State.groupStep_idle`). -/
theorem coefficientGroupApplies : Obligations.CoefficientGroupApplies := by
  unfold Obligations.CoefficientGroupApplies
  intro s g rest hs hq hm hw hn hsched
  refine ⟨fun hold hslot bankB engine step w hx hmv => ?_, fun h => ?_⟩
  · have hd := does_groupActs hs ⟨hq, hm, hw, hn, hold, hslot, hsched⟩ hx hmv rfl rfl rfl hs
    cases bankB <;> exact hd
  · exact idles_safe hs rfl (State.groupStep_idle (s := s.clearOut) hq hm hw hn h)

/-! ### CELL_READMIT -/

theorem State.idleOrPr_iff (s : State) : s.idleOrPr = true ↔ s.conv.state = .idle ∨ s.conv.state = .pr := by
  simp [State.idleOrPr]

theorem State.actionJudge_readmit (s : State) (v : Int) : s.actionJudge Obj.CELL_READMIT v =
    if !s.idleOrPr then some (Ans.st stState) else if v.toNat = 0xFFFF || s.isRetired v.toNat then none else some (Ans.st stRange) := rfl

theorem State.readmit_all (s : State) {v : Int} (h : v.toNat = 0xFFFF) :
    s.actionDo Obj.CELL_READMIT v = { s with cells := s.cells.map Cell.readmitted } := if_pos h

theorem State.readmit_one (s : State) {v : Int} (h : v.toNat ≠ 0xFFFF) : s.actionDo Obj.CELL_READMIT v = s.setCell v.toNat Cell.readmitted := if_neg h

/-- A cell that has reported has a place in the order (R98). -/
theorem mem_moveInOrder (ahead behind : Nat → Bool) (c : Nat) (pre post : List Nat) : c ∈ moveInOrder ahead behind c pre post := by
  unfold moveInOrder
  dsimp only
  split <;> simp

theorem mem_placeInOrder (ahead behind : Nat → Bool) (c : Nat) (l : List Nat) : c ∈ placeInOrder ahead behind c l := mem_moveInOrder _ _ c _ _

theorem modifyAt_getD {α : Type} {l : List α} {n : Nat} (f : α → α) (d : α) (h : n < l.length) : (modifyAt l n f).getD n d = f (l.getD n d) := by
  simp [modifyAt, h]

theorem State.setCell_cell {s : State} {c : Nat} (f : Cell → Cell) (h : c < s.cells.length) : (s.setCell c f).cell c = f (s.cell c) :=
  modifyAt_getD f {} h

theorem State.rankOk_unaged {s : State} {arm c : Nat} (h : (s.cell c).age = none) : s.rankOk arm c = false := by
  simp [State.rankOk, h]

theorem State.mem_rerank {s : State} {arm c : Nat} (hc : arm < s.arms.charge.length) (hd : arm < s.arms.discharge.length) :
    c ∈ (s.rerank arm c).chargeOrder arm ∧ c ∈ (s.rerank arm c).dischargeOrder arm := by
  unfold State.rerank State.chargeOrder State.dischargeOrder
  dsimp only
  rw [modifyAt_getD _ _ hc, modifyAt_getD _ _ hd]
  exact ⟨mem_placeInOrder _ _ c _, mem_placeInOrder _ _ c _⟩

/-- A cell that meets R97 but for its age is ranked on its valid report (R97, R98). -/
theorem State.mem_applyReport {s : State} {c v arm : Nat} (hc : arm < s.arms.charge.length) (hd : arm < s.arms.discharge.length)
    (hl : c < s.cells.length) (harm : s.laneArm (c / 64) = arm) (hu : s.cellInUse c = true) (hup : s.laneUp (c / 64) = true)
    (hr : (s.cell c).retired = none) (ht : (s.cell c).take = false) :
    c ∈ (s.applyReport c v).chargeOrder arm ∧ c ∈ (s.applyReport c v).dischargeOrder arm := by
  let report : Cell → Cell := fun x => { x with vcap := v, age := some 0, staleSeen := false }
  have hcell : (s.setCell c report).cell c = report (s.cell c) := State.setCell_cell report hl
  have harm : (s.setCell c report).laneArm (c / 64) = arm := harm
  have hok : (s.setCell c report).rankOk arm c = true := by
    unfold State.rankOk
    rw [hcell, harm]
    simp [report, hr, ht]
    exact ⟨hu, hup⟩
  have happ : s.applyReport c v = ((s.setCell c report).setCell c fun x => { x with wasRanked := true }).rerank arm c := by
    unfold State.applyReport
    dsimp only
    rw [harm]
    exact if_pos hok
  rw [happ]
  exact State.mem_rerank hc hd

/-- Settles O13: the action of the group acts or refuses by `State.actionJudge_readmit`, and a valid report ranks a cell (`State.mem_applyReport`). -/
theorem cellsAreReadmitted : Obligations.CellsAreReadmitted := by
  unfold Obligations.CellsAreReadmitted
  refine ⟨fun s g rest v hs hq hm hw hn hmv hset hold hslot hsched hx => ?_, fun s c v arm hc hd ha hl => ⟨State.rankOk_unaged, ?_⟩⟩
  · intro d done back
    have hfirst : s.GroupFirst g rest := ⟨hq, hm, hw, hn, hold, hslot, hsched⟩
    have huncounted : (s.groupTaken rest).actionRefused Obj.CELL_READMIT = s.groupTaken rest := State.actionRefused_uncounted _ (by decide) (by decide)
    refine ⟨fun hi hp => ?_, fun hst => ?_⟩
    · have hj : (s.groupTaken rest).idleOrPr = false := Bool.eq_false_iff.mpr fun h => ((State.idleOrPr_iff _).mp h).elim hi hp
      have hjudge : (s.groupTaken rest).actionJudge Obj.CELL_READMIT v = some (Ans.st stState) := by rw [State.actionJudge_readmit, hj]; rfl
      have hd := does_groupRefuses hs hfirst hx hset hjudge huncounted
      exact hd
    have hj : (s.groupTaken rest).idleOrPr = true := (State.idleOrPr_iff _).mpr hst
    refine ⟨fun hv hret => ?_, fun hv hret => ?_, fun hv => ?_⟩
    · have hret : (s.groupTaken rest).isRetired v.toNat = false := by
        show (s.cell v.toNat).retired.isSome = false
        rw [hret]
        rfl
      have hjudge : (s.groupTaken rest).actionJudge Obj.CELL_READMIT v = some (Ans.st stRange) := by
        rw [State.actionJudge_readmit, hj, hret]
        simp [hv]
      have hd := does_groupRefuses hs hfirst hx hset hjudge huncounted
      exact hd
    · have hret : (s.groupTaken rest).isRetired v.toNat = true := Option.isSome_iff_ne_none.mpr hret
      exact does_groupAction hs hfirst hx hmv (by rw [State.actionJudge_readmit, hj, hret]; simp) (State.readmit_one _ hv) rfl hs
    · exact does_groupAction hs hfirst hx hmv (by rw [State.actionJudge_readmit, hj, hv]; rfl) (State.readmit_all _ hv) rfl hs
  · exact State.mem_applyReport (hc ▸ ha) (hd ▸ ha) hl

end Sys2Proof.Machine
end

section
/-!
PROOF. The actions and the values of a group at its boundary (R126, R186, R209, R213, R229, R370).
-/
namespace Sys2Proof.Machine

/-! ### What refuses an action at its boundary -/

theorem State.actionJudge_tripClear (s : State) (v : Int) :
    s.actionJudge Obj.TRIP_CLEAR v = if s.tripClearOk v.toNat then none else some (Ans.refuse rsTrip) := rfl

theorem State.actionJudge_limClear (s : State) (v : Int) :
    s.actionJudge Obj.LIM_CHAT_CLEAR v = (s.chatBusy v.toNat).map fun k => Ans.refuse (rsLim k) := rfl

theorem State.actionJudge_driftClear (s : State) (v : Int) :
    s.actionJudge Obj.DRIFT_CLEAR v = stateUnless (s.idleOrPr || s.conv.state = .ready) := rfl

theorem State.actionJudge_setEnd (s : State) (v : Int) : s.actionJudge Obj.SET_END v = stateUnless s.set.active := rfl

theorem State.actionJudge_dcfRecover (s : State) (v : Int) : s.actionJudge Obj.DCF_RECOVER v = stateUnless (v = 0 || s.fus.dcfActive) := rfl

theorem State.actionJudge_pairYield (s : State) (v : Int) :
    s.actionJudge Obj.PAIR_YIELD v = if s.mayAbdicate then none else some (Ans.refuse rsPair) := rfl

theorem State.actionJudge_feedTest (s : State) (v : Int) : s.actionJudge Obj.FEED_TEST v = s.feedTestJudge v.toNat := rfl

theorem State.actionJudge_addrClear (s : State) (v : Int) : s.actionJudge Obj.TRAIN_ADDR_CLEAR v = stateUnless s.idleOrPr := rfl

theorem State.actionJudge_schedCancel (s : State) (v : Int) : s.actionJudge Obj.SCHED_CANCEL v = s.cancelJudge v.toNat := rfl

theorem State.actionJudge_logAck (s : State) (v : Int) :
    s.actionJudge Obj.LOG_ACK v = if (s.log.fullSeq v.toNat).isSome then none else some (Ans.st stRange) := by
  simp [State.actionJudge]

theorem State.actionJudge_rampCmd (s : State) (v : Int) : s.actionJudge Obj.RAMP_CMD v = s.rampJudge v.toNat := rfl

theorem stateUnless_true {b : Bool} (h : b = true) : stateUnless b = none := if_pos h

theorem stateUnless_false {b : Bool} (h : b = false) : stateUnless b = some (Ans.st stState) := by
  rw [h]
  rfl

theorem State.tripClearOk_iff (s : State) (bm : Nat) :
    s.tripClearOk bm = true ↔ ∀ k : Nat, k < 16 → bm.testBit k = true → flag s.trips.filtered k = false := by
  simp only [State.tripClearOk, List.all_eq_true, List.mem_range, Bool.not_eq_true', Bool.and_eq_false_imp]

theorem State.chatBusy_none_iff (s : State) (bm : Nat) : s.chatBusy bm = none ↔
    ∀ k : Nat, k < 8 → bm.testBit k = true → flag s.lim.filtered k = false ∧ flag s.lim.quiet k = false := by
  simp [State.chatBusy, List.find?_eq_none]

theorem State.tripClear_eq (s : State) (bm : Nat) : s.tripClear bm = { s with
    trips := { s.trips with latch := s.trips.latch.mapIdx fun n b => b && !bm.testBit n
                            first := if (s.trips.latch.mapIdx fun n b => b && !bm.testBit n).any id then s.trips.first else 255 }
    log := (s.tripClear bm).log } := by
  unfold State.tripClear State.post
  dsimp only
  split
  · rfl
  · rw [State.postAt_eq]

theorem State.feedTestJudge_none {s : State} (bm : Nat) (ht : s.feed.test = none) (ha : s.feed.aPresent = true) (hb : s.feed.bPresent = true) :
    s.feedTestJudge bm = none := by
  simp [State.feedTestJudge, ht, ha, hb]

theorem State.feedTestJudge_absent {s : State} {bm : Nat} (h : bm.testBit 0 = true) (hb : s.feed.bPresent = false) :
    s.feedTestJudge bm = some (Ans.refuse rsFeed) := by
  simp [State.feedTestJudge, h, hb]

theorem State.feedTestJudge_busy {s : State} (bm : Nat) (ht : s.feed.test.isSome = true) (ha : s.feed.aPresent = true) (hb : s.feed.bPresent = true) :
    s.feedTestJudge bm = some (Ans.st stBusy) := by
  simp [State.feedTestJudge, ht, ha, hb]

/-- Both feeds are tested, A first (R342). -/
theorem State.feedTestStart_both {s : State} (ha : s.feed.aPresent = true) :
    s.feedTestStart 3 = { s with feed := { s.feed with inUse := 0, test := some ⟨[false, true], 1, s.feed.inUse⟩ } } := if_pos ha

theorem State.cancelJudge_some {s : State} {id : Nat} {a : Action} (h : s.sched.pending.find? (fun a => a.id == id) = some a) :
    s.cancelJudge id = if s.dueSoon a then some (Ans.refuse rsSched) else none := by
  unfold State.cancelJudge
  rw [h]

theorem State.cancelJudge_none {s : State} {id : Nat} (h : s.sched.pending.find? (fun a => a.id == id) = none) :
    s.cancelJudge id = some (Ans.st stRange) := by
  unfold State.cancelJudge
  rw [h]

theorem State.rampJudge_legal {s : State} {w : Nat} (hc : w / 2 ^ 56 = 0xA1) (ht : |(BitVec.ofNat 24 (w / 2 ^ 32)).toInt| ≤ 200000) :
    s.rampJudge w = if 8 ≤ s.reg.rampQ.length then some (Ans.st stBusy) else none := by
  unfold State.rampJudge
  exact if_neg (by simpa only [ne_eq, decide_not, Bool.or_eq_true, Bool.not_eq_true', decide_eq_false_iff_not, decide_eq_true_eq, not_or, not_not, not_lt] using ⟨hc, ht⟩)

/-! ### The actions -/

section
variable {s : State} {g : Group} {rest : List Group} {v : Int} (hs : s.Awake) (h : s.GroupFirst g rest) (hm : g.move = none) (hset : g.isSet = false)
include hs h

include hm in
theorem groupApply_tripClear (hx : g.items = [.action Obj.TRIP_CLEAR v])
    (hok : ∀ k : Nat, k < 16 → v.toNat.testBit k = true → flag s.trips.filtered k = false) :
    ∃ t, exec .coefGroupApply s = .next t ∧ t.trips.latch = s.trips.latch.mapIdx (fun n b => b && !v.toNat.testBit n) ∧
      (t.trips.latch.any id = false → t.trips.first = 255) ∧ t.trips.count = s.trips.count ∧ t.conv = s.conv ∧ t.objs = s.objs := by
  have hjudge : (s.groupTaken rest).actionJudge Obj.TRIP_CLEAR v = none := by
    rw [State.actionJudge_tripClear, ((State.tripClearOk_iff _ _).mpr hok : (s.groupTaken rest).tripClearOk v.toNat = true), if_pos rfl]
  have hdo := does_groupAction hs h hx hm hjudge (f := (s.groupTaken rest).tripClear v.toNat) rfl (by rw [State.tripClear_eq]; rfl)
    (by rw [State.tripClear_eq]; exact hs)
  refine hdo.next fun t he => ?_
  have hkeep : (s.groupDone ((s.groupTaken rest).tripClear v.toNat) g.reply).trips = ((s.groupTaken rest).tripClear v.toNat).trips ∧
      (s.groupDone ((s.groupTaken rest).tripClear v.toNat) g.reply).conv = s.conv ∧
      (s.groupDone ((s.groupTaken rest).tripClear v.toNat) g.reply).objs = s.objs := by
    unfold State.groupDone
    rw [State.replyTo_eq, State.tripClear_eq]
    exact ⟨rfl, rfl, rfl⟩
  obtain ⟨htrips, hconv, hobjs⟩ := hkeep
  rw [he.trips_eq, he.conv_eq, he.objs_eq, htrips, hconv, hobjs, State.tripClear_eq]
  exact ⟨rfl, fun hnone => if_neg (by rw [hnone]; decide), rfl, rfl, rfl⟩

include hset in
/-- A refused action that has no counter only answers. -/
theorem groupApply_refuses {i : Nat} {st rs : Byte} (hx : g.items = [.action i v]) (ht : i ≠ Obj.TRIP_CLEAR) (hl : i ≠ Obj.LIM_CHAT_CLEAR)
    (hj : (s.groupTaken rest).actionJudge i v = some { status := st, reason := rs }) :
    Does .coefGroupApply s ((s.groupTaken rest).replyTo g.reply { status := st, reason := rs, params := [] }) :=
  does_groupRefuses hs h hx hset hj (State.actionRefused_uncounted _ ht hl)

include hset in
theorem groupApply_tripClear_refused (hx : g.items = [.action Obj.TRIP_CLEAR v]) {k : Nat} (hk : k < 16) (hv : v.toNat.testBit k = true)
    (hf : flag s.trips.filtered k = true) : Does .coefGroupApply s
      ({ s.groupTaken rest with trips := { s.trips with clearRefused := s.trips.clearRefused + 1 } }.replyTo g.reply
        { status := 0x08, reason := 0x10, params := [] }) := by
  have hok : (s.groupTaken rest).tripClearOk v.toNat = false := Bool.eq_false_iff.mpr fun hok => by
    have hf' : flag s.trips.filtered k = false := (State.tripClearOk_iff _ _).mp hok k hk hv
    simp [hf] at hf'
  have hjudge : (s.groupTaken rest).actionJudge Obj.TRIP_CLEAR v = some (Ans.refuse rsTrip) := by
    rw [State.actionJudge_tripClear, hok]
    rfl
  have hd := does_groupRefuses hs h hx hset hjudge rfl
  exact hd

include hm hset in
theorem groupApply_limClear (hx : g.items = [.action Obj.LIM_CHAT_CLEAR v]) :
    ((∀ k : Nat, k < 8 → v.toNat.testBit k = true → flag s.lim.filtered k = false ∧ flag s.lim.quiet k = false) → Does .coefGroupApply s
      (s.groupDone { s.groupTaken rest with lim := { s.lim with chatter := s.lim.chatter.mapIdx fun n b => b && !v.toNat.testBit n } } g.reply)) ∧
    ((∃ k : Nat, k < 8 ∧ v.toNat.testBit k = true ∧ (flag s.lim.filtered k = true ∨ flag s.lim.quiet k = true)) →
      ∃ t, exec .coefGroupApply s = .next t ∧ t.lim = { s.lim with clearRefused := s.lim.clearRefused + 1 } ∧ t.conv = s.conv ∧
        t.objs = s.objs) := by
  have hjudge := (s.groupTaken rest).actionJudge_limClear v
  refine ⟨fun hfree => ?_, fun ⟨k, hk, hv, hbusy⟩ => ?_⟩
  · have hnone : (s.groupTaken rest).chatBusy v.toNat = none := (State.chatBusy_none_iff _ _).mpr hfree
    rw [hnone] at hjudge
    exact does_groupAction hs h hx hm hjudge rfl rfl hs
  · have hsome : (s.groupTaken rest).chatBusy v.toNat ≠ none := fun hnone => by
      have hfree := (State.chatBusy_none_iff _ _).mp hnone k hk hv
      have hfree : flag s.lim.filtered k = false ∧ flag s.lim.quiet k = false := hfree
      simp [hfree] at hbusy
    obtain ⟨n, hn⟩ := Option.ne_none_iff_exists'.mp hsome
    rw [hn] at hjudge
    have hd := does_groupRefuses hs h hx hset hjudge rfl
    refine hd.next fun t he => ?_
    rw [he.lim_eq, he.conv_eq, he.objs_eq, State.replyTo_eq]
    exact ⟨rfl, rfl, rfl⟩

end

/-! ### A value -/

theorem State.itemsJudge_obj (s : State) (i : Nat) (v : Int) : s.itemsJudge [.obj i (.num v)] =
    (s.entryState s.cfg (s.itemsGet [.obj i (.num v)]) i v).map fun a => (0, i, a) := by
  unfold State.itemsJudge
  simp [valNum]

/-- The two actions that count what they refuse are no objects that the state may refuse (R400). -/
theorem State.entryState_counted (s : State) (old get : Nat → Int) {i : Nat} (v : Int) (h : i = Obj.TRIP_CLEAR ∨ i = Obj.LIM_CHAT_CLEAR) :
    s.entryState old get i v = none := by
  have hidle : i ∉ idlePrObjs := by obtain rfl | rfl := h <;> decide
  have hordered : orderedOk get i = true := by obtain rfl | rfl := h <;> rfl
  have hchr : isChrObj i = false := by obtain rfl | rfl := h <;> decide
  have hmap : inRow i Obj.ARM_MAP 48 = false := by obtain rfl | rfl := h <;> decide
  have htype : inRow i Obj.CELL_TYPE 48 = false := by obtain rfl | rfl := h <;> decide
  have hrole : inRow i Obj.AI_ROLE 24 = false := by obtain rfl | rfl := h <;> decide
  unfold State.entryState
  obtain rfl | rfl := h <;> simp [hidle, hordered, hchr, hmap, htype, hrole]

theorem State.land_now {s : State} {i : Nat} {e : ObjDef} {v : Int} (he : objDef i = some e) (hp : e.point = .nextTick) :
    s.land i (.num v) = s.writeObj i v := by
  unfold State.land
  rw [he]
  exact if_pos (by simp [hp])

theorem State.land_later {s : State} {i : Nat} {e : ObjDef} {v : Int} (he : objDef i = some e) (hn : e.point ≠ .nextTick) (ho : e.point ≠ .setOnly) :
    s.land i (.num v) = s.addWaiting i v e.point := by
  unfold State.land
  rw [he]
  exact if_neg (by simp [hn, ho])

theorem ite_objs {p : Prop} [Decidable p] {a b : State} {l : List (Nat × Int)} (ha : a.objs = l) (hb : b.objs = l) :
    (if p then a else b).objs = l := by
  split <;> assumption

/-- What follows a written value changes no object but F_SET, which follows F_NOM (R58). -/
theorem State.hook_objs (s : State) (i : Nat) (old v : Int) :
    (i ≠ Obj.F_NOM → (s.hook i old v).objs = s.objs) ∧ (s.hook i old v).cfg Obj.F_NOM = s.cfg Obj.F_NOM := by
  by_cases h : i = Obj.F_NOM
  · subst h
    refine ⟨fun h => absurd rfl h, ?_⟩
    show State.cfg (if _ then s.putDirect Obj.F_SET (v * 1000) else s) Obj.F_NOM = _
    split
    · unfold State.cfg
      rw [State.putDirect_eq]
      exact objsGet_set_other _ _ _ _ (by decide)
    · rfl
  have hkeep : (s.hook i old v).objs = s.objs := by
    unfold State.hook
    split
    · exact (State.axisDirect_frame s _ v).2.2
    rw [if_neg (c := i = Obj.F_NOM) h]
    exact ite_objs rfl <| ite_objs (ite_objs (State.modSwitchedOff_frame s).2.2 rfl) <|
      ite_objs (ite_objs rfl (State.tripArmsChanged_frame s _).2.2) <| ite_objs (State.laneEnabled_frame s _ _).2.2 <|
      ite_objs (State.laneCounted_frame s _).2.2 <| ite_objs (ite_objs rfl (State.laneAges_frame s _).2.2) <| ite_objs rfl <|
      ite_objs (ite_objs rfl (State.discardWindow_frame s).2.2) <| ite_objs (ite_objs rfl (State.reverifyAll_frame s).2.2) <|
      ite_objs (State.regMode_frame s _).2.2 <| ite_objs (State.refWrite_frame s _).2.2 <| ite_objs rfl <|
      ite_objs (ite_objs rfl (State.ptpModeSet_frame _ _).2.2) <| ite_objs (ite_objs rfl rfl) <|
      ite_objs (State.closeAll_frame s 3).2.2 <| ite_objs (State.partnerSet_frame s v).2.2 rfl
  exact ⟨fun _ => hkeep, State.cfg_congr hkeep _⟩

theorem State.writeObj_cfg (s : State) (i : Nat) (v : Int) :
    (s.writeObj i v).cfg i = v ∧ (i ≠ Obj.F_NOM → ∀ j, j ≠ i → (s.writeObj i v).cfg j = s.cfg j) := by
  have hput : (s.putObj i v).objs = objsSet s.objs i v := by rw [State.putObj_eq]
  have hsame : (s.putObj i v).cfg i = v := by
    show objsGet (s.putObj i v).objs i = v
    rw [hput]
    exact objsGet_set_same s.objs i v
  obtain ⟨hkeep, hnom⟩ := State.hook_objs (s.putObj i v) i (s.cfg i) v
  refine ⟨?_, fun hi j hj => ?_⟩
  · by_cases hi : i = Obj.F_NOM
    · subst hi
      exact hnom.trans hsame
    · exact (State.cfg_congr (hkeep hi) i).trans hsame
  · refine (State.cfg_congr (hkeep hi) j).trans ?_
    show objsGet (s.putObj i v).objs j = _
    rw [hput]
    exact objsGet_set_other s.objs i j v hj

/-- Settles O60: each action acts by its own equation where `State.actionJudge` lets it, else it is refused (`does_groupAction`,
`does_groupRefuses`), and a value lands by its point of application (`State.land_now`, `State.land_later`). -/
theorem actionsActAtTheirBoundary : Obligations.ActionsActAtTheirBoundary := by
  unfold Obligations.ActionsActAtTheirBoundary
  intro s g rest v hs hq hmig hw hn hm hset hold hslot hsched d done no
  have h : s.GroupFirst g rest := ⟨hq, hmig, hw, hn, hold, hslot, hsched⟩
  refine ⟨fun hx => ⟨groupApply_tripClear hs h hm hx, fun k hk hv hf => groupApply_tripClear_refused hs h hset hx hk hv hf⟩, fun hx => ?_,
    fun hx => groupApply_limClear hs h hm hset hx, fun hx => ⟨fun hst => ?_, fun hst => ?_⟩, fun hx => ⟨fun hoff => ?_, fun hon hv => ?_, fun hon hv => ?_⟩,
    fun hx => ⟨fun hon => ?_, fun hoff => ?_⟩, fun hx => ⟨fun hmay => ?_, fun hmay => ?_⟩, fun hx => ⟨fun ht ha hb hv => ?_, fun hv hb => ?_, fun ht ha hb => ?_⟩,
    fun hx hst => ?_, fun hx => ?_, fun hx => ⟨fun a ha hsoon => ?_, fun a ha hsoon => ?_, fun hnone => ?_⟩,
    fun hx => ⟨fun n hseq => ?_, fun hseq => ?_⟩, fun hx hc ht => ⟨fun hroom => ?_, fun hfull => ?_⟩, fun i e he hx => ⟨fun a ha => ?_, fun ha hp hr => ?_, fun ha hp hp' => ?_⟩⟩
  · exact does_groupAction hs h hx hm rfl rfl rfl hs
  · have hok : ((s.groupTaken rest).idleOrPr || (s.groupTaken rest).conv.state = .ready) = true := by
      show ((s.conv.state = .idle || s.conv.state = .pr) || s.conv.state = .ready) = true
      simpa [or_assoc] using hst
    exact does_groupAction hs h hx hm ((State.actionJudge_driftClear _ _).trans (stateUnless_true hok)) rfl rfl hs
  · have hno : ((s.groupTaken rest).idleOrPr || (s.groupTaken rest).conv.state = .ready) = false := by
      have hst : s.conv.state = .run ∨ s.conv.state = .precharge ∨ s.conv.state = .scs := hst
      show ((s.conv.state = .idle || s.conv.state = .pr) || s.conv.state = .ready) = false
      obtain hst | hst | hst := hst <;> rw [hst] <;> rfl
    exact groupApply_refuses hs h hset hx (by decide) (by decide) ((State.actionJudge_driftClear _ _).trans (stateUnless_false hno))
  · exact groupApply_refuses hs h hset hx (by decide) (by decide) ((State.actionJudge_setEnd _ _).trans (stateUnless_false hoff))
  · subst hv
    exact does_groupAction hs h hx hm ((State.actionJudge_setEnd _ _).trans (stateUnless_true hon)) rfl (State.post_frame _ _ _ _).2.1 (.post hs)
  · subst hv
    have hdo : (s.groupTaken rest).actionDo Obj.SET_END 2 = (s.groupTaken rest).setAbort 1 := rfl
    have hd := does_groupAction hs h hx hm ((State.actionJudge_setEnd _ _).trans (stateUnless_true hon))
      (hdo.trans (State.setAbort_of_active 1 hon)) (State.post_frame _ _ _ _).2.1 (.post hs)
    exact hd
  · exact does_groupAction hs h hx hm ((State.actionJudge_dcfRecover _ _).trans (stateUnless_true hon)) rfl rfl hs
  · exact groupApply_refuses hs h hset hx (by decide) (by decide) ((State.actionJudge_dcfRecover _ _).trans
      (stateUnless_false hoff))
  · have hdo := does_groupAction hs h hx hm (by rw [State.actionJudge_pairYield]; exact if_pos hmay) (f := (s.groupTaken rest).abdicate 0) rfl
      (State.abdicate_frame _ _).2.1 (.post hs)
    refine hdo.next fun t he => ?_
    unfold State.groupDone State.abdicate State.post at he
    rw [he.pair_eq, he.conv_eq, he.objs_eq, State.replyTo_eq, State.postAt_eq]
    exact ⟨rfl, rfl, rfl⟩
  · exact groupApply_refuses hs h hset hx (by decide) (by decide) (by
      rw [State.actionJudge_pairYield]; exact if_neg (Bool.eq_false_iff.mp hmay))
  · have hdo : (s.groupTaken rest).actionDo Obj.FEED_TEST v = (s.groupTaken rest).feedTestStart 3 := by rw [← hv]; rfl
    exact does_groupAction hs h hx hm (by rw [State.actionJudge_feedTest]; exact State.feedTestJudge_none _ ht ha hb)
      (hdo.trans (State.feedTestStart_both ha)) rfl hs
  · exact groupApply_refuses hs h hset hx (by decide) (by decide) (by rw [State.actionJudge_feedTest]; exact State.feedTestJudge_absent hv hb)
  · exact groupApply_refuses hs h hset hx (by decide) (by decide) (by rw [State.actionJudge_feedTest]; exact State.feedTestJudge_busy _ ht ha hb)
  · exact does_groupAction hs h hx hm ((State.actionJudge_addrClear _ _).trans
      (stateUnless_true ((State.idleOrPr_iff _).mpr hst))) rfl rfl hs
  · exact does_groupAction hs h hx hm rfl rfl rfl hs
  · have hj : (s.groupTaken rest).cancelJudge v.toNat = none := (State.cancelJudge_some ha).trans (if_neg (Bool.eq_false_iff.mp hsoon))
    exact does_groupAction hs h hx hm (by rw [State.actionJudge_schedCancel, hj]) rfl rfl hs
  · have hj : (s.groupTaken rest).cancelJudge v.toNat = some (Ans.refuse rsSched) := (State.cancelJudge_some ha).trans (if_pos hsoon)
    exact groupApply_refuses hs h hset hx (by decide) (by decide) (by rw [State.actionJudge_schedCancel, hj]; rfl)
  · have hj : (s.groupTaken rest).cancelJudge v.toNat = some (Ans.st stRange) := State.cancelJudge_none hnone
    exact groupApply_refuses hs h hset hx (by decide) (by decide) (by rw [State.actionJudge_schedCancel, hj]; rfl)
  · have hseq' : (s.groupTaken rest).log.fullSeq v.toNat = some n := hseq
    have hdo : (s.groupTaken rest).actionDo Obj.LOG_ACK v = (s.groupTaken rest).logAck n := by
      show (s.groupTaken rest).logAck (((s.groupTaken rest).log.fullSeq v.toNat).getD 0) = _
      rw [hseq']
      rfl
    exact does_groupAction hs h hx hm (by rw [State.actionJudge_logAck, hseq']; rfl) hdo rfl hs
  · have hseq' : (s.groupTaken rest).log.fullSeq v.toNat = none := hseq
    exact groupApply_refuses hs h hset hx (by decide) (by decide) (by rw [State.actionJudge_logAck, hseq']; rfl)
  · exact does_groupAction hs h hx hm (by
      rw [State.actionJudge_rampCmd, State.rampJudge_legal hc ht]; exact if_neg (Nat.not_le.mpr hroom)) rfl rfl hs
  · exact groupApply_refuses hs h hset hx (by decide) (by decide) (by
      rw [State.actionJudge_rampCmd, State.rampJudge_legal hc ht]; exact if_pos hfull)
  · have hj : (s.groupTaken rest).itemsJudge g.items = some (0, i, a) := by
      rw [hx, State.itemsJudge_obj, ← hx]
      exact congrArg (Option.map fun a => (0, i, a)) ha
    have happ : (s.groupTaken rest).applyGroup g = (s.groupTaken rest).replyTo g.reply { a with params := [] } := by
      have hi : i ≠ Obj.TRIP_CLEAR ∧ i ≠ Obj.LIM_CHAT_CLEAR := by
        refine not_or.mp fun hi => ?_
        rw [State.entryState_counted _ _ _ v hi] at ha
        cases ha
      unfold State.applyGroup
      rw [hj, hset]
      dsimp only
      rw [State.actionRefused_uncounted _ hi.1 hi.2]
      rfl
    have hd := does_groupApply hs h (by rw [happ]; exact .replyTo hs)
    rw [happ] at hd
    exact hd
  · have hj : (s.groupTaken rest).itemsJudge [.obj i (.num v)] = none := by
      rw [State.itemsJudge_obj, ← hx]
      exact congrArg (Option.map fun a => (0, i, a)) ha
    have hcore : ((s.groupTaken rest).writeObj i v).core = (s.groupTaken rest).core := State.writeObj_core _ i v hr
    have hdo := does_groupActs hs h hx hm hj (f := (s.groupTaken rest).writeObj i v) (State.land_now he hp) (State.writeObj_frame _ _ _).2
      (State.Awake.of_core (s := s.groupTaken rest) hs hcore)
    refine hdo.next fun t ht => ?_
    have hgroups : ((s.groupTaken rest).writeObj i v).esc.groups = rest := congrArg (fun c => c.2.1) hcore
    obtain ⟨hsame, hother⟩ := (s.groupTaken rest).writeObj_cfg i v
    unfold State.groupDone at ht
    rw [State.replyTo_eq] at ht
    rw [ht.esc_eq]
    exact ⟨(ht.cfg_eq i).trans hsame, fun hi j hj => (ht.cfg_eq j).trans (hother hi j hj), hgroups, rfl⟩
  · have hj : (s.groupTaken rest).itemsJudge [.obj i (.num v)] = none := by
      rw [State.itemsJudge_obj, ← hx]
      exact congrArg (Option.map fun a => (0, i, a)) ha
    exact does_groupActs hs h hx hm hj (State.land_later he hp hp') rfl hs

end Sys2Proof.Machine
end

section
/-!
PROOF. The swap of the banks, the verification of an image and the scheduler (R184, R188, R253 to R256).
-/
namespace Sys2Proof.Machine

/-! ### The swap of the banks -/

theorem State.swapFree_iff (s : State) : s.swapFree = true ↔
    s.esc.migration = none ∧ s.esc.waiting = [] ∧ (s.esc.swapTick ≠ s.nextTick ∨ s.esc.swapCount = 0) := by
  simp [State.swapFree, and_assoc]

theorem State.groupDue_nil {s : State} (h : s.esc.groups = []) : s.groupDue = none := by
  unfold State.groupDue
  rw [h]
  exact ite_self none

theorem State.swapStep_due {s : State} {w : Swap} (hs : s.Awake) (hw : s.esc.swap = some w) (hf : s.swapFree = true) (hd : w.due ≤ s.nextTick)
    (hg : s.groupDue = none) : s.swapStep = s.doSwap w := by
  have hdue : s.swapDue = some w := by
    unfold State.swapDue
    simp [hf, hw, hd]
  unfold State.swapStep
  simp [hs.ticks, hdue, hd, hg]

theorem State.swapStep_idle {s : State} {w : Swap} (hw : s.esc.swap = some w) (h : s.nextTick < w.due ∨ s.swapFree = false) : s.swapStep = s := by
  have hdue : s.swapDue = none := by
    unfold State.swapDue
    obtain h | h := h
    · simp [hw, Nat.not_le.mpr h]
    · simp [h]
  unfold State.swapStep
  simp [hdue]

theorem State.Awake.doSwap {s : State} {w : Swap} (h : s.Awake) : (s.doSwap w).Awake := .replyTo (.postAt h)

/-- Settles O21: the pending swap acts where it is free and due (`State.swapStep_due`), else the row does nothing (`State.swapStep_idle`). -/
theorem bankSwapActs : Obligations.BankSwapActs := by
  unfold Obligations.BankSwapActs
  intro s w hs hw
  refine ⟨fun hd hm hwait hg hslot => ?_, fun h => ?_⟩
  · exact does_safe hs rfl (State.swapStep_due (s := s.clearOut) hs hw ((s.swapFree_iff).mpr ⟨hm, hwait, hslot⟩) hd (State.groupDue_nil hg))
      (.doSwap hs)
  · refine idles_safe hs rfl (State.swapStep_idle (s := s.clearOut) hw ?_)
    refine h.imp_right fun h => Bool.eq_false_iff.mpr fun hf => ?_
    obtain ⟨hm, hwait, hslot⟩ := s.swapFree_iff.mp hf
    obtain h | h | ⟨h, hc⟩ := h
    · simp [hm] at h
    · exact h hwait
    · exact hslot.elim (fun hn => hn h) hc

/-! ### The verification of an image -/

/-- The state in which a loaded image is judged. -/
def State.verifying (s : State) : State := { s with esc := { s.esc with verify := none } }

section
variable {s : State} {v : Verify} (hv : s.esc.verify = some v)
include hv

theorem State.verifyDone_malformed (hh : imageHeaderOk v.image = false) :
    s.verifyDone = (s.verifying.post 0x2D02 noInst (beBytes 4 (fieldAt v.image 0x10 4))).replyTo v.reply (Ans.st stRange) := by
  unfold State.verifyDone
  rw [hv]
  exact if_pos (by simp [hh])

theorem State.verifyDone_crc (hh : imageHeaderOk v.image = true) (hc : imageCrcOk v.image = false) :
    s.verifyDone = (s.verifying.post 0x2D02 noInst (beBytes 4 (fieldAt v.image 0x10 4))).replyTo v.reply (Ans.st stCrc) := by
  unfold State.verifyDone
  rw [hv]
  dsimp only
  rw [if_neg (by simp [hh])]
  exact if_pos (by simp [hc])

end

/-- The report of the image that has been loaded. -/
def State.imageReport (s : State) (v : Verify) : List RepEntry := verifyReport s.verifying (imageOf v.image) (s.cfgN Obj.SPARES)

/-- The state in which the report of an image stands. -/
def State.reported (s : State) (v : Verify) : State :=
  { s.verifying with esc := { s.verifying.esc with verifyFails := (s.imageReport v).length, verifyFirst := firstEntry (s.imageReport v) } }

/-- The bank that an image fills (R180, R184). -/
def State.imageBank (s : State) (v : Verify) : Bank :=
  { tables := (imageOf v.image).tables, binds := (imageOf v.image).binds, loaded := (imageOf v.image).tables.any EngTable.nonEmpty
    verified := true, fit := repFit (s.imageReport v), id := BitVec.ofNat 32 (imageOf v.image).id
    sigs := (imageOf v.image).tables.map EngTable.signature, conforms := v.conforms }

/-- An image that the verifier has judged fills the inactive bank with `b`, is logged and answered. -/
def State.imageDone (s : State) (v : Verify) (b : Bank) (code : Nat) (a : Ans) : State :=
  ({ s.reported v with esc := (s.reported v).esc.setInactive b }.post code noInst (beBytes 4 (fieldAt v.image 0x10 4))).replyTo v.reply a

section
variable {s : State} {v : Verify} (hv : s.esc.verify = some v) (hh : imageHeaderOk v.image = true) (hc : imageCrcOk v.image = true)
include hv hh hc

/-- A rejected image empties the inactive bank (R176, R184). -/
theorem State.verifyDone_rejected (hr : repRejects (s.imageReport v) = true) : s.verifyDone =
    s.imageDone v {} 0x2D02 { status := stRefused, reason := rsVerifier, params := reportParams (repFit (s.imageReport v)) (s.imageReport v) } := by
  unfold State.verifyDone
  rw [hv]
  dsimp only
  rw [if_neg (by simp [hh]), if_neg (by simp [hc])]
  exact if_pos hr

/-- Any other fills it, its steps bound from the present objects (R180). -/
theorem State.verifyDone_filled (hr : repRejects (s.imageReport v) = false) : s.verifyDone =
    s.imageDone v ((s.reported v).bindAll (s.imageBank v)) 0x2D01 (Ans.ok (reportParams (repFit (s.imageReport v)) (s.imageReport v))) := by
  unfold State.verifyDone
  rw [hv]
  dsimp only
  rw [if_neg (by simp [hh]), if_neg (by simp [hc])]
  exact if_neg (Bool.eq_false_iff.mp hr)

end

theorem Esc.setInactive_inactive (e : Esc) (b : Bank) : (e.setInactive b).inactive = b := by
  unfold Esc.setInactive Esc.inactive
  cases e.activeB <;> rfl

theorem Esc.setInactive_active (e : Esc) (b : Bank) : (e.setInactive b).active = e.active := by
  unfold Esc.setInactive Esc.active
  cases e.activeB <;> rfl

theorem Esc.setInactive_verify (e : Esc) (b : Bank) :
    (e.setInactive b).verify = e.verify ∧ (e.setInactive b).verifyFails = e.verifyFails := by
  unfold Esc.setInactive
  split <;> exact ⟨rfl, rfl⟩

theorem State.Awake.imageDone {s : State} {v : Verify} {b : Bank} {code : Nat} {a : Ans} (h : s.Awake) : (s.imageDone v b code a).Awake :=
  .replyTo (.post h)

/-- What the end of a verification shows of the banks, and what it leaves alone. -/
theorem does_imageDone {c : Instr} {s : State} {v : Verify} {b : Bank} {code : Nat} {a : Ans} (hd : Does c s (s.clearOut.imageDone v b code a)) :
    ∃ t, exec c s = .next t ∧ t.esc.inactive = b ∧ t.esc.active = s.esc.active ∧ t.esc.verify = none ∧
      t.esc.verifyFails = (s.clearOut.imageReport v).length ∧ t.bal = s.bal ∧ t.conv = s.conv ∧ t.objs = s.objs := by
  refine hd.next fun t he => ?_
  unfold State.imageDone State.post at he
  rw [he.esc_eq, he.bal_eq, he.conv_eq, he.objs_eq, State.replyTo_eq, State.postAt_eq]
  obtain ⟨hverify, hfails⟩ := (s.clearOut.reported v).esc.setInactive_verify b
  exact ⟨Esc.setInactive_inactive _ b, Esc.setInactive_active _ b, hverify, hfails, rfl, rfl, rfl⟩

/-- Settles O22: by the four cases of `State.verifyDone`. -/
theorem loadedImageIsVerified : Obligations.LoadedImageIsVerified := by
  unfold Obligations.LoadedImageIsVerified
  intro s v hs hv id s0 im r s1 bank
  have hv' : s.clearOut.esc.verify = some v := hv
  refine ⟨fun hh => ?_, fun hh hc => ?_, fun hh hc hr => ?_, fun hh hc hr => ?_⟩
  · exact does_safe hs rfl (State.verifyDone_malformed hv' hh) (.replyTo (.post hs))
  · exact does_safe hs rfl (State.verifyDone_crc hv' hh hc) (.replyTo (.post hs))
  · exact does_imageDone (does_safe hs rfl (State.verifyDone_rejected hv' hh hc hr) (.imageDone hs))
  · exact does_imageDone (does_safe hs rfl (State.verifyDone_filled hv' hh hc hr) (.imageDone hs))

/-! ### The scheduler -/

theorem State.actDue_tick {s : State} {a : Action} {d : Nat} (ha : a.due = some d) :
    s.actDue a = if a.acc + 2 ≤ s.nextTick ∧ d ≤ s.nextTick then some d else none := by
  unfold State.actDue
  rw [ha]
  dsimp only
  by_cases hacc : s.nextTick < a.acc + 2
  · rw [if_pos hacc, if_neg (by omega)]
  · rw [if_neg hacc]
    simp [Nat.not_lt.mp hacc]

/-- The one pending request for a converter state acts next where it is old enough and due (R253). -/
theorem State.nextAction_one {s : State} {a : Action} {d : Nat} {k : SchedKey} {target : Byte} (hp : s.sched.pending = [a]) (ha : a.due = some d)
    (hc : a.cmd = .convState k target) :
    s.nextAction = if a.acc + 2 ≤ s.nextTick ∧ d ≤ s.nextTick then some (d, a) else none := by
  have hgroup : a.isGroup = false := by unfold Action.isGroup; rw [hc]
  have hswap : a.isSwap = false := by unfold Action.isSwap; rw [hc]
  have hdue : s.dueActions = ([a].filterMap fun a => (s.actDue a).map fun d => (d, a)) := by
    unfold State.dueActions
    rw [hp, List.filter_cons_of_pos (by simp [State.slotFree, hgroup, hswap]), List.filter_nil]
  unfold State.nextAction
  rw [hdue]
  by_cases h : a.acc + 2 ≤ s.nextTick ∧ d ≤ s.nextTick
  · rw [if_pos h]
    simp [State.actDue_tick ha, h, hgroup, hswap]
  · rw [if_neg h]
    simp [State.actDue_tick ha, h]

theorem State.schedDue_none {s : State} (h : s.nextAction = none) : s.schedDue = s := by
  unfold State.schedDue
  simp [h]

theorem State.schedDue_acts {s : State} {a : Action} {d : Nat} (hs : s.Awake) (h : s.nextAction = some (d, a))
    (hk : keyDiscard a.key = false ∨ d = s.tick.next) : s.schedDue = (s.cancel a.id).schedAct d a := by
  unfold State.schedDue
  rw [hs.ticks, if_pos rfl, h]
  refine if_neg fun h => ?_
  obtain ⟨hdiscard, hlate⟩ := Bool.and_eq_true_iff.mp h
  obtain hk | hk := hk
  · simp [show keyDiscard a.key = false from hk] at hdiscard
  · exact absurd (of_decide_eq_true hlate) (by rw [hk]; exact Nat.lt_irrefl _)

theorem State.schedDue_discards {s : State} {a : Action} {d : Nat} (hs : s.Awake) (h : s.nextAction = some (d, a)) (hk : keyDiscard a.key = true)
    (hd : d < s.tick.next) : s.schedDue = (s.cancel a.id).countDiscard.postAt s.tick.next 0x270B noInst (beBytes 4 a.id) := by
  unfold State.schedDue
  rw [hs.ticks, if_pos rfl, h]
  dsimp only
  refine if_pos ?_
  rw [hk]
  exact decide_eq_true hd

theorem State.schedAct_conv {s : State} {a : Action} (d : Nat) {k : SchedKey} {target : Byte} (hc : a.cmd = .convState k target) :
    s.schedAct d a = s.keepReq { target := convOf target.toNat, reply := none, sched := some (a.id, s.actionFlags d a, s.lateness d a) } := by
  unfold State.schedAct
  rw [hc]

theorem State.cancel_one {s : State} {a : Action} (hp : s.sched.pending = [a]) : s.cancel a.id = { s with sched := { s.sched with pending := [] } } := by
  unfold State.cancel
  rw [hp, List.filter_cons_of_neg (by simp), List.filter_nil]

/-- Settles O23: the one pending action is the next one (`State.nextAction_one`), and it acts or is dropped (`State.schedDue_acts`,
`State.schedDue_discards`). -/
theorem scheduledActionActs : Obligations.ScheduledActionActs := by
  unfold Obligations.ScheduledActionActs
  intro s a d k target hs hp ha hc
  have hnext : s.clearOut.nextAction = if a.acc + 2 ≤ s.tick.next ∧ d ≤ s.tick.next then some (d, a) else none :=
    State.nextAction_one (s := s.clearOut) hp ha hc
  refine ⟨rfl, fun hacc hd hk => ?_, fun hacc hd hk => ?_, fun h => ?_⟩
  · rw [if_pos ⟨hacc, hd⟩] at hnext
    have hdue := State.schedDue_acts hs.clearOut hnext hk
    rw [State.cancel_one (s := s.clearOut) hp, State.schedAct_conv d hc] at hdue
    exact does_safe hs rfl hdue hs
  · rw [if_pos ⟨hacc, hd.le⟩] at hnext
    have hdue := State.schedDue_discards hs.clearOut hnext hk hd
    rw [State.cancel_one (s := s.clearOut) hp] at hdue
    exact does_safe hs rfl hdue (.postAt hs)
  · rw [if_neg (by omega)] at hnext
    exact idles_safe hs rfl (State.schedDue_none hnext)

end Sys2Proof.Machine
end

section
/-!
PROOF. Records of the chronograph and the windows of the log's rate limit (R266 to R268, R281).
-/
namespace Sys2Proof.Machine

/-! ### Records -/

theorem State.recordDone_closes {s : State} {r : Record} (hst : s.chr.state = .recording) (hl : s.chr.postLeft = 0) (hr : s.chr.cur = some r) :
    s.recordDone = State.post { s with chr := { s.chr with
      state := if s.chr.repeatOpt then .holdoff else .idle, armId := if s.chr.repeatOpt then s.chr.armId else 0, cur := none
      records := s.chr.records ++ [r], lastId := r.id, closedTick := r.lastTick, eventsInHold := 0, postLeft := 0 } } 0x2803 noInst
      (beBytes 4 r.id ++ beBytes 2 r.flags) := by
  unfold State.recordDone State.closeRecord
  rw [if_pos (by simp [hst, hl]), hr]
  cases s.chr.repeatOpt <;> rfl

theorem State.recordDone_idle {s : State} (h : s.chr.state ≠ .recording ∨ s.chr.postLeft ≠ 0) : s.recordDone = s := by
  unfold State.recordDone
  exact if_neg (by obtain h | h := h <;> simp [h])

/-! ### The hold-off -/

theorem State.clearOut_chrView_objs (s : State) : s.clearOut.chrView.objs = s.chrView.objs := by
  have hst : s.clearOut.chr.state = s.chr.state := rfl
  unfold State.chrView
  rw [hst]
  split <;> rfl

theorem State.clearOut_chrView_cfgN (s : State) (i : Nat) : s.clearOut.chrView.cfgN i = s.chrView.cfgN i :=
  State.cfgN_congr s.clearOut_chrView_objs i

theorem State.clearOut_chrView_cfgB (s : State) (i : Nat) : s.clearOut.chrView.cfgB i = s.chrView.cfgB i := by
  unfold State.cfgB
  rw [State.cfg_congr s.clearOut_chrView_objs]

theorem State.holdoffDue_ticks {s : State} (hst : s.chr.state = .holdoff) (hm : s.chrView.cfgN Obj.CHR_HOLDOFF_MODE ≠ 1)
    (hd : s.chr.closedTick + s.chrView.cfgN Obj.CHR_HOLDOFF * 4000 ≤ s.nextTick) : s.holdoffDue = true := by
  unfold State.holdoffDue
  rw [if_neg hm]
  simp [hst, hd]

theorem State.holdoffExpired_idle {s : State} (h : s.chr.state ≠ .holdoff ∨ s.chr.disarm = true) : s.holdoffExpired = s := by
  unfold State.holdoffExpired
  refine if_pos ?_
  obtain h | h := h
  · simp [State.holdoffDue, h]
  · simp [h]

theorem State.noSlot_holdoff {s : State} (hst : s.chr.state = .holdoff) :
    s.noSlot = decide (s.chrView.cfgN Obj.CHR_SLOTS ≤ s.chr.records.length) := by
  have hholds : s.chr.holds = false := by
    unfold Chrono.holds
    rw [hst]
    rfl
  unfold State.noSlot
  rw [hholds]
  rfl

/-- What an arming in a free slot makes of the chronograph, and what it leaves alone (R266, R267). -/
structure State.Armed (s t : State) (id : Nat) (rep : Bool) : Prop where
  keeps : t = { s with chr := t.chr, log := t.log }
  state : t.chr.state = .armed
  armId : t.chr.armId = id
  repeats : t.chr.repeatOpt = rep
  records : t.chr.records = s.chr.records
  ring : t.chr.ring = []
  overwrites : t.chr.overwrites = s.chr.overwrites

theorem State.armChrono_armed {s : State} (id : Nat) (rep master : Bool) (hfree : s.noSlot = false) :
    s.Armed (s.armChrono id rep master) id rep := by
  have hslot : s.takeSlot = (s, false) := if_pos (by simp [hfree])
  unfold State.armChrono State.post
  rw [hslot]
  dsimp only
  rw [State.postAt_eq]
  exact ⟨rfl, rfl, rfl, rfl, rfl, rfl, rfl⟩

theorem State.holdoffExpired_arms {s : State} (hd : s.holdoffDue = true) (hn : s.chr.disarm = false) (hfree : s.noSlot = false) :
    s.holdoffExpired = s.armChrono s.chr.armId s.chr.repeatOpt s.chr.master := by
  unfold State.holdoffExpired
  rw [if_neg (by simp [hd, hn])]
  exact if_pos (by simp [State.canArm, hfree])

theorem State.holdoffExpired_full {s : State} (hd : s.holdoffDue = true) (hn : s.chr.disarm = false) (hno : s.noSlot = true)
    (hover : s.chrView.cfgB Obj.CHR_OVERWRITE_UNREAD = false) (hfull : s.chr.full = false) :
    s.holdoffExpired = { s with chr := { s.chr with full := true } }.post 0x2805 noInst [] := by
  unfold State.holdoffExpired
  rw [if_neg (by simp [hd, hn]), if_neg (by simp [State.canArm, hno, hover])]
  exact if_neg (by simp [hfull])

/-! ### The rate-limit windows of the log -/

theorem State.applyWaiting_none {s : State} {p : ApplyPoint} (h : ∀ w ∈ s.waiting, w.point ≠ p) : s.applyWaiting p = s := by
  have hdue : s.waiting.filter (fun w => w.point == p) = [] := List.filter_eq_nil_iff.mpr fun w hw => by simpa using h w hw
  have hkeep : s.waiting.filter (fun w => w.point != p) = s.waiting := List.filter_eq_self.mpr fun w hw => by simpa using h w hw
  unfold State.applyWaiting
  rw [hdue, hkeep]
  rfl

theorem State.logWindowDue_iff {s : State} (hs : s.Awake) : s.logWindowDue = true ↔ s.nextTick % (s.cfgN Obj.LOG_PERIOD * 4000) = 0 := by
  simp only [State.logWindowDue, hs.ticks, Bool.true_and, decide_eq_true_eq]
  rfl

/-- With nothing suppressed the accounts close without an entry (R281). -/
theorem State.logWindow_quiet {s : State} (h : ∀ a ∈ s.log.acc, a.suppressed = 0) : s.logWindow = { s with log := { s.log with acc := [] } } := by
  unfold State.logWindow
  have hfold := List.foldlRecOn s.log.acc (fun (s : State) a => if a.suppressed = 0 then s else s.takeIn
      { made := s.tick.now, tick := a.firstTick, time := s.timeOf a.firstTick, code := 0x2C01, cls := a.cls, inst := a.src
        data := beBytes 2 a.firstCode ++ beBytes 2 a.lastCode, rpt := a.suppressed, lastTick := a.lastTick })
    (b := s) (motive := fun t => t = s) rfl fun t ht a ha => by rw [if_pos (h a ha), ht]
  rw [hfold]

/-- One account that has suppressed occurrences closes with its entry (R281). -/
theorem State.logWindow_one {s : State} {a : RateAcc} (ht : s.ticking = true) (ha : s.log.acc = [a]) (hs : a.suppressed ≠ 0) : s.logWindow =
    { s with log := { s.log.push { made := s.tick.now, tick := a.firstTick, time := s.timeOf a.firstTick, code := 0x2C01, cls := a.cls, inst := a.src
                                   data := beBytes 2 a.firstCode ++ beBytes 2 a.lastCode, rpt := a.suppressed, lastTick := a.lastTick } with
      acc := [] } } := by
  unfold State.logWindow
  rw [ha, List.foldl_cons, List.foldl_nil, if_neg hs]
  unfold State.takeIn
  dsimp only
  rw [if_pos ht]

/-- Settles O24: by the equations of `State.recordDone`, `State.holdoffExpired` and `State.logWindow`. -/
theorem recordsAndLogWindowsClose : Obligations.RecordsAndLogWindowsClose := by
  unfold Obligations.RecordsAndLogWindowsClose
  refine ⟨fun s hs => ⟨fun r hst hl hr => ?_, fun h => ?_, fun hst hn hm hd => ?_, fun h => ?_⟩,
    fun s hs hw => ⟨fun hb => ⟨fun hq => ?_, fun a ha hsup => ?_⟩, fun hb => ?_⟩⟩
  · exact does_safe hs rfl (State.recordDone_closes (s := s.clearOut) hst hl hr) (.post hs)
  · exact idles_safe hs rfl (State.recordDone_idle (s := s.clearOut) h)
  · rw [← State.clearOut_chrView_cfgN] at hm hd
    have hdue : s.clearOut.holdoffDue = true := State.holdoffDue_ticks (s := s.clearOut) hst hm hd
    have hslots := State.noSlot_holdoff (s := s.clearOut) hst
    rw [State.clearOut_chrView_cfgN] at hslots
    refine ⟨fun hroom => ?_, fun hno hover hfull => ?_⟩
    · have hfree : s.clearOut.noSlot = false := hslots.trans (decide_eq_false (Nat.not_le.mpr hroom))
      have harm := State.armChrono_armed s.clearOut.chr.armId s.clearOut.chr.repeatOpt s.clearOut.chr.master hfree
      refine (does_safe hs rfl (State.holdoffExpired_arms hdue hn hfree) (by rw [harm.keeps]; exact hs)).next fun t he => ?_
      rw [he.chr_eq, he.bal_eq, he.conv_eq, he.objs_eq]
      refine ⟨harm.state, harm.armId, harm.repeats, harm.records, harm.ring, harm.overwrites, ?_, ?_, ?_⟩ <;> rw [harm.keeps] <;> rfl
    · rw [← State.clearOut_chrView_cfgB] at hover
      exact does_safe hs rfl (State.holdoffExpired_full hdue hn (hslots.trans (decide_eq_true hno)) hover hfull) (.post hs)
  · exact idles_safe hs rfl (State.holdoffExpired_idle (s := s.clearOut) h)
  · have hend : s.clearOut.logWindowEnd = s.clearOut.logWindow := State.applyWaiting_none (s := s.clearOut.logWindow) (by
      rw [State.logWindow_quiet (s := s.clearOut) hq]; exact hw)
    have hd := does_due (c := .logWindowEnd) (due := State.logWindowDue) (f := State.logWindowEnd) hs rfl ((State.logWindowDue_iff hs).mpr hb)
      (by rw [hend, State.logWindow_quiet (s := s.clearOut) hq]; exact hs)
    rwa [hend, State.logWindow_quiet (s := s.clearOut) hq] at hd
  · have hone := State.logWindow_one (s := s.clearOut) hs.ticks ha hsup
    have hend : s.clearOut.logWindowEnd = s.clearOut.logWindow := State.applyWaiting_none (s := s.clearOut.logWindow) (by rw [hone]; exact hw)
    have hd := does_due (c := .logWindowEnd) (due := State.logWindowDue) (f := State.logWindowEnd) hs rfl ((State.logWindowDue_iff hs).mpr hb)
      (by rw [hend, hone]; exact hs)
    rwa [hend, hone] at hd
  · exact idles_due (due := State.logWindowDue) hs rfl (Bool.eq_false_iff.mpr fun hd => hb ((State.logWindowDue_iff hs).mp hd))

end Sys2Proof.Machine
end

section
/-!
PROOF. Windows of the integrating path, their results, VANA and the reference (R225 to R233, R379).
-/
namespace Sys2Proof.Machine

/-! ### Window boundaries -/

theorem State.integRuns_of_awake {s : State} (hs : s.Awake) (hv : s.meas.vanaOk = true) (ha : s.pwr.anaOk = true) : s.integRuns = true := by
  simp [State.integRuns, hs.ticks, hv, ha]

theorem State.integRuns_false {s : State} (h : s.meas.vanaOk = false ∨ s.pwr.anaOk = false) : s.integRuns = false := by
  obtain h | h := h <;> simp [State.integRuns, h]

theorem State.inFallback_of_awake {s : State} (hs : s.Awake) (he : s.pwr.entry = none) : s.inFallback = s.meas.vanaLow := by
  obtain ⟨-, hst, -, -⟩ := hs
  simp [State.inFallback, hst, he]

/-- Where the window angle passes WIN_ANCHOR between the last two edges (R225). -/
def State.boundaryAt (s : State) (up : Bool) : Nat := s.turnedBy up (BitVec.ofNat 64 (s.cfgN Obj.WIN_ANCHOR * 2 ^ 32) - s.winAngle.1).toNat

/-- What a boundary makes of the windows: the one in progress is closed, and the next one opened, but none in fall-back (R225, R232). -/
structure Meas.Turned (m m' : Meas) (t : Nat) (scale : List Int) (low : Bool) : Prop where
  lastBound : m'.lastBound = t
  opened : low = false → m'.winOpen = true ∧ m'.winStart = t ∧ m'.winFb = false
  shut : low = true → m'.winOpen = false
  closed : m.winOpen = true → m'.endTick = some (t / 2048 + 2) ∧ m'.endStart = m.winStart ∧ m'.endFrac = t ∧ m'.endScale = scale
  kept : m.winOpen = false → m'.endTick = m.endTick ∧ m'.endFrac = m.endFrac
  results : m'.results = m.results ∧ m'.winCount = m.winCount ∧ m'.expE = m.expE ∧ m'.impE = m.impE

theorem State.boundary_eq (s : State) (up : Bool) : s.boundary up = { s with meas := (s.boundary up).meas } := by
  unfold State.boundary State.openWindow State.closeWindow
  dsimp only
  (repeat' split) <;> rfl

/-- The boundary is noted. -/
def State.boundaryNoted (s : State) (up : Bool) : State :=
  { s with meas := { s.meas with lastBound := s.boundaryAt up, fbTurns := s.meas.fbTurns + 1 } }

/-- The window in progress closes. -/
def State.boundaryShut (s : State) (up : Bool) : State :=
  if s.meas.winOpen then (s.boundaryNoted up).closeWindow (s.boundaryAt up) else s.boundaryNoted up

theorem State.boundary_open {s : State} (up : Bool) (hf : s.meas.winFb = false) (hfall : s.inFallback = false) :
    s.boundary up = (s.boundaryShut up).openWindow (s.boundaryAt up) false := by
  have hfall : (s.boundaryShut up).inFallback = false := by
    unfold State.boundaryShut
    split <;> exact hfall
  unfold State.boundary
  dsimp only
  rw [if_neg (by simp [hf])]
  exact if_neg (Bool.eq_false_iff.mp hfall)

theorem State.boundary_fallback {s : State} (up : Bool) (hf : s.meas.winFb = false) (hfall : s.inFallback = true) :
    s.boundary up = { s.boundaryShut up with meas := { (s.boundaryShut up).meas with
      fbTurns := if (s.boundaryShut up).meas.endFrac = s.boundaryAt up then 0 else (s.boundaryShut up).meas.fbTurns } } := by
  have hfall : (s.boundaryShut up).inFallback = true := by
    unfold State.boundaryShut
    split <;> exact hfall
  unfold State.boundary
  dsimp only
  rw [if_neg (by simp [hf])]
  exact if_pos hfall

theorem State.boundary_turned {s : State} (up : Bool) (hf : s.meas.winFb = false) (hfall : s.inFallback = s.meas.vanaLow) :
    s.meas.Turned (s.boundary up).meas (s.boundaryAt up) ((List.range 24).map fun n => s.cfg (Obj.AI_SCALE + n)) s.meas.vanaLow := by
  have hshut : s.meas.Turned { (s.boundaryShut up).meas with winOpen := false } (s.boundaryAt up)
      ((List.range 24).map fun n => s.cfg (Obj.AI_SCALE + n)) true := by
    unfold State.boundaryShut
    split
    · next ho => exact ⟨rfl, nofun, fun _ => rfl, fun _ => ⟨rfl, rfl, rfl, rfl⟩, fun h => absurd (ho.symm.trans h) (by decide), rfl, rfl, rfl, rfl⟩
    · next ho => exact ⟨rfl, nofun, fun _ => rfl, fun h => absurd h ho, fun _ => ⟨rfl, rfl⟩, rfl, rfl, rfl, rfl⟩
  obtain ⟨hbound, -, -, hclosed, hkept, hresults⟩ := hshut
  cases hlow : s.meas.vanaLow with
  | false =>
    rw [State.boundary_open up hf (hfall.trans hlow)]
    exact ⟨hbound, fun _ => ⟨rfl, rfl, rfl⟩, nofun, hclosed, hkept, hresults⟩
  | true =>
    rw [State.boundary_fallback up hf (hfall.trans hlow)]
    have hwin : (s.boundaryShut up).meas.winOpen = false := by
      unfold State.boundaryShut
      split
      · rfl
      · next ho => exact Bool.eq_false_iff.mpr ho
    exact ⟨hbound, nofun, fun _ => hwin, hclosed, hkept, hresults⟩

/-- A window that starts with no value waiting for one only takes the reference. -/
theorem State.windowStarts_eq {b s : State} (hw : ∀ w ∈ s.waiting, w.point ≠ .window) : b.windowStarts s = { s with meas := { s.meas with
    refInUse := (b.windowStarts s).meas.refInUse, refNom := (b.windowStarts s).meas.refNom, refSettled := (b.windowStarts s).meas.refSettled
    refReadings := (b.windowStarts s).meas.refReadings, winRefUns := (b.windowStarts s).meas.winRefUns } } := by
  unfold State.windowStarts
  dsimp only
  split
  · rw [State.applyWaiting_none hw]
    rfl
  · rfl

theorem State.boundaryDue_iff (s : State) : s.boundaryDue = true ↔
    s.integRuns = true ∧ s.anchorPassed = true ∧ (s.meas.lastBound = 0 ∨ s.meas.lastBound < (s.tick.now - 1) * 2048) := by
  simp only [State.boundaryDue, Bool.and_eq_true, Bool.or_eq_true, decide_eq_true_eq, and_assoc]
  rfl

/-- Settles O25: a due boundary turns the windows (`State.boundary_turned`), and a started one takes only the reference. -/
theorem windowBoundaryTurnsWindows : Obligations.WindowBoundaryTurnsWindows := by
  unfold Obligations.WindowBoundaryTurnsWindows
  intro s up hs bound
  refine ⟨fun he hv ha hpass hlast hfb hw => ?_, fun h => ?_⟩
  · have hdue : s.boundaryDue = true := s.boundaryDue_iff.mpr ⟨State.integRuns_of_awake hs hv ha, hpass, .inr hlast⟩
    have hb := s.clearOut.boundary_eq up
    have hstart := State.windowStarts_eq (b := s.clearOut) (s := s.clearOut.boundary up) (by rw [hb]; exact hw)
    have hd := does_due (c := .windowBoundary up) (due := State.boundaryDue) (f := fun s => s.windowStarts (s.boundary up)) hs rfl hdue
      (by rw [hstart, hb]; exact hs)
    have hturn := State.boundary_turned (s := s.clearOut) up hfb (State.inFallback_of_awake (s := s.clearOut) hs he)
    refine hd.next fun t ht => ?_
    rw [ht.meas_eq, ht.bal_eq, ht.conv_eq, ht.objs_eq, hstart]
    refine ⟨hturn.lastBound, hturn.opened, hturn.shut, hturn.closed, hturn.kept, hturn.results.1, hturn.results.2.1, hturn.results.2.2.1,
      hturn.results.2.2.2, ?_, ?_, ?_⟩ <;> rw [hb] <;> rfl
  · refine idles_due (due := State.boundaryDue) (f := fun s => s.windowStarts (s.boundary up)) hs rfl (Bool.eq_false_iff.mpr fun hd => ?_)
    obtain ⟨hruns, hpass, -⟩ := s.boundaryDue_iff.mp hd
    rw [← or_assoc] at h
    obtain h | h := h
    · simp [State.integRuns_false h] at hruns
    · simp [h] at hpass

/-! ### Window results -/

theorem State.windowQuantities_eq (s : State) (ai : List AiWindow) (len : Nat) : ∃ f p q vac vdc sig, s.windowQuantities ai len =
    { s with sig := sig, meas := { s.meas with
      winLen := len, fWin := f, winP := p, winQ := q, winVac := vac, winVdc := vdc, winCount := s.meas.winCount + 1 } } := by
  unfold State.windowQuantities State.setPu State.setSigN State.setSig
  extract_lets
  exact ⟨_, _, _, _, _, _, rfl⟩

/-- What drift tracking changes: corrections, their episodes and their count (R229). -/
theorem State.driftInput_eq (s : State) (ovl : List Bool) (n : Nat) (a : AiWindow) : s.driftInput ovl n a =
    { s with log := (s.driftInput ovl n a).log, meas := { s.meas with
      offs := (s.driftInput ovl n a).meas.offs, gain := (s.driftInput ovl n a).meas.gain, driftEp := (s.driftInput ovl n a).meas.driftEp
      driftCount := (s.driftInput ovl n a).meas.driftCount, driftRos := (s.driftInput ovl n a).meas.driftRos } } := by
  unfold State.driftInput State.post
  dsimp only
  split
  · rfl
  split
  · rw [State.postAt_eq]
  · rfl

/-- Drift tracking of every input after a window (R229). -/
def State.driftInputs (s : State) (ovl : List Bool) (l : List (AiWindow × Nat)) : State := l.foldl (fun s p => s.driftInput ovl p.2 p.1) s

theorem State.driftInputs_eq (s : State) (ovl : List Bool) (l : List (AiWindow × Nat)) : s.driftInputs ovl l =
    { s with log := (s.driftInputs ovl l).log, meas := { s.meas with
      offs := (s.driftInputs ovl l).meas.offs, gain := (s.driftInputs ovl l).meas.gain, driftEp := (s.driftInputs ovl l).meas.driftEp
      driftCount := (s.driftInputs ovl l).meas.driftCount, driftRos := (s.driftInputs ovl l).meas.driftRos } } :=
  List.foldlRecOn l _ (motive := fun t : State => t = { s with log := t.log, meas := { s.meas with
      offs := t.meas.offs, gain := t.meas.gain, driftEp := t.meas.driftEp, driftCount := t.meas.driftCount, driftRos := t.meas.driftRos } })
    rfl fun t ht p _ => by
      rw [State.driftInput_eq, ht]

/-- The results that a window leaves. -/
structure Meas.Resulted (m m' : Meas) (res : List AiResult) (base : Int) : Prop where
  endTick : m'.endTick = none
  fresh : m'.fresh = true
  winLen : m'.winLen = m.endFrac - m.endStart
  winCount : m'.winCount = m.winCount + 1
  results : m'.results = res
  lastCounted : m'.lastCounted = some m.endFrac
  exported : m'.expE = m.expE + max 0 (m'.winP * base * ((m.endFrac : Int) - (m.lastCounted.getD m.endStart : Nat)))
  imported : m'.impE = m.impE + max 0 (-(m'.winP * base * ((m.endFrac : Int) - (m.lastCounted.getD m.endStart : Nat))))
  estimated : m'.energyRos = (m.energyRos || m.lastCounted.getD m.endStart ≠ m.endStart)

/-- The results stand in the result words. -/
def State.resultsTaken (s : State) (ovl : List Bool) (ai : List AiWindow) : State :=
  { s with meas := { s.meas with
      results := ai.zipIdx.map fun p => s.aiResult ovl p.2 p.1, endTick := none, fresh := true
      fbWindows := s.meas.fbWindows + b2n (s.meas.endFlags % 2 = 1) } }

/-- The window is counted and its energy added, before drift tracking (R226, R228). -/
def State.resultsStand (s : State) (ovl : List Bool) (ai : List AiWindow) : State :=
  (((s.resultsTaken ovl ai).windowQuantities ai (s.meas.endFrac - s.meas.endStart)).windowEnergy s.meas.endStart s.meas.endFrac).setSigN 0x036
    (16 + ((List.range 24).filter fun n => 0 < s.cfgN (Obj.AI_ROLE + n)).foldl (fun b n => b ||| s.meas.inputFlags ovl n) 0)

theorem State.resultsStand_resulted (s : State) (ovl : List Bool) (ai : List AiWindow) :
    s.resultsStand ovl ai = { s with meas := (s.resultsStand ovl ai).meas, sig := (s.resultsStand ovl ai).sig } ∧
      s.meas.Resulted (s.resultsStand ovl ai).meas (ai.zipIdx.map fun p => s.aiResult ovl p.2 p.1) (s.cfg Obj.S_BASE) := by
  unfold State.resultsStand
  obtain ⟨f, p, q, vac, vdc, sig, h⟩ := State.windowQuantities_eq (s.resultsTaken ovl ai) ai (s.meas.endFrac - s.meas.endStart)
  rw [h]
  exact ⟨rfl, rfl, rfl, rfl, rfl, rfl, rfl, rfl, rfl, rfl⟩

theorem State.windowDone_eq (s : State) (ovl : List Bool) (ai : List AiWindow) : s.windowDone ovl ai =
    { (s.resultsStand ovl ai).driftInputs ovl ai.zipIdx with free := ((s.resultsStand ovl ai).driftInputs ovl ai.zipIdx).free + 48 } := by
  unfold State.windowDone State.resultsStand State.resultsTaken State.driftInputs
  dsimp only

theorem State.windowDone_resulted (s : State) (ovl : List Bool) (ai : List AiWindow) :
    s.windowDone ovl ai = { s with meas := (s.windowDone ovl ai).meas, sig := (s.windowDone ovl ai).sig, log := (s.windowDone ovl ai).log
                                   free := (s.windowDone ovl ai).free } ∧
      s.meas.Resulted (s.windowDone ovl ai).meas (ai.zipIdx.map fun p => s.aiResult ovl p.2 p.1) (s.cfg Obj.S_BASE) := by
  obtain ⟨heq, hend, hfresh, hlen, hcount, hres, hlast, hexp, himp, hest⟩ := s.resultsStand_resulted ovl ai
  rw [State.windowDone_eq, State.driftInputs_eq]
  refine ⟨?_, hend, hfresh, hlen, hcount, hres, hlast, hexp, himp, hest⟩
  rw [heq]

theorem FastSums.trms_measured {x : FastSums} (n : Nat) (o : Int) (h : 0 < x.weight) :
    x.trms n o = Nat.sqrt (floorDiv (x.square.getD n 0) x.weight).toNat / 64000 := if_neg (not_le.mpr h)

/-- Settles O26: the results are due at the second edge (`State.resultsDue`), and stand as `State.windowDone_resulted` says. -/
theorem windowResultsStand : Obligations.WindowResultsStand := by
  unfold Obligations.WindowResultsStand
  intro s ovl ai k hs
  have hexec : Instr.wf (.windowResult ovl ai) = true →
      exec (.windowResult ovl ai) s = runSafe true s fun s => s.whenDue true fun s => s.windowResult ovl ai := fun h => by
    show runSafe (Instr.wf (.windowResult ovl ai)) s _ = _
    rw [h]
  have hwf : ovl.length = 24 → ai.length = 24 → Instr.wf (.windowResult ovl ai) = true := fun ho ha => by
    simp [Instr.wf, aiCount, ho, ha]
  refine ⟨fun ho ha hend hk _ => ?_, fun ho ha hend => ?_, fun h => ?_⟩
  · obtain ⟨heq, hres⟩ := s.clearOut.windowDone_resulted ovl ai
    have hdone : s.clearOut.windowResult ovl ai = s.clearOut.windowDone ovl ai := by
      unfold State.windowResult State.resultsDue
      rw [show s.clearOut.meas.endTick = some k from hend]
      exact if_pos (decide_eq_true hk)
    have hd := does_due (due := fun _ => true) (f := fun s => s.windowResult ovl ai) hs (hexec (hwf ho ha)) rfl (by rw [hdone, heq]; exact hs)
    rw [hdone] at hd
    refine hd.next fun t he => ?_
    rw [he.meas_eq, he.bal_eq, he.conv_eq, he.objs_eq, hres.results]
    refine ⟨hres.endTick, hres.fresh, hres.winLen, hres.winCount, by simp [ha], fun n a hn => ?_, hres.lastCounted, ⟨hres.exported, hres.imported⟩,
      fun hgap => ?_, ?_, ?_, ?_⟩
    · refine ⟨s.clearOut.meas.endFast.trms n (Config.openValue (s.clearOut.free + 24 + n)), ?_, FastSums.trms_measured n _⟩
      simp [List.getElem?_zipIdx, hn, State.aiResult]
    · rw [hres.estimated]
      exact (Bool.or_eq_true _ _).mpr (.inr (decide_eq_true hgap))
    all_goals rw [heq]; rfl
  · refine idles_still (due := fun _ => true) (f := fun s => s.windowResult ovl ai) hs (hexec (hwf ho ha)) (if_neg ?_)
    simp [State.resultsDue, hend]
  · refine (exec_answers _ s).2 (Bool.eq_false_iff.mpr fun hw => ?_)
    obtain ⟨ho, ha⟩ := Bool.and_eq_true_iff.mp hw
    exact h.elim (fun h => h (of_decide_eq_true ho)) fun h => h (of_decide_eq_true ha)

/-! ### Fall-back and VANA -/

theorem State.fbPowerUp_due {s : State} (hr : s.integRuns = true) (hf : s.inFallback = true) (ha : s.anchorPassed = true) (ho : s.meas.winOpen = false)
    (hp : s.meas.fbPowered = false) (ht : s.cfgN Obj.WIN_FB_EVERY ≤ s.meas.fbTurns) :
    s.fbPowerUp = { s with meas := { s.meas with fbPowered := true, fbPowerAt := s.meas.lastBound, fbTurns := 0 } } := by
  unfold State.fbPowerUp
  exact if_pos (by simp [hr, hf, ha, ho, hp, ht])

theorem State.fbPowerUp_idle {s : State} (h : s.integRuns = false ∨ s.inFallback = false ∨ s.anchorPassed = false ∨ s.meas.winOpen = true ∨
    s.meas.fbPowered = true ∨ s.meas.fbTurns < s.cfgN Obj.WIN_FB_EVERY) : s.fbPowerUp = s := by
  unfold State.fbPowerUp
  refine if_neg fun hc => ?_
  simp only [Bool.and_eq_true, Bool.not_eq_true', decide_eq_true_eq] at hc
  obtain ⟨⟨⟨⟨⟨hr, hf⟩, ha⟩, ho⟩, hp⟩, ht⟩ := hc
  simp [hr, hf, ha, ho, hp] at h
  omega

theorem State.vanaLost_idle {s : State} {mv ticks : Nat} (h : s.meas.vanaOk = false ∨ 10800 ≤ mv ∨ ticks < 40) : s.vanaLost mv ticks = s := by
  unfold State.vanaLost vanaTicks
  refine if_neg fun hc => ?_
  simp only [Bool.and_eq_true, decide_eq_true_eq] at hc
  obtain ⟨⟨hv, hm⟩, ht⟩ := hc
  simp [hv] at h
  omega

/-- The loss of VANA where no window is in progress (R233). -/
theorem State.vanaLost_lost {s : State} {mv ticks : Nat} (hv : s.meas.vanaOk = true) (hm : mv < 10800) (ht : 40 ≤ ticks)
    (ho : s.meas.winOpen = false) : s.vanaLost mv ticks = State.post { s with pwr := { s.pwr with anaOk := false }, meas := { s.meas with
      vanaOk := false, vanaMv := mv, refSettled := false, refReadings := [], fbPowered := false
      vanaAssert := if (s.conv.state = .run ∨ s.conv.state = .scs) ∧ s.cfgN Obj.MEAS_TRIP_INPUT < 16 then [s.cfgN Obj.MEAS_TRIP_INPUT] else [] } }
      0x2604 noInst [] := by
  have hdiscard : s.discardWindow = s := if_neg (by simp [ho])
  unfold State.vanaLost
  rw [if_pos (by simp [hv, hm, vanaTicks, ht]), hdiscard]
  have hact : (if (s.conv.state = .run || s.conv.state = .scs) = true then s.tripNamed Obj.MEAS_TRIP_INPUT else []) =
      if (s.conv.state = .run ∨ s.conv.state = .scs) ∧ s.cfgN Obj.MEAS_TRIP_INPUT < 16 then [s.cfgN Obj.MEAS_TRIP_INPUT] else [] := by
    unfold State.tripNamed
    simp only [Bool.or_eq_true, decide_eq_true_eq, ite_and]
  rw [← hact]

theorem State.noteWake_awake {s : State} (w : WakeSource) (h : s.pwr.entry = none) : s.noteWake w = s := by
  unfold State.noteWake
  rw [h]

theorem State.vanaWake_awake (s : State) {t : State} (h : t.pwr.entry = none) : s.vanaWake t = t := by
  unfold State.vanaWake
  rw [State.noteWake_awake .vana h]
  exact ite_self t

theorem State.vanaPresent_back {s : State} {mv ticks : Nat} (hv : s.meas.vanaOk = false) (hm : 11000 < mv) (ht : 40 ≤ ticks) :
    s.vanaPresent mv ticks = { s with meas := { s.meas with vanaOk := true, vanaMv := mv, vanaAssert := [] } } := by
  unfold State.vanaPresent
  exact if_pos (by simp [hv, hm, vanaTicks, ht])

theorem State.vanaPresent_idle {s : State} {mv ticks : Nat} (h : mv ≤ 11000 ∨ ticks < 40) : s.vanaPresent mv ticks = s := by
  unfold State.vanaPresent vanaTicks
  refine if_neg fun hc => ?_
  simp only [Bool.and_eq_true, decide_eq_true_eq] at hc
  omega

/-- VANA is back in a started module that runs: the analogue rail is up (R379). -/
theorem State.anaRail_up {s : State} (hs : s.Awake) (he : s.pwr.entry = none) (hv : s.meas.vanaOk = true) (hst : s.pwr.started = true) :
    s.anaRail = { s with pwr := { s.pwr with anaOk := true } } := by
  have hports : s.portsOff = false := by simp [State.portsOff, he]
  obtain ⟨-, h0, -, -⟩ := hs
  unfold State.anaRail
  dsimp only
  rw [if_neg (by simp [hv, hst, h0]), hports]
  rfl

theorem State.vanaLowChange_changes {s : State} {mv ticks : Nat} (ht : 40 ≤ ticks)
    (h : (s.meas.vanaLow = false ∧ mv < 11700) ∨ (s.meas.vanaLow = true ∧ 11800 < mv)) :
    s.vanaLowChange mv ticks = { s with meas := { s.meas with vanaLow := !s.meas.vanaLow, vanaMv := mv } } := by
  unfold State.vanaLowChange
  refine if_pos ?_
  obtain ⟨hl, hm⟩ | ⟨hl, hm⟩ := h <;> simp [hl, hm, vanaTicks, ht]

theorem State.vanaLowChange_idle {s : State} {mv ticks : Nat}
    (h : ticks < 40 ∨ (s.meas.vanaLow = false ∧ 11700 ≤ mv) ∨ (s.meas.vanaLow = true ∧ mv ≤ 11800)) : s.vanaLowChange mv ticks = s := by
  unfold State.vanaLowChange
  refine if_neg ?_
  obtain ht | ⟨hl, hm⟩ | ⟨hl, hm⟩ := h
  · have hshort : ¬ vanaTicks ≤ ticks := Nat.not_le.mpr ht
    simp [hshort]
  · simp [hl, hm]
  · simp [hl, hm]

theorem State.vanaOrder_late {s : State} (hv : s.meas.vanaOk = false) (hl : s.pwr.lateVana = false)
    (hf : s.feed.aPresent = true ∨ s.feed.bPresent = true) :
    s.vanaOrder = { s with pwr := { s.pwr with lateVana := true, vanaOrderRos := true } }.post 0x2B09 noInst [] := by
  unfold State.vanaOrder
  exact if_neg (by simpa [hv, hl, State.anyFeed, or_iff_not_imp_left] using hf)

theorem State.vanaOrder_idle {s : State} (h : s.meas.vanaOk = true ∨ s.pwr.lateVana = true) : s.vanaOrder = s := by
  unfold State.vanaOrder
  exact if_pos (by simp [h])

/-! ### The reference -/

section
variable {s : State} {r : Int}

/-- A reading outside its limits loses the settled reference at once (R231). -/
theorem State.refCheck_out (hu : s.meas.refInUse = 1) (hr : r < 2400000000 ∨ 2600000000 < r) :
    let t : State := { s with meas := { s.meas with refSettled := false, refReadings := [], refLost := true, refLostRos := true } }
    s.refCheck r = if s.meas.refLost then t else t.post 0x2603 noInst [] := by
  have hout : (s.meas.refInUse = 1 && (decide (r < 2400000000) || decide (2600000000 < r))) = true := by simpa [hu] using hr
  unfold State.refCheck
  dsimp only
  rw [hout]
  cases s.meas.refLost <;> rfl

theorem State.refCheck_in (hin : s.meas.refInUse ≠ 1 ∨ (2400000000 ≤ r ∧ r ≤ 2600000000)) (hs : s.meas.refSettled = true) :
    s.refCheck r = { s with meas := if 20 * s.meas.refMean < |r - s.meas.refMean| * 1000000
      then { s.meas with refSettled := false, refReadings := [r], refLost := false } else { s.meas with refLost := false } } := by
  have hout : (s.meas.refInUse = 1 && (decide (r < 2400000000) || decide (2600000000 < r))) = false := by
    obtain h | ⟨hl, hh⟩ := hin
    · simp [h]
    · simp [not_lt.mpr hl, not_lt.mpr hh]
  unfold State.refCheck
  dsimp only
  rw [hout, hs]
  simp only [Bool.false_and, Bool.false_eq_true, if_false, if_true, decide_eq_true_eq]
  rfl

end

/-- Settles O27: each row by its own equation and its idle case; with no sleep entry in progress a wake source notes nothing
(`State.vanaWake_awake`). -/
theorem supplyAndReferenceAreWatched : Obligations.SupplyAndReferenceAreWatched := by
  unfold Obligations.SupplyAndReferenceAreWatched
  refine ⟨⟨fun s hs he => ⟨fun hv ha hlow hpass ho hp ht => ?_, fun h => ?_⟩, fun s mv ticks hs he => ⟨fun hv hm ht ho => ?_, fun h => ?_,
    fun hv hm ht hst => ?_, fun hv h => ?_, fun ht h => ?_, fun h => ?_, fun hv hl hf => ?_, fun h => ?_⟩⟩, fun s r hs => ⟨fun hv ha hu hr => ⟨fun hl => ?_, fun hl => ?_⟩, fun hv ha hin hset => ⟨fun hfar => ?_, fun hnear => ?_⟩, fun h => ?_⟩⟩
  · have hfall := (State.inFallback_of_awake (s := s.clearOut) hs he).trans hlow
    exact does_safe hs rfl (State.fbPowerUp_due (s := s.clearOut) (State.integRuns_of_awake (s := s.clearOut) hs hv ha) hfall hpass ho hp ht) hs
  · refine idles_safe hs rfl (State.fbPowerUp_idle (s := s.clearOut) ?_)
    rw [← or_assoc] at h
    exact h.imp (State.integRuns_false (s := s.clearOut)) (Or.imp_left (State.inFallback_of_awake (s := s.clearOut) hs he).trans)
  · have hlost := State.vanaLost_lost (s := s.clearOut) hv hm ht ho
    have hentry : (s.clearOut.vanaLost mv ticks).pwr.entry = none := by rw [hlost, State.post_pwr]; exact he
    exact does_safe hs rfl ((State.vanaWake_awake _ hentry).trans hlost) (.post hs)
  · have hlost := State.vanaLost_idle (s := s.clearOut) h
    refine idles_safe hs rfl ?_
    rw [hlost]
    exact State.vanaWake_awake _ he
  · have hback := State.vanaPresent_back (s := s.clearOut) hv hm ht
    refine does_safe hs rfl (E := fun s => let t := s.vanaPresent mv ticks; if s.meas.vanaOk = t.meas.vanaOk then t else s.vanaWake t.anaRail) ?_ hs
    dsimp only
    rw [hback, if_neg (by simp [hv]), State.anaRail_up (s := { s.clearOut with meas := _ }) hs he rfl hst]
    exact State.vanaWake_awake _ he
  · have hidle := State.vanaPresent_idle (s := s.clearOut) h
    refine idles_safe hs rfl (E := fun s => let t := s.vanaPresent mv ticks; if s.meas.vanaOk = t.meas.vanaOk then t else s.vanaWake t.anaRail) ?_
    dsimp only
    rw [hidle, if_pos rfl]
  · exact does_safe hs rfl (State.vanaLowChange_changes (s := s.clearOut) ht h) hs
  · exact idles_safe hs rfl (State.vanaLowChange_idle (s := s.clearOut) h)
  · exact does_safe hs rfl (State.vanaOrder_late (s := s.clearOut) hv hl hf) (.post hs)
  · exact idles_safe hs rfl (State.vanaOrder_idle (s := s.clearOut) h)
  · have hruns := State.integRuns_of_awake (s := s.clearOut) hs hv ha
    have hout := (State.refCheck_out (s := s.clearOut) hu hr).trans (if_neg (Bool.eq_false_iff.mp hl))
    exact does_safe hs rfl ((if_pos hruns).trans hout) (.post hs)
  · have hruns := State.integRuns_of_awake (s := s.clearOut) hs hv ha
    have hout := (State.refCheck_out (s := s.clearOut) hu hr).trans (if_pos hl)
    exact does_safe hs rfl ((if_pos hruns).trans hout) hs
  · have hruns := State.integRuns_of_awake (s := s.clearOut) hs hv ha
    have hin' := State.refCheck_in (s := s.clearOut) hin hset
    rw [if_pos (show 20 * s.clearOut.meas.refMean < |r - s.clearOut.meas.refMean| * 1000000 from hfar)] at hin'
    exact does_safe hs rfl ((if_pos hruns).trans hin') hs
  · have hruns := State.integRuns_of_awake (s := s.clearOut) hs hv ha
    have hin' := State.refCheck_in (s := s.clearOut) hin hset
    rw [if_neg (show ¬ 20 * s.clearOut.meas.refMean < |r - s.clearOut.meas.refMean| * 1000000 from not_lt.mpr hnear)] at hin'
    exact does_safe hs rfl ((if_pos hruns).trans hin') hs
  · exact idles_safe hs rfl (if_neg (Bool.eq_false_iff.mp (State.integRuns_false (s := s.clearOut) h)))

end Sys2Proof.Machine
end

section
/-!
PROOF. Lanes: what arrives on them, and how they come up and fall (R139 to R157).
-/
namespace Sys2Proof.Machine

/-! ### What the end of a command leaves of a lane and of a cell -/

/-- A lane but for what it sends. -/
def Lane.unsent (x : Lane) : Lane := { x with wire := [], blkHeld := false, queue := [] }

/-- What blocking leaves: of a lane all but what it sends, of a cell all but what waits for it and its commanded state (R127). -/
def State.Blocks (s t : State) : Prop :=
  (∀ l, (t.lane l).unsent = (s.lane l).unsent) ∧ ∀ c, (t.cell c).blocked = (s.cell c).blocked

theorem State.Blocks.refl (s : State) : s.Blocks s := ⟨fun _ => rfl, fun _ => rfl⟩

theorem State.Blocks.trans {s t u : State} (h : s.Blocks t) (h' : t.Blocks u) : s.Blocks u :=
  ⟨fun l => (h'.1 l).trans (h.1 l), fun c => (h'.2 c).trans (h.2 c)⟩

theorem State.Blocks.of_eq {s t : State} (hl : t.lanes = s.lanes) (hc : t.cells = s.cells) : s.Blocks t := by
  unfold State.Blocks State.lane State.cell
  rw [hl, hc]
  exact ⟨fun _ => rfl, fun _ => rfl⟩

/-- A change of one element that a view does not see changes no element of the view. -/
theorem modifyAt_view {α β : Type} (v : α → β) (f : α → α) (hf : ∀ x, v (f x) = v x) (l : List α) (n k : Nat) (d : α) :
    v ((modifyAt l n f).getD k d) = v (l.getD k d) := by
  unfold modifyAt
  rw [List.getD_eq_getElem?_getD, List.getD_eq_getElem?_getD, List.getElem?_modify]
  cases h : l[k]? with
  | none => rfl
  | some x =>
    simp only [Option.getD_some]
    split
    · exact hf x
    · rfl

theorem mapIdx_view {α β : Type} (v : α → β) (f : Nat → α → α) (hf : ∀ n x, v (f n x) = v x) (l : List α) (k : Nat) (d : α) :
    v ((l.mapIdx f).getD k d) = v (l.getD k d) := by
  rw [List.getD_eq_getElem?_getD, List.getD_eq_getElem?_getD, List.getElem?_mapIdx]
  cases h : l[k]? with
  | none => rfl
  | some x => exact hf k x

theorem State.blockLane_blocks (s : State) (l : Nat) : s.Blocks (s.blockLane l) := by
  refine ⟨fun k => modifyAt_view Lane.unsent _ (fun _ => by rfl) s.lanes l k {}, fun c => mapIdx_view Cell.blocked _ (fun n x => ?_) s.cells c {}⟩
  split <;> rfl

theorem State.blockAll_blocks (s : State) : s.Blocks s.blockAll := by
  unfold State.blockAll
  generalize List.range 48 = lanes
  exact List.foldlRecOn lanes State.blockLane (motive := fun t => s.Blocks t) (.refl s) fun t ht l _ => ht.trans (t.blockLane_blocks l)

theorem State.pulseRemoval_blocks (s : State) : s.Blocks s.pulseRemoval := by
  have h := s.blockAll_blocks
  unfold State.pulseRemoval
  dsimp only
  generalize s.blockAll = t at h
  exact h.trans (.of_eq rfl rfl)

theorem State.sfEvent_blocks (s : State) : s.Blocks s.sfEvent := .of_eq s.sfEvent_keeps.1 s.sfEvent_keeps.2.1

/-- The end of a command of a running module at most blocks (R287, R293). -/
theorem State.settle_blocks {f : State} (hf : f.Awake) (b : Bool) : f.Blocks (f.settle b) := by
  rw [State.settle_eq f b hf.ticks hf.2.1 hf.2.2.2]
  have hnote : f.Blocks f.noteDemands := .of_eq f.noteDemands_keeps.1 f.noteDemands_keeps.2.1
  split
  · exact (hnote.trans (State.pulseRemoval_blocks _)).trans (State.sfEvent_blocks _)
  · exact hnote.trans (State.sfEvent_blocks _)

/-- A command of a unit, with what its end leaves of lanes and cells. -/
theorem next_safe {c : Instr} {s f : State} {E : State → State} {P : State → Prop} (hs : s.Awake) (hc : exec c s = runSafe true s E)
    (hE : E s.clearOut = f) (hf : f.Awake) (hP : ∀ t, Ends f t → f.Blocks t → P t) : ∃ t, exec c s = .next t ∧ P t := by
  have hexec : exec c s = .next (f.settle true) := by
    rw [hc]
    simp [runSafe, guarded, State.unlessReset, hs.1, hE, hs.clearOut.ticks]
  obtain ⟨t, ht, he⟩ := does_safe hs hc hE hf
  cases hexec.symm.trans ht
  exact ⟨_, hexec, hP _ he (f.settle_blocks hf true)⟩

/-! ### One lane, one cell -/

theorem State.setLane_same {s : State} {l : Nat} (f : Lane → Lane) (h : l < s.lanes.length) : (s.setLane l f).lane l = f (s.lane l) :=
  modifyAt_getD f {} h

theorem State.setLane_other (s : State) {l k : Nat} (f : Lane → Lane) (h : k ≠ l) : (s.setLane l f).lane k = s.lane k :=
  getD_modify_other s.lanes l k f {} h

theorem State.setCell_other (s : State) {c k : Nat} (f : Cell → Cell) (h : k ≠ c) : (s.setCell c f).cell k = s.cell k :=
  getD_modify_other s.cells c k f {} h

theorem State.setLane_length (s : State) (l : Nat) (f : Lane → Lane) : (s.setLane l f).lanes.length = s.lanes.length :=
  List.length_modify _ _ _

/-- Lane `k` of a state. -/
theorem State.lane_congr {s t : State} (h : t.lanes = s.lanes) (k : Nat) : t.lane k = s.lane k := by
  unfold State.lane
  rw [h]

/-- A lane that has moved to another state, with the reason of a FAULT (R152). -/
def Lane.movedTo (x : Lane) (st : LaneState) (r : Nat) : Lane :=
  { x with
    state := st, reason := r, missRun := 0, identRun := 0, setN := 0, setSum := 0, far := 0, failedSets := 0
    downCount := if x.state = .up then x.downCount + 1 else x.downCount
    queue := if st.carries then x.queue else [] }

theorem State.laneAges_lanes (s : State) (l : Nat) : (s.laneAges l).lanes = s.lanes := by
  unfold State.laneAges
  generalize List.range 64 = cells
  exact List.foldlRecOn cells _ (motive := fun t : State => t.lanes = s.lanes) rfl fun t ht i _ => ht

theorem State.laneTo_lanes {s : State} {l : Nat} {st : LaneState} (r : Nat) (h : (s.lane l).state ≠ st) :
    (s.laneTo l st r).lanes = modifyAt s.lanes l fun x => { x with
      state := st, reason := r, missRun := 0, identRun := 0, setN := 0, setSum := 0, far := 0, failedSets := 0
      downCount := if (s.lane l).state = .up then x.downCount + 1 else x.downCount, queue := if st.carries then x.queue else [] } := by
  have hages : ∀ t : State, (if st = .up then t.laneAges l else t).lanes = t.lanes := fun t => by
    split
    exacts [t.laneAges_lanes l, rfl]
  unfold State.laneTo
  dsimp only
  rw [if_neg h, State.post_lanes]
  split
  · exact hages _
  · exact hages _

theorem State.laneTo_same {s : State} {l : Nat} {st : LaneState} (r : Nat) (hl : l < s.lanes.length) (h : (s.lane l).state ≠ st) :
    (s.laneTo l st r).lane l = (s.lane l).movedTo st r := by
  unfold State.lane
  rw [State.laneTo_lanes r h, modifyAt_getD _ _ hl]
  rfl

theorem State.laneTo_other (s : State) {l k : Nat} (st : LaneState) (r : Nat) (hk : k ≠ l) : (s.laneTo l st r).lane k = s.lane k := by
  by_cases h : (s.lane l).state = st
  · have hno : s.laneTo l st r = s := if_pos h
    rw [hno]
  · unfold State.lane
    rw [State.laneTo_lanes r h]
    exact getD_modify_other s.lanes l k _ {} hk

/-- The state but for lanes, cells, their ranking and what is logged of them: what the frames of a lane leave alone. -/
def State.offLanes (s : State) : State := { s with lanes := [], cells := [], arms := {}, cond := {}, log := {} }

theorem State.post_offLanes (s : State) (c i : Nat) (d : List Byte) : (s.post c i d).offLanes = s.offLanes := by
  unfold State.post
  rw [State.postAt_eq]
  rfl

theorem State.offLanes_keeps {s t : State} (h : t.offLanes = s.offLanes) :
    t.bal = s.bal ∧ t.conv = s.conv ∧ t.objs = s.objs ∧ t.pwr = s.pwr ∧ t.reg = s.reg ∧ t.saf = s.saf := by
  unfold State.offLanes at h
  simp only [State.mk.injEq] at h
  simp [h]

theorem State.Awake.of_offLanes {s t : State} (hs : s.Awake) (h : t.offLanes = s.offLanes) : t.Awake := by
  obtain ⟨-, -, -, hpwr, hreg, hsaf⟩ := State.offLanes_keeps h
  unfold State.Awake
  rwa [hpwr, hreg, hsaf]

theorem State.laneAges_offLanes (s : State) (l : Nat) : (s.laneAges l).offLanes = s.offLanes := by
  unfold State.laneAges
  generalize List.range 64 = cells
  exact List.foldlRecOn cells _ (motive := fun t : State => t.offLanes = s.offLanes) rfl fun t ht i _ => ht

theorem State.laneTo_offLanes (s : State) (l : Nat) (st : LaneState) (r : Nat) : (s.laneTo l st r).offLanes = s.offLanes := by
  have hages : ∀ t : State, (if st = .up then t.laneAges l else t).offLanes = t.offLanes := fun t => by
    split
    exacts [t.laneAges_offLanes l, rfl]
  unfold State.laneTo
  dsimp only
  split
  · rfl
  · rw [State.post_offLanes]
    split
    · exact hages _
    · exact hages _

/-! ### A lane comes up, and falls (R142, R152) -/

/-- What a command that changes one lane shows: the lane as `x`, the others as before, and nothing else changed. -/
theorem next_lane {c : Instr} {s f : State} {E : State → State} {l : Nat} (hs : s.Awake) (hc : exec c s = runSafe true s E)
    (hE : E s.clearOut = f) (hf : f.offLanes = s.clearOut.offLanes) (hk : ∀ k, k ≠ l → f.lane k = s.lane k) {P : State → Prop}
    (hP : ∀ t, (t.lane l).unsent = (f.lane l).unsent → (∀ k, k ≠ l → (t.lane k).unsent = (s.lane k).unsent) → t.bal = s.bal → t.conv = s.conv →
      t.objs = s.objs → P t) : ∃ t, exec c s = .next t ∧ P t := by
  obtain ⟨hbal, hconv, hobjs, -⟩ := State.offLanes_keeps hf
  exact next_safe hs hc hE (hs.clearOut.of_offLanes hf) fun t he hb => hP t (hb.1 l) (fun k hkl => (hb.1 k).trans (by rw [hk k hkl]))
    (he.bal_eq.trans hbal) (he.conv_eq.trans hconv) (he.objs_eq.trans hobjs)

/-- The delay that a complete set of measurements gives (R142). -/
def Lane.delayed (x : Lane) (d : Int) : Lane := { x with delay := d, filt := d * filtUnits }

/-- A complete set of measurements whose spread is small is judged by R141 and R152. -/
theorem State.delaySet_judges {s : State} {l : Nat} (hst : (s.lane l).state = .sync) (hn : 256 ≤ (s.lane l).setN)
    (hw : (s.lane l).setMax - (s.lane l).setMin ≤ 16) :
    let t := s.setLane l (Lane.delayed · (roundDiv (s.lane l).setSum 512))
    s.delaySet l = if ((s.cfgN Obj.EXEC_DELAY * tickEighths : Nat) : Int) - delayMargin < roundDiv (s.lane l).setSum 512 then t.laneTo l .fault 1
      else if (s.lane l).maxCells < s.laneCells l || (s.lane l).maxExec < s.cfgN Obj.EXEC_DELAY then t.laneTo l .fault 3
      else if !(if s.laneFb l then (s.lane l).fbOk else (s.lane l).hbOk) then t.laneTo l .fault 4 else t.laneTo l .up 0 := by
  unfold State.delaySet
  dsimp only
  rw [if_neg (by simp [hst]; exact hn), if_neg (not_lt.mpr hw)]
  rfl

theorem Lane.unsent_keeps {x y : Lane} (h : x.unsent = y.unsent) : x.state = y.state ∧ x.reason = y.reason ∧ x.delay = y.delay ∧ x.filt = y.filt ∧
    x.downCount = y.downCount ∧ x.product = y.product ∧ x.serial = y.serial ∧ x.maxCells = y.maxCells ∧ x.maxExec = y.maxExec := by
  unfold Lane.unsent at h
  simp only [Lane.mk.injEq] at h
  simp [h]

/-- A lane that falls from UP is counted (R152). -/
theorem Lane.fallen {x y : Lane} {st : LaneState} {r : Nat} (hx : x.state = .up) (h : y.unsent = (x.movedTo st r).unsent) :
    y.state = st ∧ y.downCount = x.downCount + 1 := by
  obtain ⟨hstate, -, -, -, hcount, -⟩ := Lane.unsent_keeps h
  exact ⟨hstate, hcount.trans (if_pos hx)⟩

theorem State.delaySet_idle {s : State} {l : Nat} (h : (s.lane l).state ≠ .sync ∨ (s.lane l).setN < 256) : s.delaySet l = s := by
  unfold State.delaySet
  exact if_pos (by simpa using h)

theorem State.rxTimeout_falls {s : State} {l : Nat} (hst : (s.lane l).state = .up) (hm : 64 ≤ (s.lane l).missRun) :
    s.rxTimeout l = s.laneTo l .seek 0 := by
  unfold State.rxTimeout
  exact if_pos (by simp [hst, hm])

theorem State.rxTimeout_idle {s : State} {l : Nat} (h : (s.lane l).state ≠ .up ∨ (s.lane l).missRun < 64) : s.rxTimeout l = s := by
  unfold State.rxTimeout
  refine if_neg ?_
  obtain h | h := h <;> simp [h]

theorem State.delayStep_falls {s : State} {l : Nat} (hst : (s.lane l).state = .up) (hf : 16 ≤ (s.lane l).far) : s.delayStep l =
    (s.post 0x2402 l (beBytes 4 ((roundDiv (s.lane l).filt filtUnits - (s.lane l).delay) % 2 ^ 32).toNat)).laneTo l .sync 0 := by
  unfold State.delayStep
  exact if_pos (by simp [hst, hf])

theorem State.delayStep_idle {s : State} {l : Nat} (h : (s.lane l).state ≠ .up ∨ (s.lane l).far < 16) : s.delayStep l = s := by
  unfold State.delayStep
  refine if_neg ?_
  obtain h | h := h <;> simp [h]

theorem State.post_lane (s : State) (c i : Nat) (d : List Byte) (k : Nat) : (s.post c i d).lane k = s.lane k :=
  State.lane_congr (State.post_lanes s c i d) k

/-- Settles O29: a lane moves by `State.laneTo`, and the end of the command at most discards what it was to send (`next_lane`). -/
theorem lanesComeUpAndFall : Obligations.LanesComeUpAndFall := by
  unfold Obligations.LanesComeUpAndFall
  intro s l hs hlen x d
  have hl : l.val < s.clearOut.lanes.length := by simp [hlen]
  have hjudged : ∀ st r, x.state = .sync → st ≠ .sync → s.clearOut.delaySet l.val = (s.clearOut.setLane l.val (Lane.delayed · d)).laneTo l.val st r →
      ∃ t, exec (.laneDelaySet l) s = .next t ∧ (t.lane l.val).unsent = ((x.delayed d).movedTo st r).unsent ∧
        (∀ k, k ≠ l.val → (t.lane k).unsent = (s.lane k).unsent) ∧ t.bal = s.bal ∧ t.conv = s.conv ∧ t.objs = s.objs := by
    intro st r hst hne hE
    have hset : (s.clearOut.setLane l.val (Lane.delayed · d)).lane l.val = x.delayed d := State.setLane_same _ hl
    have hmoved := State.laneTo_same (s := s.clearOut.setLane l.val (Lane.delayed · d)) (l := l.val) (st := st) r
      (by rw [State.setLane_length]; exact hl) (by rw [hset]; show x.state ≠ st; rw [hst]; exact hne.symm)
    rw [hset] at hmoved
    have hoff : ((s.clearOut.setLane l.val (Lane.delayed · d)).laneTo l.val st r).offLanes = s.clearOut.offLanes := State.laneTo_offLanes _ _ _ _
    refine next_lane hs rfl hE hoff
      (fun k hk => (State.laneTo_other _ _ _ hk).trans (State.setLane_other s.clearOut _ hk)) fun t ht hk hbal hconv hobjs => ?_
    exact ⟨ht.trans (congrArg Lane.unsent hmoved), hk, hbal, hconv, hobjs⟩
  refine ⟨fun hst hn hw => ⟨fun hd hc he hty => ?_, fun hd => ?_⟩, fun h => ?_, fun hst hm => ?_, fun h => ?_, fun hst hf => ?_, fun h => ?_⟩
  · have hjudge := State.delaySet_judges (s := s.clearOut) hst hn hw
    have hE := hjudge.trans ((if_neg (not_lt.mpr hd)).trans ((if_neg (by
      rw [Bool.or_eq_true, decide_eq_true_eq, decide_eq_true_eq]
      exact not_or.mpr ⟨not_lt.mpr hc, not_lt.mpr he⟩)).trans (if_neg (by rw [show (if s.clearOut.laneFb l.val then (s.clearOut.lane l.val).fbOk else (s.clearOut.lane l.val).hbOk) = true from hty]; decide))))
    obtain ⟨t, ht, hlane, hk, hrest⟩ := hjudged .up 0 hst (by decide) hE
    obtain ⟨hstate, -, hdelay, hfilt, -⟩ := Lane.unsent_keeps hlane
    refine ⟨t, ht, hstate, hdelay, hfilt, fun k hkl => ?_, hrest⟩
    obtain ⟨hks, -, hkd, -⟩ := Lane.unsent_keeps (hk k hkl)
    exact ⟨hks, hkd⟩
  · obtain ⟨t, ht, hlane, hk, hrest⟩ := hjudged .fault 1 hst (by decide) ((State.delaySet_judges (s := s.clearOut) hst hn hw).trans (if_pos hd))
    obtain ⟨hstate, hreason, -⟩ := Lane.unsent_keeps hlane
    exact ⟨t, ht, hstate, hreason, fun k hkl => (Lane.unsent_keeps (hk k hkl)).1, hrest⟩
  · exact idles_safe hs rfl (State.delaySet_idle (s := s.clearOut) h)
  · refine next_lane hs rfl (State.rxTimeout_falls (s := s.clearOut) hst hm) (State.laneTo_offLanes _ _ _ _) (fun k hk => State.laneTo_other _ _ _ hk)
      fun t ht hk hbal hconv hobjs => ?_
    have hfell := State.laneTo_same (s := s.clearOut) (st := .seek) 0 hl (show x.state ≠ _ by simp [hst])
    obtain ⟨hstate, hcount⟩ := Lane.fallen (x := x) hst (ht.trans (congrArg Lane.unsent hfell))
    exact ⟨hstate, hcount, fun k hkl => (Lane.unsent_keeps (hk k hkl)).1, hbal, hconv, hobjs⟩
  · exact idles_safe hs rfl (State.rxTimeout_idle (s := s.clearOut) h)
  · refine next_lane hs rfl (State.delayStep_falls (s := s.clearOut) hst hf) ((State.laneTo_offLanes _ _ _ _).trans (State.post_offLanes _ _ _ _))
      (fun k hk => (State.laneTo_other _ _ _ hk).trans (State.post_lane _ _ _ _ k)) fun t ht hk hbal hconv hobjs => ?_
    have hlog := State.post_lane s.clearOut 0x2402 l (beBytes 4 ((roundDiv x.filt filtUnits - x.delay) % 2 ^ 32).toNat) l.val
    have hfell := State.laneTo_same (s := s.clearOut.post 0x2402 l (beBytes 4 ((roundDiv x.filt filtUnits - x.delay) % 2 ^ 32).toNat)) (l := l.val)
      (st := .sync) 0 (by rw [State.post_lanes]; exact hl) (show _ ≠ _ by rw [hlog]; show x.state ≠ _; simp [hst])
    rw [hlog] at hfell
    obtain ⟨hstate, hcount⟩ := Lane.fallen (x := x) hst (ht.trans (congrArg Lane.unsent hfell))
    exact ⟨hstate, hcount, fun k hkl => (Lane.unsent_keeps (hk k hkl)).1, hbal, hconv, hobjs⟩
  · exact idles_safe hs rfl (State.delayStep_idle (s := s.clearOut) h)

/-! ### Uplink frames (R139 to R154) -/

theorem State.cfg_of_offLanes {s t : State} (h : t.offLanes = s.offLanes) (i : Nat) : t.cfg i = s.cfg i := by
  obtain ⟨-, -, hobjs, -⟩ := State.offLanes_keeps h
  unfold State.cfg
  rw [hobjs]

theorem State.cfgN_of_offLanes {s t : State} (h : t.offLanes = s.offLanes) (i : Nat) : t.cfgN i = s.cfgN i := by
  unfold State.cfgN
  rw [State.cfg_of_offLanes h]

/-- What a valid report of a cell gives (R97, R147). -/
def Cell.reading (x : Cell) : Nat × Option Nat × CellState := (x.vcap, x.age, x.applied)

theorem Cell.reading_eq {x y : Cell} (h : x.reading = y.reading) : x.vcap = y.vcap ∧ x.age = y.age ∧ x.applied = y.applied := by
  simpa [Cell.reading] using h

theorem Cell.reading_of_blocked {x y : Cell} (h : x.blocked = y.blocked) : x.reading = y.reading := by
  unfold Cell.blocked at h
  simp only [Cell.mk.injEq] at h
  simp [Cell.reading, h]

theorem State.post_cell (s : State) (c i : Nat) (d : List Byte) (k : Nat) : (s.post c i d).cell k = s.cell k := by
  unfold State.cell
  rw [State.post_cells]

theorem State.setCell_reading (s : State) (c : Nat) {f : Cell → Cell} (hf : ∀ x, (f x).reading = x.reading) (k : Nat) :
    ((s.setCell c f).cell k).reading = (s.cell k).reading :=
  modifyAt_view Cell.reading f hf s.cells c k {}

theorem State.markRetire_reading (s : State) (c : Nat) (r : RetireReason) (k : Nat) : ((s.markRetire c r).cell k).reading = (s.cell k).reading := by
  refine s.setCell_reading c (fun x => ?_) k
  split <;> rfl

theorem State.markRetire_offLanes (s : State) (c : Nat) (r : RetireReason) : (s.markRetire c r).offLanes = s.offLanes := rfl

theorem State.markRetire_length (s : State) (c : Nat) (r : RetireReason) : (s.markRetire c r).cells.length = s.cells.length :=
  List.length_modify _ _ _

theorem State.applyReport_offLanes (s : State) (c v : Nat) : (s.applyReport c v).offLanes = s.offLanes := by
  unfold State.applyReport
  dsimp only
  split <;> rfl

theorem State.applyReport_length (s : State) (c v : Nat) : (s.applyReport c v).cells.length = s.cells.length := by
  unfold State.applyReport
  dsimp only
  split <;> simp [State.setCell, State.rerank, modifyAt]

theorem State.applyReport_other (s : State) {c k : Nat} (v : Nat) (h : k ≠ c) : ((s.applyReport c v).cell k) = s.cell k := by
  unfold State.applyReport
  dsimp only
  split
  · exact (State.setCell_other _ _ h).trans (State.setCell_other _ _ h)
  · exact State.setCell_other _ _ h

theorem State.applyReport_reads {s : State} {c : Nat} (v : Nat) (h : c < s.cells.length) :
    ((s.applyReport c v).cell c).reading = (v, some 0, (s.cell c).applied) := by
  have hset := State.setCell_cell (s := s) (c := c) (fun x => { x with vcap := v, age := some 0, staleSeen := false }) h
  unfold State.applyReport
  dsimp only
  split
  · refine ((State.setCell_reading _ c (fun _ => by rfl) c).trans ?_)
    rw [hset]
    rfl
  · rw [hset]
    rfl

/-- The cell's record of its state on a valid report, which one that waits for it takes as its command (R154). -/
def Cell.reported (x : Cell) (st : CellState) (follows : Bool) : Cell :=
  let x := { x with applied := st }
  if x.take && follows then { x with take := false, cmd := st, wish := st, pend := none, since := 0 } else x

theorem Cell.reported_applied (x : Cell) (st : CellState) (b : Bool) : (x.reported st b).applied = st := by
  unfold Cell.reported
  dsimp only
  split <;> rfl

/-- What a report of cell `c` may change: the cell, and of the state what `offLanes` leaves out. -/
def State.Reports (s : State) (c : Nat) (t : State) : Prop :=
  t.offLanes = s.offLanes ∧ t.cells.length = s.cells.length ∧ ∀ k, k ≠ c → (t.cell k).reading = (s.cell k).reading

theorem State.Reports.refl (s : State) (c : Nat) : s.Reports c s := ⟨rfl, rfl, fun _ _ => rfl⟩

theorem State.Reports.trans {s t u : State} {c : Nat} (h : s.Reports c t) (h' : t.Reports c u) : s.Reports c u := by
  obtain ⟨hoff, hlen, hk⟩ := h
  obtain ⟨hoff', hlen', hk'⟩ := h'
  exact ⟨hoff'.trans hoff, hlen'.trans hlen, fun k hkc => (hk' k hkc).trans (hk k hkc)⟩

theorem State.post_reports (s : State) (c a i : Nat) (d : List Byte) : s.Reports c (s.post a i d) :=
  ⟨State.post_offLanes _ _ _ _, by rw [State.post_cells], fun k _ => by rw [State.post_cell]⟩

theorem State.markRetire_reports (s : State) (c : Nat) (r : RetireReason) : s.Reports c (s.markRetire c r) :=
  ⟨rfl, s.markRetire_length c r, fun k _ => s.markRetire_reading c r k⟩

theorem State.setCell_reports (s : State) (c : Nat) (f : Cell → Cell) : s.Reports c (s.setCell c f) :=
  ⟨rfl, List.length_modify _ _ _, fun _ hk => congrArg Cell.reading (s.setCell_other f hk)⟩

theorem State.applyReport_reports (s : State) (c v : Nat) : s.Reports c (s.applyReport c v) :=
  ⟨s.applyReport_offLanes c v, s.applyReport_length c v, fun _ hk => congrArg Cell.reading (s.applyReport_other v hk)⟩

/-- What a report's flags do before its voltage is looked at (R100, R147). -/
def State.reportFlags (s : State) (l i : Nat) (w : Word) : State :=
  let mismatch := w.getLsbD 4 != s.laneFb l
  let s' := if mismatch then s.setLane l fun x => { x with typeRos := true } else s
  if w.getLsbD 6 || mismatch then s'.markRetire (l * 64 + i) .fault else if w.getLsbD 5 then s'.markRetire (l * 64 + i) .bypassed else s'

theorem State.reportFlags_reports (s : State) (l i : Nat) (w : Word) : s.Reports (l * 64 + i) (s.reportFlags l i w) := by
  have htype : s.Reports (l * 64 + i) (if (w.getLsbD 4 != s.laneFb l) = true then s.setLane l fun x => { x with typeRos := true } else s) := by
    split
    exacts [⟨rfl, rfl, fun _ _ => rfl⟩, .refl _ _]
  unfold State.reportFlags
  dsimp only
  split
  · exact htype.trans (State.markRetire_reports _ _ _)
  · split
    · exact htype.trans (State.markRetire_reports _ _ _)
    · exact htype

/-- A report that is one of its slot is taken behind its flags (R147). -/
theorem State.report_of_slot {s : State} {l i : Nat} {w : Word} (hi : i < s.laneCells l) (hn : w.toNat / 2 ^ 26 = i) : s.report l i w =
    if (!w.getLsbD 7 || (w.getLsbD 6 || w.getLsbD 4 != s.laneFb l)) = true then s.reportFlags l i w
    else ((s.reportFlags l i w).setCell (l * 64 + i) (Cell.reported · (appliedState w) (!((s.reportFlags l i w).lane l).notFollow))).applyReport
      (l * 64 + i) (w.toNat / 2 ^ 8 % 2 ^ 16) := by
  unfold State.report
  dsimp only
  rw [if_neg (Nat.not_le.mpr hi), if_neg (not_not.mpr hn)]
  rfl

/-- One that names another slot gives nothing but an entry. -/
theorem State.report_of_other {s : State} {l i : Nat} {w : Word} (h : s.laneCells l ≤ i ∨ w.toNat / 2 ^ 26 ≠ i) (c : Nat) :
    s.Reports c (s.report l i w) := by
  unfold State.report
  dsimp only
  split
  · split
    exacts [.refl _ _, s.post_reports _ _ _ _]
  · rw [if_pos (h.resolve_left ‹_›)]
    exact s.post_reports _ _ _ _

theorem State.report_reports (s : State) (l i : Nat) (w : Word) : s.Reports (l * 64 + i) (s.report l i w) := by
  by_cases h : i < s.laneCells l ∧ w.toNat / 2 ^ 26 = i
  · obtain ⟨hi, hn⟩ := h
    rw [State.report_of_slot hi hn]
    split
    · exact s.reportFlags_reports l i w
    · exact ((s.reportFlags_reports l i w).trans (State.setCell_reports _ _ _)).trans (State.applyReport_reports _ _ _)
  · exact State.report_of_other (by omega) _

/-- A report changes no cell of another lane: its word names one of 64 slots. -/
theorem State.report_elsewhere (s : State) (l i : Nat) (w : Word) {k : Nat} (hk : k / 64 ≠ l) :
    ((s.report l i w).cell k).reading = (s.cell k).reading := by
  by_cases h : w.toNat / 2 ^ 26 = i
  · have hw := w.isLt
    exact (s.report_reports l i w).2.2 k (by omega)
  · exact (State.report_of_other (c := k + 1) (.inr h)).2.2 k (by omega)

/-- A valid report that tells of no fault gives its cell its voltage, its state and a new age. -/
theorem State.report_reads {s : State} {l i : Nat} {w : Word} (hi : i < s.laneCells l) (hn : w.toNat / 2 ^ 26 = i) (hv : w.getLsbD 7 = true)
    (hf : w.getLsbD 6 = false) (ht : w.getLsbD 4 = s.laneFb l) (hc : l * 64 + i < s.cells.length) :
    ((s.report l i w).cell (l * 64 + i)).reading = (w.toNat / 2 ^ 8 % 2 ^ 16, some 0, appliedState w) := by
  obtain ⟨-, hlen, -⟩ := s.reportFlags_reports l i w
  rw [State.report_of_slot hi hn, if_neg (by rw [hv, hf, ht]; simp), State.applyReport_reads _ (by rw [(State.setCell_reports _ _ _).2.1, hlen]; exact hc),
    State.setCell_cell _ (by rw [hlen]; exact hc), Cell.reported_applied]

/-! The reports of a TELEM frame -/

/-- The reports of a list of slots with their words. -/
def State.reportAll (s : State) (l k : Nat) (ps : List (Word × Nat)) : State := ps.foldl (fun s p => s.report l (4 * k + p.2) p.1) s

theorem State.reportAll_frame (s : State) (l k : Nat) (ps : List (Word × Nat)) : (s.reportAll l k ps).offLanes = s.offLanes ∧
    (s.reportAll l k ps).cells.length = s.cells.length ∧
    ∀ c, (c / 64 ≠ l ∨ ∀ p ∈ ps, c ≠ l * 64 + (4 * k + p.2)) → ((s.reportAll l k ps).cell c).reading = (s.cell c).reading := by
  induction ps generalizing s with
  | nil => exact ⟨rfl, rfl, fun _ _ => rfl⟩
  | cons p ps ih =>
    obtain ⟨hoff, hlen, hother⟩ := s.report_reports l (4 * k + p.2) p.1
    obtain ⟨hoffs, hlens, hothers⟩ := ih (s.report l (4 * k + p.2) p.1)
    refine ⟨hoffs.trans hoff, hlens.trans hlen, fun c hc => ?_⟩
    obtain hc | hc := hc
    · exact (hothers c (.inl hc)).trans (s.report_elsewhere _ _ _ hc)
    · exact (hothers c (.inr fun q hq => hc q (List.mem_cons_of_mem _ hq))).trans (hother c (hc p List.mem_cons_self))

/-- Of the reports of a frame the one of a slot is that of its word alone. -/
theorem State.reports_reads {s : State} {l : Nat} {n : DWord} {ws : List Word} {j : Nat} {w : Word} (hj : ws[j]? = some w)
    (hi : 4 * (n.toNat % 16) + j < s.laneCells l) (hn : w.toNat / 2 ^ 26 = 4 * (n.toNat % 16) + j) (hv : w.getLsbD 7 = true)
    (hf : w.getLsbD 6 = false) (ht : w.getLsbD 4 = s.laneFb l) (hc : l * 64 + (4 * (n.toNat % 16) + j) < s.cells.length) :
    ((s.reports l n ws).cell (l * 64 + (4 * (n.toNat % 16) + j))).reading = (w.toNat / 2 ^ 8 % 2 ^ 16, some 0, appliedState w) := by
  have hmem : (w, j) ∈ ws.zipIdx := List.mk_mem_zipIdx_iff_getElem?.mpr hj
  obtain ⟨before, after, hsplit⟩ := List.append_of_mem hmem
  have hnodup := ws.nodup_zipIdx_map_snd
  rw [hsplit] at hnodup
  have hafter : ∀ p ∈ after, p.2 ≠ j := fun p hp hpj => by
    simp only [List.map_append, List.map_cons, List.nodup_append, List.nodup_cons] at hnodup
    exact hnodup.2.1.1 (hpj ▸ List.mem_map_of_mem hp)
  have hreports : s.reports l n ws = ((s.reportAll l (n.toNat % 16) before).report l (4 * (n.toNat % 16) + j) w).reportAll l (n.toNat % 16) after := by
    unfold State.reports State.reportAll
    rw [hsplit, List.foldl_append, List.foldl_cons]
  obtain ⟨hoff, hlen, -⟩ := s.reportAll_frame l (n.toNat % 16) before
  rw [hreports, (State.reportAll_frame _ _ _ _).2.2 _ (.inr fun p hp => by have := hafter p hp; omega)]
  refine State.report_reads ?_ hn hv hf ?_ (by rw [hlen]; exact hc)
  · unfold State.laneCells
    rwa [State.cfgN_of_offLanes hoff]
  · unfold State.laneFb
    rwa [State.cfgN_of_offLanes hoff]

theorem State.reports_keeps (s : State) (l : Nat) (n : DWord) (ws : List Word) : (s.reports l n ws).offLanes = s.offLanes ∧
    ∀ c, c / 64 ≠ l → ((s.reports l n ws).cell c).reading = (s.cell c).reading := by
  obtain ⟨hoff, -, hother⟩ := s.reportAll_frame l (n.toNat % 16) ws.zipIdx
  exact ⟨hoff, fun c hc => hother c (.inl hc)⟩

/-! What a frame's status does -/

theorem State.laneFollow_offLanes (s : State) (l : Nat) (w : DWord) : (s.laneFollow l w).offLanes = s.offLanes := by
  unfold State.laneFollow
  dsimp only
  split
  · rw [State.post_offLanes]
    split <;> rfl
  · split <;> rfl

theorem State.laneFollow_cells (s : State) (l : Nat) (w : DWord) : (s.laneFollow l w).cells.length = s.cells.length ∧
    ∀ c, ((s.laneFollow l w).cell c).reading = (s.cell c).reading := by
  have htake : ∀ (u : State) (b : Bool),
      let t : State := if b then { u with cells := u.cells.mapIdx fun c y => if c / 64 = l then { y with take := true } else y } else u
      t.cells.length = u.cells.length ∧ ∀ c, (t.cell c).reading = (u.cell c).reading := fun u b => by
    cases b with
    | false => exact ⟨rfl, fun _ => rfl⟩
    | true => exact ⟨List.length_mapIdx, fun c => mapIdx_view Cell.reading _ (fun n y => by split <;> rfl) u.cells c {}⟩
  unfold State.laneFollow
  dsimp only
  split
  · refine ⟨by rw [State.post_cells]; exact (htake (s.setLane l _) _).1, fun c => ?_⟩
    rw [State.post_cell]
    exact (htake (s.setLane l _) _).2 c
  · exact htake (s.setLane l _) _

theorem State.laneFollow_lanes (s : State) (l : Nat) (w : DWord) : ∃ f e : Bool,
    (s.laneFollow l w).lanes = (s.setLane l fun x => { x with notFollow := f, nfEpisode := e }).lanes := by
  refine ⟨followsCode w ≠ 1 || statusConflict w,
    (followsCode w = 2 || statusConflict w) && s.pair.role ≠ .standby && (s.lane l).grace = 0, ?_⟩
  unfold State.laneFollow
  dsimp only
  split
  · rw [State.post_lanes]
    split <;> rfl
  · split <;> rfl

theorem State.setLane_setLane (s : State) (l : Nat) (f g : Lane → Lane) : (s.setLane l f).setLane l g = s.setLane l (g ∘ f) := by
  unfold State.setLane modifyAt
  dsimp only
  rw [List.modify_modify_eq]

/-- A valid frame ends the run of ticks without one (R152). -/
def Lane.frameHeard (x : Lane) : Lane := { x with rxThisTick := true, missRun := 0, silent := 0 }

/-- A valid frame's status has been taken (R142, R152, R154). -/
def State.statusTaken (s : State) (l arrival : Nat) (f : UplinkFrame) : State :=
  let t := s.setLane l Lane.frameHeard
  (t.setLane l fun x => (x.takeStatus f.status).measure f (t.twoDelay l arrival f)).laneFollow l f.status

theorem Lane.measure_keeps (x : Lane) (f : UplinkFrame) (d : Int) : (x.measure f d).state = x.state ∧ (x.measure f d).identRun = x.identRun := by
  unfold Lane.measure
  split
  · split <;> exact ⟨rfl, rfl⟩
  · dsimp only
    split <;> exact ⟨rfl, rfl⟩
  · exact ⟨rfl, rfl⟩

theorem State.statusTaken_offLanes (s : State) (l a : Nat) (f : UplinkFrame) : (s.statusTaken l a f).offLanes = s.offLanes :=
  State.laneFollow_offLanes _ _ _

theorem State.statusTaken_cells (s : State) (l a : Nat) (f : UplinkFrame) : (s.statusTaken l a f).cells.length = s.cells.length ∧
    ∀ c, ((s.statusTaken l a f).cell c).reading = (s.cell c).reading := State.laneFollow_cells _ _ _

theorem State.statusTaken_lanes (s : State) (l a : Nat) (f : UplinkFrame) : ∃ g : Lane → Lane,
    (s.statusTaken l a f).lanes = (s.setLane l g).lanes ∧ ∀ x, (g x).state = x.state ∧ (g x).identRun = x.identRun := by
  let t := s.setLane l Lane.frameHeard
  obtain ⟨b, e, h⟩ := State.laneFollow_lanes (t.setLane l fun x => (x.takeStatus f.status).measure f (t.twoDelay l a f)) l f.status
  exact ⟨_, h.trans (congrArg State.lanes ((State.setLane_setLane _ _ _ _).trans (State.setLane_setLane _ _ _ _))), fun x => Lane.measure_keeps _ f _⟩

theorem State.statusTaken_lane {s : State} {l : Nat} (a : Nat) (f : UplinkFrame) (h : l < s.lanes.length) :
    (s.statusTaken l a f).lanes.length = s.lanes.length ∧ ((s.statusTaken l a f).lane l).state = (s.lane l).state ∧
    ((s.statusTaken l a f).lane l).identRun = (s.lane l).identRun ∧ ∀ k, k ≠ l → (s.statusTaken l a f).lane k = s.lane k := by
  obtain ⟨g, hg, hkeeps⟩ := s.statusTaken_lanes l a f
  obtain ⟨hstate, hrun⟩ := hkeeps (s.lane l)
  have hlane := (State.lane_congr hg l).trans (State.setLane_same g h)
  refine ⟨by rw [hg, State.setLane_length], ?_, ?_, fun k hk => (State.lane_congr hg k).trans (State.setLane_other _ _ hk)⟩
  · rw [hlane, hstate]
  · rw [hlane, hrun]

/-- A frame names another lane (R152). -/
def frameCrosses (f : UplinkFrame) (l : Nat) : Bool := f.laneField.toNat ≠ l && (match f.body with | .keepalive => false | _ => true)

/-- What a frame brings beside its status to a lane that was in `st` (R147, R152). -/
def State.bodyTaken (s : State) (l : Nat) (st : LaneState) (f : UplinkFrame) : State :=
  match f.body with
  | .ident w1 w2 =>
    let t := s.setLane l (Lane.identify · w1 w2)
    if st = .seek && 16 ≤ (t.lane l).identRun then t.laneTo l .sync 0 else t
  | .telem ws =>
    let t := s.setLane l fun x => { x with identRun := 0 }
    if frameCrosses f l then t else t.reports l f.tick ws
  | .keepalive => s.setLane l fun x => { x with identRun := 0 }

theorem State.uplink_eq {s : State} {l a : Nat} {f : UplinkFrame} (h : (s.lane l).state ≠ .off) : s.uplink l a f =
    let st := ((s.setLane l Lane.frameHeard).lane l).state
    if frameCrosses f l && (st = .seek || st = .sync || st = .up) then (s.setLane l Lane.frameHeard).laneTo l .fault 2
    else (s.statusTaken l a f).bodyTaken l st f := by
  unfold State.uplink
  exact if_neg h

theorem State.frameHeard_state {s : State} {l : Nat} (hl : l < s.lanes.length) :
    ((s.setLane l Lane.frameHeard).lane l).state = (s.lane l).state := by
  rw [State.setLane_same _ hl]
  rfl

/-- The frame of another lane takes this one to FAULT (R152). -/
theorem State.uplink_crossed {s : State} {l a : Nat} {f : UplinkFrame} (hl : l < s.lanes.length) (hb : f.body ≠ .keepalive) (hn : f.laneField.toNat ≠ l)
    (hst : (s.lane l).state = .seek ∨ (s.lane l).state = .sync ∨ (s.lane l).state = .up) :
    s.uplink l a f = (s.setLane l Lane.frameHeard).laneTo l .fault 2 := by
  have hcross : frameCrosses f l = true := by
    unfold frameCrosses
    split
    · exact absurd ‹_› hb
    · simp [hn]
  rw [State.uplink_eq (by obtain h | h | h := hst <;> simp [h])]
  dsimp only
  rw [State.frameHeard_state hl, hcross]
  refine if_pos ?_
  obtain h | h | h := hst <;> simp [h]

/-- A lane's own frame is taken. -/
theorem State.uplink_own {s : State} {l : Nat} (a : Nat) {f : UplinkFrame} (hl : l < s.lanes.length) (hn : f.laneField.toNat = l)
    (hst : (s.lane l).state ≠ .off) : s.uplink l a f = (s.statusTaken l a f).bodyTaken l (s.lane l).state f := by
  rw [State.uplink_eq hst]
  dsimp only
  rw [State.frameHeard_state hl]
  exact if_neg (by simp [frameCrosses, hn])

/-- A lane's own IDENT frame, the sixteenth in a row, takes it to SYNC (R152). -/
theorem State.uplink_ident {s : State} {l a : Nat} {f : UplinkFrame} {w1 w2 : DWord} (hl : l < s.lanes.length) (hb : f.body = .ident w1 w2)
    (hn : f.laneField.toNat = l) (hst : (s.lane l).state = .seek) (hi : (s.lane l).identRun = 15) :
    s.uplink l a f = ((s.statusTaken l a f).setLane l (Lane.identify · w1 w2)).laneTo l .sync 0 := by
  obtain ⟨hlen, -, hrun, -⟩ := State.statusTaken_lane a f hl
  have hident := State.setLane_same (s := s.statusTaken l a f) (Lane.identify · w1 w2) (by rw [hlen]; exact hl)
  have hsixteen : 16 ≤ (((s.statusTaken l a f).setLane l (Lane.identify · w1 w2)).lane l).identRun := by
    rw [hident]
    show 16 ≤ ((s.statusTaken l a f).lane l).identRun + 1
    rw [hrun, hi]
  rw [State.uplink_own a hl hn (by simp [hst]), hst]
  unfold State.bodyTaken
  rw [hb]
  exact if_pos (by simpa using hsixteen)

/-- A lane's own TELEM frame brings its reports. -/
theorem State.uplink_telem {s : State} {l a : Nat} {f : UplinkFrame} {ws : List Word} (hl : l < s.lanes.length) (hb : f.body = .telem ws)
    (hn : f.laneField.toNat = l) (hst : (s.lane l).state ≠ .off) :
    s.uplink l a f = ((s.statusTaken l a f).setLane l fun x => { x with identRun := 0 }).reports l f.tick ws := by
  rw [State.uplink_own a hl hn hst]
  unfold State.bodyTaken
  rw [hb]
  exact if_neg (by simp [frameCrosses, hn])

/-- The frame of a lane that listens, with its block errors counted (R157). -/
def State.errorsCounted (s : State) (l : Nat) (bs : List LaneBlock) : State := s.setLane l fun x => { x with rxSync := x.rxSync + (bs.filter blockBad).length }

theorem State.uplinkBlocks_of_frame {s : State} {l : Nat} {bs : List LaneBlock} {f : UplinkFrame} (a : Nat) (hst : (s.lane l).state ≠ .off)
    (hf : readUplink bs = some f) : s.uplinkBlocks l a bs = (s.errorsCounted l bs).uplink l a f := by
  unfold State.uplinkBlocks
  dsimp only
  rw [if_neg hst, hf]
  rfl

theorem State.uplinkBlocks_of_none {s : State} {l : Nat} {bs : List LaneBlock} (a : Nat) (hst : (s.lane l).state ≠ .off)
    (hf : readUplink bs = none) : s.uplinkBlocks l a bs =
      s.setLane l fun x => { x with rxSync := x.rxSync + (bs.filter blockBad).length, rxCrc := x.rxCrc + 1, identRun := 0 } := by
  unfold State.uplinkBlocks
  dsimp only
  rw [if_neg hst, hf]
  exact State.setLane_setLane _ _ _ _

/-- Settles O28: a frame moves its lane by `State.laneTo`, and of the reports of a TELEM frame one is that of a cell (`State.reports_reads`). -/
theorem uplinkFramesAreTaken : Obligations.UplinkFramesAreTaken := by
  unfold Obligations.UplinkFramesAreTaken
  intro s l a bs hs hlanes hcells
  have hl : l.val < (s.clearOut.errorsCounted l.val bs).lanes.length := by
    unfold State.errorsCounted
    rw [State.setLane_length]
    simp [hlanes]
  have hlane : (s.clearOut.errorsCounted l.val bs).lane l.val = { s.lane l.val with rxSync := (s.lane l.val).rxSync + (bs.filter blockBad).length } :=
    State.setLane_same _ (by simp [hlanes])
  have hother : ∀ k, k ≠ l.val → (s.clearOut.errorsCounted l.val bs).lane k = s.lane k := fun k hk => State.setLane_other s.clearOut _ hk
  refine ⟨fun hoff => idles_safe hs rfl (if_pos hoff), fun hst hr => does_safe hs rfl (State.uplinkBlocks_of_none (s := s.clearOut) a hst hr)
    hs.clearOut.setLane, fun f hr => ⟨fun hb hn hst => ?_, fun w1 w2 hb hn hst hi => ?_, fun ws j w hb hn hst hj hw hcount hv hf ht => ?_⟩⟩
  · have hE := (State.uplinkBlocks_of_frame (s := s.clearOut) a (by show (s.lane l.val).state ≠ _; obtain h | h | h := hst <;> simp [h]) hr).trans
      (State.uplink_crossed hl hb hn (by rw [hlane]; exact hst))
    have hheard := State.setLane_same Lane.frameHeard hl
    have hmoved := State.laneTo_same (s := (s.clearOut.errorsCounted l.val bs).setLane l.val Lane.frameHeard)
      (l := l.val) (st := .fault) 2 (by rw [State.setLane_length]; exact hl)
      (by rw [hheard, hlane]; show (s.lane l.val).state ≠ _; obtain h | h | h := hst <;> simp [h])
    have hoff : (((s.clearOut.errorsCounted l.val bs).setLane l.val Lane.frameHeard).laneTo l.val .fault 2).offLanes = s.clearOut.offLanes :=
      State.laneTo_offLanes _ _ _ _
    refine next_lane hs rfl hE hoff
      (fun k hk => (State.laneTo_other _ _ _ hk).trans ((State.setLane_other _ _ hk).trans (hother k hk))) fun t ht hk hbal hconv hobjs => ?_
    obtain ⟨hstate, hreason, -⟩ := Lane.unsent_keeps (ht.trans (congrArg Lane.unsent hmoved))
    exact ⟨hstate, hreason, fun k hkl => (Lane.unsent_keeps (hk k hkl)).1, hbal, hconv, hobjs⟩
  · have hE := (State.uplinkBlocks_of_frame (s := s.clearOut) a (by show (s.lane l.val).state ≠ _; simp [hst]) hr).trans
      (State.uplink_ident hl hb hn (by rw [hlane]; exact hst) (by rw [hlane]; exact hi))
    obtain ⟨hlen, hstate, -, hothers⟩ := State.statusTaken_lane a f hl
    have hident := State.setLane_same (s := (s.clearOut.errorsCounted l.val bs).statusTaken l.val a f) (Lane.identify · w1 w2) (by rw [hlen]; exact hl)
    have hmoved := State.laneTo_same (s := ((s.clearOut.errorsCounted l.val bs).statusTaken l.val a f).setLane l.val (Lane.identify · w1 w2))
      (l := l.val) (st := .sync) 0 (by rw [State.setLane_length, hlen]; exact hl) (by
        rw [hident]
        show (((s.clearOut.errorsCounted l.val bs).statusTaken l.val a f).lane l.val).state ≠ _
        rw [hstate, hlane]
        show (s.lane l.val).state ≠ _
        simp [hst])
    rw [hident] at hmoved
    have hoff : (((s.clearOut.errorsCounted l.val bs).statusTaken l.val a f).setLane l.val (Lane.identify · w1 w2)).offLanes = s.clearOut.offLanes :=
      State.statusTaken_offLanes _ _ _ _
    refine next_lane hs rfl hE ((State.laneTo_offLanes _ _ _ _).trans hoff)
      (fun k hk => (State.laneTo_other _ _ _ hk).trans ((State.setLane_other _ _ hk).trans ((hothers k hk).trans (hother k hk)))) fun t ht hk hbal hconv hobjs => ?_
    obtain ⟨hst', -, -, -, -, hproduct, hserial, hmax, hexec⟩ := Lane.unsent_keeps (ht.trans (congrArg Lane.unsent hmoved))
    exact ⟨hst', hproduct, hserial, hmax, hexec, fun k hkl => (Lane.unsent_keeps (hk k hkl)).1, hbal, hconv, hobjs⟩
  · have hE := (State.uplinkBlocks_of_frame (s := s.clearOut) a (by show (s.lane l.val).state ≠ _; simp [hst]) hr).trans
      (State.uplink_telem (s := s.clearOut.errorsCounted l.val bs) hl hb hn (by rw [hlane]; simp [hst]))
    let u := ((s.clearOut.errorsCounted l.val bs).statusTaken l.val a f).setLane l.val fun x => { x with identRun := 0 }
    have huoff : u.offLanes = s.clearOut.offLanes := State.statusTaken_offLanes _ _ _ _
    obtain ⟨hulen, hucell⟩ := (s.clearOut.errorsCounted l.val bs).statusTaken_cells l.val a f
    obtain ⟨hoff, helse⟩ := u.reports_keeps l.val f.tick ws
    have hbound : l.val * 64 + (4 * (f.tick.toNat % 16) + j) < u.cells.length := by
      have hlt := w.isLt
      have hlv := l.isLt
      have hlen : u.cells.length = 3072 := hulen.trans (by simpa [State.errorsCounted, State.setLane] using hcells)
      omega
    have hreads := State.reports_reads (s := u) hj (by unfold State.laneCells; rw [State.cfgN_of_offLanes huoff]; exact hcount) hw hv hf
      (by unfold State.laneFb; rw [State.cfgN_of_offLanes huoff]; exact ht) hbound
    obtain ⟨hbal, hconv, hobjs, -⟩ := State.offLanes_keeps (hoff.trans huoff)
    refine next_safe hs rfl hE (hs.clearOut.of_offLanes (hoff.trans huoff)) fun t he hb' => ?_
    rw [Nat.add_assoc]
    have hcell := (Cell.reading_of_blocked (hb'.2 (l.val * 64 + (4 * (f.tick.toNat % 16) + j)))).trans hreads
    simp only [Cell.reading, Prod.mk.injEq] at hcell
    obtain ⟨hvcap, hage, happlied⟩ := hcell
    refine ⟨hvcap, hage, happlied, fun c hc => ?_, he.bal_eq.trans hbal, he.conv_eq.trans hconv, he.objs_eq.trans hobjs⟩
    obtain ⟨hv', ha', -⟩ := Cell.reading_eq ((Cell.reading_of_blocked (hb'.2 c)).trans ((helse c hc).trans (hucell c)))
    exact ⟨hv', ha'⟩

end Sys2Proof.Machine
end

section
/-!
PROOF. Engines: their checks, and the migration to a spare (R191 to R194).
-/
namespace Sys2Proof.Machine

/-! ### Engines, slots and the map -/

theorem Engine.mirror_keeps (e : Engine) : e.mirror.failed = e.failed ∧ e.mirror.failAt = e.failAt ∧ e.mirror.stopAt = e.stopAt := by
  unfold Engine.mirror
  split <;> exact ⟨rfl, rfl, rfl⟩

/-- One engine and the mirror of the laws have changed. -/
def State.engineTouched (s : State) (p : Nat) (g : Engine → Engine) (m : LawStates) : State :=
  { s with esc := { s.esc with engines := modifyAt s.esc.engines p g, lawMirror := m } }

theorem State.engine_touched_same {s : State} {p : Nat} (g : Engine → Engine) (m : LawStates) (h : p < s.esc.engines.length) :
    (s.engineTouched p g m).esc.engine p = g (s.esc.engine p) := modifyAt_getD g {} h

theorem State.engine_touched_other (s : State) {p q : Nat} (g : Engine → Engine) (m : LawStates) (h : q ≠ p) :
    (s.engineTouched p g m).esc.engine q = s.esc.engine q := getD_modify_other s.esc.engines p q g {} h

theorem State.mirrorOne_touches {s : State} {n p : Nat} (h : s.esc.phys n = p) : ∃ m, s.mirrorOne n = s.engineTouched p Engine.mirror m := by
  subst h
  exact ⟨_, rfl⟩

theorem State.freeSlots_congr {s t : State} (hobjs : t.objs = s.objs) (hmap : t.esc.map = s.esc.map) (hm : t.esc.migration = s.esc.migration)
    (hf : ∀ q, (t.esc.engine q).failed = (s.esc.engine q).failed) : t.freeSlots = s.freeSlots := by
  unfold State.freeSlots State.spareSlots Esc.phys
  rw [State.cfgN_congr hobjs, hmap, hm]
  simp only [hf]

/-! ### A migration starts (R193) -/

/-- A migration that finds a spare takes the engine out of service and starts. -/
theorem State.startMigration_fills {s : State} {n p slot : Nat} {rest : List Nat} (hp : s.esc.phys n = p) (h : s.freeSlots = slot :: rest)
    (b : Bool) (r : Option Reply) : ∃ g m, (s.startMigration n b r = State.postAt { s with esc := { s.esc with
      engines := modifyAt s.esc.engines p g, lawMirror := m, migration := some ⟨n, slot, s.nextTick, b, r⟩ } } s.nextTick 0x2D05 n [BitVec.ofNat 8 (b2n b)]) ∧
    ∀ e : Engine, (g e).failed = true ∧ (g e).failAt = e.failAt ∧ (g e).stopAt = e.stopAt := by
  obtain ⟨m, hm⟩ := State.mirrorOne_touches hp
  refine ⟨(fun e : Engine => { e with failed := true }) ∘ Engine.mirror, m, ?_, fun e => ⟨rfl, e.mirror_keeps.2⟩⟩
  unfold State.startMigration
  rw [h, hp]
  dsimp only
  rw [hm]
  unfold State.outOfService State.setEngine State.engineTouched
  dsimp only
  unfold modifyAt
  rw [List.modify_modify_eq]
  rfl

theorem State.startMigration_none {s : State} {n : Nat} (h : s.freeSlots = []) (r : Option Reply) : s.startMigration n false r =
    State.postAt { s with esc := { s.esc with noSpare := s.esc.noSpare ++ [n], noSpareRos := true }, saf := { s.saf with mainDie := true } }
      s.nextTick 0x2D08 (s.esc.phys n) [] := by
  unfold State.startMigration
  rw [h]
  rfl

/-! ### An engine fails a check (R192, R194) -/

/-- The engine as its failed check leaves it: out of service from the tick to come on (R192). -/
def Engine.stopped (e : Engine) (tick : Nat) (stop : Option Nat) : Engine := { e with failed := true, failAt := some tick, stopAt := stop }

/-- What a failed check has done before the migration is asked for. -/
def State.checkFailed (s : State) (p kind step : Nat) (stop : Option Nat) : State :=
  let t := s.setEngine p fun e => e.stopped s.nextTick stop
  let t := { t with esc := { t.esc with residueCount := t.esc.residueCount + b2n (kind = 0), sigCount := t.esc.sigCount + b2n (kind = 1) } }
  (t.condEvent 52).postAt t.nextTick 0x2D04 p (BitVec.ofNat 8 kind :: beBytes 2 step)

theorem State.engineFails_eq {s : State} {p n : Nat} (hn : s.esc.logicalOf p = n) (hm : s.esc.migration = none) (kind step : Nat) (stop : Option Nat) :
    s.engineFails p kind step stop = (s.checkFailed p kind step stop).startMigration n false none := by
  have hnone : (s.checkFailed p kind step stop).esc.migration.isSome = false := by
    unfold State.checkFailed
    dsimp only
    rw [State.postAt_esc]
    show s.esc.migration.isSome = false
    rw [hm]
    rfl
  have hask : s.engineFails p kind step stop = (s.checkFailed p kind step stop).askMigration n false none := by
    subst hn
    rfl
  rw [hask]
  exact if_neg (by rw [hnone]; decide)

/-- Of `s`, an engine touched and its check failed: all but the engine, the mirror, the counters, the conditions and the log. -/
theorem State.checkFailed_touched (s : State) (p kind step : Nat) (stop : Option Nat) (g : Engine → Engine) (m : LawStates) :
    let t := (s.engineTouched p g m).checkFailed p kind step stop
    t.esc = { s.esc with
      engines := modifyAt s.esc.engines p fun e => (g e).stopped s.nextTick stop, lawMirror := m
      residueCount := s.esc.residueCount + b2n (kind = 0), sigCount := s.esc.sigCount + b2n (kind = 1) } ∧
    t.bal = s.bal ∧ t.conv = s.conv ∧ t.objs = s.objs ∧ t.pwr = s.pwr ∧ t.reg = s.reg ∧ t.saf = s.saf ∧ t.tick = s.tick := by
  unfold State.checkFailed
  dsimp only
  rw [State.postAt_esc, State.postAt_bal, State.postAt_conv, State.postAt_objs, State.postAt_pwr, State.postAt_reg, State.postAt_saf, State.postAt_tick]
  refine ⟨?_, rfl, rfl, rfl, rfl, rfl, rfl, rfl⟩
  unfold State.condEvent State.setEngine State.engineTouched modifyAt
  dsimp only
  rw [List.modify_modify_eq]
  rfl

theorem Esc.engine_congr {e e' : Esc} (h : e'.engines = e.engines) (q : Nat) : e'.engine q = e.engine q := by
  unfold Esc.engine
  rw [h]

/-- What a failed check leaves where a spare is free: the engine out of service, and its migration. -/
structure State.Migrates (s : State) (p n slot : Nat) (stop : Option Nat) (kind : Nat) (t : State) : Prop where
  failed : (t.esc.engine p).failed = true
  stopAt : (t.esc.engine p).stopAt = stop
  failAt : (t.esc.engine p).failAt = some s.tick.next
  migration : t.esc.migration = some { logical := n, slot := slot, start := s.tick.next, byCommand := false, reply := none }
  residue : t.esc.residueCount = s.esc.residueCount + b2n (kind = 0)
  sig : t.esc.sigCount = s.esc.sigCount + b2n (kind = 1)
  map : t.esc.map = s.esc.map
  others : ∀ q, q ≠ p → t.esc.engine q = s.esc.engine q
  bal : t.bal = s.bal
  conv : t.conv = s.conv
  objs : t.objs = s.objs

/-- The slots that are free once an engine has left service. -/
theorem State.checkFailed_freeSlots {s : State} {p : Nat} {g : Engine → Engine} {m : LawStates} (hp : p < s.esc.engines.length) (kind step : Nat)
    (stop : Option Nat) : ((s.engineTouched p g m).checkFailed p kind step stop).freeSlots = (s.outOfService p).freeSlots := by
  obtain ⟨hesc, -, -, hobjs, -⟩ := s.checkFailed_touched p kind step stop g m
  refine State.freeSlots_congr hobjs (by rw [hesc]; rfl) (by rw [hesc]; rfl) fun q => ?_
  rw [hesc]
  by_cases hq : q = p
  · subst hq
    have hstopped : _ = true := congrArg Engine.failed (modifyAt_getD (l := s.esc.engines) (fun e => (g e).stopped s.nextTick stop) {} hp)
    have hout : _ = true := congrArg Engine.failed (modifyAt_getD (l := s.esc.engines) (fun e => { e with failed := true }) {} hp)
    exact hstopped.trans hout.symm
  · exact (congrArg Engine.failed (getD_modify_other s.esc.engines p q _ {} hq)).trans
      (congrArg Engine.failed (getD_modify_other s.esc.engines p q _ {} hq)).symm

/-- A failed check of an engine that runs a logical engine starts its migration (R192, R193). -/
theorem does_engineFails {c : Instr} {s : State} {E : State → State} {p n slot kind step : Nat} {rest : List Nat} {stop : Option Nat}
    {g : Engine → Engine} {m : LawStates} (hs : s.Awake) (hc : exec c s = runSafe true s E)
    (hE : E s.clearOut = (s.clearOut.engineTouched p g m).engineFails p kind step stop) (hp : p < s.esc.engines.length)
    (hn : s.esc.logicalOf p = n) (hphys : s.esc.phys n = p) (hm : s.esc.migration = none) (hfree : (s.outOfService p).freeSlots = slot :: rest) :
    ∃ t, exec c s = .next t ∧ s.Migrates p n slot stop kind t := by
  have hslots := (State.checkFailed_freeSlots (s := s.clearOut) (g := g) (m := m) hp kind step stop).trans hfree
  have hfails := hE.trans (State.engineFails_eq (s := s.clearOut.engineTouched p g m) hn hm kind step stop)
  have htouched := s.clearOut.checkFailed_touched p kind step stop g m
  generalize (s.clearOut.engineTouched p g m).checkFailed p kind step stop = u at hslots hfails htouched
  obtain ⟨hesc, hbal, hconv, hobjs, hpwr, hreg, hsaf, htick⟩ := htouched
  have huphys : u.esc.phys n = p := by
    rw [hesc]
    exact hphys
  obtain ⟨g', m', hstart, hkeep⟩ := State.startMigration_fills huphys hslots false none
  have hawake : u.Awake := by
    unfold State.Awake
    rw [hpwr, hreg, hsaf]
    exact hs
  have hengines : u.esc.engines = modifyAt s.esc.engines p fun e => (g e).stopped s.tick.next stop := by rw [hesc]; rfl
  have hlen : p < u.esc.engines.length := by
    rw [hengines]
    simpa [modifyAt] using hp
  have hengine : u.esc.engine p = (g (s.esc.engine p)).stopped s.tick.next stop := by
    unfold Esc.engine
    rw [hengines]
    exact modifyAt_getD _ _ hp
  have hother : ∀ q, q ≠ p → u.esc.engine q = s.esc.engine q := fun q hq => by
    unfold Esc.engine
    rw [hengines]
    exact getD_modify_other s.esc.engines p q _ {} hq
  refine (does_safe hs hc (hfails.trans hstart) (State.Awake.postAt hawake)).next fun t he => ?_
  have htesc := he.esc_eq
  rw [State.postAt_esc] at htesc
  have htsame : t.esc.engine p = g' ((g (s.esc.engine p)).stopped s.tick.next stop) := by
    rw [htesc, ← hengine]
    exact modifyAt_getD _ _ hlen
  obtain ⟨hfail, hat, hstop⟩ := hkeep ((g (s.esc.engine p)).stopped s.tick.next stop)
  exact {
    failed := by rw [htsame, hfail]
    stopAt := by rw [htsame, hstop]; rfl
    failAt := by rw [htsame, hat]; rfl
    migration := by
      rw [htesc]
      show some (Migration.mk n slot u.tick.next false none) = _
      rw [htick]
      rfl
    residue := by rw [htesc, hesc]; rfl
    sig := by rw [htesc, hesc]; rfl
    map := by rw [htesc, hesc]; rfl
    others := fun q hq => by
      rw [htesc, ← hother q hq]
      exact getD_modify_other u.esc.engines p q _ {} hq
    bal := he.bal_eq.trans ((State.postAt_bal _ _ _ _ _).trans hbal)
    conv := he.conv_eq.trans ((State.postAt_conv _ _ _ _ _).trans hconv)
    objs := he.objs_eq.trans ((State.postAt_objs _ _ _ _ _).trans hobjs) }

/-- A kernel-detected fault is a PR demand (R287). -/
theorem State.prDemand_of_fault {s : State} {n : Nat} (h : s.kernelFaults[n]? = some true) : s.prDemand = true := by
  have hfault : (4, n, 0) ∈ (s.kernelFaults.zipIdx).filterMap fun p => if p.1 then some (4, p.2, 0) else none :=
    List.mem_filterMap.mpr ⟨(true, n), List.mk_mem_zipIdx_iff_getElem?.mpr h, rfl⟩
  have hmem : (4, n, 0) ∈ s.demandSources := by
    unfold State.demandSources
    exact List.mem_append_left _ (List.mem_append_right _ hfault)
  unfold State.prDemand
  rw [Bool.or_eq_true, List.any_eq_true]
  exact .inr ⟨_, hmem, rfl⟩

/-- A failed check where no spare is free signals the kernel (R194). -/
theorem does_engineFails_noSpare {c : Instr} {s : State} {E : State → State} {p n kind step : Nat} {stop : Option Nat}
    {g : Engine → Engine} {m : LawStates} (hs : s.Awake) (hc : exec c s = runSafe true s E)
    (hE : E s.clearOut = (s.clearOut.engineTouched p g m).engineFails p kind step stop) (hp : p < s.esc.engines.length)
    (hn : s.esc.logicalOf p = n) (hm : s.esc.migration = none) (hfree : (s.outOfService p).freeSlots = []) :
    ∃ t, exec c s = .next t ∧ (t.esc.engine p).failed = true ∧ t.esc.noSpare = s.esc.noSpare ++ [n] ∧ t.esc.noSpareRos = true ∧
      t.saf.mainDie = true ∧ t.prDemand = true ∧ t.saf.switches.any id = false := by
  have hslots := (State.checkFailed_freeSlots (s := s.clearOut) (g := g) (m := m) hp kind step stop).trans hfree
  have hfails := hE.trans (State.engineFails_eq (s := s.clearOut.engineTouched p g m) hn hm kind step stop)
  have htouched := s.clearOut.checkFailed_touched p kind step stop g m
  generalize (s.clearOut.engineTouched p g m).checkFailed p kind step stop = u at hslots hfails htouched
  obtain ⟨hesc, -, -, -, hpwr, hreg, hsaf, -⟩ := htouched
  have hdemand : (u.startMigration n false none).prDemand = true := State.prDemand_of_fault (n := 4) (by
    rw [State.startMigration_none hslots]
    unfold State.kernelFaults
    rw [State.postAt_saf]
    rfl)
  have hawake : (u.startMigration n false none).Awake := by
    rw [State.startMigration_none hslots]
    refine State.Awake.postAt ?_
    unfold State.Awake
    dsimp only
    rw [hpwr, hreg, hsaf]
    exact hs
  refine (does_safe hs hc hfails hawake).next fun t he => ?_
  have htesc := he.esc_eq
  have htsaf : t.saf.mainDie = (u.startMigration n false none).saf.mainDie := by rw [he.frame]; rfl
  rw [State.startMigration_none hslots, State.postAt_esc] at htesc
  rw [State.startMigration_none hslots, State.postAt_saf] at htsaf
  refine ⟨?_, by rw [htesc, hesc]; rfl, by rw [htesc], htsaf, he.prDemand_eq.trans hdemand, he.open_ hdemand⟩
  have hengine : (u.esc.engine p).failed = true := by
    rw [hesc]
    exact congrArg Engine.failed (modifyAt_getD (l := s.esc.engines) (fun e => (g e).stopped s.tick.next stop) {} hp)
  rw [htesc]
  exact hengine

/-! ### The checks by what the engine stands for (R191) -/

theorem State.checked_of_awake {s : State} {p : Nat} (hs : s.Awake) (hp : p < 16) : s.checked p = !(s.esc.engine p).failed := by
  unfold State.checked
  rw [hs.ticks]
  simp [hp]

theorem State.isLogical_iff (s : State) (n : Nat) : s.isLogical n = true ↔ n ≤ 15 - s.cfgN Obj.SPARES := by simp [State.isLogical]

section
variable {s : State} {p : Nat}

theorem State.unchecked_stays (h : s.checked p = false) (x : ResidueStep) : s.residueError p x = s ∧ s.signatureError p = s ∧ s.spareFault p = s := by
  unfold State.residueError State.signatureError State.spareFault
  simp [h]

theorem State.spare_fails (h : s.checked p = true) (hn : s.isLogical (s.esc.logicalOf p) = false) (x : ResidueStep) :
    s.residueError p x = s.spareFails p ∧ s.signatureError p = s.spareFails p ∧ s.spareFault p = s.spareFails p := by
  unfold State.residueError State.signatureError State.spareFault
  simp [h, hn]

theorem State.residueError_logical (h : s.checked p = true) (hn : s.isLogical (s.esc.logicalOf p) = true) (x : ResidueStep) : s.residueError p x =
    if s.residueAt (s.esc.logicalOf p) x then (s.mirrorOne (s.esc.logicalOf p)).engineFails p 0 x.step (some x.step) else s := by
  unfold State.residueError
  simp [h, hn]

theorem State.residueAt_saturates (s : State) (n : Nat) {x : ResidueStep} (h : x.saturates = true) : s.residueAt n x = false := by
  unfold State.residueAt
  dsimp only
  rw [h, Bool.not_true, Bool.and_false]

theorem State.signatureError_logical (h : s.checked p = true) (hn : s.isLogical (s.esc.logicalOf p) = true) :
    s.signatureError p = (s.setEngine p fun e => { e with sig := e.want }).engineFails p 1 0xFFFF none := by
  unfold State.signatureError
  simp [h, hn]

theorem State.spareFault_logical (hn : s.isLogical (s.esc.logicalOf p) = true) : s.spareFault p = s := by
  unfold State.spareFault
  simp [hn]

theorem State.spareFails_of_none (hm : s.esc.migration = none) : s.spareFails p =
    State.post { s with esc := { s.esc with engines := s.esc.engines.modify p (fun (e : Engine) => { e with failed := true }), spareFaultRos := true } } 0x2D07 p [] := by
  unfold State.spareFails
  dsimp only
  rw [State.post_esc]
  split
  · next m h => exact absurd (h.symm.trans hm) (by simp)
  · rfl

end

/-- Settles O18: a failed check is `State.engineFails`, which starts the migration or signals the kernel, or `State.spareFails`. -/
theorem engineFaultsMigrate : Obligations.EngineFaultsMigrate := by
  unfold Obligations.EngineFaultsMigrate
  refine ⟨fun s p n hs hengines _ hin hn hphys hm => ?_, fun s p step hs hout => ?_⟩
  · have hp : p.val < s.esc.engines.length := by simp [hengines]
    have hchecked : s.clearOut.checked p.val = true := by
      rw [State.checked_of_awake hs.clearOut p.isLt, show (s.clearOut.esc.engine p.val).failed = false from hin]
      rfl
    obtain ⟨m, hmirror⟩ := State.mirrorOne_touches (s := s.clearOut) hphys
    refine ⟨fun hlogical => ?_, fun hspare => ?_⟩
    · have hl : s.clearOut.isLogical (s.clearOut.esc.logicalOf p.val) = true := (State.isLogical_iff _ _).mpr (hn ▸ hlogical)
      have hresidue : ∀ step : ResidueStep, s.residueAt n step = true → s.clearOut.residueError p.val step =
          (s.clearOut.engineTouched p.val Engine.mirror m).engineFails p.val 0 step.step (some step.step) := fun step hat => by
        rw [← hmirror, State.residueError_logical hchecked hl, show s.clearOut.esc.logicalOf p.val = n from hn]
        exact if_pos hat
      have hsignature := State.signatureError_logical hchecked hl
      refine ⟨fun step slot rest hfree => ⟨fun hat => ?_, ?_⟩, fun hfree step hat =>
          does_engineFails_noSpare (E := fun s => s.residueError p.val step) hs rfl (hresidue step hat) hp hn hm hfree,
        fun step => ⟨fun hsat => State.residueAt_saturates s n hsat, fun hat => ?_⟩, idles_safe hs rfl (State.spareFault_logical hl)⟩
      · obtain ⟨t, ht, h⟩ := does_engineFails (c := .engineResidueError p step) (E := (·.residueError p.val step)) hs rfl (hresidue step hat) hp hn hphys hm hfree
        exact ⟨t, ht, h.failed, h.stopAt, h.failAt, h.migration, h.residue, h.sig, h.map, h.others, h.bal, h.conv, h.objs⟩
      · obtain ⟨t, ht, h⟩ := does_engineFails (c := .engineSignatureError p) (E := (·.signatureError p.val)) (g := fun e => { e with sig := e.want }) (m := s.esc.lawMirror) hs rfl hsignature hp hn hphys hm hfree
        exact ⟨t, ht, h.failed, h.stopAt, h.failAt, h.migration, h.sig, h.residue, h.map, h.others, h.bal, h.conv, h.objs⟩
      · refine idles_safe hs rfl ?_
        rw [State.residueError_logical hchecked hl, show s.clearOut.esc.logicalOf p.val = n from hn]
        exact if_neg (by rw [show s.clearOut.residueAt n step = false from hat]; decide)
    · have hl : s.clearOut.isLogical (s.clearOut.esc.logicalOf p.val) = false := by
        rw [Bool.eq_false_iff, Ne, State.isLogical_iff]
        exact not_le.mpr (hn ▸ hspare)
      have hfails := State.spareFails_of_none (s := s.clearOut) (p := p.val) hm
      have hspares := State.spare_fails hchecked hl
      have hawake : ∀ f : State, f = s.clearOut.spareFails p.val → f.Awake := fun f hf => by
        rw [hf, hfails]
        exact State.Awake.post hs.clearOut
      intro out
      have hout : ∀ f, f = s.clearOut.spareFails p.val → f = out := fun f hf => hf.trans hfails
      obtain ⟨-, hsig, hspf⟩ := hspares ⟨0, false⟩
      refine ⟨does_safe hs rfl (hout _ hspf) (hout _ hspf ▸ hawake _ hspf), fun step => ?_, does_safe hs rfl (hout _ hsig) (hout _ hsig ▸ hawake _ hsig)⟩
      obtain ⟨hres, -⟩ := hspares step
      exact does_safe hs rfl (hout _ hres) (hout _ hres ▸ hawake _ hres)
  · obtain ⟨hres, hsig, hspare⟩ := State.unchecked_stays (s := s.clearOut) (p := p.val) (by rw [State.checked_of_awake hs.clearOut p.isLt]; simpa using hout) step
    exact ⟨idles_safe hs rfl hres, idles_safe hs rfl hsig, idles_safe hs rfl hspare⟩

/-! ### The end of a migration (R193) -/

theorem State.migrateDue_of_due {s : State} {m : Migration} (hm : s.esc.migration = some m) (h : m.start + 73 ≤ s.nextTick) :
    s.migrateDue = some m := by
  simp [State.migrateDue, hm, h]

theorem State.migrateDue_of_early {s : State} {m : Migration} (hm : s.esc.migration = some m) (h : s.nextTick < m.start + 73) :
    s.migrateDue = none := by
  simp [State.migrateDue, hm, Nat.not_le.mpr h]

theorem State.migrateEnd_idle {s : State} (h : s.migrateDue = none) : s.migrateEnd = s := by
  unfold State.migrateEnd
  rw [h, ite_self]

/-- With no group and nothing that waits, the end of a migration is the takeover by the spare and no more. -/
theorem State.migrateEnd_alone {s : State} {m : Migration} (ht : s.ticking = true) (hdue : s.migrateDue = some m) (hg : s.esc.groups = [])
    (hw : (s.migrateTo m).sparesSettled.esc.waiting = []) (hr : m.reply = none) : s.migrateEnd = (s.migrateTo m).sparesSettled := by
  unfold State.migrateEnd
  rw [if_pos ht, hdue]
  dsimp only
  rw [hg, hr, List.filter_nil, List.filter_nil, List.foldl_nil, hw]
  rfl

theorem State.sparesSettled_keeps (s : State) : (∃ l, s.sparesSettled.esc = { s.esc with noSpare := l }) ∧ s.sparesSettled.pwr = s.pwr ∧
    s.sparesSettled.reg = s.reg ∧ s.sparesSettled.saf.tickMissing = s.saf.tickMissing ∧ s.sparesSettled.bal = s.bal ∧ s.sparesSettled.loops = s.loops ∧
    s.sparesSettled.fus = s.fus ∧ s.sparesSettled.set = s.set ∧ s.sparesSettled.hands = s.hands ∧ s.sparesSettled.conv = s.conv ∧
    s.sparesSettled.objs = s.objs := by
  unfold State.sparesSettled
  dsimp only
  split <;> exact ⟨⟨_, rfl⟩, rfl, rfl, rfl, rfl, rfl, rfl, rfl, rfl, rfl, rfl⟩

/-- What the spare's takeover makes of the escapement. -/
def State.escTaken (s : State) (m : Migration) : Esc :=
  let src := s.esc.engine (s.esc.phys m.logical)
  { s.esc with
    engines := modifyAt s.esc.engines (s.esc.phys m.slot) fun e => { e with locals := src.mLocals, tag := src.mTag, mLocals := src.mLocals, mTag := src.mTag }
    map := (s.esc.map.set m.logical (s.esc.phys m.slot)).set m.slot (s.esc.phys m.logical)
    vacant := m.slot :: s.esc.vacant.filter (· ≠ m.slot), migration := none, migrateCount := s.esc.migrateCount + 1 }

/-- Two places of the map have changed their engines. -/
theorem Esc.phys_swapped {map : List Nat} {n slot a b : Nat} (h : n ≠ slot) (hn : n < map.length) : ((map.set n a).set slot b).getD n n = a := by
  simp [h.symm, hn]

theorem Esc.phys_swapped_slot {map : List Nat} {n slot a b : Nat} (hs : slot < map.length) : ((map.set n a).set slot b).getD slot slot = b := by
  simp [hs]

theorem State.migrateTo_eq (s : State) (m : Migration) : s.migrateTo m =
    State.postAt { s.restoreLaws m.logical with esc := s.escTaken m } s.nextTick 0x2D06 m.logical [BitVec.ofNat 8 (b2n m.byCommand)] := rfl

/-- Settles O19: without waiting groups the end of a migration is `State.migrateTo`, which restores the mirrored states and swaps two places of the map. -/
theorem migrationEnds : Obligations.MigrationEnds := by
  unfold Obligations.MigrationEnds
  intro s m hs hm hengines hmap
  refine ⟨fun hdue hne hlogical hslot hphys hg hw hr => ?_, fun hearly => idles_safe hs rfl (State.migrateEnd_idle (State.migrateDue_of_early (s := s.clearOut) hm hearly))⟩
  intro back
  obtain ⟨⟨l, hesc⟩, hpwr, hreg, hsaf, hbal, hloops, hfus, hset, hhands, hconv, hobjs⟩ := (s.clearOut.migrateTo m).sparesSettled_keeps
  rw [State.migrateTo_eq] at hesc hpwr hreg hsaf hbal hloops hfus hset hhands hconv hobjs
  simp only [State.postAt_esc, State.postAt_pwr, State.postAt_reg, State.postAt_saf, State.postAt_bal, State.postAt_loops, State.postAt_fus,
    State.postAt_set, State.postAt_hands, State.postAt_conv, State.postAt_objs] at hesc hpwr hreg hsaf hbal hloops hfus hset hhands hconv hobjs
  have hE := State.migrateEnd_alone hs.clearOut.ticks (State.migrateDue_of_due (s := s.clearOut) hm hdue) hg (by rw [State.migrateTo_eq, hesc]; exact hw) hr
  rw [State.migrateTo_eq] at hE
  generalize State.sparesSettled _ = f at *
  have hawake : f.Awake := by
    unfold State.Awake
    rw [hpwr, hreg, hsaf]
    exact hs
  refine (does_safe hs rfl hE hawake).next fun t he => ?_
  have htesc : t.esc = { s.escTaken m with noSpare := l } := he.esc_eq.trans hesc
  have htbal : t.bal = back.bal := he.bal_eq.trans hbal
  refine ⟨by rw [htesc]; rfl, by rw [htesc]; rfl, ?_, ?_, ?_, ?_, fun q hq => ?_, htbal, he.loops_eq.trans hloops, he.fus_eq.trans hfus,
    he.set_eq.trans hset, he.hands_eq.trans hhands, fun hone => ?_, he.conv_eq.trans hconv, he.objs_eq.trans hobjs⟩
  · rw [htesc]
    exact Esc.phys_swapped hne (by rw [hmap]; exact hlogical)
  · rw [htesc]
    exact Esc.phys_swapped_slot (by rw [hmap]; exact hslot)
  · rw [htesc]
    exact congrArg Engine.locals (modifyAt_getD _ _ (by rw [hengines]; exact hphys))
  · rw [htesc]
    exact congrArg Engine.tag (modifyAt_getD _ _ (by rw [hengines]; exact hphys))
  · rw [htesc]
    exact getD_modify_other s.esc.engines _ q _ {} hq
  · rw [htbal]
    show (s.restoreLaws m.logical).bal.dw = _ ∧ (s.restoreLaws m.logical).bal.pf = _
    rw [hone]
    exact ⟨rfl, rfl⟩

end Sys2Proof.Machine
end

section
/-!
PROOF. Module time: its states, its servo and the PTP port (R245 to R250).
-/
namespace Sys2Proof.Machine

/-! ### The time states (R249) -/

theorem State.timeSet_ne {s : State} {st : TimeState} (cause : Nat) (h : s.time.state ≠ st) : s.timeSet st cause =
    let leave : Prop := s.time.state = .locked
    State.post { s with
      time := { s.time with
        state := st, holdSince := if st = TimeState.holdover then s.tick.now else s.time.holdSince, r := if leave then s.time.fEst else s.time.r, slewing := s.time.slewing && !decide leave }
      reg := { s.reg with word := if decide leave && !s.reg.ramp then clampInt (-smallLimit) smallLimit (floorDiv s.time.fEst 1000) else s.reg.word } }
      0x2706 noInst [BitVec.ofNat 8 s.time.state.code, BitVec.ofNat 8 st.code, BitVec.ofNat 8 cause] := if_neg h

theorem State.Awake.timeSet {s : State} (st : TimeState) (cause : Nat) (h : s.Awake) : (s.timeSet st cause).Awake :=
  h.of_core (State.timeSet_core _ _ _)

/-- A LOCKED time state leaves for HOLDOVER: the rate is the estimate alone (R249). -/
theorem State.timeSet_holdover {s : State} (cause : Nat) (h : s.time.state = .locked) (hr : s.reg.ramp = false) : s.timeSet .holdover cause =
    State.post { s with
      time := { s.time with state := .holdover, holdSince := s.tick.now, r := s.time.fEst, slewing := false }
      reg := { s.reg with word := clampInt (-smallLimit) smallLimit (floorDiv s.time.fEst 1000) } }
      0x2706 noInst [1, 2, BitVec.ofNat 8 cause] := by
  rw [State.timeSet_ne cause (by rw [h]; decide), h, hr]
  simp only [decide_true, Bool.not_true, Bool.and_false, Bool.not_false, Bool.and_self, if_true]
  rfl

theorem State.timeSet_free {s : State} (h : s.time.state = .holdover) : s.timeSet .free 6 =
    State.post { s with time := { s.time with state := .free } } 0x2706 noInst [2, 0, 6] := by
  rw [State.timeSet_ne 6 (by rw [h]; decide), h]
  simp only [reduceCtorEq, decide_false, Bool.not_false, Bool.and_true, Bool.false_and, Bool.false_eq_true, if_false]
  rfl

theorem State.holdover_of_locked {s : State} (cause : Nat) (h : s.time.state = .locked) (hm : s.cfgN Obj.HOLDOVER_MAX ≠ 0) :
    s.holdover cause = s.timeSet .holdover cause := by
  have hmax : (s.timeSet .holdover cause).cfgN Obj.HOLDOVER_MAX = s.cfgN Obj.HOLDOVER_MAX := State.cfgN_congr (State.timeSet_frame _ _ _).2.2 _
  unfold State.holdover
  dsimp only
  rw [if_neg (not_not.mpr h), hmax, if_neg hm]

theorem State.holdover_at_once {s : State} (cause : Nat) (h : s.time.state = .locked) (hm : s.cfgN Obj.HOLDOVER_MAX = 0) :
    s.holdover cause = (s.timeSet .holdover cause).timeSet .free 6 := by
  have hmax : (s.timeSet .holdover cause).cfgN Obj.HOLDOVER_MAX = s.cfgN Obj.HOLDOVER_MAX := State.cfgN_congr (State.timeSet_frame _ _ _).2.2 _
  unfold State.holdover
  dsimp only
  rw [if_neg (not_not.mpr h), hmax, if_pos hm]

theorem State.holdover_idle {s : State} (cause : Nat) (h : s.time.state ≠ .locked) : s.holdover cause = s := if_pos h

theorem State.timeSet_state (s : State) (st : TimeState) (cause : Nat) : (s.timeSet st cause).time.state = st := by
  by_cases h : s.time.state = st
  · have hno : s.timeSet st cause = s := if_pos h
    rw [hno, h]
  · rw [State.timeSet_ne cause h, State.post_time]

theorem State.holdoverExpired_idle {s : State} {held : Nat} (h : s.time.state ≠ .holdover ∨ held < s.cfgN Obj.HOLDOVER_MAX) :
    s.holdoverExpired held = s := by
  unfold State.holdoverExpired
  refine if_neg ?_
  obtain h | h := h <;> simp [h]

theorem State.syncTimeout_on {s : State} (h : s.cfgN Obj.PTP_MODE ≠ 0) : s.syncTimeout = s.holdover 1 := if_neg h

theorem State.announceTimeout_on {s : State} (h : s.cfgN Obj.PTP_MODE ≠ 0) : s.announceTimeout =
    State.holdover { s with time := { s.time with gmPresent := false, best := none, master := !s.cfgB Obj.PTP_SLAVE_ONLY } } 2 := if_neg h

/-- Settles O34: the falls of the time state are `State.timeSet` from LOCKED and from HOLDOVER. -/
theorem timeStateFallsBack : Obligations.TimeStateFallsBack := by
  unfold Obligations.TimeStateFallsBack
  intro s hs hon hramp w
  let lost : State := { s.clearOut with time := { s.clearOut.time with gmPresent := false, best := none, master := !s.cfgB Obj.PTP_SLAVE_ONLY } }
  have hsync : s.clearOut.syncTimeout = s.clearOut.holdover 1 := State.syncTimeout_on (s := s.clearOut) hon
  have hannounce : s.clearOut.announceTimeout = lost.holdover 2 := State.announceTimeout_on (s := s.clearOut) hon
  refine ⟨fun hl hm => ⟨?_, ?_⟩, fun hl hm => ?_, fun hl => ⟨?_, ?_⟩, fun held hh hm => ?_, fun held h => ?_⟩
  · exact does_safe hs rfl (hsync.trans ((State.holdover_of_locked (s := s.clearOut) 1 hl hm).trans (State.timeSet_holdover (s := s.clearOut) 1 hl hramp)))
      (State.Awake.post hs.clearOut)
  · exact does_safe hs rfl (hannounce.trans ((State.holdover_of_locked (s := lost) 2 hl hm).trans (State.timeSet_holdover (s := lost) 2 hl hramp)))
      (State.Awake.post hs.clearOut)
  · have hE := hsync.trans (State.holdover_at_once (s := s.clearOut) 1 hl hm)
    exact (does_safe hs rfl hE ((hs.clearOut.timeSet _ _).timeSet _ _)).next fun t he =>
      (congrArg TimeS.state he.time_eq).trans (State.timeSet_state _ _ _)
  · exact idles_safe hs rfl (hsync.trans (State.holdover_idle (s := s.clearOut) 1 hl))
  · exact does_safe hs rfl (hannounce.trans (State.holdover_idle (s := lost) 2 hl)) hs.clearOut
  · have hE : s.clearOut.holdoverExpired held = s.clearOut.timeSet .free 6 := if_pos (by
      show (decide (s.time.state = .holdover) && decide (s.cfgN Obj.HOLDOVER_MAX ≤ held)) = true
      simp [hh, hm])
    exact does_safe hs rfl (hE.trans (State.timeSet_free (s := s.clearOut) hh)) (State.Awake.post hs.clearOut)
  · exact idles_safe hs rfl (State.holdoverExpired_idle (s := s.clearOut) h)

/-! ### Sync messages (R249, R250) -/

theorem State.ptpHears_iff {s : State} (hs : s.Awake) (he : s.pwr.entry = none) (d : Nat) :
    s.ptpHears d = (decide (s.cfgN Obj.PTP_MODE ≠ 0) && decide (s.cfgN Obj.PTP_DOMAIN = d)) := by
  obtain ⟨-, hpwr, -⟩ := hs
  simp [State.ptpHears, State.ptpRuns, State.domainOff, State.portsOff, he, hpwr]

theorem State.ptpRuns_of_awake {s : State} (hs : s.Awake) (he : s.pwr.entry = none) : s.ptpRuns = true := by
  obtain ⟨-, hpwr, -⟩ := hs
  simp [State.ptpRuns, State.domainOff, State.portsOff, he, hpwr]

/-- An offset joins the last eight and the last five (R249, R250). -/
def State.offsetTaken (s : State) (o : Int) : State :=
  { s with time := { s.time with offs8 := (o :: s.time.offs8).take 8, offs5 := (o :: s.time.offs5).take 5 } }

theorem State.ptpSync_heard {s : State} {d : Nat} (hh : s.ptpHears d = true) (hg : s.time.gmPresent = true) (hm : s.time.master = false)
    (iv : Nat) (measured ratio : Int) : s.ptpSync d iv measured ratio =
      let t := s.offsetTaken (measured - s.cfg Obj.PTP_ASYM)
      if t.time.state = .locked then if t.reg.ramp then t else t.servo iv ratio
      else if t.time.qualified && !t.reg.ramp then t.timeLock else t := by
  unfold State.ptpSync
  exact if_neg (by simp [hh, hg, hm])

theorem State.ptpSync_unheard {s : State} {d : Nat} (h : s.ptpHears d = false ∨ s.time.gmPresent = false ∨ s.time.master = true)
    (iv : Nat) (measured ratio : Int) : s.ptpSync d iv measured ratio = s := by
  unfold State.ptpSync
  refine if_pos ?_
  obtain h | h | h := h <;> simp [h]

/-- The time state locks: the state, and the one step where it is asked for (R249). -/
theorem State.timeLock_time {s : State} (h : s.time.state ≠ .locked) : s.timeLock.time =
    { s.time with
      state := .locked
      stepPending := if s.time.state = .free && !s.time.stepDone && s.time.stepPending.isNone then some (median s.time.offs8) else s.time.stepPending } := by
  have htime : (s.timeSet .locked 0).time = { s.time with state := .locked } := by
    rw [State.timeSet_ne 0 h, State.post_time]
    simp [h]
  unfold State.timeLock
  dsimp only
  split
  · rw [htime]
  · exact htime

theorem State.timeSet_keeps (s : State) (st : TimeState) (c : Nat) : (s.timeSet st c).bal = s.bal ∧ (s.timeSet st c).conv = s.conv := by
  unfold State.timeSet
  dsimp only
  split
  · exact ⟨rfl, rfl⟩
  · rw [State.post_bal, State.post_conv]
    exact ⟨rfl, rfl⟩

theorem State.Awake.timeLock {s : State} (h : s.Awake) : s.timeLock.Awake := by
  have hset := h.timeSet .locked 0
  unfold State.timeLock
  dsimp only
  split <;> exact hset

theorem State.timeLock_keeps (s : State) : s.timeLock.bal = s.bal ∧ s.timeLock.conv = s.conv ∧
    s.timeLock.objs = s.objs ∧ s.timeLock.tick = s.tick := by
  obtain ⟨hbal, hconv⟩ := s.timeSet_keeps .locked 0
  obtain ⟨-, htick, hobjs⟩ := s.timeSet_frame .locked 0
  unfold State.timeLock
  dsimp only
  split <;> exact ⟨hbal, hconv, hobjs, htick⟩

theorem clampInt_abs {lim x : Int} (h : 0 ≤ lim) : |clampInt (-lim) lim x| ≤ lim := by
  rw [abs_le]
  exact ⟨le_max_left _ _, max_le (by omega) (min_le_left _ _)⟩

theorem State.Awake.servo {s : State} (iv : Nat) (ratio : Int) (h : s.Awake) : (s.servo iv ratio).Awake := h

/-- Settles O32: a Sync that is heard gives its offset, which qualifies for the lock or drives the servo. -/
theorem syncDrivesTheTimeState : Obligations.SyncDrivesTheTimeState := by
  unfold Obligations.SyncDrivesTheTimeState
  intro s d iv measured ratio hs hentry
  have hhears := State.ptpHears_iff hs.clearOut (s := s.clearOut) hentry d
  refine ⟨fun hon hd hg hm => ?_, fun h => ?_⟩
  · intro o offs8
    let u := s.clearOut.offsetTaken o
    have hE := State.ptpSync_heard (s := s.clearOut) (d := d) (by rw [hhears]; simp [hon, hd]) hg hm iv measured ratio
    refine ⟨fun hl hr hlen hall => ?_, fun hl h => ?_, fun hl hr => ?_⟩
    · have hq : (u.time.qualified && !u.reg.ramp) = true := by
        have hqual : u.time.qualified = true := by
          unfold TimeS.qualified
          rw [Bool.and_eq_true, List.all_eq_true, decide_eq_true_eq]
          exact ⟨hlen, fun x hx => decide_eq_true (hall x hx)⟩
        rw [hqual, show u.reg.ramp = false from hr]
        rfl
      obtain ⟨hbal, hconv, hobjs, htick⟩ := u.timeLock_keeps
      have htime := State.timeLock_time (s := u) hl
      refine (does_safe hs rfl (hE.trans ((if_neg hl).trans (if_pos hq))) (State.Awake.timeLock (s := u) hs.clearOut)).next fun t he => ?_
      have ht := he.time_eq.trans htime
      refine ⟨by rw [ht], by rw [ht]; rfl, by rw [ht]; rfl, he.tick_eq.trans htick, fun hfree hdone hpend => ?_, fun h => ?_,
        he.bal_eq.trans hbal, he.conv_eq.trans hconv, he.objs_eq.trans hobjs⟩
      · rw [ht]
        exact if_pos (by rw [show u.time.state = _ from hfree, show u.time.stepDone = _ from hdone, show u.time.stepPending = _ from hpend]; rfl)
      · rw [ht]
        refine if_neg ?_
        obtain h | h := h
        · rw [show u.time.state = _ from h]
          simp
        · rw [show u.time.stepDone = _ from h]
          simp
    · have hq : (u.time.qualified && !u.reg.ramp) = false := by
        obtain h | h := h
        · rw [show u.reg.ramp = true from h, Bool.not_true, Bool.and_false]
        · have hshort : u.time.qualified = false := by
            unfold TimeS.qualified
            rw [Bool.and_eq_false_iff, decide_eq_false_iff_not]
            exact .inl h.ne
          rw [hshort, Bool.false_and]
      exact does_safe hs rfl (hE.trans ((if_neg hl).trans (if_neg (Bool.eq_false_iff.mp hq)))) hs.clearOut
    · refine (does_safe hs rfl (hE.trans ((if_pos hl).trans (if_neg (Bool.eq_false_iff.mp (show u.reg.ramp = false from hr))))) (State.Awake.servo (s := u) iv ratio hs.clearOut)).next
        fun t he => ?_
      have htime : t.time = (u.servo iv ratio).time := he.time_eq
      have hreg : t.reg.word = clampInt (-smallLimit) smallLimit (floorDiv (u.servo iv ratio).time.r 1000) := congrArg Reg.word he.reg_eq
      refine ⟨by rw [htime]; exact hl, by rw [htime]; rfl, by rw [htime]; rfl, by rw [htime]; rfl, he.tick_eq, ?_, ?_, he.bal_eq, he.conv_eq, he.objs_eq⟩
      · unfold State.inTol
        rw [htime, he.cfg_eq]
        exact Bool.true_and _
      · rw [hreg]
        exact clampInt_abs (by decide)
  · refine idles_safe hs rfl (State.ptpSync_unheard ?_ iv measured ratio)
    rw [hhears]
    obtain h | h | h | h := h
    · simp [h]
    · simp [h]
    · exact .inr (.inl h)
    · exact .inr (.inr h)

/-! ### The PTP port (R245, R247, R248) -/

section
variable {s : State} {d : Nat}

theorem State.ptpAnnounce_selects {a : Announce} (hh : s.ptpHears a.domain = true) (hb : s.bestTaken a = true)
    (hm : s.cfgB Obj.PTP_SLAVE_ONLY = true ∨ betterMaster s.ownMaster a.master = false) : s.ptpAnnounce a =
      let new := decide (s.time.gm ≠ 0 ∧ a.master.gmIdentity ≠ s.time.gm)
      let t : State := { s with time := { s.time with
        best := some (a.sender, a.master), gm := a.master.gmIdentity, gmPresent := true, master := false, utc := a.utcOffset, utcValid := a.utcValid
        gmRos := s.time.gmRos || new } }
      if new then t.post 0x2708 noInst (beBytes 8 a.master.gmIdentity.toNat) else t := by
  unfold State.ptpAnnounce
  rw [if_neg (by simp [hh, hb]), if_neg (by obtain h | h := hm <;> simp [h])]
  simp only [Bool.decide_and]

theorem State.ptpAnnounce_leads {a : Announce} (hh : s.ptpHears a.domain = true) (hb : s.bestTaken a = true) (hm : s.cfgB Obj.PTP_SLAVE_ONLY = false)
    (hr : betterMaster s.ownMaster a.master = true) :
    s.ptpAnnounce a = { s with time := { s.time with best := some (a.sender, a.master), gmPresent := false, master := true } } := by
  unfold State.ptpAnnounce
  rw [if_neg (by simp [hh, hb]), if_pos (by simp [hm, hr])]

theorem State.ptpAnnounce_idle {a : Announce} (h : s.ptpHears a.domain = false ∨ s.bestTaken a = false) : s.ptpAnnounce a = s := by
  unfold State.ptpAnnounce
  refine if_pos ?_
  obtain h | h := h <;> simp [h]

theorem State.peerDelay_iff : s.peerDelay = true ↔ s.cfgN Obj.PTP_MODE = 1 ∨ s.cfgN Obj.PTP_MODE = 3 := by simp [State.peerDelay]

theorem State.pdelayReq_answers {r : List Byte} {n : Nat} (hh : s.ptpHears d = true) (hp : s.peerDelay = true) :
    s.pdelayReq d r n = s.ptpSend [.pdelayResp r n 0] := if_pos (by simp [hh, hp])

theorem State.pdelayReq_idle {r : List Byte} {n : Nat} (hh : s.ptpHears d = false) : s.pdelayReq d r n = s := if_neg (by simp [hh])

theorem State.delayResp_completes {m : Nat} {p : Bool} (hh : s.ptpHears d = true) (hp : s.peerDelay = p) (hr : s.time.reqOut = 1) :
    s.delayResp d m p = { s with time := { s.time with path := m, reqOut := 0 } } := if_pos (by simp [hh, hp, hr])

theorem State.delayResp_idle {m : Nat} {p : Bool} (hh : s.ptpHears d = false) : s.delayResp d m p = s := if_neg (by simp [hh])

theorem State.delayReqTx_sends (hon : s.cfgN Obj.PTP_MODE ≠ 0) (hr : s.ptpRuns = true) : s.delayReqTx =
    let t := s.ptpSend [if s.peerDelay then .pdelayReq else .delayReq]
    { t with time := { t.time with reqOut := 1 } } := by
  unfold State.delayReqTx
  exact if_neg (by simp [hon, hr])

theorem State.delayReqTx_idle (h : s.cfgN Obj.PTP_MODE = 0) : s.delayReqTx = s := by
  unfold State.delayReqTx
  exact if_pos (by simp [h])

theorem State.masterTx_sends (hon : s.cfgN Obj.PTP_MODE ≠ 0) (hm : s.time.master = true) (hs : s.cfgB Obj.PTP_SLAVE_ONLY = false) (hr : s.ptpRuns = true) :
    s.masterTx =
      let x := Config.openValue s.free % (250 * 2 ^ 16)
      let t := secNs (s.timeOf s.tick.now + x / 2 ^ 16)
      s.fresh.ptpSend [.sync t.1 t.2 (x % 2 ^ 16).toNat, .announce s.ownMaster s.time.utc s.time.utcValid] := by
  unfold State.masterTx
  exact if_pos (by simp [hon, hm, hs, hr])

theorem State.masterTx_idle (h : s.cfgN Obj.PTP_MODE = 0) : s.masterTx = s := by
  unfold State.masterTx
  exact if_neg (by simp [h])

theorem State.management_answers {ds : BitVec 16} (hh : s.ptpHears d = true) : s.management d ds false = s.ptpSend [.management ds] :=
  if_pos (by simp [hh])

theorem State.management_idle {ds : BitVec 16} {w : Bool} (h : s.ptpHears d = false ∨ w = true) : s.management d ds w = s := by
  unfold State.management
  refine if_neg ?_
  obtain h | h := h <;> simp [h]

end

/-- Settles O33: a port that is on hears its domain, and sends with its address where UDP/IPv4 carries it. -/
theorem ptpPortSpeaks : Obligations.PtpPortSpeaks := by
  unfold Obligations.PtpPortSpeaks
  intro s a mean turn req ds hs hentry hreq udp sent
  have hhears := State.ptpHears_iff hs.clearOut (s := s.clearOut) hentry a.domain
  have hruns := State.ptpRuns_of_awake hs.clearOut (s := s.clearOut) hentry
  have hwf : Instr.wf (.ptpPdelayReqRx a.domain req turn) = true := decide_eq_true hreq
  have hc : exec (.ptpPdelayReqRx a.domain req turn) s = runSafe true s fun s => s.pdelayReq a.domain req turn := by
    show runSafe (Instr.wf (.ptpPdelayReqRx a.domain req turn)) s _ = _
    rw [hwf]
  refine ⟨fun hon hd => ?_, fun hoff => ?_⟩
  · have hh : s.clearOut.ptpHears a.domain = true := by rw [hhears]; simp [hon, hd]
    refine ⟨fun hb => ⟨fun hm => ⟨fun hsame => ?_, fun hgm hnew => ?_⟩, fun hm hr => ?_⟩, fun hb => ?_, fun hmode => ⟨?_, fun hr => ?_, ?_⟩,
      fun h1 h3 => ⟨fun hr => ?_, ?_⟩, ?_, ?_, fun hm hslave => ?_⟩
    · have hold : ¬decide (s.time.gm ≠ 0 ∧ a.master.gmIdentity ≠ s.time.gm) = true := by
        rw [decide_eq_true_eq]
        exact fun h => hsame.elim h.1 h.2
      exact does_safe hs rfl ((State.ptpAnnounce_selects (s := s.clearOut) hh hb hm).trans (if_neg hold)) hs.clearOut
    · exact does_safe hs rfl ((State.ptpAnnounce_selects (s := s.clearOut) hh hb hm).trans (if_pos (decide_eq_true ⟨hgm, hnew⟩)))
        (State.Awake.post hs.clearOut)
    · exact does_safe hs rfl (State.ptpAnnounce_leads (s := s.clearOut) hh hb hm hr) hs.clearOut
    · exact idles_safe hs rfl (State.ptpAnnounce_idle (s := s.clearOut) (.inr hb))
    · exact does_safe hs hc (State.pdelayReq_answers hh (State.peerDelay_iff.mpr hmode)) hs.clearOut
    · exact does_safe hs rfl (State.delayResp_completes (s := s.clearOut) hh (State.peerDelay_iff.mpr hmode) hr) hs.clearOut
    · have hp : s.clearOut.peerDelay = true := State.peerDelay_iff.mpr hmode
      have hE := State.delayReqTx_sends (s := s.clearOut) hon hruns
      rw [hp] at hE
      exact does_safe hs rfl hE hs.clearOut
    · exact does_safe hs rfl (State.delayResp_completes (s := s.clearOut) hh (Bool.eq_false_iff.mpr fun h => (State.peerDelay_iff.mp h).elim h1 h3) hr) hs.clearOut
    · have hp : s.clearOut.peerDelay = false := Bool.eq_false_iff.mpr fun h => (State.peerDelay_iff.mp h).elim h1 h3
      have hE := State.delayReqTx_sends (s := s.clearOut) hon hruns
      rw [hp] at hE
      exact does_safe hs rfl hE hs.clearOut
    · exact does_safe hs rfl (State.management_answers hh) hs.clearOut
    · exact idles_safe hs rfl (State.management_idle (.inr rfl))
    · have hE := State.masterTx_sends (s := s.clearOut) hon hm hslave hruns
      have hx := Int.emod_nonneg (Config.openValue s.free) (b := 250 * 2 ^ 16) (by decide)
      have hx' := Int.emod_lt_of_pos (Config.openValue s.free) (b := 250 * 2 ^ 16) (by decide)
      have hdoes : Does .ptpMasterTx s _ := does_safe hs rfl hE hs.clearOut
      obtain ⟨t, ht, he⟩ := hdoes
      have htime := he.time_eq
      refine ⟨t, Config.openValue s.free % (250 * 2 ^ 16) / 2 ^ 16, (Config.openValue s.free % (250 * 2 ^ 16) % 2 ^ 16).toNat, ht,
        by omega, by omega, by omega, ?_, by rw [htime]; rfl, by rw [htime]; rfl, he.objs_eq⟩
      rw [htime]
      rfl
  · have hh : s.clearOut.ptpHears a.domain = false := by rw [hhears]; simp [hoff]
    exact ⟨idles_safe hs rfl (State.ptpAnnounce_idle (.inl hh)), idles_safe hs hc (State.pdelayReq_idle hh), idles_safe hs rfl (State.delayResp_idle hh),
      idles_safe hs rfl (State.delayResp_idle hh), idles_safe hs rfl (State.delayReqTx_idle (s := s.clearOut) hoff),
      idles_safe hs rfl (State.management_idle (.inl hh)), idles_safe hs rfl (State.masterTx_idle (s := s.clearOut) hoff),
      idles_safe hs rfl (if_pos hoff), idles_safe hs rfl (if_pos hoff)⟩

end Sys2Proof.Machine
end

section
/-!
PROOF. The end of a command where no tick boundary will come: what a PR demand then leaves alone (R270, R287, R293). The regulator's reference, its
lock and its ramps (R238 to R244).
-/
namespace Sys2Proof.Machine
namespace State

/-! ### What an entry into PR leaves alone -/

/-- The state but for what an entry into PR, its demands and its answers may touch. -/
def offDemand (s : State) : State :=
  { s with
    conv := {}, fus := {}, set := {}, cells := [], lanes := [], arms := {}, mod := {}, cond := {}, log := {}, saf := {}, host := {}, sched := {}, free := 0
    pwr := { s.pwr with entry := none } }

variable (s : State)

theorem postAt_offDemand (t c i : Nat) (d : List Byte) : (s.postAt t c i d).offDemand = s.offDemand := by
  rw [State.postAt_eq]
  rfl

theorem post_offDemand (c i : Nat) (d : List Byte) : (s.post c i d).offDemand = s.offDemand := s.postAt_offDemand _ c i d

theorem foldl_offDemand {α : Type} (f : State → α → State) (hf : ∀ s a, (f s a).offDemand = s.offDemand) (l : List α) :
    (l.foldl f s).offDemand = s.offDemand :=
  List.foldlRecOn l f (motive := fun t : State => t.offDemand = s.offDemand) rfl fun t ht a _ => (hf t a).trans ht

theorem noteWake_offDemand (w : WakeSource) : (s.noteWake w).offDemand = s.offDemand := by
  unfold State.noteWake
  split
  · split <;> rfl
  · rfl

theorem noteDemands_offDemand : s.noteDemands.offDemand = s.offDemand := by
  have hevent : ∀ (t : State) (d : Nat × Nat × Nat), (t.demandEvent d).offDemand = t.offDemand := fun t d => by
    unfold State.demandEvent
    dsimp only
    rw [post_offDemand]
    split
    exacts [t.post_offDemand _ _ _, rfl]
  have hposted := s.foldl_offDemand State.demandEvent hevent (s.demandSources.filter fun d => !s.saf.active.contains d)
  unfold State.noteDemands
  dsimp only
  generalize (s.demandSources.filter fun d => !s.saf.active.contains d).foldl State.demandEvent s = u at hposted
  have hwoken : (if (s.demandSources.filter fun d => !s.saf.active.contains d).isEmpty then u else u.noteWake .safety).offDemand = s.offDemand := by
    split
    exacts [hposted, (u.noteWake_offDemand _).trans hposted]
  generalize (if (s.demandSources.filter fun d => !s.saf.active.contains d).isEmpty then u else u.noteWake .safety) = v at hwoken
  exact hwoken

theorem blockAll_offDemand : s.blockAll.offDemand = s.offDemand := by
  unfold State.blockAll
  generalize List.range 48 = lanes
  exact s.foldl_offDemand State.blockLane (fun _ _ => rfl) lanes

theorem pulseRemoval_offDemand : s.pulseRemoval.offDemand = s.offDemand := by
  have h := s.blockAll_offDemand
  unfold State.pulseRemoval
  dsimp only
  generalize s.blockAll = u at h
  exact h

theorem sfEvent_offDemand : s.sfEvent.offDemand = s.offDemand := by
  unfold State.sfEvent
  dsimp only
  split
  · rfl
  · split <;> rfl

theorem scsEnd_offDemand (r : Nat) : (s.scsEnd r).offDemand = s.offDemand := by
  unfold State.scsEnd
  split
  · rfl
  · rw [post_offDemand]
    rfl

theorem setAbort_offDemand (r : Nat) : (s.setAbort r).offDemand = s.offDemand := by
  unfold State.setAbort
  split
  · rw [post_offDemand]
    rfl
  · rfl

theorem leave_offDemand (old new : ConvState) : (s.leave old new).offDemand = s.offDemand := by
  have hramp : (if releasedIn old && !releasedIn new then { s with fus := { s.fus with enrgRamp := false } } else s : State).offDemand = s.offDemand := by
    split <;> rfl
  unfold State.leave
  dsimp only
  generalize (if releasedIn old && !releasedIn new then { s with fus := { s.fus with enrgRamp := false } } else s : State) = u at hramp
  split
  · exact (u.setAbort_offDemand 4).trans hramp
  · exact hramp

theorem laneTo_offDemand (l : Nat) (st : LaneState) (r : Nat) : (s.laneTo l st r).offDemand = s.offDemand := by
  have h := congrArg State.offDemand (s.laneTo_offLanes l st r)
  exact h

theorem parkedOff_offDemand : s.parkedOff.offDemand = s.offDemand := by
  unfold State.parkedOff
  generalize List.range 48 = lanes
  exact s.foldl_offDemand _ (fun t l => by split; exacts [t.laneTo_offDemand l _ _, rfl]) lanes

theorem enter_pr_offDemand (old : ConvState) : (s.enter old .pr).offDemand = s.offDemand := by
  have hswitch : ∀ t : State, (if old = .pr then t.closeSwitches else t).offDemand = t.offDemand := fun t => by split <;> rfl
  have hparked : (if convBlocked .pr then s.parkedOff else s).offDemand = s.offDemand := s.parkedOff_offDemand
  unfold State.enter
  dsimp only
  generalize (if convBlocked .pr then s.parkedOff else s) = u at hparked
  have hpr : ∀ t : State, t.enterPr.offDemand = t.offDemand := fun t => t.pulseRemoval_offDemand
  exact (hpr _).trans ((hswitch u).trans hparked)

/-- No value waits for a change of the converter's state. -/
def NoneWaits (s : State) : Prop := ∀ w ∈ s.waiting, w.point ≠ .stateChange

variable {s}

theorem applyChange_offDemand (h : s.NoneWaits) : ∃ w, s.applyChange.offDemand = { s.offDemand with waiting := w } := by
  have hnone : ∀ p : Waiting → Bool, ({ s with waiting := s.waiting.filter p } : State).applyWaiting .stateChange = { s with waiting := s.waiting.filter p } :=
    fun p => State.applyWaiting_none fun w hw => h w (List.mem_filter.mp hw).1
  unfold State.applyChange
  dsimp only
  rw [hnone]
  exact ⟨_, rfl⟩

/-- The state at the change itself: its entry, its condition, and its end of SCS (R30). -/
def changing (s : State) (new : ConvState) (cause : Nat) : State :=
  let t := if s.conv.state = .scs then s.scsEnd 3 else s
  (({ t with conv := { t.conv with state := new, tripMove := false, modDisMove := false } }.condEvent 49).post 0x1001 noInst
    [BitVec.ofNat 8 (convCode s.conv.state), BitVec.ofNat 8 (convCode new), BitVec.ofNat 8 cause]).leave s.conv.state new

theorem changing_offDemand (new : ConvState) (c : Nat) : (s.changing new c).offDemand = s.offDemand := by
  have hscs : (if s.conv.state = .scs then s.scsEnd 3 else s).offDemand = s.offDemand := by
    split
    exacts [s.scsEnd_offDemand 3, rfl]
  unfold changing
  dsimp only
  generalize (if s.conv.state = .scs then s.scsEnd 3 else s) = u at hscs
  rw [leave_offDemand, post_offDemand]
  exact hscs

theorem NoneWaits.of_offDemand {t : State} (h : s.NoneWaits) (ht : t.offDemand = s.offDemand) : t.NoneWaits := by
  have hw : t.offDemand.waiting = s.offDemand.waiting := congrArg State.waiting ht
  have hw' : t.waiting = s.waiting := hw
  unfold NoneWaits
  rw [hw']
  exact h

theorem convTo_eq {new : ConvState} (h : s.conv.state ≠ new) (c : Nat) : s.convTo new c = (s.changing new c).applyChange.enter s.conv.state new := if_neg h

theorem convTo_pr_offDemand (h : s.NoneWaits) (c : Nat) : ∃ w, (s.convTo .pr c).offDemand = { s.offDemand with waiting := w } := by
  by_cases hst : s.conv.state = .pr
  · have hno : s.convTo .pr c = s := if_pos hst
    rw [hno]
    exact ⟨s.waiting, rfl⟩
  · have hchange := s.changing_offDemand .pr c
    rw [convTo_eq hst]
    obtain ⟨w, hw⟩ := applyChange_offDemand (h.of_offDemand hchange)
    refine ⟨w, ?_⟩
    rw [enter_pr_offDemand, hw, hchange]

theorem replyTo_offDemand (s : State) (r : Option Reply) (a : Ans) : (s.replyTo r a).offDemand = s.offDemand := by
  cases r with
  | none => rfl
  | some r =>
    show (s.reply r a).offDemand = _
    unfold State.reply
    split <;> rfl

theorem answerReq_offDemand (s : State) (r : ConvReq) (a : Ans) : (s.answerReq r a).offDemand = s.offDemand := by
  have hreply := s.replyTo_offDemand r.reply { a with params := [BitVec.ofNat 8 (convCode s.conv.state)] }
  have hlate : ∀ t : State, t.countLate.offDemand = t.offDemand := fun _ => rfl
  unfold State.answerReq
  dsimp only
  generalize s.replyTo r.reply { a with params := [BitVec.ofNat 8 (convCode s.conv.state)] } = u at hreply
  split
  · exact hreply
  · split
    · unfold State.actionDone
      dsimp only
      split <;> rw [postAt_offDemand] <;> exact hreply
    · unfold State.actionFailed
      rw [postAt_offDemand]
      split <;> exact hreply

theorem goPr_offDemand (h : s.NoneWaits) : ∃ w, s.goPr.offDemand = { s.offDemand with waiting := w } := by
  have hall : ∀ (t : State) (rs : List ConvReq), (t.answerAll rs).offDemand = t.offDemand := fun t rs =>
    t.foldl_offDemand _ (fun u r => u.answerReq_offDemand r _) rs
  obtain ⟨w, hw⟩ := convTo_pr_offDemand (s := (s.splitReqs .pr).2) h s.prCauseOf
  exact ⟨w, (hall _ _).trans hw⟩

/-! ### What the end of a command leaves alone -/

/-- What the end of a command where a demand may take the converter to PR leaves of the state. -/
theorem settle_offDemand (h : s.NoneWaits) : ∃ w, (s.settle false).offDemand = { s.offDemand with waiting := w } := by
  have hnote := s.noteDemands_offDemand
  unfold State.settle
  dsimp only
  simp only [Bool.false_and, Bool.false_eq_true, if_false]
  generalize s.noteDemands = n at hnote
  have hpulse : (if n.prDemand && n.saf.switches.any id then n.pulseRemoval else n).offDemand = s.offDemand := by
    split
    exacts [n.pulseRemoval_offDemand.trans hnote, hnote]
  generalize (if n.prDemand && n.saf.switches.any id then n.pulseRemoval else n) = p at hpulse
  rw [sfEvent_offDemand]
  split
  · obtain ⟨w, hw⟩ := goPr_offDemand (h.of_offDemand hpulse)
    exact ⟨w, by rw [hw, hpulse]⟩
  · exact ⟨s.waiting, hpulse⟩

/-- A stopped tick ends the recording first (R270). -/
theorem settle_of_stopped (h : s.ticking = false) : s.settle true = s.chronoStop.settle false := by
  unfold State.settle
  dsimp only
  rw [h]
  rfl

theorem closeRecord_eq (s : State) (cut : Bool) (st : ChrState) :
    s.closeRecord cut st = { s with chr := (s.closeRecord cut st).chr, log := (s.closeRecord cut st).log } := by
  unfold State.closeRecord
  dsimp only
  split
  · rfl
  · unfold State.post
    rw [State.postAt_eq]

theorem chronoStop_eq (s : State) : s.chronoStop = { s with chr := s.chronoStop.chr, log := s.chronoStop.log } := by
  unfold State.chronoStop
  dsimp only
  split
  · rw [closeRecord_eq]
  · rfl

theorem chronoStop_waits (h : s.NoneWaits) : s.chronoStop.NoneWaits := by
  rw [chronoStop_eq]
  exact h

theorem chronoStop_idle (s : State) : s.chronoStop.chr.state = .idle := by
  unfold State.chronoStop
  dsimp only

theorem settle_eq_stop (b : Bool) : s.settle b = (if b && !s.ticking then s.chronoStop else s).settle false := by
  unfold State.settle
  dsimp only
  rfl

theorem chronoStop_keeps (s : State) : s.chronoStop.tick = s.tick ∧ s.chronoStop.reg = s.reg ∧ s.chronoStop.meas = s.meas := by
  rw [chronoStop_eq]
  exact ⟨rfl, rfl, rfl⟩

theorem settle_false_keeps (h : s.NoneWaits) : (s.settle false).tick = s.tick ∧ (s.settle false).reg = s.reg ∧ (s.settle false).meas = s.meas := by
  obtain ⟨w, hw⟩ := settle_offDemand h
  generalize s.settle false = t at hw
  have ht : t.offDemand.tick = s.offDemand.tick := by rw [hw]
  have hr : t.offDemand.reg = s.offDemand.reg := by rw [hw]
  have hm : t.offDemand.meas = s.offDemand.meas := by rw [hw]
  exact ⟨ht, hr, hm⟩

/-- The end of a command leaves the tick, the regulator and the measurement alone, also where no tick boundary will come. -/
theorem settle_keeps (h : s.NoneWaits) (b : Bool) : (s.settle b).tick = s.tick ∧ (s.settle b).reg = s.reg ∧ (s.settle b).meas = s.meas := by
  rw [settle_eq_stop]
  split
  · obtain ⟨htick, hreg, hmeas⟩ := settle_false_keeps (chronoStop_waits h)
    obtain ⟨htick', hreg', hmeas'⟩ := s.chronoStop_keeps
    exact ⟨htick.trans htick', hreg.trans hreg', hmeas.trans hmeas'⟩
  · exact settle_false_keeps h

/-- A stopped tick leaves the chronograph in IDLE (R270). -/
theorem settle_chr_idle (h : s.NoneWaits) (ht : s.ticking = false) : (s.settle true).chr.state = .idle := by
  rw [settle_of_stopped ht]
  obtain ⟨w, hw⟩ := settle_offDemand (chronoStop_waits h)
  generalize s.chronoStop.settle false = t at hw
  have hc : t.offDemand.chr = s.chronoStop.offDemand.chr := by rw [hw]
  exact (congrArg Chrono.state hc).trans s.chronoStop_idle

end State

/-- A command of a unit of a module that is out of reset answers the end of its effect. -/
theorem exec_runSafe {c : Instr} {s : State} {E : State → State} (hr : s.pwr.inReset = false) (hc : exec c s = runSafe true s E) :
    exec c s = .next ((E s.clearOut).settle s.ticking) := by
  rw [hc]
  simp [runSafe, guarded, State.unlessReset, hr]

/-! ### The reference and its ramps (R238, R244) -/

theorem State.refLoss_idle {s : State} {r : Bool} {n : Nat} (h : n < 2 ∨ s.reg.good r = false) : s.refLoss r n = s := by
  unfold State.refLoss
  refine if_pos ?_
  obtain h | h := h <;> simp [h]

/-- The source is lost (R238). -/
def State.sourceLost (s : State) (r : Bool) : State := { s with reg := if r then { s.reg with refclkOk := false } else { s.reg with ocxoOk := false } }

theorem State.refLoss_spare {s : State} {r : Bool} {n : Nat} (hn : 2 ≤ n) (hg : s.reg.good r = true) (h : s.reg.refclk ≠ r) :
    s.refLoss r n = s.sourceLost r := by
  unfold State.refLoss
  rw [if_neg (by simp [hg]; omega)]
  exact if_pos (by cases r <;> exact h)

theorem State.refLoss_used {s : State} {r : Bool} {n : Nat} (hn : 2 ≤ n) (hg : s.reg.good r = true) (h : s.reg.refclk = r) :
    s.refLoss r n = (s.sourceLost r).refGone := by
  unfold State.refLoss
  rw [if_neg (by simp [hg]; omega)]
  exact if_neg (by cases r <;> simp [h])

/-- The source lost, of the other one it says what it did. -/
theorem State.sourceLost_good (s : State) (r : Bool) :
    (s.sourceLost r).reg.refclk = s.reg.refclk ∧ (s.sourceLost r).reg.good (!r) = s.reg.good (!r) := by
  cases r <;> exact ⟨rfl, rfl⟩

theorem State.refGone_switches {s : State} (h : s.reg.good (!s.reg.refclk) = true) : s.refGone = s.refSwitch (!s.reg.refclk) := if_pos h

theorem State.refGone_unlocks {s : State} (h : s.reg.good (!s.reg.refclk) = false) (ht : s.ticking = true) : s.refGone = s.unlock true := by
  unfold State.refGone
  rw [if_neg (by simp [h]), if_pos ht]

/-- The source in use is lost and the other one good: the loop switches (R238). -/
theorem State.refLoss_switches {s : State} {r : Bool} {n : Nat} (hn : 2 ≤ n) (h : s.reg.refclk = r) (hg : s.reg.good r = true)
    (hother : s.reg.good (!r) = true) : s.refLoss r n = (s.sourceLost r).refSwitch (!r) := by
  obtain ⟨hrefclk, hgood⟩ := s.sourceLost_good r
  have hused : (s.sourceLost r).reg.refclk = r := hrefclk.trans h
  rw [State.refLoss_used hn hg h, State.refGone_switches (by rw [hused, hgood, hother]), hused]

theorem State.Awake.refSwitch {s : State} {r : Bool} (h : s.Awake) : (s.refSwitch r).Awake := h.of_core (s.refSwitch_core r)

/-- The outputs are gated off and the lock is lost (R241). -/
theorem State.unlock_keeps (s : State) (b : Bool) : (s.unlock b).waiting = s.waiting ∧ (s.unlock b).tick = s.tick ∧ (s.unlock b).meas.winOpen = false ∧
    (s.unlock b).reg = { s.reg with
      locked := false, gated := true, slipped := true, low := true, lockA := false, lockLostRos := true, lockLoss := s.reg.lockLoss + 1
      aonLost := s.reg.aonLost || b } := by
  unfold State.unlock
  dsimp only
  rw [State.post_waiting, State.post_tick, State.post_meas, State.post_reg]
  unfold State.discardWindow
  split
  · exact ⟨rfl, rfl, rfl, rfl⟩
  · exact ⟨rfl, rfl, Bool.eq_false_iff.mpr ‹_›, rfl⟩

theorem State.refGood_takes {s : State} {r : Bool} {n : Nat} (h : 10000 ≤ n) :
    s.refGood r n = { s with reg := if r then { s.reg with refclkOk := true } else { s.reg with ocxoOk := true } } := if_neg (Nat.not_lt.mpr h)

theorem State.rampStart_starts {s : State} {r : Ramp} {rest : List Ramp} (hq : s.reg.rampQ = r :: rest) (hr : s.reg.ramp = true)
    (hn : s.reg.rampRun = none) (ht : s.ticking = true) :
    s.rampStart = { s with reg := { s.reg with rampQ := rest, rampRun := some (s.reg.offs, r, s.nextTick) } } := by
  unfold State.rampStart
  rw [hq]
  exact if_pos (by simp [hr, hn, ht])

theorem State.rampStart_idle {s : State} (h : s.reg.rampQ = [] ∨ s.reg.ramp = false ∨ s.reg.rampRun.isSome = true) : s.rampStart = s := by
  unfold State.rampStart
  split
  · next r rest hq =>
    refine if_neg ?_
    obtain h | h | h := h
    · simp [hq] at h
    · simp [h]
    · simp [Option.isNone_eq_false_iff.mpr h]
  · rfl

/-- Settles O30: a lost source in use is replaced by the other, or the loop unlocks, which stops the tick. -/
theorem referencesSwitchAndRampsStart : Obligations.ReferencesSwitchAndRampsStart := by
  unfold Obligations.ReferencesSwitchAndRampsStart
  refine ⟨fun s r n hs => ⟨fun hn hr ho hc => ?_, fun hn hr ho hc => ?_, fun hn hg hr hother hw => ?_, fun hn hg hr => ?_, fun h => ?_, fun h => ?_, fun h => ?_⟩,
    fun s hs => ⟨fun r rest hq hramp hrun => ?_, fun h => ?_⟩⟩
  · exact does_safe hs rfl (State.refLoss_switches (s := s.clearOut) hn hr ho hc) (State.Awake.post hs.clearOut)
  · exact does_safe hs rfl (State.refLoss_switches (s := s.clearOut) hn hr hc ho) (State.Awake.post hs.clearOut)
  · have hlost : (s.clearOut.sourceLost r).reg.good (!(s.clearOut.sourceLost r).reg.refclk) = false := by
      obtain ⟨hrefclk, hgood⟩ := s.clearOut.sourceLost_good r
      rw [hrefclk, show s.clearOut.reg.refclk = r from hr, hgood]
      exact hother
    have hE := (State.refLoss_used (s := s.clearOut) hn hg hr).trans (State.refGone_unlocks (s := s.clearOut.sourceLost r) hlost
      (by cases r <;> exact hs.ticks))
    obtain ⟨hwait, -, -, hreg⟩ := (s.clearOut.sourceLost r).unlock_keeps true
    have hwaits : ((s.clearOut.sourceLost r).unlock true).NoneWaits := by
      unfold State.NoneWaits
      rw [hwait]
      exact hw
    have hgated : ((s.clearOut.sourceLost r).unlock true).ticking = false := by
      unfold State.ticking
      rw [hreg]
      rfl
    obtain ⟨-, htreg, -⟩ := State.settle_keeps hwaits true
    have hidle := State.settle_chr_idle hwaits hgated
    have hexec := exec_runSafe (c := .refLoss r n) (E := (·.refLoss r n)) hs.1 rfl
    rw [hE, hs.ticks] at hexec
    refine ⟨_, hexec, ?_, ?_, ?_, ?_, hidle⟩
    · rw [htreg, hreg]
    · rw [htreg, hreg]
    · rw [htreg, hreg]
      cases r <;> rfl
    · rw [htreg, hreg]
  · exact does_safe hs rfl (State.refLoss_spare (s := s.clearOut) hn hg hr) (by cases r <;> exact hs.clearOut)
  · exact idles_safe hs rfl (State.refLoss_idle (s := s.clearOut) h)
  · exact does_safe hs rfl (State.refGood_takes (s := s.clearOut) h) (by cases r <;> exact hs.clearOut)
  · exact idles_safe hs rfl (if_pos h)
  · exact does_safe hs rfl (State.rampStart_starts (s := s.clearOut) hq hramp hrun hs.ticks) hs.clearOut
  · exact idles_safe hs rfl (State.rampStart_idle (s := s.clearOut) h)

/-! ### The lock (R240 to R242) -/

section
variable {s : State}

theorem State.lockDeclared_idle {us : Nat} {aon : Option Nat} (h : s.reg.locked = true) : s.lockDeclared us aon = s := if_pos h

/-- A rise outside its window sets the filter fault (R240). -/
theorem State.lockDeclared_bad {us : Nat} {aon : Option Nat} (hl : s.reg.locked = false) (hlow : s.reg.low = true) (hus : us < 500 ∨ 1500 < us) :
    s.lockDeclared us aon = State.post { s with reg := { s.reg with filterRos := true, low := false } } 0x2702 noInst [] := by
  unfold State.lockDeclared
  rw [if_neg (by simp [hl])]
  exact if_pos (by obtain h | h := hus <;> simp [hlow, h])

/-- What a declared lock leaves of the regulator (R241). -/
def State.lockSet (s : State) : State := { s with reg := { s.reg with locked := true, gated := false, slipped := false, low := false, lockA := true } }

theorem State.lockDeclared_locks {us : Nat} {aon : Option Nat} (hl : s.reg.locked = false) (hg : s.reg.gated = true)
    (hrise : s.reg.low = false ∨ (500 ≤ us ∧ us ≤ 1500)) : s.lockDeclared us aon =
      if (s.renumber aon).reg.slipped then (s.renumber aon).lockSet.post 0x2704 noInst [] else (s.renumber aon).lockSet := by
  unfold State.lockDeclared
  rw [if_neg (by simp [hl])]
  have hin : (s.reg.low && (decide (us < 500) || decide (1500 < us))) = false := by
    obtain h | ⟨h, h'⟩ := hrise
    · simp [h]
    · simp [Nat.not_lt.mpr h, Nat.not_lt.mpr h']
  rw [if_neg (Bool.eq_false_iff.mp hin), if_pos hg]
  rfl

theorem State.lockDeclared_keeps {us : Nat} {aon : Option Nat} (hl : s.reg.locked = false) (hg : s.reg.gated = true)
    (hrise : s.reg.low = false ∨ (500 ≤ us ∧ us ≤ 1500)) : (s.lockDeclared us aon).waiting = (s.renumber aon).waiting ∧
      (s.lockDeclared us aon).tick = (s.renumber aon).tick ∧ (s.lockDeclared us aon).reg = (s.renumber aon).lockSet.reg := by
  rw [State.lockDeclared_locks hl hg hrise]
  split
  · rw [State.post_waiting, State.post_tick, State.post_reg]
    exact ⟨rfl, rfl, rfl⟩
  · exact ⟨rfl, rfl, rfl⟩

theorem State.renumber_unstarted {aon : Option Nat} (h : s.tick.started = false) : s.renumber aon = s := by
  unfold State.renumber
  exact if_pos (by simp [h])

/-- The number of the first tick after a lock (R242). -/
def State.firstTick (s : State) (aon : Option Nat) : Nat :=
  match aon with
  | some u => if s.reg.aonLost then s.tick.now + 1 else max (s.tick.now + 1) (s.tick.now + 40 * u / 250)
  | none => s.tick.now + 1

/-- The state with its next tick numbered (R242). -/
def State.numbered (s : State) (aon : Option Nat) : State :=
  { s.pulseKept (!s.reg.aonLost && aon.isSome) with
    tick := { s.tick with next := s.firstTick aon }
    reg := { s.reg with skipped := s.reg.skipped + (s.firstTick aon - (s.tick.now + 1)), aonLost := false }
    pwr := { s.pwr with uptimeTicks := s.pwr.uptimeTicks + 40 * aon.getD 0 / 250 } }

theorem State.renumber_numbers {aon : Option Nat} (h : s.tick.started = true) : s.renumber aon =
    if s.tick.now + 1 < s.firstTick aon then (s.numbered aon).post 0x2705 noInst (beBytes 8 (s.firstTick aon - (s.tick.now + 1))) else s.numbered aon := by
  unfold State.renumber
  rw [if_neg (by simp [h])]
  cases aon <;> rfl

theorem State.renumber_started {aon : Option Nat} (h : s.tick.started = true) : (s.renumber aon).tick = { s.tick with next := s.firstTick aon } ∧
    (s.renumber aon).reg = { s.reg with skipped := s.reg.skipped + (s.firstTick aon - (s.tick.now + 1)), aonLost := false } ∧
    (s.renumber aon).waiting = s.waiting := by
  rw [State.renumber_numbers h]
  split
  · rw [State.post_tick, State.post_reg, State.post_waiting]
    exact ⟨rfl, rfl, rfl⟩
  · exact ⟨rfl, rfl, rfl⟩

theorem State.renumber_keeps (aon : Option Nat) : (s.renumber aon).waiting = s.waiting ∧ (s.renumber aon).tick.now = s.tick.now := by
  cases h : s.tick.started with
  | false =>
    rw [State.renumber_unstarted h]
    exact ⟨rfl, rfl⟩
  | true =>
    obtain ⟨htick, -, hwait⟩ := State.renumber_started (aon := aon) h
    exact ⟨hwait, by rw [htick]⟩

theorem State.slip_beyond {ps since : Nat} (h : 2000 < ps) : s.slip ps since = s.unlock false := if_neg (Nat.not_le.mpr h)

theorem State.slip_within {ps since : Nat} (h : ps ≤ 2000) :
    s.slip ps since = { s with reg := { s.reg with lockA := decide (ps ≤ 1000) && (!s.reg.slipped || decide (2000 ≤ since)) } } := if_pos h

theorem State.lockLoss_falls {mv : Nat} (h : mv < 1800) :
    s.lockLoss mv = { s with reg := { s.reg with locked := false, low := s.reg.low || decide (mv < 500) } } := if_neg (Nat.not_le.mpr h)

end

/-- Settles O31: the lock is declared and lost by the regulator's own rules, which the end of the command leaves alone. -/
theorem lockIsDeclaredAndLost : Obligations.LockIsDeclaredAndLost := by
  unfold Obligations.LockIsDeclaredAndLost
  intro s hr hpwr hw
  have hc : ∀ us aon, exec (.regLockDeclared us aon) s = runSafe true s fun s => if s.domainOff .time then s else s.lockDeclared us aon := fun _ _ => rfl
  have hon : s.clearOut.domainOff .time = false := by
    show (decide (s.pwr.state = .s3) || decide (s.pwr.state = .wakeFail)) = false
    rw [hpwr]
    rfl
  refine ⟨fun us aon hg hl hrise => ?_, fun c hc => ?_, fun hg htm => ?_⟩
  · obtain ⟨hwait, htick, hreg⟩ := State.lockDeclared_keeps (s := s.clearOut) (aon := aon) hl hg hrise
    obtain ⟨hrwait, hnow⟩ := s.clearOut.renumber_keeps aon
    have hwaits : (s.clearOut.lockDeclared us aon).NoneWaits := by
      unfold State.NoneWaits
      rw [hwait, hrwait]
      exact hw
    obtain ⟨httick, htreg, -⟩ := State.settle_keeps hwaits s.ticking
    have hexec := exec_runSafe hr (hc us aon)
    rw [if_neg (by simp [hon])] at hexec
    refine ⟨_, hexec, ?_, ?_, ?_, ?_, ?_, ?_, fun hst => ?_, fun hst h => ?_, fun u hst hlost hu => ?_⟩
    · rw [htreg, hreg]; rfl
    · rw [htreg, hreg]; rfl
    · rw [htreg, hreg]; rfl
    · rw [htreg, hreg]; rfl
    · rw [htreg, hreg]; rfl
    · exact (congrArg Tick.now (httick.trans htick)).trans hnow
    · rw [httick, htick, State.renumber_unstarted (s := s.clearOut) hst]
      rfl
    · obtain ⟨hnum, -⟩ := State.renumber_started (s := s.clearOut) (aon := aon) hst
      rw [httick, htick, hnum]
      show s.firstTick aon = _
      obtain h | h := h
      · cases aon with
        | none => rfl
        | some u => exact if_pos h
      · rw [h]
        rfl
    · obtain ⟨hnum, hskip, -⟩ := State.renumber_started (s := s.clearOut) (aon := aon) hst
      have hfirst : s.firstTick aon = max (s.tick.now + 1) (s.tick.now + 40 * u / 250) := by
        rw [hu]
        exact if_neg (by simp [hlost])
      rw [httick, htreg, htick, hreg, hnum]
      refine ⟨hfirst, ?_⟩
      show (s.clearOut.renumber aon).reg.skipped = _
      rw [hskip]
      rfl
  · obtain ⟨hwait, htick, hmeas, hreg⟩ := s.clearOut.unlock_keeps false
    have hwaits : (s.clearOut.unlock false).NoneWaits := by
      unfold State.NoneWaits
      rw [hwait]
      exact hw
    obtain ⟨httick, htreg, htmeas⟩ := State.settle_keeps hwaits s.ticking
    have hexec := exec_runSafe (c := .regSlip c) (E := fun s => s.slip c.errorPs c.sinceUs) hr rfl
    rw [State.slip_beyond hc] at hexec
    refine ⟨_, hexec, ?_⟩
    rw [htreg, hreg, httick, htick, htmeas, hmeas]
    exact ⟨rfl, rfl, rfl, rfl, rfl, rfl, rfl, rfl⟩
  · have hs : s.Awake := ⟨hr, hpwr, hg, htm⟩
    have hE : ∀ us aon, (if s.clearOut.domainOff .time then s.clearOut else s.clearOut.lockDeclared us aon) = s.clearOut.lockDeclared us aon := fun us aon =>
      if_neg (by simp [hon])
    exact ⟨fun us aon hl hlow hus => does_safe hs rfl ((hE us aon).trans (State.lockDeclared_bad (s := s.clearOut) hl hlow hus)) (State.Awake.post hs.clearOut),
      fun us aon hl => idles_safe hs rfl ((hE us aon).trans (State.lockDeclared_idle (s := s.clearOut) hl)),
      fun c hc => does_safe hs rfl (State.slip_within (s := s.clearOut) hc) hs.clearOut,
      fun mv h => does_safe hs rfl (State.lockLoss_falls (s := s.clearOut) h) hs.clearOut, fun mv h => idles_safe hs rfl (if_pos h)⟩

end Sys2Proof.Machine
end

section
/-!
PROOF. The train: ports, frames, addresses, and the chronograph's messages (R319 to R328, R271).
-/
namespace Sys2Proof.Machine

/-! ### The module is not on its way to sleep -/

theorem State.noteDemands_pwr {s : State} (h : s.pwr.entry = none) : s.noteDemands.pwr = s.pwr := by
  have hevent : ∀ (t : State) (d : Nat × Nat × Nat), (t.demandEvent d).pwr = t.pwr := fun t d => by
    unfold State.demandEvent
    dsimp only
    split
    · rw [State.post_pwr, State.post_pwr]
    · rw [State.post_pwr]
  have hposted : ((s.demandSources.filter fun d => !s.saf.active.contains d).foldl State.demandEvent s).pwr = s.pwr :=
    List.foldlRecOn _ State.demandEvent (motive := fun t : State => t.pwr = s.pwr) rfl fun t ht d _ => (hevent t d).trans ht
  unfold State.noteDemands
  dsimp only
  generalize (s.demandSources.filter fun d => !s.saf.active.contains d).foldl State.demandEvent s = u at hposted
  split
  · exact hposted
  · have hno : u.noteWake .safety = u := by
      unfold State.noteWake
      rw [hposted, h]
    rw [hno]
    exact hposted

theorem State.settle_pwr {f : State} (hf : f.Awake) (he : f.pwr.entry = none) (b : Bool) : (f.settle b).pwr = f.pwr := by
  have hsf : ∀ u : State, u.sfEvent.pwr = u.pwr := fun u => by
    unfold State.sfEvent
    dsimp only
    split
    · rfl
    · split <;> rfl
  have hnote := State.noteDemands_pwr he
  rw [State.settle_eq f b hf.ticks hf.2.1 hf.2.2.2, hsf]
  split
  · have hblock : f.noteDemands.pulseRemoval.pwr = f.noteDemands.pwr := congrArg (fun c => c.2.2.1) f.noteDemands.blockAll_core
    rw [hblock, hnote]
  · exact hnote

/-- A command of a unit of a module that is not on its way to sleep: its power state stands too. -/
theorem next_pwr {c : Instr} {s f : State} {E : State → State} {P : State → Prop} (hs : s.Awake) (hc : exec c s = runSafe true s E)
    (hE : E s.clearOut = f) (hf : f.Awake) (he : f.pwr.entry = none) (hP : ∀ t, Ends f t → t.pwr = f.pwr → P t) : ∃ t, exec c s = .next t ∧ P t := by
  have hexec : exec c s = .next (f.settle true) := by
    rw [exec_runSafe hs.1 hc, hE, hs.ticks]
  obtain ⟨t, ht, hends⟩ := does_safe hs hc hE hf
  cases hexec.symm.trans ht
  exact ⟨_, hexec, hP _ hends (State.settle_pwr hf he true)⟩

theorem State.trainRuns_of_awake {s : State} (hs : s.Awake) (he : s.pwr.entry = none) : s.trainRuns = true := by
  obtain ⟨hreset, hpwr, -⟩ := hs
  simp [State.trainRuns, State.portsOff, hreset, hpwr, he]

/-! ### The ports (R319, R323) -/

section
variable {s : State}

theorem State.portUp_east {n : Nat} (hr : s.trainRuns = true) (hd : s.train.eastUp = false)
    (h : 1 ≤ n ∨ (s.train.badRunE < 8 ∧ s.train.miswireE = false)) :
    s.portUp false n = { s with train := { s.train with eastUp := true, badRunE := 0, unwrappedE := false, miswireE := false } } := by
  unfold State.portUp
  refine if_pos ?_
  have hport : s.train.portUp false = false := hd
  obtain h | ⟨hb, hm⟩ := h
  · simp [hr, hport, h]
  · simp [hr, hport, Train.badRun, trainBadRun, hm, Nat.not_le.mpr hb]

theorem State.portUp_west {n : Nat} (hr : s.trainRuns = true) (hd : s.train.westUp = false)
    (h : 1 ≤ n ∨ (s.train.badRunW < 8 ∧ s.train.miswireW = false)) :
    s.portUp true n = { s with train := { s.train with westUp := true, badRunW := 0, unwrappedW := false, miswireW := false } } := by
  unfold State.portUp
  refine if_pos ?_
  have hport : s.train.portUp true = false := hd
  obtain h | ⟨hb, hm⟩ := h
  · simp [hr, hport, h]
  · simp [hr, hport, Train.badRun, trainBadRun, hm, Nat.not_le.mpr hb]

theorem State.portUp_idle {west : Bool} {n : Nat} (h : s.train.portUp west = true ∨
    (n = 0 ∧ (8 ≤ s.train.badRun west ∨ (if west then s.train.miswireW else s.train.miswireE) = true))) : s.portUp west n = s := by
  unfold State.portUp
  refine if_neg ?_
  obtain h | ⟨hn, h | h⟩ := h
  · simp [h]
  · simp [hn, trainBadRun, h]
  · simp only [hn, h]
    simp

theorem State.portDown_wraps {west : Bool} (hu : s.train.portUp west = true) (hw : s.train.wrapped = false) (hst : s.train.state ≠ .none) :
    s.portDown west = State.post { s with train := { s.train.setPort west false with
      wrapped := true, closed := false, unwrappedE := false, unwrappedW := false, wraps := s.train.wraps + 1 } } 0x2A06 noInst [BitVec.ofNat 8 (b2n west)] := by
  unfold State.portDown State.ringWrapped
  rw [if_pos hu]
  cases west <;> exact if_neg (by simp [Train.setPort, hw, hst])

theorem State.portDown_idle {west : Bool} (h : s.train.portUp west = false) : s.portDown west = s := if_neg (by simp [h])

theorem State.ringClosed_closes (hr : s.trainRuns = true) (ho : s.train.originating = true) (hE : s.train.unwrappedE = true)
    (hW : s.train.unwrappedW = true) (hc : s.train.closed = false) (he : s.train.eastUp = true) (hw : s.train.westUp = true) :
    s.ringClosed = State.post { s with train := { s.train with closed := true, wrapped := false } } 0x2A07 noInst [] := by
  unfold State.ringClosed State.ringHeal
  rw [if_pos ho]
  exact if_pos (by simp [hr, hE, hW, hc, he, hw])

theorem State.ringClosed_idle (h : s.train.originating = false ∨ s.train.closed = true) : s.ringClosed = s := by
  unfold State.ringClosed
  obtain h | h := h
  · exact if_neg (by simp [h])
  · have hheal : s.ringHeal = s := by
      unfold State.ringHeal
      exact if_neg (by simp [h])
    rw [hheal, ite_self]

end

/-- Settles O35: the ports and the ring change by `State.portUp`, `State.portDown` and `State.ringClosed`. -/
theorem trainPortsWrapTheRing : Obligations.TrainPortsWrapTheRing := by
  unfold Obligations.TrainPortsWrapTheRing
  intro s hs hentry
  have hr := State.trainRuns_of_awake hs.clearOut (s := s.clearOut) hentry
  refine ⟨fun n => ⟨fun hd h => ?_, fun hd h => ?_, fun h => ?_, fun h => ?_⟩, fun hw hst => ⟨fun hu => ?_, fun hu => ?_⟩, fun hd => ?_, fun hd => ?_,
    fun ho hE hW hc he hw => ?_, fun h => ?_⟩
  · exact does_safe hs rfl (State.portUp_east (s := s.clearOut) hr hd h) hs.clearOut
  · exact does_safe hs rfl (State.portUp_west (s := s.clearOut) hr hd h) hs.clearOut
  · exact idles_safe hs rfl (State.portUp_idle (s := s.clearOut) (west := false) h)
  · exact idles_safe hs rfl (State.portUp_idle (s := s.clearOut) (west := true) h)
  · exact does_safe hs rfl (State.portDown_wraps (s := s.clearOut) (west := false) hu hw hst) (State.Awake.post hs.clearOut)
  · exact does_safe hs rfl (State.portDown_wraps (s := s.clearOut) (west := true) hu hw hst) (State.Awake.post hs.clearOut)
  · exact idles_safe hs rfl (State.portDown_idle (s := s.clearOut) (west := false) hd)
  · exact idles_safe hs rfl (State.portDown_idle (s := s.clearOut) (west := true) hd)
  · exact does_safe hs rfl (State.ringClosed_closes (s := s.clearOut) hr ho hE hW hc he hw) (State.Awake.post hs.clearOut)
  · exact idles_safe hs rfl (State.ringClosed_idle (s := s.clearOut) h)

/-! ### Addresses (R325 to R328) -/

section
variable {s : State} {w : DWord}

/-- An address that none has and that is not present is granted as it is asked for (R327). -/
theorem Train.grantFor_asked {t : Train} {serial a : Nat} (ha : a ≠ 0) (hno : ∀ p ∈ t.table, p.2 ≠ a) (hp : t.isPresent a = false) :
    t.grantFor serial a = a := by
  have hnever : t.neverGranted a = true := by
    unfold Train.neverGranted
    rw [hp]
    simpa using hno
  unfold Train.grantFor
  exact if_pos (by simp [ha, hnever])

theorem State.trainJoin_grants (hr : s.trainRuns = true) (ho : s.train.originating = true) (hk : slotKind w = 2) (hm : s.train.outMsg = [])
    (ha : payAddr w ≠ 0) (hno : ∀ p ∈ s.train.table, p.2 ≠ payAddr w) (hp : s.train.isPresent (payAddr w) = false) :
    s.trainJoin w = State.post { s with train := { s.train with
      outMsg := [(3, payWord w * 2 ^ 24 + payAddr w * 2 ^ 19)], table := s.train.table ++ [(payWord w, payAddr w)] } }
      0x2A03 (payAddr w) (beBytes 4 (payWord w)) := by
  have hkept : s.train.table.filter (fun p => decide (p.2 ≠ payAddr w)) = s.train.table := List.filter_eq_self.mpr fun p hp => by simp [hno p hp]
  unfold State.trainJoin
  rw [if_neg (by simp [hr, ho, hk, hm])]
  dsimp only
  rw [Train.grantFor_asked ha hno hp, if_neg ha]
  unfold State.sendMsg Train.learn
  dsimp only
  rw [hkept, hm]
  rfl

theorem State.trainJoin_idle (h : s.train.originating = false ∨ slotKind w ≠ 2) : s.trainJoin w = s := by
  unfold State.trainJoin
  refine if_pos ?_
  obtain h | h := h <;> simp [h]

theorem State.trainGrant_takes (hr : s.trainRuns = true) (hst : s.train.state = .joining) (hf : s.train.full = false) (hk : slotKind w = 3)
    (hme : payWord w = mySerial) (ha : payAddr w ≠ 0) (hsame : s.train.stored = 0 ∨ s.train.stored = payAddr w) :
    s.trainGrant w = { s with train := { s.train with joins := some (payAddr w), stored := payAddr w } } := by
  have hdiffers : (decide (s.train.stored ≠ 0) && decide (s.train.stored ≠ payAddr w)) = false := by
    obtain h | h := hsame <;> simp [h]
  unfold State.trainGrant
  rw [if_neg (by simp [hr, hst, hf, hk, hme])]
  dsimp only
  rw [if_neg ha, hdiffers, Bool.or_false]
  rfl

theorem State.trainGrant_full (hr : s.trainRuns = true) (hst : s.train.state = .joining) (hf : s.train.full = false) (hk : slotKind w = 3)
    (hme : payWord w = mySerial) (ha : payAddr w = 0) :
    s.trainGrant w = State.post { s with train := { s.train with full := true } } 0x2A05 noInst (beBytes 4 mySerial) := by
  unfold State.trainGrant
  rw [if_neg (by simp [hr, hst, hf, hk, hme])]
  exact if_pos ha

theorem State.trainGrant_idle (h : s.train.state ≠ .joining ∨ slotKind w ≠ 3 ∨ payWord w ≠ mySerial) : s.trainGrant w = s := by
  unfold State.trainGrant
  refine if_pos ?_
  obtain h | h | h := h <;> simp [h]

theorem State.actingRoot_acts (hr : s.trainRuns = true) (hst : s.train.state = .member) (hq : 64 + 8 * s.train.addr ≤ s.train.quietTicks) :
    s.actingRoot = State.post { s with train := { s.train with
      state := .root, originating := true, acting := true, rootSerial := mySerial, rootActing := true } } 0x2A08 s.train.addr [] := by
  unfold State.actingRoot
  exact if_pos (by simp [hr, hst, hq])

theorem State.actingRoot_idle (h : s.train.state ≠ .member ∨ s.train.quietTicks < 64 + 8 * s.train.addr) : s.actingRoot = s := by
  unfold State.actingRoot
  refine if_neg ?_
  obtain h | h := h
  · simp [h]
  · simp [Nat.not_le.mpr h]

theorem State.yieldEdge_idle (h : s.train.originating = false) : s.yieldEdge = s := by
  unfold State.yieldEdge
  split
  · exact if_neg (by simp [h])
  · rfl

theorem State.joinEdge_joins {a : Nat} (hj : s.train.joins = some a) (hst : s.train.state = .joining) :
    s.joinEdge.train.state = .member ∧ s.joinEdge.train.addr = a ∧ s.joinEdge.train.originating = s.train.originating := by
  have hedge : s.joinEdge = State.formed { s with train := { s.train with joins := none, state := .member, addr := a } } := by
    unfold State.joinEdge
    rw [hj]
    exact if_pos hst
  rw [hedge]
  unfold State.formed
  rw [State.post_train]
  exact ⟨rfl, rfl, rfl⟩

theorem State.rootStart_idle (h : s.train.state ≠ .none) : s.rootStart = s := by
  unfold State.rootStart
  exact if_neg (by simp [h])

theorem State.originate_idle (h : s.train.originating = false) : s.originate = s := by
  unfold State.originate
  exact if_pos (by simp [h])

/-- The edge at which a joining module that has its address becomes a member (R328). -/
theorem State.trainEdge_joins {a : Nat} (hr : s.trainRuns = true) (ho : s.train.originating = false) (hj : s.train.joins = some a)
    (hst : s.train.state = .joining) : s.trainEdge.train.state = .member ∧ s.trainEdge.train.addr = a := by
  unfold State.trainEdge
  rw [if_neg (by simp [hr])]
  dsimp only
  generalize hu : ({ s with train := _ } : State) = u
  have huo : u.train.originating = false := by rw [← hu]; exact ho
  have huj : u.train.joins = some a := by rw [← hu]; exact hj
  have hust : u.train.state = .joining := by rw [← hu]; exact hst
  rw [State.yieldEdge_idle huo]
  obtain ⟨hmember, haddr, hmo⟩ := State.joinEdge_joins huj hust
  rw [State.rootStart_idle (by rw [hmember]; decide), State.originate_idle (hmo.trans huo)]
  exact ⟨hmember, haddr⟩

end

/-- Settles O37: a JOIN, a GRANT and a quiet ring change the train's state by their own rules. -/
theorem trainAddressesAreGranted : Obligations.TrainAddressesAreGranted := by
  unfold Obligations.TrainAddressesAreGranted
  intro s w hs hentry
  have hr := State.trainRuns_of_awake hs.clearOut (s := s.clearOut) hentry
  refine ⟨fun ho hk hm ha hno hp => ?_, fun h => ?_, fun hst ho hf hk hme ha hsame => ?_, fun hst hf hk hme ha => ?_, fun h => ?_, fun hst hq => ?_, fun h => ?_⟩
  · exact does_safe hs rfl (State.trainJoin_grants (s := s.clearOut) hr ho hk hm ha hno hp) (State.Awake.post hs.clearOut)
  · exact idles_safe hs rfl (State.trainJoin_idle (s := s.clearOut) h)
  · refine next_pwr hs rfl (State.trainGrant_takes (s := s.clearOut) hr hst hf hk hme ha hsame) hs.clearOut hentry fun t he hpwr => ?_
    have ht := he.train_eq
    have hruns : t.trainRuns = true := by
      unfold State.trainRuns State.portsOff State.wokenTo
      rw [hpwr]
      exact hr
    obtain ⟨hmember, haddr⟩ := State.trainEdge_joins (a := payAddr w) hruns (by rw [ht]; exact ho) (by rw [ht]) (by rw [ht]; exact hst)
    exact ⟨by rw [ht]; exact hst, by rw [ht]; rfl, by rw [ht], hmember, haddr, by rw [ht]; rfl, by rw [ht]; rfl, he.bal_eq, he.conv_eq, he.objs_eq⟩
  · exact does_safe hs rfl (State.trainGrant_full (s := s.clearOut) hr hst hf hk hme ha) (State.Awake.post hs.clearOut)
  · exact idles_safe hs rfl (State.trainGrant_idle (s := s.clearOut) h)
  · exact does_safe hs rfl (State.actingRoot_acts (s := s.clearOut) hr hst hq) (State.Awake.post hs.clearOut)
  · exact idles_safe hs rfl (State.actingRoot_idle (s := s.clearOut) h)

/-! ### Messages of a slot (R321) -/

/-- The train's state once the message of an address has been taken. -/
def Train.heard (t : Train) (a : Nat) (w : DWord) : Train := { t.take a w with fresh := (t.take a w).fresh.set a false }

/-- A value is not newer than itself. -/
theorem newerSlot_irrefl (w : DWord) : newerSlot w w = false := by
  simp [newerSlot]

theorem ne_of_newerSlot {w old : DWord} (h : newerSlot w old = true) : old ≠ w := by
  rintro rfl
  simp [newerSlot_irrefl] at h

section
variable {s : State} {a kind : Nat} {w : DWord}

theorem State.takeMsg_newer (hk : slotKind w = kind) (ha : a ≠ 0) (hme : a ≠ s.train.addr) (hf : s.train.full = false)
    (hn : newerSlot w (s.train.slot a) = true) : s.takeMsg a kind w = some { s with train := s.train.heard a w } := by
  unfold State.takeMsg
  dsimp only
  rw [if_neg (by simp [hk, ha, hme, hf]), if_neg (by simp [ne_of_newerSlot hn]), if_pos hn]
  rfl

theorem State.takeMsg_stale (hne : s.train.slot a ≠ w) (hn : newerSlot w (s.train.slot a) = false) : s.takeMsg a kind w = none := by
  unfold State.takeMsg
  dsimp only
  split
  · rfl
  · rw [if_neg (by simp [hne]), if_neg (by simp [hn])]

end

/-! ### The chronograph's messages (R271, R272) -/

/-- What an arming makes of the chronograph, also where it overwrites a record (R266, R267). -/
theorem State.armChrono_sets (s : State) (id : Nat) (rep master : Bool) : let t := s.armChrono id rep master
    t = { s with chr := t.chr, log := t.log } ∧ t.chr.state = .armed ∧ t.chr.armId = id ∧ t.chr.repeatOpt = rep ∧ t.chr.master = master ∧
      t.chr.armTick = s.tick.now := by
  have hslot : s.takeSlot.1 = { s with chr := s.takeSlot.1.chr, log := s.takeSlot.1.log } := by
    unfold State.takeSlot State.post
    split
    · rfl
    · dsimp only
      rw [State.postAt_eq]
  unfold State.armChrono State.post
  dsimp only
  rw [State.postAt_eq, hslot]
  exact ⟨rfl, rfl, rfl, rfl, rfl, rfl⟩

theorem State.chronoStop_armId (s : State) : s.chronoStop.chr.armId = 0 := by
  unfold State.chronoStop
  dsimp only

theorem State.chronoEdge_disarms {s : State} (h : s.chr.disarm = true) : s.chronoEdge.chr.state = .idle ∧ s.chronoEdge.chr.armId = 0 := by
  have hedge : s.chronoEdge = s.chronoStop := if_pos h
  rw [hedge]
  exact ⟨s.chronoStop_idle, s.chronoStop_armId⟩

section
variable {s : State} {a : Nat} {w w1 : DWord}

/-- The message taken, a newer one of another module's slot (R321). -/
def State.heardFrom (s : State) (a : Nat) (w : DWord) : State := { s with train := s.train.heard a w }

/-- What an ARM that has been taken does (R271). -/
def State.armHeard (t : State) (w : DWord) : State :=
  if !t.cfgB Obj.CHR_TRAIN_JOIN then t
  else if t.chr.state ≠ .idle || t.pwr.state ≠ .s0 || t.pastAp4 then t.post 0x2806 noInst (beBytes 4 (payWord w))
  else if !t.canArm then t else t.armChrono (payWord w) (w.getLsbD 23) false

theorem State.trainArm_eq (hr : s.trainRuns = true) (hm : s.takeMsg a 4 w = some (s.heardFrom a w)) : s.trainArm a w = (s.heardFrom a w).armHeard w := by
  unfold State.trainArm
  rw [if_pos hr, hm]
  rfl

theorem State.armHeard_arms (hs : s.Awake) (he : s.pwr.entry = none) (hj : s.cfgB Obj.CHR_TRAIN_JOIN = true) (hi : s.chr.state = .idle)
    (hc : s.canArm = true) : s.armHeard w = s.armChrono (payWord w) (w.getLsbD 23) false := by
  obtain ⟨-, hpwr, -⟩ := hs
  unfold State.armHeard
  rw [if_neg (by simp [hj]), if_neg (by simp [hi, hpwr, State.pastAp4, he]), if_neg (by simp [hc])]

theorem State.armHeard_ignores (hj : s.cfgB Obj.CHR_TRAIN_JOIN = true) (hb : s.chr.state ≠ .idle) :
    s.armHeard w = s.post 0x2806 noInst (beBytes 4 (payWord w)) := by
  unfold State.armHeard
  rw [if_neg (by simp [hj]), if_pos (by simp [hb])]

theorem State.armHeard_apart (hj : s.cfgB Obj.CHR_TRAIN_JOIN = false) : s.armHeard w = s := if_pos (by simp [hj])

theorem State.trainDisarm_eq (hr : s.trainRuns = true) (hm : s.takeMsg a 5 w = some (s.heardFrom a w)) : s.trainDisarm a w =
    let t := s.heardFrom a w
    if t.chr.state ≠ .idle && t.chr.armId = payWord w && t.chr.armId ≠ 0 then t.askDisarm else t := by
  unfold State.trainDisarm
  rw [if_pos hr, hm]

/-- A FIRE both of whose fragments have been taken, by what the chronograph does with it (R271, R272). -/
def State.fired (s : State) (src : Nat) (w1 w : DWord) : State :=
  let k := (floorDiv (nearestSec (s.timeOf s.tick.now / 1000000000) (DWord.bits w1 23 8) * 1000000000 + payWord w - s.time.epoch) 250).toNat
  let mine := s.chr.armId = payWord w1 && s.chr.armId ≠ 0 && (s.chrView.cfgN Obj.CHR_TRIG_EN).testBit 7
  if mine && s.chr.state = .armed then { s with chr := { s.chr with firePending := some (k, src) } }
  else if mine && s.sameTick k then { s with chr := { s.chr with cur := s.chr.cur.map fun r => { r with cause := r.cause ||| 0x80 } } }
  else { s with chr := { s.chr with fireIgnored := s.chr.fireIgnored + 1, fireRos := true } }

theorem State.trainFire_eq (hk1 : slotKind w1 = 6) (hseq : slotSeq w = (slotSeq w1 + 1) % 16) (hr : s.trainRuns = true) : s.trainFire a w1 w =
    match s.takeFire a w1 w with | none => s | some t => t.fired a w1 w := by
  unfold State.trainFire
  rw [if_neg (by simp [hk1, hseq]), if_pos hr]
  rfl

/-- A FIRE names the arming in effect (R271). -/
def State.firesMine (s : State) (w1 : DWord) : Bool :=
  s.chr.armId = payWord w1 && s.chr.armId ≠ 0 && (s.chrView.cfgN Obj.CHR_TRIG_EN).testBit 7

/-- The tick that a FIRE names (R271). -/
def State.fireTick (s : State) (w1 w : DWord) : Nat :=
  (floorDiv (nearestSec (s.timeOf s.tick.now / 1000000000) (DWord.bits w1 23 8) * 1000000000 + payWord w - s.time.epoch) 250).toNat

theorem State.fired_armed (hm : s.firesMine w1 = true) (hst : s.chr.state = .armed) :
    s.fired a w1 w = { s with chr := { s.chr with firePending := some (s.fireTick w1 w, a) } } := if_pos (by rw [Bool.and_eq_true]; exact ⟨hm, decide_eq_true hst⟩)

theorem State.fired_joins (hm : s.firesMine w1 = true) (hst : s.chr.state ≠ .armed) (hs : s.sameTick (s.fireTick w1 w) = true) :
    s.fired a w1 w = { s with chr := { s.chr with cur := s.chr.cur.map fun r => { r with cause := r.cause ||| 0x80 } } } :=
  (if_neg (by rw [Bool.and_eq_true]; exact fun h => hst (of_decide_eq_true h.2))).trans (if_pos (by rw [Bool.and_eq_true]; exact ⟨hm, hs⟩))

theorem State.fired_ignored (h : s.firesMine w1 = false ∨ (s.chr.state ≠ .armed ∧ s.sameTick (s.fireTick w1 w) = false)) :
    s.fired a w1 w = { s with chr := { s.chr with fireIgnored := s.chr.fireIgnored + 1, fireRos := true } } := by
  have hmine : ∀ b, (s.firesMine w1 = true → b = true → False) → ¬(s.firesMine w1 && b) = true := fun b hb => by
    rw [Bool.and_eq_true]
    exact fun h => hb h.1 h.2
  refine (if_neg (hmine _ fun hm ha => ?_)).trans (if_neg (hmine _ fun hm ht => ?_))
  · obtain h | ⟨h, -⟩ := h
    · exact absurd hm (by simp [h])
    · exact h (of_decide_eq_true ha)
  · obtain h | ⟨-, h⟩ := h
    · exact absurd hm (by simp [h])
    · exact absurd (h.symm.trans ht) (by decide)

theorem State.takeFire_second (h1 : s.train.slot a = w1) (h2 : s.train.slot a ≠ w) : s.takeFire a w1 w = s.takeMsg a 7 w := by
  unfold State.takeFire
  dsimp only
  rw [if_neg (by simp [h2]), if_pos h1]

theorem State.takeFire_stale (h1 : s.train.slot a ≠ w1) (h2 : s.train.slot a ≠ w) (hold : newerSlot w1 (s.train.slot a) = false) :
    s.takeFire a w1 w = none := by
  unfold State.takeFire
  dsimp only
  rw [if_neg (by simp [h2]), if_neg h1, State.takeMsg_stale h1 hold]
  rfl

theorem State.chrView_objs_congr {t : State} (hc : t.chr = s.chr) (ho : t.objs = s.objs) : t.chrView.objs = s.chrView.objs := by
  unfold State.chrView
  rw [hc]
  split
  exacts [ho, rfl]

theorem State.canArm_congr {t : State} (hc : t.chr = s.chr) (ho : t.objs = s.objs) : t.canArm = s.canArm := by
  have hobjs := State.chrView_objs_congr hc ho
  unfold State.canArm State.noSlot State.cfgB
  rw [State.cfgN_congr hobjs, State.cfg_congr hobjs, hc]

end

/-- Settles O38: the message of a slot is taken (`State.takeMsg_newer`), and the chronograph acts on it by its state. -/
theorem trainArmsAndFires : Obligations.TrainArmsAndFires := by
  unfold Obligations.TrainArmsAndFires
  intro s src w hs hentry hfull hsrc hme hnew heard
  have hr := State.trainRuns_of_awake hs.clearOut (s := s.clearOut) hentry
  have hmsg : ∀ kind, slotKind w = kind → s.clearOut.takeMsg src.val kind w = some (s.clearOut.heardFrom src.val w) := fun kind hk =>
    State.takeMsg_newer hk hsrc hme hfull hnew
  let u := s.clearOut.heardFrom src.val w
  refine ⟨fun hk => ⟨fun hjoin hidle hcan => ?_, fun h => ?_, fun hjoin hbusy => ?_⟩, fun hk => ⟨fun hst harm hid => ?_, fun h => ?_⟩,
    fun w1 hk1 hk hseq hne hold => ?_, fun w1 hk1 hk hseq hslot => ?_⟩
  · have hcan' : u.canArm = true := (State.canArm_congr (s := s) (t := u) rfl rfl).trans hcan
    have hE := (State.trainArm_eq hr (hmsg 4 hk)).trans (State.armHeard_arms (s := u) hs.clearOut hentry hjoin hidle hcan')
    obtain ⟨hkeeps, hst, hid, hrep, hmas, htick⟩ := u.armChrono_sets (payWord w) (w.getLsbD 23) false
    have hawake : (u.armChrono (payWord w) (w.getLsbD 23) false).Awake := by
      rw [hkeeps]
      exact hs.clearOut
    refine (does_safe hs rfl hE hawake).next fun t he => ?_
    have hc := he.chr_eq
    refine ⟨by rw [hc, hst], by rw [hc, hid], by rw [hc, hrep], by rw [hc, hmas], by rw [hc, htick]; rfl, ?_, ?_, ?_⟩
    · rw [he.bal_eq, hkeeps]; rfl
    · rw [he.conv_eq, hkeeps]; rfl
    · rw [he.objs_eq, hkeeps]; rfl
  · have hE := State.trainArm_eq hr (hmsg 4 hk)
    cases hjoin : s.cfgB Obj.CHR_TRAIN_JOIN with
    | false =>
      exact (does_safe (E := (·.trainArm src.val w)) hs rfl (hE.trans (State.armHeard_apart (s := u) hjoin)) hs.clearOut).next fun t he => ⟨he.chr_eq, he.bal_eq, he.conv_eq, he.objs_eq⟩
    | true =>
      have hbusy : s.chr.state ≠ .idle := h.resolve_left (by simp [hjoin])
      refine (does_safe (E := (·.trainArm src.val w)) hs rfl (hE.trans (State.armHeard_ignores (s := u) hjoin hbusy)) (State.Awake.post (s := u) hs.clearOut)).next fun t he => ?_
      exact ⟨he.chr_eq.trans (State.post_chr _ _ _ _), he.bal_eq.trans (State.post_bal _ _ _ _), he.conv_eq.trans (State.post_conv _ _ _ _),
        he.objs_eq.trans (State.post_objs _ _ _ _)⟩
  · exact does_safe hs rfl ((State.trainArm_eq hr (hmsg 4 hk)).trans (State.armHeard_ignores (s := u) hjoin hbusy)) (State.Awake.post hs.clearOut)
  · have hask : u.askDisarm = { u with chr := { u.chr with disarm := true } } := if_neg hst
    have hE := ((State.trainDisarm_eq hr (hmsg 5 hk)).trans (if_pos (by
      show (decide (s.chr.state ≠ .idle) && decide (s.chr.armId = payWord w) && decide (s.chr.armId ≠ 0)) = true
      simp [hst, harm, hid]))).trans hask
    refine (does_safe (E := (·.trainDisarm src.val w)) hs rfl hE hs.clearOut).next fun t he => ?_
    obtain ⟨hidle, hnone⟩ := State.chronoEdge_disarms (s := t) (by rw [he.chr_eq])
    exact ⟨he.chr_eq, he.bal_eq, he.conv_eq, he.objs_eq, hidle, hnone⟩
  · have hE := (State.trainDisarm_eq hr (hmsg 5 hk)).trans (if_neg (by
      show ¬(decide (s.chr.state ≠ .idle) && decide (s.chr.armId = payWord w) && decide (s.chr.armId ≠ 0)) = true
      obtain h | h := h <;> simp [h]))
    exact (does_safe (E := (·.trainDisarm src.val w)) hs rfl hE hs.clearOut).next fun t he => ⟨he.chr_eq, he.bal_eq, he.conv_eq, he.objs_eq⟩
  · exact idles_safe hs rfl ((State.trainFire_eq hk1 hseq hr).trans (by
      rw [State.takeFire_stale (s := s.clearOut) hne (ne_of_newerSlot hnew) hold]))
  · intro fired k mine
    have hE : s.clearOut.trainFire src.val w1 w = u.fired src.val w1 w := (State.trainFire_eq hk1 hseq hr).trans (by
      rw [State.takeFire_second (s := s.clearOut) hslot (ne_of_newerSlot hnew), hmsg 7 hk])
    have htrig : u.chrView.cfgN Obj.CHR_TRIG_EN = s.chrView.cfgN Obj.CHR_TRIG_EN := State.cfgN_congr (State.chrView_objs_congr (s := s) (t := u) rfl rfl) _
    have hmine : u.firesMine w1 = true ↔ mine := by
      unfold State.firesMine
      rw [htrig, Bool.and_eq_true, Bool.and_eq_true, decide_eq_true_eq, decide_eq_true_eq, and_assoc]
      exact ⟨fun ⟨hid, hne, ht⟩ => ⟨hid, hid ▸ hne, ht⟩, fun ⟨hid, hne, ht⟩ => ⟨hid, (show s.chr.armId ≠ 0 from hid ▸ hne), ht⟩⟩
    refine ⟨fun hm hst => ?_, fun r hm hst hcur hk hf => ?_, fun h => ?_⟩
    · exact (does_safe (E := (·.trainFire src.val w1 w)) hs rfl (hE.trans (State.fired_armed (s := u) (hmine.mpr hm) hst)) hs.clearOut).next fun t he =>
        ⟨he.chr_eq, he.bal_eq, he.conv_eq, he.objs_eq⟩
    · have hsame : u.sameTick (u.fireTick w1 w) = true := by
        show (decide (s.chr.state = .recording) && s.chr.cur.any fun r => r.trigTick == k && !r.flags.testBit 4) = true
        rw [hst, hcur]
        simp [hk, hf]
      refine (does_safe (E := (·.trainFire src.val w1 w)) hs rfl (hE.trans (State.fired_joins (s := u) (hmine.mpr hm) (show s.chr.state ≠ _ by rw [hst]; decide) hsame)) hs.clearOut).next
        fun t he => ⟨he.chr_eq.trans ?_, he.bal_eq, he.conv_eq, he.objs_eq⟩
      show ({ s.chr with cur := s.chr.cur.map fun r => { r with cause := r.cause ||| 0x80 } } : Chrono) = _
      rw [hcur]
      rfl
    · refine (does_safe (E := (·.trainFire src.val w1 w)) hs rfl (hE.trans (State.fired_ignored (s := u) ?_)) hs.clearOut).next fun t he => ⟨he.chr_eq, he.bal_eq, he.conv_eq, he.objs_eq⟩
      obtain h | ⟨hst, h⟩ := h
      · exact .inl (Bool.eq_false_iff.mpr fun hm => h (hmine.mp hm))
      · refine .inr ⟨hst, ?_⟩
        show (decide (s.chr.state = .recording) && s.chr.cur.any fun r => r.trigTick == k && !r.flags.testBit 4) = false
        obtain h | h := h
        · simp [h]
        · rw [Bool.and_eq_false_iff, Option.any_eq_false]
          refine .inr fun r hr => ?_
          obtain h | h := h r hr
          · simp [h]
          · simp [h]

end Sys2Proof.Machine
end

section
/-!
PROOF. Train frames: the slots they bring, and how they are passed on (R320, R322, R324).
-/
namespace Sys2Proof.Machine

/-! ### The slots of a frame (R322) -/

/-- What the slots of a frame leave of the train: the address, the ports, the origin, what is sent, and what has been heard of the root. -/
def Train.links (t : Train) : Nat × Bool × Bool × Bool × List (List LaneBlock) × Bool × Nat :=
  (t.addr, t.eastUp, t.westUp, t.originating, t.tx, t.rxThisTick, t.rootSerial)

theorem Train.links_eq {t u : Train} (h : t.links = u.links) : t.addr = u.addr ∧ t.eastUp = u.eastUp ∧ t.westUp = u.westUp ∧
    t.originating = u.originating ∧ t.tx = u.tx ∧ t.rxThisTick = u.rxThisTick ∧ t.rootSerial = u.rootSerial := by
  simpa [Train.links] using h

/-- An address's slot and its age. -/
def Train.place (t : Train) (a : Nat) : DWord × Nat := (t.slot a, t.ages.getD a 8)

/-- What a slot of address `a` may change. -/
def Train.Takes (t : Train) (a : Nat) (u : Train) : Prop :=
  u.links = t.links ∧ u.slots.length = t.slots.length ∧ u.ages.length = t.ages.length ∧ ∀ b, b ≠ a → u.place b = t.place b

theorem getD_set_other {α : Type} (l : List α) {a b : Nat} (x d : α) (h : b ≠ a) : (l.set a x).getD b d = l.getD b d := by
  simp [h.symm]

theorem getD_set_same {α : Type} {l : List α} {a : Nat} (x d : α) (h : a < l.length) : (l.set a x).getD a d = x := by
  simp [h]

theorem Train.take_takes (t : Train) (a : Nat) (w : DWord) : t.Takes a (t.take a w) := by
  have hplace : ∀ (u : Train) (b : Nat), b ≠ a → u.slots = t.slots.set a w → u.ages = t.ages.set a 0 ∨ u.ages = t.ages → u.place b = t.place b := by
    intro u b hb hs ha
    unfold Train.place Train.slot
    rw [hs, getD_set_other _ _ _ hb]
    obtain ha | ha := ha <;> rw [ha]
    rw [getD_set_other _ _ _ hb]
  unfold Train.take
  split
  · next h => exact ⟨rfl, by simp, rfl, fun b hb => hplace _ b hb (by rw [h]) (.inr rfl)⟩
  · split
    · exact ⟨rfl, rfl, rfl, fun _ _ => rfl⟩
    · dsimp only
      split <;> exact ⟨rfl, by simp [Train.learn], by simp [Train.learn], fun b hb => hplace _ b hb rfl (.inl rfl)⟩

/-- A newer slot of another module gives its address its value (R322). -/
theorem Train.take_newer {t : Train} {a : Nat} {w : DWord} (h0 : a ≠ 0) (hme : a ≠ t.addr) (hn : newerSlot w (t.slot a) = true)
    (hs : a < t.slots.length) (ha : a < t.ages.length) : (t.take a w).place a = (w, 0) := by
  have hplace : ∀ u : Train, u.slots = t.slots.set a w → u.ages = t.ages.set a 0 → u.place a = (w, 0) := fun u hu hv => by
    unfold Train.place Train.slot
    rw [hu, hv, getD_set_same _ _ hs, getD_set_same _ _ ha]
  unfold Train.take
  rw [if_neg h0, if_neg (by simp [hme, hn])]
  dsimp only
  split <;> exact hplace _ rfl rfl

theorem Train.take_old {t : Train} {a : Nat} {w : DWord} (h0 : a ≠ 0) (h : a = t.addr ∨ newerSlot w (t.slot a) = false) : t.take a w = t := by
  unfold Train.take
  rw [if_neg h0]
  refine if_pos ?_
  obtain h | h := h <;> simp [h]

/-- The slots of a list of addresses. -/
def Train.takeAll (t : Train) (ps : List (DWord × Nat)) : Train := ps.foldl (fun t p => t.take p.2 p.1) t

theorem Train.takeAll_takes (t : Train) (ps : List (DWord × Nat)) : (t.takeAll ps).links = t.links ∧ (t.takeAll ps).slots.length = t.slots.length ∧
    (t.takeAll ps).ages.length = t.ages.length ∧ ∀ b, (∀ p ∈ ps, p.2 ≠ b) → (t.takeAll ps).place b = t.place b := by
  induction ps generalizing t with
  | nil => exact ⟨rfl, rfl, rfl, fun _ _ => rfl⟩
  | cons p ps ih =>
    obtain ⟨hl, hs, ha, hb⟩ := t.take_takes p.2 p.1
    obtain ⟨hl', hs', ha', hb'⟩ := ih (t.take p.2 p.1)
    exact ⟨hl'.trans hl, hs'.trans hs, ha'.trans ha, fun b h => (hb' b fun q hq => h q (List.mem_cons_of_mem _ hq)).trans
      (hb b (h p List.mem_cons_self).symm)⟩

/-- Of a frame's slots an address has its own alone. -/
theorem Train.takeAll_place {t : Train} {ws : List DWord} {a : Nat} {w : DWord} (h : ws[a]? = some w) :
    ∃ u : Train, u.links = t.links ∧ u.slots.length = t.slots.length ∧ u.ages.length = t.ages.length ∧ u.place a = t.place a ∧
      (t.takeAll ws.zipIdx).place a = (u.take a w).place a := by
  obtain ⟨before, after, hsplit⟩ := List.append_of_mem (List.mk_mem_zipIdx_iff_getElem?.mpr h)
  have hnodup := ws.nodup_zipIdx_map_snd
  rw [hsplit] at hnodup
  simp only [List.map_append, List.map_cons, List.nodup_append, List.nodup_cons] at hnodup
  obtain ⟨-, ⟨hafter, -⟩, hbefore⟩ := hnodup
  obtain ⟨hl, hs, ha, hb⟩ := t.takeAll_takes before
  refine ⟨t.takeAll before, hl, hs, ha, hb a fun p hp hpa => hbefore p.2 (List.mem_map_of_mem hp) a List.mem_cons_self hpa, ?_⟩
  have hall : t.takeAll ws.zipIdx = ((t.takeAll before).take a w).takeAll after := by
    unfold Train.takeAll
    rw [hsplit, List.foldl_append, List.foldl_cons]
  rw [hall]
  exact (Train.takeAll_takes _ _).2.2.2 a fun p hp hpa => hafter (hpa ▸ List.mem_map_of_mem hp)

theorem Train.takeAll_newer {t : Train} {ws : List DWord} {a : Nat} {w : DWord} (h : ws[a]? = some w) (h0 : a ≠ 0) (hme : a ≠ t.addr)
    (hn : newerSlot w (t.slot a) = true) (hs : a < t.slots.length) (ha : a < t.ages.length) : (t.takeAll ws.zipIdx).place a = (w, 0) := by
  obtain ⟨u, hl, hus, hua, hp, htake⟩ := Train.takeAll_place (t := t) h
  have hslot : u.slot a = t.slot a := congrArg Prod.fst hp
  obtain ⟨haddr, -⟩ := Train.links_eq hl
  rw [htake]
  exact Train.take_newer h0 (by rw [haddr]; exact hme) (by rw [hslot]; exact hn) (by omega) (by omega)

theorem Train.takeAll_old {t : Train} {ws : List DWord} {a : Nat} {w : DWord} (h : ws[a]? = some w) (h0 : a ≠ 0)
    (hold : a = t.addr ∨ newerSlot w (t.slot a) = false) : (t.takeAll ws.zipIdx).place a = t.place a := by
  obtain ⟨u, hl, -, -, hp, htake⟩ := Train.takeAll_place (t := t) h
  have hslot : u.slot a = t.slot a := congrArg Prod.fst hp
  obtain ⟨haddr, -⟩ := Train.links_eq hl
  rw [htake, Train.take_old h0 (by rw [haddr, hslot]; exact hold), hp]

/-! ### What a frame leaves alone -/

/-- The state but for the train, the log and the free values. -/
def State.offTrain (s : State) : State := { s with train := {}, log := {}, free := 0 }

theorem State.post_offTrain (s : State) (c i : Nat) (d : List Byte) : (s.post c i d).offTrain = s.offTrain := by
  unfold State.post
  rw [State.postAt_eq]
  rfl

theorem State.Awake.of_offTrain {s t : State} (hs : s.Awake) (h : t.offTrain = s.offTrain) : t.Awake := by
  unfold State.offTrain at h
  simp only [State.mk.injEq] at h
  unfold State.Awake
  simp only [h]
  exact hs

theorem State.offTrain_keeps {s t : State} (h : t.offTrain = s.offTrain) : t.bal = s.bal ∧ t.conv = s.conv ∧ t.objs = s.objs := by
  unfold State.offTrain at h
  simp only [State.mk.injEq] at h
  simp [h]

theorem State.ringWrapped_keeps (s : State) (west : Bool) : (s.ringWrapped west).offTrain = s.offTrain ∧
    (s.ringWrapped west).train.links = s.train.links ∧ (s.ringWrapped west).train.slots = s.train.slots ∧ (s.ringWrapped west).train.ages = s.train.ages ∧
    (s.ringWrapped west).train.crcErr = s.train.crcErr := by
  unfold State.ringWrapped
  dsimp only
  split
  · exact ⟨rfl, rfl, rfl, rfl, rfl⟩
  · rw [State.post_offTrain, State.post_train]
    exact ⟨rfl, rfl, rfl, rfl, rfl⟩

theorem State.ringHeal_keeps (s : State) : s.ringHeal.offTrain = s.offTrain ∧ s.ringHeal.train.links = s.train.links ∧
    (∀ a, s.ringHeal.train.place a = s.train.place a) ∧ s.ringHeal.free = s.free := by
  unfold State.ringHeal
  dsimp only
  split
  · rw [State.post_offTrain, State.post_train, State.post_free]
    exact ⟨rfl, rfl, fun _ => rfl, rfl⟩
  · exact ⟨rfl, rfl, fun _ => rfl, rfl⟩

/-- A port that is up goes down (R323). -/
theorem State.portDown_keeps {s : State} {west : Bool} (h : s.train.portUp west = true) : (s.portDown west).offTrain = s.offTrain ∧
    (s.portDown west).train.portUp west = false ∧ (s.portDown west).train.slots = s.train.slots ∧ (s.portDown west).train.ages = s.train.ages ∧
    (s.portDown west).train.tx = s.train.tx ∧ (s.portDown west).train.crcErr = s.train.crcErr := by
  have hdown : s.portDown west = State.ringWrapped { s with train := s.train.setPort west false } west := if_pos h
  obtain ⟨hoff, hlinks, hslots, hages, hcrc⟩ := State.ringWrapped_keeps { s with train := s.train.setPort west false } west
  obtain ⟨-, heast, hwest, -, htx, -⟩ := Train.links_eq hlinks
  rw [hdown, hslots, hages, htx, hcrc]
  unfold Train.portUp
  rw [heast, hwest]
  cases west <;> exact ⟨hoff, rfl, rfl, rfl, rfl, rfl⟩

/-! ### A frame that is passed on (R322) -/

/-- The frame as a module sends it on at a time (R322). -/
def State.passedOn (s : State) (arrival : Int) (f : TrainFrame) (west : Bool) : TrainFrame :=
  let time := arrival + clampInt 0 48 (Config.openValue s.free)
  { f with
    west := west != !s.train.portUp west, wrapped := f.wrapped || !s.train.portUp west, txSec := (secNs time).1, txNs := (secNs time).2
    slots := s.train.written f.slots }

theorem State.forward_eq (s : State) (arrival : Int) (f : TrainFrame) (west : Bool) : s.forward arrival f west =
    { s.fresh with train := { s.train with tx := s.train.tx ++ [(s.passedOn arrival f west).wire] } } := rfl

theorem State.frameOn_forwards {s : State} (h : s.train.originating = false) (west : Bool) (arrival : Int) (f : TrainFrame) :
    s.frameOn west arrival f = s.forward arrival f !west := by
  unfold State.frameOn
  exact if_pos (by simp [h])

/-- What a good frame tells of its port and of the root. -/
def Train.told (t : Train) (west : Bool) (delta : Int) (f : TrainFrame) : Train :=
  let t := if west then { t with badRunW := 0, deltaW := delta, unwrappedW := !f.wrapped } else
    { t with badRunE := 0, deltaE := delta, unwrappedE := !f.wrapped }
  { t with rxThisTick := true, rootSerial := f.rootSerial.toNat, rootActing := f.acting }

/-- A module that hears a frame joins its ring. -/
def Train.joinsBy (t : Train) (f : TrainFrame) : Train :=
  if t.state = .none && !(t.strapped && !t.outranked f) then { t with state := .joining } else t

/-- The train before the slots of a good frame are taken. -/
def Train.greeted (t : Train) (west : Bool) (delta : Int) (f : TrainFrame) : Train := (t.told west delta f).joinsBy f

theorem Train.joinsBy_keeps (t : Train) (f : TrainFrame) : (t.joinsBy f).links = t.links ∧ (t.joinsBy f).slots = t.slots ∧ (t.joinsBy f).ages = t.ages := by
  unfold Train.joinsBy
  split <;> exact ⟨rfl, rfl, rfl⟩

theorem Train.greeted_keeps (t : Train) (west : Bool) (delta : Int) (f : TrainFrame) : let u := t.greeted west delta f
    u.links = (t.addr, t.eastUp, t.westUp, t.originating, t.tx, true, f.rootSerial.toNat) ∧ u.slots = t.slots ∧ u.ages = t.ages := by
  obtain ⟨hlinks, hslots, hages⟩ := (t.told west delta f).joinsBy_keeps f
  refine ⟨hlinks.trans ?_, hslots.trans ?_, hages.trans ?_⟩ <;> cases west <;> rfl

/-- The slots of a good frame that is not wrapped, taken by a module that does not originate. -/
def Train.frameHeard (t : Train) (west : Bool) (arrival : Int) (f : TrainFrame) : Train :=
  (t.greeted west (arrival - ((f.txSec : Int) * 1000000000 + f.txNs)) f).takeAll f.slots.zipIdx

theorem Train.frameHeard_links (t : Train) (west : Bool) (arrival : Int) (f : TrainFrame) :
    (t.frameHeard west arrival f).links = (t.addr, t.eastUp, t.westUp, t.originating, t.tx, true, f.rootSerial.toNat) :=
  (Train.takeAll_takes _ _).1.trans (Train.greeted_keeps t west _ f).1

section
variable {t : Train} {west : Bool} {arrival : Int} {f : TrainFrame} {a : Nat} {w : DWord}

theorem Train.greeted_place (d : Int) : (t.greeted west d f).place a = t.place a ∧ (t.greeted west d f).slot a = t.slot a ∧
    (t.greeted west d f).addr = t.addr := by
  obtain ⟨hlinks, hslots, hages⟩ := t.greeted_keeps west d f
  have hslot : (t.greeted west d f).slot a = t.slot a := by
    unfold Train.slot
    rw [hslots]
  refine ⟨?_, hslot, congrArg Prod.fst hlinks⟩
  unfold Train.place
  rw [hslot, hages]

theorem Train.frameHeard_newer (h : f.slots[a]? = some w) (h0 : a ≠ 0) (hme : a ≠ t.addr) (hn : newerSlot w (t.slot a) = true)
    (hs : a < t.slots.length) (ha : a < t.ages.length) : (t.frameHeard west arrival f).place a = (w, 0) := by
  obtain ⟨-, hslots, hages⟩ := t.greeted_keeps west (arrival - ((f.txSec : Int) * 1000000000 + f.txNs)) f
  obtain ⟨-, hslot, haddr⟩ := Train.greeted_place (t := t) (west := west) (f := f) (a := a) (arrival - ((f.txSec : Int) * 1000000000 + f.txNs))
  exact Train.takeAll_newer h h0 (by rw [haddr]; exact hme) (by rw [hslot]; exact hn) (by rw [hslots]; exact hs) (by rw [hages]; exact ha)

theorem Train.frameHeard_old (h : f.slots[a]? = some w) (h0 : a ≠ 0) (hold : a = t.addr ∨ newerSlot w (t.slot a) = false) :
    (t.frameHeard west arrival f).place a = t.place a := by
  obtain ⟨hplace, hslot, haddr⟩ := Train.greeted_place (t := t) (west := west) (f := f) (a := a) (arrival - ((f.txSec : Int) * 1000000000 + f.txNs))
  exact (Train.takeAll_old h h0 (by rw [haddr, hslot]; exact hold)).trans hplace

end

theorem State.frameTaken_eq (s : State) (west : Bool) (arrival : Int) (f : TrainFrame) : s.frameTaken west arrival f =
    let u : State := { s with train := s.train.frameHeard west arrival f }
    if f.wrapped then u.ringWrapped west else if u.train.originating then u else u.ringHeal := by
  unfold Train.frameHeard Train.greeted Train.told Train.joinsBy Train.takeAll
  rfl

theorem State.frameTaken_forwarding {s : State} {f : TrainFrame} (hw : f.wrapped = false) (ho : s.train.originating = false) (west : Bool) (arrival : Int) :
    s.frameTaken west arrival f = State.ringHeal { s with train := s.train.frameHeard west arrival f } := by
  obtain ⟨-, -, -, horig, -⟩ := Train.links_eq (u := { s.train with rxThisTick := true, rootSerial := f.rootSerial.toNat })
    (s.train.frameHeard_links west arrival f)
  have horig' : (s.train.frameHeard west arrival f).originating = false := horig.trans ho
  rw [State.frameTaken_eq, hw]
  simp only [horig', Bool.false_eq_true, if_false]

section
variable {s : State} {west : Bool} {arrival : Int} {bs : List LaneBlock} {f : TrainFrame}

/-- A good frame on its right port, at a module that forwards: its slots are taken, and it is sent on. -/
theorem State.trainFrame_forwards (hf : readTrain bs = f) (hr : s.trainRuns = true) (hp : s.train.portUp west = true) (hg : f.good = true)
    (hdir : f.west ≠ west) (hw : f.wrapped = false) (ho : s.train.originating = false) : s.trainFrame west arrival bs =
      (State.ringHeal { s with train := s.train.frameHeard west arrival f }).forward arrival f !west := by
  obtain ⟨-, hlinks, -, -⟩ := State.ringHeal_keeps { s with train := s.train.frameHeard west arrival f }
  obtain ⟨-, -, -, horig, -⟩ := Train.links_eq (u := { s.train with rxThisTick := true, rootSerial := f.rootSerial.toNat })
    (hlinks.trans (s.train.frameHeard_links west arrival f))
  unfold State.trainFrame
  dsimp only
  rw [hf, if_neg (by simp [hr, hp]), if_neg (by simp [hg]), if_neg hdir, State.frameTaken_forwarding hw ho, State.frameOn_forwards (horig.trans ho)]
  refine if_neg ?_
  rw [State.forward_eq]
  simp [horig.trans ho]

theorem State.trainFrame_bad (hf : readTrain bs = f) (hr : s.trainRuns = true) (hp : s.train.portUp west = true) (hg : f.good = false) :
    s.trainFrame west arrival bs = s.frameBad west arrival f := by
  unfold State.trainFrame
  dsimp only
  rw [hf, if_neg (by simp [hr, hp]), if_pos (by simp [hg])]

theorem State.trainFrame_miswired (hf : readTrain bs = f) (hr : s.trainRuns = true) (hp : s.train.portUp west = true) (hg : f.good = true)
    (hdir : f.west = west) : s.trainFrame west arrival bs = s.miswired west := by
  unfold State.trainFrame
  dsimp only
  rw [hf, if_neg (by simp [hr, hp]), if_neg (by simp [hg]), if_pos hdir]

theorem State.trainFrame_idle (hp : s.train.portUp west = false) : s.trainFrame west arrival bs = s := by
  unfold State.trainFrame
  exact if_pos (by simp [hp])

/-- A frame sent on by a port that is up keeps its direction and is not wrapped; the own slot stands in its place (R322). -/
theorem State.passedOn_up (hp : s.train.portUp west = true) (ha : s.train.addr ≠ 0) : s.passedOn arrival f west = { f with
    west := west, txSec := (secNs (arrival + clampInt 0 48 (Config.openValue s.free))).1, txNs := (secNs (arrival + clampInt 0 48 (Config.openValue s.free))).2
    slots := f.slots.set s.train.addr (s.train.slot s.train.addr) } := by
  unfold State.passedOn Train.written
  dsimp only
  rw [hp, if_pos ha, Bool.not_true, Bool.bne_false, Bool.or_false]

/-- The train when a frame that failed its check has been sent on and counted (R322, R323). -/
def Train.badSent (t : Train) (west : Bool) (wire : List LaneBlock) : Train :=
  let t := { t with tx := t.tx ++ [wire], crcErr := t.crcErr + 1 }
  if west then { t with badRunW := t.badRunW + 1 } else { t with badRunE := t.badRunE + 1 }

theorem Train.badSent_keeps (t : Train) (west : Bool) (wire : List LaneBlock) : let u := t.badSent west wire
    u.tx = t.tx ++ [wire] ∧ u.crcErr = t.crcErr + 1 ∧ u.slots = t.slots ∧ u.ages = t.ages ∧ u.portUp west = t.portUp west ∧
      u.badRun west = t.badRun west + 1 := by
  cases west <;> exact ⟨rfl, rfl, rfl, rfl, rfl, rfl⟩

theorem State.frameBad_forwards (ho : s.train.originating = false) : s.frameBad west arrival f =
    let u : State := { s.fresh with train := s.train.badSent west (s.passedOn arrival f !west).wire }
    if 8 ≤ u.train.badRun west then u.portDown west else u := by
  unfold State.frameBad
  rw [State.frameOn_forwards ho, State.forward_eq]
  cases west <;> rfl

/-- What a bad frame leaves of the module that forwards it. -/
theorem State.frameBad_keeps (ho : s.train.originating = false) (hp : s.train.portUp west = true) : let u := s.frameBad west arrival f
    u.offTrain = s.offTrain ∧ u.train.tx = s.train.tx ++ [(s.passedOn arrival f !west).wire] ∧
    u.train.portUp west = decide (s.train.badRun west + 1 < 8) ∧ u.train.crcErr = s.train.crcErr + 1 ∧ u.train.slots = s.train.slots ∧
    u.train.ages = s.train.ages := by
  obtain ⟨htx, hcrc, hslots, hages, hup, hrun⟩ := s.train.badSent_keeps west (s.passedOn arrival f !west).wire
  rw [State.frameBad_forwards ho]
  dsimp only
  rw [hrun]
  split
  · next hbad =>
    obtain ⟨hoff, hdown, hslots', hages', htx', hcrc'⟩ :=
      State.portDown_keeps (s := { s.fresh with train := s.train.badSent west (s.passedOn arrival f !west).wire }) (hup.trans hp)
    exact ⟨hoff, htx'.trans htx, by rw [hdown, decide_eq_false (by omega)], hcrc'.trans hcrc, hslots'.trans hslots, hages'.trans hages⟩
  · next hfew => exact ⟨rfl, htx, by rw [hup, hp, decide_eq_true (by omega)], hcrc, hslots, hages⟩

/-- A link noted as miswired (R319). -/
def Train.miswiredAt (t : Train) (west : Bool) : Train := if west then { t with miswireW := true } else { t with miswireE := true }

theorem Train.miswiredAt_keeps (t : Train) (west : Bool) : (t.miswiredAt west).portUp west = t.portUp west ∧ (t.miswiredAt west).slots = t.slots := by
  cases west <;> exact ⟨rfl, rfl⟩

theorem State.miswired_eq (s : State) (west : Bool) : s.miswired west =
    let u := State.portDown { s with train := s.train.miswiredAt west } west
    if (if west then s.train.miswireW else s.train.miswireE) = true then u else u.post 0x2A09 noInst [BitVec.ofNat 8 (b2n west)] := by
  cases west <;> rfl

/-- A miswire takes the port down (R319). -/
theorem State.miswired_keeps (hp : s.train.portUp west = true) : (s.miswired west).offTrain = s.offTrain ∧ (s.miswired west).train.portUp west = false ∧
    (s.miswired west).train.slots = s.train.slots := by
  obtain ⟨hup, hsame⟩ := s.train.miswiredAt_keeps west
  obtain ⟨hoff, hdown, hslots, -⟩ := State.portDown_keeps (s := { s with train := s.train.miswiredAt west }) (hup.trans hp)
  rw [State.miswired_eq]
  dsimp only
  generalize (if west = true then s.train.miswireW else s.train.miswireE) = old
  split
  · exact ⟨hoff, hdown, hslots.trans hsame⟩
  · rw [State.post_offTrain, State.post_train]
    exact ⟨hoff, hdown, hslots.trans hsame⟩

end

/-- Settles O36: a frame is forwarded with its slots taken, fails and is counted, or comes on the wrong port. -/
theorem trainFramesPassOn : Obligations.TrainFramesPassOn := by
  unfold Obligations.TrainFramesPassOn
  intro s west arrival bs f hf hs hentry hslots hages
  have hr := State.trainRuns_of_awake hs.clearOut (s := s.clearOut) hentry
  have hlen : f.slots.length = 32 := by
    rw [← hf]
    simp [readTrain, trainSlots]
  refine ⟨fun hp hg hdir hw ho ha haddr hout => ?_, fun hp hg ho => ?_, fun hp hg hdir => ?_, fun hp => ?_, fun hlen => ?_⟩
  · obtain ⟨hoff, hlinks, hplace, -⟩ := State.ringHeal_keeps { s.clearOut with train := s.train.frameHeard west arrival f }
    have hE : s.clearOut.trainFrame west arrival bs =
        (State.ringHeal { s.clearOut with train := s.train.frameHeard west arrival f }).forward arrival f !west :=
      State.trainFrame_forwards hf hr hp hg hdir hw ho
    obtain ⟨ht_addr, ht_east, ht_west, -, ht_tx, ht_rx, ht_root⟩ := Train.links_eq
      (u := { s.train with rxThisTick := true, rootSerial := f.rootSerial.toNat }) (hlinks.trans (s.train.frameHeard_links west arrival f))
    generalize State.ringHeal _ = u at hoff hplace hE ht_addr ht_east ht_west ht_tx ht_rx ht_root
    have hdir' : f.west = !west := Bool.eq_not.mpr hdir
    have hup : u.train.portUp (!west) = true := by
      unfold Train.portUp
      rw [ht_east, ht_west, ← hdir']
      exact hout
    have hold : ∀ (a : Nat) (w : DWord), 0 < a → f.slots[a]? = some w → (a = s.train.addr ∨ newerSlot w (s.train.slot a) = false) →
        u.train.place a = s.train.place a := fun a w h0 hw h => (hplace a).trans (Train.frameHeard_old hw (Nat.ne_of_gt h0) h)
    have hown : u.train.slot s.train.addr = s.train.slot s.train.addr :=
      congrArg Prod.fst (hold _ _ (Nat.pos_of_ne_zero ha) (List.getElem?_eq_getElem (by omega)) (.inl rfl))
    have hg' := State.passedOn_up (arrival := arrival) (f := f) hup (by rw [ht_addr]; exact ha)
    rw [State.forward_eq] at hE
    obtain ⟨hbal, hconv, hobjs⟩ := State.offTrain_keeps hoff
    have hawake : u.Awake := hs.clearOut.of_offTrain hoff
    obtain ⟨t, hexec, he⟩ := does_safe (c := .trainFrameRx west arrival bs) (E := (·.trainFrame west arrival bs)) hs rfl hE hawake
    have ht := he.train_eq
    have hplace' : ∀ a, t.train.place a = u.train.place a := fun a => by rw [ht]; rfl
    refine ⟨t, u.passedOn arrival f !west, hexec, by rw [ht, ht_tx], ?_, ?_, ?_, ?_, ?_, ?_, ?_, ?_, by rw [ht]; exact ht_rx, by rw [ht]; exact ht_root,
      by rw [ht]; exact ht_addr, fun a w h0 hme hw hn => ?_, fun a w h0 hw h => ?_, he.bal_eq.trans hbal, he.conv_eq.trans hconv, he.objs_eq.trans hobjs⟩
    · rw [hg']
    · rw [hg', hdir']
    · rw [hg']; exact hw
    · rw [hg']
    · rw [hg']
    · rw [hg']; exact hg
    · rw [hg', ht_addr, hown]
    · rw [hg']
      exact ⟨clampInt 0 48 (Config.openValue u.free), le_max_left _ _, max_le (by decide) (min_le_left _ _), rfl⟩
    · have ha' : a < 32 := hlen ▸ (List.getElem?_eq_some_iff.mp hw).1
      have hp' := (hplace' a).trans ((hplace a).trans (Train.frameHeard_newer hw (Nat.ne_of_gt h0) hme hn (by omega) (by omega)))
      exact ⟨congrArg Prod.fst hp', congrArg Prod.snd hp'⟩
    · have hp' := (hplace' a).trans (hold a w h0 hw h)
      exact ⟨congrArg Prod.fst hp', congrArg Prod.snd hp'⟩
  · obtain ⟨hoff, htx, hup, hcrc, hsl, hag⟩ := State.frameBad_keeps (s := s.clearOut) (west := west) (arrival := arrival) (f := f) ho hp
    obtain ⟨hbal, hconv, hobjs⟩ := State.offTrain_keeps hoff
    obtain ⟨t, hexec, he⟩ := does_safe (c := .trainFrameRx west arrival bs) (E := (·.trainFrame west arrival bs)) hs rfl
      (State.trainFrame_bad (s := s.clearOut) (arrival := arrival) hf hr hp hg) (hs.clearOut.of_offTrain hoff)
    have ht := he.train_eq
    exact ⟨t, s.clearOut.passedOn arrival f !west, hexec, by rw [ht, htx]; rfl, hg, by rw [ht, hup]; rfl, by rw [ht, hcrc]; rfl, by rw [ht, hsl]; rfl,
      by rw [ht, hag]; rfl, he.bal_eq.trans hbal, he.conv_eq.trans hconv, he.objs_eq.trans hobjs⟩
  · obtain ⟨hoff, hdown, hsl⟩ := State.miswired_keeps (s := s.clearOut) hp
    obtain ⟨hbal, hconv, hobjs⟩ := State.offTrain_keeps hoff
    refine (does_safe (c := .trainFrameRx west arrival bs) (E := (·.trainFrame west arrival bs)) hs rfl (State.trainFrame_miswired (s := s.clearOut) (arrival := arrival) hf hr hp hg hdir) (hs.clearOut.of_offTrain hoff)).next fun t he => ?_
    have ht := he.train_eq
    exact ⟨by rw [ht, hdown], by rw [ht, hsl]; rfl, he.bal_eq.trans hbal, he.conv_eq.trans hconv, he.objs_eq.trans hobjs⟩
  · exact idles_safe hs rfl (State.trainFrame_idle (s := s.clearOut) hp)
  · rw [← hf]
    show trainGood bs = false
    unfold trainGood
    simp [trainBlocks, hlen]

end Sys2Proof.Machine
end

section
/-!
PROOF. The module pair (R331 to R339): the partner's heartbeat, its loss, the takeover and the abdication.
-/
namespace Sys2Proof.Machine

/-! ### What changes of the pair beside its own state -/

/-- The state without the pair, its condition events and its entries. -/
def State.offPair (s : State) : State := { s with pair := {}, cond := {}, log := {} }

theorem State.offPair_keeps {s t : State} (h : t.offPair = s.offPair) : t.bal = s.bal ∧ t.conv = s.conv ∧ t.objs = s.objs :=
  ⟨congrArg (·.bal) h, congrArg (·.conv) h, congrArg (·.objs) h⟩

theorem State.Awake.of_offPair {s t : State} (hs : s.Awake) (h : t.offPair = s.offPair) : t.Awake := by
  obtain ⟨hreset, hpwr, hgated, hmissing⟩ := hs
  have hp : t.pwr = s.pwr := congrArg (·.pwr) h
  have hr : t.reg = s.reg := congrArg (·.reg) h
  have hk : t.saf = s.saf := congrArg (·.saf) h
  exact ⟨hp ▸ hreset, hp ▸ hpwr, hr ▸ hgated, hk ▸ hmissing⟩

theorem State.post_offPair (s : State) (c i : Nat) (d : List Byte) : (s.post c i d).offPair = s.offPair := by
  unfold State.post
  rw [State.postAt_eq]
  rfl

/-- An entry does not ask for the pair. -/
theorem State.post_withPair (s : State) (p : Pair) (c i : Nat) (d : List Byte) :
    State.post { s with pair := p } c i d = { s.post c i d with pair := p } := by
  have htime : ∀ n, State.timeOf { s with pair := p } n = s.timeOf n := fun _ => rfl
  have hburst : ∀ n, State.burst { s with pair := p } n = s.burst n := fun _ => rfl
  unfold State.post State.postAt State.postFine
  dsimp only
  simp only [htime, hburst]
  split
  · rfl
  · split <;> rfl

theorem State.setRole_offPair (s : State) (r : PairRole) : (s.setRole r).offPair = s.offPair := by
  unfold State.setRole
  split <;> rfl

theorem State.setRole_pair (s : State) (r : PairRole) : (s.setRole r).pair = { s.pair with role := r } := by
  unfold State.setRole
  split
  next h => rw [← h]
  next => rfl

/-! ### The heartbeat (R331, R332) -/

/-- What a heartbeat says of the link and the partner. -/
def Pair.link (p : Pair) : Bool × Bool × DWord × Bool × Bool × ConvState := (p.seen, p.mismatch, p.partner, p.hbLost, p.linkLost, p.reported)

theorem State.linkBack_pair (s : State) : s.linkBack.pair = { s.pair with hbLost := false, linkLost := false } := by
  unfold State.linkBack
  dsimp only
  split
  · exact State.post_pair _ _ _ _
  · rfl

theorem State.linkBack_offPair (s : State) : s.linkBack.offPair = s.offPair := by
  unfold State.linkBack
  dsimp only
  split
  · exact State.post_offPair _ _ _ _
  · rfl

theorem State.follow_offPair (s : State) : s.follow.offPair = s.offPair := s.setRole_offPair .standby

theorem State.follow_link (s : State) : s.follow.pair.link = s.pair.link := by
  have hpair : s.follow.pair = { (s.setRole .standby).pair with crown := false, abdicating := false } := rfl
  rw [hpair, State.setRole_pair]
  rfl

theorem State.pairFormed_offPair (s : State) (n : Nat) : (s.pairFormed n).offPair = s.offPair := by
  unfold State.pairFormed
  split
  · rfl
  · exact State.post_offPair _ _ _ _

theorem State.pairFormed_link (s : State) (n : Nat) : (s.pairFormed n).pair.link = s.pair.link := by
  unfold State.pairFormed
  split
  · rfl
  · rw [State.post_pair]
    rfl

/-- What a partner that leads makes of this module (R330, R335, R338). -/
def State.leaderHeard (s : State) : State :=
  if s.pair.role = .standby then s.pairFormed 2
  else if s.pair.abdicating then s.follow
  else if s.losesCrown then { s.follow with pair := { s.follow.pair with crownLostRos := true } }.post 0x2A14 s.partner []
  else s

theorem State.leaderHeard_keeps (s : State) : s.leaderHeard.offPair = s.offPair ∧ s.leaderHeard.pair.link = s.pair.link := by
  unfold State.leaderHeard
  split
  · exact ⟨s.pairFormed_offPair 2, s.pairFormed_link 2⟩
  · split
    · exact ⟨s.follow_offPair, s.follow_link⟩
    · split
      · refine ⟨(State.post_offPair _ _ _ _).trans s.follow_offPair, ?_⟩
        rw [State.post_pair]
        exact s.follow_link
      · exact ⟨rfl, rfl⟩

/-- The heartbeat's word taken, before what it says of the partner's role. -/
def State.hbHeard (s : State) (w : DWord) : State :=
  State.linkBack { s with pair := { s.pair with seen := true, partner := w, mismatch := decide (hbPartner w ≠ s.train.addr) } }

theorem State.hbHeard_pair (s : State) (w : DWord) : (s.hbHeard w).pair =
    { s.pair with seen := true, partner := w, mismatch := decide (hbPartner w ≠ s.train.addr), hbLost := false, linkLost := false } :=
  State.linkBack_pair _

theorem State.hbHeard_offPair (s : State) (w : DWord) : (s.hbHeard w).offPair = s.offPair := State.linkBack_offPair _

/-- The heartbeat's converter state taken. -/
def State.hbReported (s : State) (w : DWord) : State := { s.hbHeard w with pair := { (s.hbHeard w).pair with reported := hbState w } }

theorem Train.heard_addr (t : Train) (a : Nat) (w : DWord) : (t.heard a w).addr = t.addr :=
  (Train.links_eq (t.take_takes a w).1).1

section
variable {s : State} {w : DWord}

/-- A newer heartbeat of the partner, by whether it names this module and whether the partner leads. -/
theorem State.heartbeat_newer (hr : s.trainRuns = true) (hk : slotKind w = 1) (hp : s.partner ≠ 0) (hme : s.partner ≠ s.train.addr)
    (hf : s.train.full = false) (hn : newerSlot w (s.train.slot s.partner) = true) : let u := s.heardFrom s.partner w
    s.heartbeat w = if hbPartner w ≠ u.train.addr then u.hbHeard w
      else if hbRole w ≠ 1 then u.hbReported w else (u.hbReported w).leaderHeard := by
  unfold State.heartbeat
  rw [if_pos hr, State.takeMsg_newer hk hp hme hf hn]
  rfl

/-- What a heartbeat makes of the link, the partner's state and, where the partner does not lead, of this module's role. -/
structure State.Hears (s : State) (w : DWord) (t : State) : Prop where
  frame : t.offPair = { s.offPair with train := t.train }
  link : t.pair.link =
    (true, decide (hbPartner w ≠ s.train.addr), w, false, false, if hbPartner w ≠ s.train.addr then s.pair.reported else hbState w)
  role : hbRole w ≠ 1 → t.pair.role = s.pair.role ∧ t.pair.crown = s.pair.crown

theorem State.heartbeat_hears (hr : s.trainRuns = true) (hk : slotKind w = 1) (hp : s.partner ≠ 0) (hme : s.partner ≠ s.train.addr)
    (hf : s.train.full = false) (hn : newerSlot w (s.train.slot s.partner) = true) : s.Hears w (s.heartbeat w) := by
  have haddr : (s.heardFrom s.partner w).train.addr = s.train.addr := Train.heard_addr _ _ _
  have hoff : (s.heardFrom s.partner w).offPair = { s.offPair with train := (s.heardFrom s.partner w).train } := rfl
  have hpair : (s.heardFrom s.partner w).pair = s.pair := rfl
  rw [State.heartbeat_newer hr hk hp hme hf hn]
  generalize s.heardFrom s.partner w = u at haddr hoff hpair
  have hframe : ∀ t : State, t.offPair = u.offPair → t.offPair = { s.offPair with train := t.train } := fun t ht => by
    have htrain : t.train = u.train := congrArg (·.train) ht
    rw [ht, hoff, htrain]
  have hheard := u.hbHeard_pair w
  have hreported : (u.hbReported w).offPair = u.offPair := u.hbHeard_offPair w
  have hrp : (u.hbReported w).pair = { (u.hbHeard w).pair with reported := hbState w } := rfl
  rw [haddr, hpair] at hheard
  rw [haddr]
  rw [hheard] at hrp
  split
  next hbad =>
    refine ⟨hframe _ (u.hbHeard_offPair w), ?_, fun _ => ?_⟩
    · rw [hheard, if_pos hbad]
      rfl
    · rw [hheard]
      exact ⟨rfl, rfl⟩
  next hgood =>
    have hlink : (u.hbReported w).pair.link = (true, decide (hbPartner w ≠ s.train.addr), w, false, false,
        if hbPartner w ≠ s.train.addr then s.pair.reported else hbState w) := by
      rw [hrp, if_neg hgood]
      rfl
    split
    next =>
      refine ⟨hframe _ hreported, hlink, fun _ => ?_⟩
      rw [hrp]
      exact ⟨rfl, rfl⟩
    next hlead =>
      obtain ⟨hkeeps, hkept⟩ := (u.hbReported w).leaderHeard_keeps
      exact ⟨hframe _ (hkeeps.trans hreported), hkept.trans hlink, fun h => absurd h hlead⟩

/-! ### The lost heartbeat (R331, R333, R336) -/

theorem State.heartbeatLost_alone (hl : s.pair.role = .leader) (hs : s.pair.seen = true) (hb : s.pair.hbLost = false)
    (ha : 8 ≤ s.train.ages.getD s.partner 8) (hn : s.lanesFollowing = 0) : s.heartbeatLost = { s with pair := { s.pair with hbLost := true } } := by
  have hlast : ¬ s.sinceHb < hbTicks := Nat.not_lt.mpr ha
  unfold State.heartbeatLost
  rw [if_neg (by simp [hl, hs, hb, hlast])]
  refine if_neg ?_
  show ¬ (if s.pair.role = .leader then decide (0 < s.lanesFollowing) else _) = true
  simp [hl, hn]

theorem State.heartbeatLost_flags (hl : s.pair.role = .leader) (hs : s.pair.seen = true) (hb : s.pair.hbLost = false)
    (hk : s.pair.linkLost = false) (ha : 8 ≤ s.train.ages.getD s.partner 8) (hn : 0 < s.lanesFollowing) :
    s.heartbeatLost = State.post { s with pair := { s.pair with hbLost := true, linkLost := true } } 0x2A15 s.partner [] := by
  have hlast : ¬ s.sinceHb < hbTicks := Nat.not_lt.mpr ha
  unfold State.heartbeatLost
  rw [if_neg (by simp [hl, hs, hb, hlast])]
  dsimp only
  have hflags : (if s.pair.role = .leader then decide (0 < s.lanesFollowing) else !s.condA) = true := by simp [hl, hn]
  refine (if_pos hflags).trans ?_
  exact if_neg (by simp [hk])

theorem State.heartbeatLost_idle (h : s.pair.role = .solo ∨ s.pair.seen = false ∨ s.pair.hbLost = true ∨ s.train.ages.getD s.partner 8 < 8) :
    s.heartbeatLost = s := by
  unfold State.heartbeatLost
  refine if_pos ?_
  obtain h | h | h | h := h
  · simp [h]
  · simp [h]
  · simp [h]
  · have hlast : s.sinceHb < hbTicks := h
    simp [hlast]

theorem State.pairLinkLost_flags (hb : s.pair.hbLost = true) (ha : 4008 ≤ s.train.ages.getD s.partner 8) (hk : s.pair.linkLost = false) :
    s.pairLinkLost = State.post { s with pair := { s.pair with linkLost := true, ready := false } } 0x2A15 s.partner [] := by
  have hgone : hbGone ≤ s.sinceHb := ha
  have hflag : s.linkFlag = State.post { s with pair := { s.pair with linkLost := true } } 0x2A15 s.partner [] := if_neg (by simp [hk])
  unfold State.pairLinkLost
  rw [if_pos (by simp [hb, hgone]), hflag]
  rw [State.post_withPair s { s.pair with linkLost := true }, State.post_withPair s { s.pair with linkLost := true, ready := false }]

theorem State.pairLinkLost_flagged (hb : s.pair.hbLost = true) (ha : 4008 ≤ s.train.ages.getD s.partner 8) (hk : s.pair.linkLost = true) :
    s.pairLinkLost = { s with pair := { s.pair with ready := false } } := by
  have hgone : hbGone ≤ s.sinceHb := ha
  have hflag : s.linkFlag = s := if_pos hk
  unfold State.pairLinkLost
  rw [if_pos (by simp [hb, hgone]), hflag]

theorem State.pairLinkLost_idle (h : s.pair.hbLost = false ∨ s.train.ages.getD s.partner 8 < 4008) : s.pairLinkLost = s := by
  unfold State.pairLinkLost
  refine if_neg ?_
  obtain h | h := h
  · simp [h]
  · have hgone : ¬ hbGone ≤ s.sinceHb := Nat.not_le.mpr h
    simp [hgone]

end

/-- Settles O39: a newer heartbeat is heard as `State.heartbeat_hears` says; its loss and the end of its condition come by their ages. -/
theorem partnerHeartbeatIsFollowed : Obligations.PartnerHeartbeatIsFollowed := by
  unfold Obligations.PartnerHeartbeatIsFollowed
  intro s hs hentry
  have hr := State.trainRuns_of_awake hs.clearOut (s := s.clearOut) hentry
  refine ⟨fun w hk hf hp hme hn => ?_, fun hl hseen hb ha hn => ?_, fun hl hseen hb hk ha hn => ?_, fun h => ?_, fun hb ha hk => ?_,
    fun hb ha hk => ?_, fun h => ?_⟩
  · have hhears := State.heartbeat_hears (s := s.clearOut) (w := w) hr hk hp hme hf hn
    obtain ⟨hframe, hlink, hrole⟩ := hhears
    have hawake : (s.clearOut.heartbeat w).Awake := by
      refine State.Awake.of_offPair (s := { s.clearOut with train := (s.clearOut.heartbeat w).train }) hs.clearOut ?_
      rw [hframe]
      rfl
    obtain ⟨t, hexec, he⟩ := does_safe (c := .trainHeartbeatRx w) (E := (·.heartbeat w)) hs rfl rfl hawake
    refine ⟨t, hexec, ?_⟩
    have hbal : (s.clearOut.heartbeat w).bal = s.bal := congrArg (·.bal) hframe
    have hconv : (s.clearOut.heartbeat w).conv = s.conv := congrArg (·.conv) hframe
    have hobjs : (s.clearOut.heartbeat w).objs = s.objs := congrArg (·.objs) hframe
    rw [he.pair_eq, he.bal_eq, he.conv_eq, he.objs_eq]
    simp only [Pair.link, Prod.mk.injEq] at hlink
    obtain ⟨hseen, hmis, hword, hlost, hflag, hrep⟩ := hlink
    refine ⟨hseen, hword, hlost, hflag, hmis, fun hgood => ?_, fun hbad => ?_, hrole, hbal, hconv, hobjs⟩
    · rw [hrep]
      exact if_neg (not_not.mpr hgood)
    · rw [hrep]
      exact if_pos hbad
  · exact does_safe hs rfl (State.heartbeatLost_alone (s := s.clearOut) hl hseen hb ha hn) hs.clearOut
  · exact does_safe hs rfl (State.heartbeatLost_flags (s := s.clearOut) hl hseen hb hk ha hn) (State.Awake.post hs.clearOut)
  · exact idles_safe hs rfl (State.heartbeatLost_idle (s := s.clearOut) h)
  · exact does_safe hs rfl (State.pairLinkLost_flags (s := s.clearOut) hb ha hk) (State.Awake.post hs.clearOut)
  · exact does_safe hs rfl (State.pairLinkLost_flagged (s := s.clearOut) hb ha hk) hs.clearOut
  · exact idles_safe hs rfl (State.pairLinkLost_idle (s := s.clearOut) h)

/-! ### The takeover (R333, R339) -/

/-- The host's SCS, which waits for the role, is no PR demand. -/
theorem State.prDemand_withPair (s : State) (p : Pair) : State.prDemand { s with pair := p } = s.prDemand := by
  have hscs : ∀ u : State, (if u.hostScs then [((5 : Nat), (0 : Nat), (1 : Nat))] else []).any (fun d => d.2.2 = 0) = false := fun u => by
    split <;> rfl
  unfold State.prDemand State.demandSources
  simp only [List.any_append, hscs]
  rfl

/-- A crown that is taken: the leader's cells start from their reported states, and its shadow lanes have their grace. -/
theorem State.takeCrown_eq (s : State) (cause : Nat) : s.takeCrown cause = { s with
    pair := { s.pair with role := .leader, crown := true, abdicating := false, ready := false, inherits := decide (cause ≠ 2), tookRos := true
                          takeovers := s.pair.takeovers + 1, takeoverTick := s.nextTick }
    lanes := s.lanes.map fun (x : Lane) => { x with grace := if x.shadow then 40 else 0 }
    cells := s.cells.map fun (x : Cell) => { x with cmd := x.applied, wish := x.applied, pend := none, since := 0, prev := x.applied, prevSince := 0 }
    mod := (s.takeCrown cause).mod, cond := (s.takeCrown cause).cond, log := (s.takeCrown cause).log } := by
  have hrole : s.setRole .leader = { s with pair := { s.pair with role := .leader }, cond := (s.setRole .leader).cond } := by
    rw [← s.setRole_pair .leader]
    unfold State.setRole
    split <;> rfl
  unfold State.takeCrown State.post
  dsimp only
  rw [State.postAt_eq]
  unfold State.lead
  rw [hrole]
  rfl

section
variable {s : State}

theorem State.takeover_takes (ht : s.ticking = true) (hl : s.pair.role = .standby) (hs : s.pair.seen = true) (hm : s.pair.mismatch = false)
    (ha : s.cfgN Obj.PAIR_LOF_LANES ≤ s.lanesAbsent) (hc : s.condH = true ∨ s.condB = true) (hr : s.pair.reported ≠ .pr)
    (hd : s.prDemand = false) (hready : s.pair.ready = true) : s.takeover = s.takeCrown (if s.condH then 0 else 1) := by
  have habsent : s.condA = true := decide_eq_true ha
  unfold State.takeover State.takeoverDue State.paired
  exact if_pos (by simp [hl, hs, hm, ht, habsent, hc, hr, hd, hready])

theorem State.takeover_idle (h : s.pair.role ≠ .standby ∨ s.pair.ready = false ∨ s.prDemand = true ∨ s.lanesAbsent < s.cfgN Obj.PAIR_LOF_LANES) :
    s.takeover = s := by
  unfold State.takeover State.takeoverDue
  refine if_neg ?_
  obtain h | h | h | h := h
  · simp [h]
  · simp [h]
  · simp [h]
  · have hpresent : s.condA = false := decide_eq_false (Nat.not_le.mpr h)
    simp [hpresent]

end

/-- Settles O40: a ready standby takes the crown as `State.takeCrown_eq` says; nothing of it is lost in the end, as no demand is active. -/
theorem standbyTakesTheCrown : Obligations.StandbyTakesTheCrown := by
  unfold Obligations.StandbyTakesTheCrown
  intro s hs
  refine ⟨fun hl hseen hm ha hc hr hd hready => ?_, fun h => idles_safe hs rfl (State.takeover_idle (s := s.clearOut) h)⟩
  have htakes := State.takeover_takes (s := s.clearOut) hs.clearOut.ticks hl hseen hm ha hc hr hd hready
  have hcause : (if s.clearOut.condH then 0 else 1) ≠ 2 := by split <;> decide
  generalize (if s.clearOut.condH then 0 else 1) = cause at htakes hcause
  have hcrown := s.clearOut.takeCrown_eq cause
  generalize hf : s.clearOut.takeCrown cause = f at htakes hcrown
  have hawake : f.Awake := by
    rw [hcrown]
    exact hs.clearOut
  have hdemand : f.prDemand = false := by
    rw [hcrown]
    exact (State.prDemand_withPair s _).trans hd
  obtain ⟨t, hexec, he⟩ := does_safe (c := .takeover) (E := State.takeover) hs rfl htakes hawake
  obtain ⟨hlanes, hcells, -⟩ := he.quiet hdemand
  refine ⟨t, hexec, ?_⟩
  rw [he.pair_eq, he.bal_eq, he.conv_eq, he.objs_eq, hlanes, hcells, hcrown]
  exact ⟨rfl, rfl, rfl, rfl, rfl, decide_eq_true hcause, rfl, rfl, rfl, rfl, rfl⟩

/-! ### The abdication (R335, R339) -/

section
variable {s : State}

theorem State.leaderLanesLost_abdicates (hl : s.pair.role = .leader) (ha : s.pair.abdicating = false) (hr : s.partnerReady = true)
    (hc : s.conv.state ≠ .pr) (hn : s.cfgN Obj.PAIR_LOF_LANES ≤ s.lanesSilent) : s.leaderLanesLost =
    State.post { s with pair := { s.pair with
      abdicating := true, crown := false, abdicateTick := s.nextTick, abdicateFeeds := false, abdicateRevert := false } } 0x2A12 0xFF [1] := by
  unfold State.leaderLanesLost State.mayAbdicate
  exact if_pos (by simp [hl, ha, hr, hc, hn])

theorem State.leaderLanesLost_idle
    (h : s.pair.role ≠ .leader ∨ s.pair.abdicating = true ∨ s.conv.state = .pr ∨ s.lanesSilent < s.cfgN Obj.PAIR_LOF_LANES) :
    s.leaderLanesLost = s := by
  unfold State.leaderLanesLost State.mayAbdicate
  refine if_neg ?_
  obtain h | h | h | h := h
  · simp [h]
  · simp [h]
  · simp [h]
  · simp [Nat.not_le.mpr h]

theorem State.abdicateFailed_returns (ha : s.pair.abdicating = true) (hf : s.pair.abdicateFeeds = false)
    (ht : s.pair.abdicateTick + 64 ≤ s.nextTick) : s.abdicateFailed = State.post { s with pair := { s.pair with
      abdicating := false, crown := true, revertFrom := if s.pair.abdicateRevert then some s.nextTick else s.pair.revertFrom } } 0x2A13 0xFF [] := by
  unfold State.abdicateFailed
  exact if_pos (by simp [ha, hf, ht])

theorem State.abdicateFailed_idle (h : s.pair.abdicating = false ∨ s.nextTick < s.pair.abdicateTick + 64) : s.abdicateFailed = s := by
  unfold State.abdicateFailed
  refine if_neg ?_
  obtain h | h := h
  · simp [h]
  · simp [Nat.not_le.mpr h]

/-- Without a lane that is UP the end of the grace is all that happens. -/
theorem State.graceExpired_alone (hp : s.pair.takeovers ≠ 0) (ht : s.pair.takeoverTick + 40 ≤ s.nextTick) (hn : ∀ l, (s.lane l).state ≠ .up) :
    s.graceExpired = { s with lanes := s.lanes.map fun (x : Lane) => { x with grace := 0 } } := by
  have hstate : ∀ l, (State.lane { s with lanes := s.lanes.map fun (x : Lane) => { x with grace := 0 } } l).state ≠ .up := fun l => by
    have hlane : (State.lane { s with lanes := s.lanes.map fun (x : Lane) => { x with grace := 0 } } l).state = (s.lane l).state := by
      simp only [State.lane, List.getD_eq_getElem?_getD, List.getElem?_map]
      cases s.lanes[l]? <;> rfl
    rw [hlane]
    exact hn l
  have hlast : ¬ s.nextTick < s.pair.takeoverTick + 40 := Nat.not_lt.mpr ht
  unfold State.graceExpired
  rw [if_neg (by simp [hp, hlast])]
  dsimp only
  generalize ({ s with lanes := _ } : State) = u at hstate
  generalize List.range 48 = lanes
  exact List.foldlRecOn lanes _ (motive := fun v : State => v = u) rfl fun v hv l _ => by
    rw [hv]
    exact if_neg (by simp [hstate l])

theorem State.graceExpired_idle (h : s.pair.takeovers = 0 ∨ s.nextTick < s.pair.takeoverTick + 40) : s.graceExpired = s := by
  unfold State.graceExpired
  refine if_pos ?_
  obtain h | h := h <;> simp [h]

end

/-- Settles O41: the abdication, its failure and the end of the grace are each one change of the pair or of the lanes. -/
theorem leaderAbdicates : Obligations.LeaderAbdicates := by
  unfold Obligations.LeaderAbdicates
  intro s hs
  refine ⟨fun hl ha hr hc hn => ?_, fun h => ?_, fun ha hf ht => ?_, fun h => ?_, fun hp ht hn => ?_, fun h => ?_⟩
  · exact does_safe hs rfl (State.leaderLanesLost_abdicates (s := s.clearOut) hl ha hr hc hn) (State.Awake.post hs.clearOut)
  · exact idles_safe hs rfl (State.leaderLanesLost_idle (s := s.clearOut) h)
  · exact does_safe hs rfl (State.abdicateFailed_returns (s := s.clearOut) ha hf ht) (State.Awake.post hs.clearOut)
  · exact idles_safe hs rfl (State.abdicateFailed_idle (s := s.clearOut) h)
  · exact does_safe hs rfl (State.graceExpired_alone (s := s.clearOut) hp ht hn) hs.clearOut
  · exact idles_safe hs rfl (State.graceExpired_idle (s := s.clearOut) h)

end Sys2Proof.Machine
end

section
/-!
PROOF. The power feeds (R340 to R343, R350): presence, switch-over, hold-up and load tests.
-/
namespace Sys2Proof.Machine

/-! ### A feed's presence -/

theorem Feed.note_present (f : Feed) (b p : Bool) (mv : Nat) : (f.note b p mv).present b = p := by
  cases b <;> rfl

theorem Feed.note_other (f : Feed) (b p : Bool) (mv : Nat) : (f.note b p mv).present (!b) = f.present !b := by
  cases b <;> rfl

theorem feedCode_not (b : Bool) : feedCode (!b) = if b then 0 else 1 := by
  cases b <;> rfl

theorem Feed.carrier_untested {f : Feed} (h : f.test = none) : f.carrier = f.inUse := by
  unfold Feed.carrier
  rw [h]

section
variable {s : State} {b : Bool} {mv : Nat}

/-- The feed as its presence is noted (R340). -/
def Feed.come (f : Feed) (b : Bool) (mv : Nat) (idle : Bool) : Feed :=
  { f.note b true mv with handed := false, takeback := f.takeback || (!b && !idle && f.carrier = 1) }

theorem State.feedPresent_takes {ms : Nat} (hp : s.feed.present b = false) (hlow : 8800 ≤ mv) (hhigh : mv ≤ 75000) (hms : 10 ≤ ms)
    (h : s.feed.inUse = 2 ∨ s.feed.present (!b) = false) :
    s.feedPresent b mv ms = State.recharge { s with feed := (s.feed.come b mv true).carriedBy b } := by
  have hidle : (decide (s.feed.inUse = 2) || !s.feed.present !b) = true := by
    obtain h | h := h <;> simp [h]
  unfold State.feedPresent
  rw [if_neg (by simp [hp, hms, hlow, hhigh])]
  dsimp only
  rw [hidle]
  rfl

theorem State.feedPresent_waits {ms : Nat} (hp : s.feed.aPresent = false) (hlow : 8800 ≤ mv) (hhigh : mv ≤ 75000) (hms : 10 ≤ ms)
    (hu : s.feed.inUse = 1) (ht : s.feed.test = none) (hb : s.feed.bPresent = true) :
    s.feedPresent false mv ms = { s with feed := { s.feed with aPresent := true, aMv := mv, takeback := true, handed := false } } := by
  have hpresent : s.feed.present false = false := hp
  have hidle : (decide (s.feed.inUse = 2) || !s.feed.present !false) = false := by
    have hother : s.feed.present true = true := hb
    simp [hu, hother]
  unfold State.feedPresent
  rw [if_neg (by simp [hpresent, hms, hlow, hhigh])]
  dsimp only
  rw [hidle, Feed.carrier_untested ht, hu]
  simp [Feed.note, hu]

theorem State.feedPresent_idle {ms : Nat} (h : s.feed.present b = true ∨ mv < 8800 ∨ 75000 < mv ∨ ms < 10) : s.feedPresent b mv ms = s := by
  unfold State.feedPresent
  refine if_pos ?_
  obtain h | h | h | h := h <;> simp [h]

/-- The feed as its loss is noted (R340). -/
def Feed.gone (f : Feed) (b : Bool) (mv : Nat) : Feed := if b then f.note b false mv else { f.note b false mv with takeback := false, retest := false }

theorem Feed.gone_present (f : Feed) (b : Bool) (mv : Nat) : (f.gone b mv).present b = false ∧ (f.gone b mv).present (!b) = f.present (!b) ∧
    (f.gone b mv).inUse = f.inUse ∧ (f.gone b mv).switches = f.switches := by
  cases b <;> exact ⟨rfl, rfl, rfl, rfl⟩

/-- The load moves to the other feed, counted and flagged (R340). -/
def Feed.moved (f : Feed) (b : Bool) : Feed :=
  { f.carriedBy (!b) with takeback := false, retest := false, switches := f.switches + 1, switchRos := true }

theorem State.feedAbsent_present {us : Nat} (hp : s.feed.present b = true) (hmv : mv < 8500 ∨ 78000 < mv) (hus : 20 ≤ us) :
    ¬ (!s.feed.present b || (decide (8500 ≤ mv) && decide (mv ≤ 78000)) || decide (us < 20)) = true := by
  obtain h | h := hmv <;> simp [hp, hus, h]

theorem State.feedAbsent_moves {us other : Nat} (hp : s.feed.present b = true) (hmv : mv < 8500 ∨ 78000 < mv) (hus : 20 ≤ us)
    (he : s.pwr.entry = none) (ht : s.feed.test = none) (hu : s.feed.inUse = feedCode b) (ho : s.feed.present (!b) = true) (hov : 8500 ≤ other) :
    s.feedAbsent b mv us other = (State.recharge { s with feed := (s.feed.gone b mv).moved b }).post 0x2A20 noInst
      (BitVec.ofNat 8 (feedCode !b) :: beBytes 4 mv) := by
  have hcarrier : ¬ s.feed.carrier ≠ feedCode b := not_not.mpr ((Feed.carrier_untested ht).trans hu)
  have hother : ¬ (!s.feed.present !b) = true := by simp [ho]
  have hwake : (State.recharge { s with feed := (s.feed.gone b mv).moved b }).noteWake .feed = State.recharge { s with feed := (s.feed.gone b mv).moved b } :=
    State.noteWake_awake _ he
  unfold State.feedAbsent
  dsimp only
  rw [if_neg (State.feedAbsent_present hp hmv hus), if_neg hcarrier, if_neg hother, if_neg (Nat.not_lt.mpr hov)]
  exact congrArg (fun u : State => u.post 0x2A20 noInst (BitVec.ofNat 8 (feedCode !b) :: beBytes 4 mv)) hwake

theorem State.feedAbsent_loses {us other : Nat} (hp : s.feed.present b = true) (hmv : mv < 8500 ∨ 78000 < mv) (hus : 20 ≤ us)
    (ht : s.feed.test = none) (hu : s.feed.inUse = feedCode b) (ho : s.feed.present (!b) = false) (hm : s.mayAbdicate = false) :
    s.feedAbsent b mv us other = State.post { s with feed := { s.feed.gone b mv with inUse := 2, charged := false } } 0x2A23 noInst [] := by
  have hcarrier : ¬ s.feed.carrier ≠ feedCode b := not_not.mpr ((Feed.carrier_untested ht).trans hu)
  have hother : (!s.feed.present !b) = true := by simp [ho]
  have hstays : ∀ f : Feed, (State.post { s with feed := f } 0x2A23 noInst []).mayAbdicate = false := fun f => by
    unfold State.post
    rw [State.postAt_eq]
    exact hm
  unfold State.feedAbsent
  dsimp only
  rw [if_neg (State.feedAbsent_present hp hmv hus), if_neg hcarrier, if_pos hother]
  exact if_neg (by
    rw [hstays]
    decide)

theorem State.feedAbsent_unused {us other : Nat} (hp : s.feed.present true = true) (hmv : mv < 8500 ∨ 78000 < mv) (hus : 20 ≤ us)
    (ht : s.feed.test = none) (hu : s.feed.inUse ≠ 1) :
    s.feedAbsent true mv us other = { s with feed := { s.feed with bPresent := false, bMv := mv } } := by
  have hcarrier : s.feed.carrier ≠ feedCode true := by
    rw [Feed.carrier_untested ht]
    exact hu
  have hkept : ¬ s.feed.inUse = feedCode true := hu
  unfold State.feedAbsent
  dsimp only
  rw [if_neg (State.feedAbsent_present hp hmv hus), if_pos hcarrier, if_neg hkept]
  rfl

theorem State.feedAbsent_idle {us other : Nat} (h : s.feed.present b = false ∨ (8500 ≤ mv ∧ mv ≤ 78000) ∨ us < 20) :
    s.feedAbsent b mv us other = s := by
  unfold State.feedAbsent
  refine if_pos ?_
  obtain h | ⟨hlow, hhigh⟩ | h := h
  · simp [h]
  · simp [hlow, hhigh]
  · simp [h]

theorem State.feedLossPr_signals (hu : s.feed.inUse = 2) (hh : s.feed.handed = false) :
    s.feedLossPr = { s with saf := { s.saf with feedsLost := true } } := by
  unfold State.feedLossPr
  exact if_pos (by simp [hu, hh])

theorem State.feedLossPr_idle (h : s.feed.inUse ≠ 2 ∨ s.feed.handed = true) : s.feedLossPr = s := by
  unfold State.feedLossPr
  refine if_neg ?_
  obtain h | h := h <;> simp [h]

end

/-- Settles O43: the load goes where a feed is present; the loss of both is a kernel fault, whose demand opens the switches. -/
theorem feedsCarryTheLoad : Obligations.FeedsCarryTheLoad := by
  unfold Obligations.FeedsCarryTheLoad
  intro s b mv hs hentry htest
  refine ⟨fun ms hp hlow hhigh hms => ⟨fun h => ?_, fun hu hb hother => ?_⟩, fun ms h => ?_, fun us other hp hmv hus => ⟨fun hu ho hov => ?_,
    fun hu ho hm => ?_, fun hu hb => ?_⟩, fun us other h => ?_, fun hu hh => ?_, fun h => ?_⟩
  · have htakes := State.feedPresent_takes (s := s.clearOut) hp hlow hhigh hms h
    obtain ⟨t, hexec, he⟩ := does_always (c := .feedPresent b mv ms) (E := (·.feedPresent b mv ms)) hs rfl htakes hs.clearOut
    refine ⟨t, hexec, ?_⟩
    rw [he.feed_eq, he.bal_eq, he.conv_eq, he.objs_eq]
    exact ⟨s.feed.note_present b true mv, rfl, s.feed.note_other b true mv, rfl, rfl, rfl⟩
  · subst hb
    exact does_always (E := (·.feedPresent false mv ms)) hs rfl (State.feedPresent_waits (s := s.clearOut) hp hlow hhigh hms hu htest hother) hs.clearOut
  · exact idles_always (E := (·.feedPresent b mv ms)) hs rfl (State.feedPresent_idle (s := s.clearOut) h)
  · have hmoves := State.feedAbsent_moves (s := s.clearOut) (other := other) hp hmv hus hentry htest hu ho hov
    obtain ⟨t, hexec, he⟩ := does_always (c := .feedAbsent b mv us other) (E := (·.feedAbsent b mv us other)) hs rfl hmoves (.post hs.clearOut)
    refine ⟨t, hexec, ?_⟩
    obtain ⟨hgone, hother, -, hcount⟩ := s.feed.gone_present b mv
    rw [he.feed_eq, he.bal_eq, he.conv_eq, he.objs_eq, State.post_feed, State.post_bal, State.post_conv, State.post_objs]
    exact ⟨hgone, feedCode_not b, congrArg (· + 1) hcount, rfl, hother.trans ho, rfl, rfl, rfl⟩
  · have hloses := State.feedAbsent_loses (s := s.clearOut) (us := us) (other := other) hp hmv hus htest hu ho hm
    obtain ⟨t, hexec, he⟩ := does_always (c := .feedAbsent b mv us other) (E := (·.feedAbsent b mv us other)) hs rfl hloses (.post hs.clearOut)
    refine ⟨t, hexec, ?_⟩
    obtain ⟨hgone, -⟩ := s.feed.gone_present b mv
    rw [he.feed_eq, he.bal_eq, he.conv_eq, he.objs_eq, State.post_feed, State.post_bal, State.post_conv, State.post_objs]
    exact ⟨hgone, rfl, rfl, rfl, rfl, rfl⟩
  · subst hb
    exact does_always (E := (·.feedAbsent true mv us other)) hs rfl (State.feedAbsent_unused (s := s.clearOut) hp hmv hus htest hu) hs.clearOut
  · exact idles_always (E := (·.feedAbsent b mv us other)) hs rfl (State.feedAbsent_idle (s := s.clearOut) h)
  · have hawake : State.Awake { s.clearOut with saf := { s.clearOut.saf with feedsLost := true } } := hs.clearOut
    obtain ⟨t, hexec, he⟩ := does_always (c := .feedLossPrDelay) hs rfl (State.feedLossPr_signals (s := s.clearOut) hu hh) hawake
    have hdemand : State.prDemand { s.clearOut with saf := { s.clearOut.saf with feedsLost := true } } = true := State.prDemand_of_fault (n := 5) rfl
    refine ⟨t, hexec, ?_, he.prDemand_eq.trans hdemand, he.open_ hdemand, he.feed_eq, he.bal_eq, he.conv_eq, he.objs_eq⟩
    rw [he.frame]
    rfl
  · exact idles_always hs rfl (State.feedLossPr_idle (s := s.clearOut) h)

/-! ### Load tests (R341, R342, R350) -/

/-- The state without the feeds and their entries. -/
def State.offFeed (s : State) : State := { s with feed := {}, log := {} }

theorem State.Awake.of_offFeed {s t : State} (hs : s.Awake) (h : t.offFeed = s.offFeed) : t.Awake := by
  obtain ⟨hreset, hpwr, hgated, hmissing⟩ := hs
  have hp : t.pwr = s.pwr := congrArg (·.pwr) h
  have hr : t.reg = s.reg := congrArg (·.reg) h
  have hk : t.saf = s.saf := congrArg (·.saf) h
  exact ⟨hp ▸ hreset, hp ▸ hpwr, hr ▸ hgated, hk ▸ hmissing⟩

theorem State.offFeed_keeps {s t : State} (h : t.offFeed = s.offFeed) : t.bal = s.bal ∧ t.conv = s.conv ∧ t.objs = s.objs :=
  ⟨congrArg (·.bal) h, congrArg (·.conv) h, congrArg (·.objs) h⟩

theorem State.post_offFeed (s : State) (c i : Nat) (d : List Byte) : (s.post c i d).offFeed = s.offFeed := by
  unfold State.post
  rw [State.postAt_eq]
  rfl

theorem State.withFeed_offFeed (s : State) (f : Feed) : State.offFeed { s with feed := f } = s.offFeed := rfl

section
variable {s : State} {vmin imax cause back : Nat}

/-- The result of a test of feed A, told and logged. -/
def State.toldA (s : State) (cause vmin imax : Nat) : State :=
  let h := feedHealth (if 8800 ≤ vmin then 1 else 2) cause vmin imax
  State.post { s with feed := { s.feed with healthA := h, aFailed := decide (vmin < 8800) } } 0x2A22 0 (beBytes 4 h.toNat)

theorem State.toldA_feed (s : State) (cause vmin imax : Nat) : (s.toldA cause vmin imax).feed =
    { s.feed with healthA := feedHealth (if 8800 ≤ vmin then 1 else 2) cause vmin imax, aFailed := decide (vmin < 8800) } :=
  State.post_feed _ _ _ _

theorem State.toldA_offFeed (s : State) (cause vmin imax : Nat) : (s.toldA cause vmin imax).offFeed = s.offFeed :=
  (State.post_offFeed _ _ _ _).trans (State.withFeed_offFeed _ _)

theorem State.testReturn_offFeed (s : State) (b : Bool) (cause back : Nat) (pass : Bool) : (s.testReturn b cause back pass).offFeed = s.offFeed := by
  unfold State.testReturn
  dsimp only
  split
  · rfl
  · split
    · exact (State.post_offFeed _ _ _ _).trans (State.withFeed_offFeed _ _)
    · split <;> rfl

/-- The test of feed A that ends its queue ends the tests. -/
theorem State.feedTestDone_lastA (ht : s.feed.test = some ⟨[false], cause, back⟩) : s.feedTestDone vmin imax =
    let u := (s.toldA cause vmin imax).testReturn false cause back (decide (8800 ≤ vmin))
    { u with feed := { u.feed with test := none } } := by
  have htold : s.feedResult false (if decide (8800 ≤ vmin) then 1 else 2) cause vmin imax = s.toldA cause vmin imax := by
    have hcode : (if decide (8800 ≤ vmin) = true then 1 else 2) = if 8800 ≤ vmin then 1 else 2 := by simp
    have hfailed : decide ((if 8800 ≤ vmin then 1 else 2) = 2) = decide (vmin < 8800) := by
      split
      next h => simp [h]
      next h => simp [Nat.not_le.mp h]
    unfold State.feedResult State.toldA
    rw [hcode]
    dsimp only
    rw [hfailed]
    rfl
  unfold State.feedTestDone
  rw [ht]
  dsimp only
  rw [htold]
  rfl

theorem State.feedTestDone_offFeed (ht : s.feed.test = some ⟨[false], cause, back⟩) : (s.feedTestDone vmin imax).offFeed = s.offFeed := by
  rw [State.feedTestDone_lastA ht]
  exact ((State.withFeed_offFeed _ _).trans (State.testReturn_offFeed _ _ _ _ _)).trans (State.toldA_offFeed _ _ _ _)

theorem State.testReturn_back {b pass : Bool} (hu : s.feed.inUse ≠ 2) (hc : cause ≠ 2) (h : pass = true ∨ s.feed.present (!b) = false) :
    s.testReturn b cause back pass = { s with feed := { s.feed with inUse := back } } := by
  unfold State.testReturn
  rw [if_neg hu, if_neg (by simp [hc])]
  exact if_pos (by obtain h | h := h <;> simp [h])

/-- A feed A that fails gives the load to B, and waits for its recovery test where it carried the load. -/
theorem State.testReturn_failsA (hu : s.feed.inUse ≠ 2) (hb : s.feed.bPresent = true) : s.testReturn false cause back false =
    { s with feed := { s.feed with
      inUse := 1, takeback := s.feed.takeback || decide (back = 0), retest := s.feed.retest || decide (cause = 2) } } := by
  have hother : s.feed.present (!false) = true := hb
  unfold State.testReturn
  rw [if_neg hu, if_neg (by simp), if_neg (by rw [hother]; decide)]
  simp [feedCode, b2n]

theorem State.testReturn_recovers (hu : s.feed.inUse ≠ 2) (ha : s.feed.aPresent = true) : s.testReturn false 2 back true =
    State.post { s with feed := { s.feed with inUse := 0, takeback := false, retest := false } } 0x2A21 noInst [] := by
  unfold State.testReturn
  rw [if_neg hu]
  exact if_pos (by simp [ha])

theorem State.feedTestDone_idle (ht : s.feed.test = none) : s.feedTestDone vmin imax = s := by
  unfold State.feedTestDone
  rw [ht]

theorem State.feedTestDone_returns (ht : s.feed.test = some ⟨[false], cause, back⟩) (hc : cause ≠ 2) (hu : s.feed.inUse ≠ 2)
    (h : 8800 ≤ vmin ∨ s.feed.bPresent = false) : s.feedTestDone vmin imax = { s.toldA cause vmin imax with feed := { s.feed with
      healthA := feedHealth (if 8800 ≤ vmin then 1 else 2) cause vmin imax, aFailed := decide (vmin < 8800), inUse := back, test := none } } := by
  have hback : (s.toldA cause vmin imax).testReturn false cause back (decide (8800 ≤ vmin)) = _ :=
    State.testReturn_back (by rw [State.toldA_feed]; exact hu) hc (by rw [State.toldA_feed]; exact h.imp decide_eq_true id)
  rw [State.feedTestDone_lastA ht, hback, State.toldA_feed]

theorem State.feedTestDone_gives (ht : s.feed.test = some ⟨[false], cause, back⟩) (hu : s.feed.inUse ≠ 2)
    (hv : vmin < 8800) (hb : s.feed.bPresent = true) : s.feedTestDone vmin imax = { s.toldA cause vmin imax with feed := { s.feed with
      healthA := feedHealth (if 8800 ≤ vmin then 1 else 2) cause vmin imax, aFailed := true, inUse := 1
      takeback := s.feed.takeback || decide (back = 0), retest := s.feed.retest || decide (cause = 2), test := none } } := by
  have hgives : (s.toldA cause vmin imax).testReturn false cause back false = _ :=
    State.testReturn_failsA (by rw [State.toldA_feed]; exact hu) (by rw [State.toldA_feed]; exact hb)
  rw [State.feedTestDone_lastA ht, decide_eq_false (Nat.not_le.mpr hv), hgives, State.toldA_feed]
  simp [hv]

theorem State.feedTestDone_recovers (ht : s.feed.test = some ⟨[false], 2, back⟩) (hu : s.feed.inUse ≠ 2) (hv : 8800 ≤ vmin)
    (ha : s.feed.aPresent = true) :
    (s.feedTestDone vmin imax).feed = { (s.toldA 2 vmin imax).feed with inUse := 0, takeback := false, retest := false, test := none } := by
  have hback : (s.toldA 2 vmin imax).testReturn false 2 back true = _ :=
    State.testReturn_recovers (by rw [State.toldA_feed]; exact hu) (by rw [State.toldA_feed]; exact ha)
  rw [State.feedTestDone_lastA ht, decide_eq_true hv, hback]
  dsimp only
  rw [State.post_feed]

theorem State.feedStartup_starts (hs : s.feed.startTested = false) (ht : s.feed.test = none) (ha : s.feed.aPresent = true)
    (hb : s.feed.bPresent = true) : s.feedStartup = { s with feed := { s.feed with
      startTested := true, inUse := 0, test := some ⟨[false, true], 0, s.feed.inUse⟩ } } := by
  unfold State.feedStartup
  rw [if_neg (by simp [hs, ht, ha, hb])]
  exact if_pos ha

theorem State.feedStartup_idle (h : s.feed.startTested = true) : s.feedStartup = s := if_pos (by simp [h])

theorem State.feedRecovery_starts {n : Nat} (hb : s.feed.takeback = true) (ha : s.feed.aPresent = true) (hu : s.feed.inUse = 1)
    (ht : s.feed.test = none) (hn : (if s.feed.retest then 60 else 10) ≤ n) :
    s.feedRecovery n = { s with feed := { s.feed with inUse := 0, test := some ⟨[false], 2, 1⟩ } } := by
  unfold State.feedRecovery
  rw [if_pos (by simp [hb, ha, hu, ht, hn])]
  have hfeeds : s.feedNext 2 [false] = { s with feed := { s.feed with inUse := 0, test := some ⟨[false], 2, s.feed.inUse⟩ } } := if_pos ha
  rw [hfeeds, hu]

theorem State.feedRecovery_idle {n : Nat} (h : s.feed.takeback = false ∨ n < (if s.feed.retest then 60 else 10)) : s.feedRecovery n = s := by
  unfold State.feedRecovery
  refine if_neg ?_
  obtain h | h := h
  · simp [h]
  · simp [Nat.not_le.mpr h]

end

/-- Settles O44: a test of feed A ends by `State.testReturn`'s cases; the tests of the start and of the recovery begin one. -/
theorem feedTestsReport : Obligations.FeedTestsReport := by
  unfold Obligations.FeedTestsReport
  intro s vmin imax hs
  refine ⟨fun cause back ht hc hu => ⟨fun h => ?_, fun hv hb => ?_⟩, fun ht ha hb hu => ?_, fun ht => ?_, fun hst ht ha hb => ?_, fun h => ?_,
    fun n htb ha hu ht hn => ?_, fun n h => ?_⟩
  · have hawake := hs.clearOut.of_offFeed (State.feedTestDone_offFeed (s := s.clearOut) (vmin := vmin) (imax := imax) ht)
    have hreturns := State.feedTestDone_returns (s := s.clearOut) (imax := imax) ht hc hu h
    rw [hreturns] at hawake
    exact does_always (E := (·.feedTestDone vmin imax)) hs rfl hreturns hawake
  · have hawake := hs.clearOut.of_offFeed (State.feedTestDone_offFeed (s := s.clearOut) (vmin := vmin) (imax := imax) ht)
    have hgives := State.feedTestDone_gives (s := s.clearOut) (imax := imax) ht hu hv hb
    rw [decide_eq_false hc, Bool.or_false] at hgives
    rw [hgives] at hawake
    exact does_always (E := (·.feedTestDone vmin imax)) hs rfl hgives hawake
  · have hoff := State.feedTestDone_offFeed (s := s.clearOut) (vmin := vmin) (imax := imax) ht
    obtain ⟨t, hexec, he⟩ := does_always (c := .feedTestDone vmin imax) (E := (·.feedTestDone vmin imax)) hs rfl rfl (hs.clearOut.of_offFeed hoff)
    obtain ⟨hbal, hconv, hobjs⟩ := State.offFeed_keeps hoff
    have hrecovers := State.feedTestDone_recovers (s := s.clearOut) (vmin := vmin) (imax := imax) ht hu
    have hgives := State.feedTestDone_gives (s := s.clearOut) (vmin := vmin) (imax := imax) ht hu
    rw [State.toldA_feed] at hrecovers
    refine ⟨t, hexec, ?_⟩
    rw [he.feed_eq, he.bal_eq, he.conv_eq, he.objs_eq]
    refine ⟨?_, fun hv => ?_, fun hv => ?_, hbal, hconv, hobjs⟩
    · obtain hv | hv := le_or_gt 8800 vmin
      · rw [hrecovers hv ha]
      · rw [hgives hv hb]
    · rw [hrecovers hv ha]
      exact ⟨rfl, rfl, decide_eq_false (Nat.not_lt.mpr hv)⟩
    · rw [hgives hv hb]
      exact ⟨rfl, by simp, rfl⟩
  · exact idles_always (E := (·.feedTestDone vmin imax)) hs rfl (State.feedTestDone_idle (s := s.clearOut) ht)
  · exact does_always hs rfl (State.feedStartup_starts (s := s.clearOut) hst ht ha hb) hs.clearOut
  · exact idles_always hs rfl (State.feedStartup_idle (s := s.clearOut) h)
  · exact does_always (E := (·.feedRecovery n)) hs rfl (State.feedRecovery_starts (s := s.clearOut) htb ha hu ht hn) hs.clearOut
  · exact idles_always (E := (·.feedRecovery n)) hs rfl (State.feedRecovery_idle (s := s.clearOut) h)

end Sys2Proof.Machine
end

section
/-!
PROOF. The kernel's inputs and its monitor: safety inputs and trip pins (R289 to R291), the end of SCS (R297) and of a session (R309).
-/
namespace Sys2Proof.Machine

/-! ### Sources of demands (R287) -/

theorem State.input_mem_demandSources {s : State} {n : Nat} (hn : n < 8) (hf : s.cfgN (Obj.SI_FUNC + n) = 1) (h : s.siIn n = true) :
    (0, n, 0) ∈ s.demandSources := by
  have hmem : (0, n, 0) ∈ (List.range 8).filterMap fun n =>
      let f := s.cfgN (Obj.SI_FUNC + n)
      if s.siIn n && (f = 1 || f = 2) then some (0, n, f - 1) else none :=
    List.mem_filterMap.mpr ⟨n, List.mem_range.mpr hn, by simp [hf, h]⟩
  unfold State.demandSources
  simp only [List.mem_append]
  exact .inl (.inl (.inl (.inl (.inl hmem))))

theorem State.trip_mem_demandSources {s : State} {n : Nat} (hn : n < 16) (hf : (s.cfgN Obj.SF_TI_PR).testBit n = true)
    (h : flag s.saf.ti n = true) : (1, n, 0) ∈ s.demandSources := by
  have hmem : (1, n, 0) ∈ (List.range 16).filterMap fun n =>
      if (s.cfgN Obj.SF_TI_PR).testBit n && flag s.saf.ti n then some (1, n, 0) else none :=
    List.mem_filterMap.mpr ⟨n, List.mem_range.mpr hn, by simp [hf, h]⟩
  unfold State.demandSources
  simp only [List.mem_append]
  exact .inl (.inl (.inl (.inl (.inr hmem))))

/-! ### Safety inputs (R289) -/

/-- A channel of a safety input taken at its level. -/
def Safety.channel (k : Safety) (n : Nat) (b level : Bool) : Safety :=
  if b then { k with chB := setFlag k.chB n level, readB := setFlag k.readB n true }
  else { k with chA := setFlag k.chA n level, readA := setFlag k.readA n true }

section
variable {s : State} {n us : Nat} {b level : Bool}

theorem State.siChange_idle
    (h : (flag (if b then s.saf.chB else s.saf.chA) n = level ∧ flag (if b then s.saf.readB else s.saf.readA) n = true) ∨
      us < s.cfgN (Obj.SI_FILT + n)) : s.siChange n b level us = s := by
  unfold State.siChange
  refine if_pos ?_
  obtain ⟨hold, hknown⟩ | h := h
  · simp [hold, hknown]
  · simp [h]

/-- A change of a channel that has stood, by what it means to the input's discrepancy. -/
theorem State.siChange_stood (hus : s.cfgN (Obj.SI_FILT + n) ≤ us)
    (h : flag (if b then s.saf.chB else s.saf.chA) n ≠ level ∨ flag (if b then s.saf.readB else s.saf.readA) n = false) :
    s.siChange n b level us =
      let u : State := { s with saf := s.saf.channel n b level }
      if !flag u.saf.disc n then u
      else if u.siDemandA n && u.siDemandB n then { u with saf := { u.saf with discBoth := setFlag u.saf.discBoth n true } }
      else if !u.siDemandA n && !u.siDemandB n && flag u.saf.discBoth n then
        { u with saf := { u.saf with disc := setFlag u.saf.disc n false, discBoth := setFlag u.saf.discBoth n false } }
      else u := by
  unfold State.siChange
  refine if_neg ?_
  obtain h | h := h
  · simp [h, hus]
  · simp [h, hus]

theorem Safety.channel_disc (k : Safety) (n : Nat) (b level : Bool) :
    (k.channel n b level).disc = k.disc ∧ (k.channel n b level).discBoth = k.discBoth := by
  unfold Safety.channel
  split <;> exact ⟨rfl, rfl⟩

theorem State.siChange_agreeing (hus : s.cfgN (Obj.SI_FILT + n) ≤ us)
    (h : flag (if b then s.saf.chB else s.saf.chA) n ≠ level ∨ flag (if b then s.saf.readB else s.saf.readA) n = false)
    (hd : flag s.saf.disc n = false) : s.siChange n b level us = { s with saf := s.saf.channel n b level } := by
  rw [State.siChange_stood hus h]
  refine if_pos ?_
  rw [(Safety.channel_disc _ _ _ _).1, hd]
  rfl

/-- Channel A in demand is the input in demand, whatever becomes of its discrepancy. -/
theorem State.siChange_demands (hus : s.cfgN (Obj.SI_FILT + n) ≤ us) (ha : flag s.saf.chA n = true) (hn : n < 8) (hf : s.cfgN (Obj.SI_FUNC + n) = 1)
    (hla : s.saf.chA.length = 8) (hlr : s.saf.readA.length = 8) : let f := s.siChange n false false us
    f.prDemand = true ∧ f.conv = s.conv ∧ f.objs = s.objs ∧ f.pwr = s.pwr ∧ f.reg = s.reg ∧ f.saf.tickMissing = s.saf.tickMissing := by
  have hdemand : ∀ k : Safety, k.chA = setFlag s.saf.chA n false → k.readA = setFlag s.saf.readA n true →
      State.prDemand { s with saf := k } = true := fun k hc hr => by
    have hshown : State.siDemandA { s with saf := k } n = true := by
      unfold State.siDemandA
      rw [hc, hr, flag_setFlag_same _ (by omega), flag_setFlag_same _ (by omega)]
      rfl
    have hin : State.siIn { s with saf := k } n = true := by
      unfold State.siIn
      rw [hshown]
      rfl
    exact State.prDemand_of_mem (State.input_mem_demandSources hn hf hin)
  have hstood := State.siChange_stood (b := false) (level := false) hus (.inl (by simp [ha]))
  dsimp only at hstood ⊢
  rw [hstood]
  split
  · exact ⟨hdemand _ rfl rfl, rfl, rfl, rfl, rfl, rfl⟩
  · split
    · exact ⟨hdemand _ rfl rfl, rfl, rfl, rfl, rfl, rfl⟩
    · split <;> exact ⟨hdemand _ rfl rfl, rfl, rfl, rfl, rfl, rfl⟩

/-- Channel A that is healthy again, after both were in demand, ends the discrepancy. -/
theorem State.siChange_clears (hd : flag s.saf.disc n = true) (hboth : flag s.saf.discBoth n = true) (ha : flag s.saf.chA n = false)
    (hb : flag s.saf.chB n = true) (hn : n < 8) (hl : s.saf.chA.length = 8) (hm : s.cfgN (Obj.SI_MODE + n) = 0) (hus : s.cfgN (Obj.SI_FILT + n) ≤ us) :
    s.siChange n false true us = { s with saf := { s.saf with
      chA := setFlag s.saf.chA n true, readA := setFlag s.saf.readA n true, disc := setFlag s.saf.disc n false
      discBoth := setFlag s.saf.discBoth n false } } := by
  have hA : State.siDemandA { s with saf := s.saf.channel n false true } n = false := by
    have hset : flag (s.saf.channel n false true).chA n = true := flag_setFlag_same true (by omega)
    unfold State.siDemandA
    rw [hset]
    exact Bool.and_false _
  have hB : State.siDemandB { s with saf := s.saf.channel n false true } n = false := by
    have hset : flag (s.saf.channel n false true).chB n = true := hb
    have hmode : State.cfgN { s with saf := s.saf.channel n false true } (Obj.SI_MODE + n) = 0 := hm
    unfold State.siDemandB
    rw [hset, hmode]
    simp
  obtain ⟨hdisc, hdiscBoth⟩ := s.saf.channel_disc n false true
  rw [State.siChange_stood (b := false) (level := true) hus (.inl (by simp [ha]))]
  dsimp only
  rw [hdisc, hd, hA, hB, hdiscBoth, hboth]
  rfl

theorem State.siDiscrepancy_latches {ms : Nat} (hne : s.siDemandA n ≠ s.siDemandB n) (hd : flag s.saf.disc n = false)
    (hms : s.cfgN (Obj.SI_DISC + n) < ms) : s.siDiscrepancy n ms =
    State.post { s with saf := { s.saf with disc := setFlag s.saf.disc n true, discBoth := setFlag s.saf.discBoth n false } } 0x2904 n [] := by
  unfold State.siDiscrepancy
  exact if_neg (by simp [hne, hd, hms])

theorem State.siDiscrepancy_idle {ms : Nat} (h : s.siDemandA n = s.siDemandB n ∨ ms ≤ s.cfgN (Obj.SI_DISC + n)) : s.siDiscrepancy n ms = s := by
  unfold State.siDiscrepancy
  refine if_pos ?_
  obtain h | h := h <;> simp [h]

theorem State.ackPress_ends {ms : Nat} (hf : s.cfgN (Obj.SI_FUNC + n) = 3) (hlow : 100 ≤ ms) (hhigh : ms ≤ 3000) (hd : s.anyDemand = false) :
    s.ackPress n ms = { s with saf := { s.saf with ackPending := false } } := by
  unfold State.ackPress
  exact if_pos (by simp [hf, hlow, hhigh, hd])

theorem State.ackPress_idle {ms : Nat} (h : s.cfgN (Obj.SI_FUNC + n) ≠ 3 ∨ ms < 100 ∨ 3000 < ms ∨ s.anyDemand = true) : s.ackPress n ms = s := by
  unfold State.ackPress
  refine if_neg ?_
  obtain h | h | h | h := h
  · simp [h]
  · simp [Nat.not_le.mpr h]
  · simp [Nat.not_le.mpr h]
  · simp [h]

theorem State.kernelTi_reads (hf : (s.cfgN Obj.SF_TI_PR).testBit n = true) (hc : flag s.saf.ti n = false) (hus : s.cfgN Obj.SF_TI_FILT ≤ us) :
    s.kernelTi n true us = { s with saf := { s.saf with ti := setFlag s.saf.ti n true } } := by
  unfold State.kernelTi
  exact if_pos (by simp [hf, hc, hus])

theorem State.kernelTi_idle (hf : (s.cfgN Obj.SF_TI_PR).testBit n = false) : s.kernelTi n level us = s := by
  unfold State.kernelTi
  exact if_neg (by simp [hf])

end

/-- Settles O48: a channel, a discrepancy, a press and a trip pin each by its own rule; a source in demand demands PR, which opens the switches. -/
theorem safetyInputsDemand : Obligations.SafetyInputsDemand := by
  unfold Obligations.SafetyInputsDemand
  intro s n hs
  refine ⟨fun b level us hus => ⟨fun h hd => ?_, fun hb hl ha hf hla hlr => ?_⟩, fun b level us h => ?_, fun us hd hboth ha hb hl hm hus => ?_,
    fun ms hne hd hms => ?_, fun ms h => ?_, fun ms hf hlow hhigh hd => ?_, fun ms h => ?_, fun i us hf hc hus hl => ⟨?_, ?_⟩, fun i level us hf => ?_⟩
  · exact does_safe (c := .safetyInputChange n b level us) (E := (·.siChange n.val b level us)) (f := { s.clearOut with saf := s.saf.channel n.val b level })
      hs rfl (State.siChange_agreeing (s := s.clearOut) hus h hd) (by cases b <;> exact hs.clearOut)
  · subst hb hl
    obtain ⟨hdemand, hconv, hobjs, hpwr, hreg, htick⟩ := State.siChange_demands (s := s.clearOut) hus ha n.isLt hf hla hlr
    have hawake : (s.clearOut.siChange n.val false false us).Awake := by
      obtain ⟨hreset, hstate, hgated, hmissing⟩ := hs.clearOut
      exact ⟨hpwr ▸ hreset, hpwr ▸ hstate, hreg ▸ hgated, htick ▸ hmissing⟩
    obtain ⟨t, hexec, he⟩ := does_safe (c := .safetyInputChange n false false us) (E := (·.siChange n.val false false us)) hs rfl rfl hawake
    exact ⟨t, hexec, he.prDemand_eq.trans hdemand, he.open_ hdemand, he.conv_eq.trans hconv, he.objs_eq.trans hobjs⟩
  · exact idles_safe (E := (·.siChange n.val b level us)) hs rfl (State.siChange_idle (s := s.clearOut) h)
  · exact does_safe (E := (·.siChange n.val false true us)) hs rfl (State.siChange_clears (s := s.clearOut) hd hboth ha hb n.isLt hl hm hus) hs.clearOut
  · exact does_safe (E := (·.siDiscrepancy n.val ms)) hs rfl (State.siDiscrepancy_latches (s := s.clearOut) hne hd hms) (.post hs.clearOut)
  · exact idles_safe (E := (·.siDiscrepancy n.val ms)) hs rfl (State.siDiscrepancy_idle (s := s.clearOut) h)
  · exact does_safe (E := (·.ackPress n.val ms)) hs rfl (State.ackPress_ends (s := s.clearOut) hf hlow hhigh hd) hs.clearOut
  · exact idles_safe (E := (·.ackPress n.val ms)) hs rfl (State.ackPress_idle (s := s.clearOut) h)
  · exact does_safe (E := (·.kernelTi i.val true us)) hs rfl (State.kernelTi_reads (s := s.clearOut) hf hc hus) hs.clearOut
  · exact State.prDemand_of_mem (State.trip_mem_demandSources i.isLt hf (flag_setFlag_same true (by
      have hlen : s.clearOut.saf.ti.length = 16 := hl
      omega)))
  · exact idles_safe (E := (·.kernelTi i.val level us)) hs rfl (State.kernelTi_idle (s := s.clearOut) hf)

/-! ### The end of SCS (R297) -/

theorem State.scsEnd_ends {s : State} (n : Nat) (hst : s.conv.state = .scs) (he : s.conv.scsEnded = false) :
    s.scsEnd n = { s with conv := { s.conv with scsEnded := true }, log := (s.scsEnd n).log } := by
  unfold State.scsEnd
  rw [if_neg (by simp [hst, he])]
  unfold State.post
  rw [State.postAt_eq]

theorem State.scsEnd_idle {s : State} (n : Nat) (hst : s.conv.state ≠ .scs) : s.scsEnd n = s := by
  unfold State.scsEnd
  exact if_pos (by simp [hst])

theorem State.prDemand_of_scsEnded {s : State} (h : s.conv.scsEnded = true) : s.prDemand = true := by
  simp [State.prDemand, h]

/-- A command that ends SCS: the demand is there, and the switches open. -/
theorem next_scsEnd {c : Instr} {s : State} {E : State → State} {k : Safety} {l : LogS} (hs : s.Awake) (hc : exec c s = runSafe true s E)
    (hE : E s.clearOut = { s.clearOut with conv := { s.conv with scsEnded := true }, saf := k, log := l }) (hk : k.tickMissing = s.saf.tickMissing) :
    ∃ t, exec c s = .next t ∧ t.conv = { s.conv with scsEnded := true } ∧ t.prDemand = true ∧ t.saf.switches.any id = false ∧ t.objs = s.objs ∧
      t.saf.env = k.env ∧ t.saf.iEnv = k.iEnv ∧ t.saf.scsUs = k.scsUs ∧ t.saf.linkLost = k.linkLost := by
  obtain ⟨hreset, hstate, hgated, hmissing⟩ := hs.clearOut
  obtain ⟨t, hexec, he⟩ := does_safe hs hc hE ⟨hreset, hstate, hgated, hk.trans hmissing⟩
  have hdemand := State.prDemand_of_scsEnded
    (s := { s.clearOut with conv := { s.conv with scsEnded := true }, saf := k, log := l }) rfl
  refine ⟨t, hexec, he.conv_eq, he.prDemand_eq.trans hdemand, he.open_ hdemand, he.objs_eq, ?_⟩
  rw [he.frame]
  exact ⟨rfl, rfl, rfl, rfl⟩

section
variable {s : State} {xs : List ArmSamples} {us : Nat}

/-- The envelope and its time, as the kernel's monitor takes them. -/
def State.enveloped (s : State) (xs : List ArmSamples) (t : Nat) : State :=
  { s with saf := { s.saf with env := s.envAfter xs, iEnv := (s.envAfter xs).foldl max 0, scsUs := t } }

theorem State.scsMonitor_lost (h : s.saf.linkLost = true) : s.scsMonitor xs us = s := if_pos h

theorem State.scsMonitor_outside (hl : s.saf.linkLost = false) (hst : s.conv.state ≠ .scs) : s.scsMonitor xs us = s.enveloped xs s.saf.scsUs := by
  unfold State.scsMonitor
  rw [if_neg (by simp [hl])]
  dsimp only
  rw [if_pos hst, if_neg hst]
  rfl

/-- In SCS the envelope is judged (R297). -/
theorem State.scsMonitor_inside (hl : s.saf.linkLost = false) (hst : s.conv.state = .scs) : s.scsMonitor xs us =
    let i := (s.envAfter xs).foldl max 0
    let u := s.enveloped xs us
    if i ≤ s.cfgN Obj.SCS_END_LEVEL then u.scsEnd 0
    else if s.envelopeOut i us then u.scsEnd 1
    else if s.cfgN Obj.SCS_TMAX * 1000 ≤ us then u.scsEnd 2
    else u := by
  unfold State.scsMonitor
  rw [if_neg (by simp [hl])]
  dsimp only
  rw [if_pos hst, if_neg (not_not.mpr hst)]
  rfl

/-- One of the three conditions of R297 ends SCS. -/
theorem State.scsMonitor_ends (hl : s.saf.linkLost = false) (hst : s.conv.state = .scs)
    (h : (s.envAfter xs).foldl max 0 ≤ s.cfgN Obj.SCS_END_LEVEL ∨ s.cfgN Obj.SCS_TMAX * 1000 ≤ us ∨
      s.envelopeOut ((s.envAfter xs).foldl max 0) us = true) : ∃ n, s.scsMonitor xs us = (s.enveloped xs us).scsEnd n := by
  rw [State.scsMonitor_inside hl hst]
  dsimp only
  split
  · exact ⟨0, rfl⟩
  next hlevel =>
    split
    · exact ⟨1, rfl⟩
    next hline =>
      obtain h | h | h := h
      · exact absurd h hlevel
      · exact ⟨2, if_pos h⟩
      · exact absurd h hline

theorem State.scsMonitor_stays (hl : s.saf.linkLost = false) (hst : s.conv.state = .scs)
    (hi : s.cfgN Obj.SCS_END_LEVEL < (s.envAfter xs).foldl max 0) (hus : us < s.cfgN Obj.SCS_TMAX * 1000)
    (ho : s.envelopeOut ((s.envAfter xs).foldl max 0) us = false) : s.scsMonitor xs us = s.enveloped xs us := by
  rw [State.scsMonitor_inside hl hst]
  dsimp only
  rw [if_neg (Nat.not_le.mpr hi), if_neg (by simp [ho]), if_neg (Nat.not_le.mpr hus)]

theorem State.linkLost_loses (h : 10 ≤ us) :
    s.linkLost us = State.scsEnd { s with saf := { s.saf with linkLost := true, iEnv := 0, env := [] } } 4 := if_neg (Nat.not_lt.mpr h)

theorem State.linkLost_idle (h : us < 10) : s.linkLost us = s := if_pos h

theorem State.linkRestored_restores (h : 10 ≤ us) : s.linkRestored us = { s with saf := { s.saf with linkLost := false } } :=
  if_neg (Nat.not_lt.mpr h)

theorem State.linkRestored_idle (h : us < 10) : s.linkRestored us = s := if_pos h

/-! ### The key and the session (R309) -/

theorem State.keyChange_opens (hk : s.saf.keyClosed = true) (hs : s.saf.session = true) (hms : 20 ≤ us) : s.keyChange false us =
    State.post { s with saf := { s.saf with keyClosed := false, session := false, staged := [] } } 0x2910 0xFF [0] := by
  unfold State.keyChange
  rw [if_neg (by simp [hk, hms])]
  exact if_pos hs

theorem State.keyChange_closes (hk : s.saf.keyClosed = false) (hms : 20 ≤ us) :
    s.keyChange true us = { s with saf := { s.saf with keyClosed := true } } := by
  unfold State.keyChange
  rw [if_neg (by simp [hk, hms])]
  rfl

/-- The effect of 600 s without a command. -/
def State.inactive (s : State) (n : Nat) : State := if n < 600 then s else s.sessionAbort 1

theorem State.inactive_discards (hs : s.saf.session = true) (hn : 600 ≤ us) :
    s.inactive us = State.post { s with saf := { s.saf with session := false, staged := [] } } 0x2910 0xFF [1] := by
  unfold State.inactive
  rw [if_neg (Nat.not_lt.mpr hn)]
  exact if_pos hs

theorem State.inactive_idle (h : s.saf.session = false ∨ us < 600) : s.inactive us = s := by
  unfold State.inactive State.sessionAbort
  obtain h | h := h
  · rw [h]
    split <;> rfl
  · exact if_pos h

end

/-- Settles O50: the monitor's conditions and the lost link end SCS (`next_scsEnd`); the key and the inactivity discard the session. -/
theorem scsEndsInPulseRemoval : Obligations.ScsEndsInPulseRemoval := by
  unfold Obligations.ScsEndsInPulseRemoval
  intro s hs
  refine ⟨fun xs us hl => ⟨fun hst he => ⟨fun h => ?_, fun hi hus ho => ?_⟩, fun hst => ?_⟩, fun xs us hl => ?_, fun us hus he => ⟨fun hst => ?_, fun hst => ?_⟩,
    fun us h => ?_, fun ms h => ?_, fun ms h => ?_, fun ms hk hses hms => ?_, fun ms hk hms => ?_, fun n hses hn => ?_, fun n h => ?_⟩
  · obtain ⟨n, hn⟩ := State.scsMonitor_ends (s := s.clearOut) (xs := xs) (us := us) hl hst h
    obtain ⟨t, hexec, hconv, hdemand, hopen, hobjs, henv, hi, hus, -⟩ :=
      next_scsEnd (c := .scsMonitorCheck xs us) (k := (s.clearOut.enveloped xs us).saf) (E := (·.scsMonitor xs us)) hs rfl (hn.trans (State.scsEnd_ends n hst he)) rfl
    exact ⟨t, hexec, hconv, hdemand, hopen, henv, hi, hus, hobjs⟩
  · exact does_safe (c := .scsMonitorCheck xs us) (E := (·.scsMonitor xs us)) hs rfl (State.scsMonitor_stays (s := s.clearOut) hl hst hi hus ho) hs.clearOut
  · exact does_safe (c := .scsMonitorCheck xs us) (E := (·.scsMonitor xs us)) hs rfl (State.scsMonitor_outside (s := s.clearOut) hl hst) hs.clearOut
  · exact idles_safe (E := (·.scsMonitor xs us)) hs rfl (State.scsMonitor_lost (s := s.clearOut) hl)
  · obtain ⟨t, hexec, hconv, hdemand, hopen, hobjs, henv, hi, -, hlost⟩ :=
      next_scsEnd (c := .sampleLinkLost us) (k := { s.saf with linkLost := true, iEnv := 0, env := [] }) (E := (·.linkLost us)) hs rfl
        ((State.linkLost_loses (s := s.clearOut) hus).trans (State.scsEnd_ends 4 hst he)) rfl
    exact ⟨t, hexec, hlost, hi, henv, hconv, hdemand, hopen, hobjs⟩
  · exact does_safe (E := (·.linkLost us)) hs rfl ((State.linkLost_loses (s := s.clearOut) hus).trans (State.scsEnd_idle 4 hst)) hs.clearOut
  · exact idles_safe (E := (·.linkLost us)) hs rfl (State.linkLost_idle (s := s.clearOut) h)
  · exact does_safe (E := (·.linkRestored ms)) hs rfl (State.linkRestored_restores (s := s.clearOut) h) hs.clearOut
  · exact idles_safe (E := (·.linkRestored ms)) hs rfl (State.linkRestored_idle (s := s.clearOut) h)
  · exact does_safe (E := (·.keyChange false ms)) hs rfl (State.keyChange_opens (s := s.clearOut) hk hses hms) (.post hs.clearOut)
  · exact does_safe (E := (·.keyChange true ms)) hs rfl (State.keyChange_closes (s := s.clearOut) hk hms) hs.clearOut
  · exact does_safe (E := (·.inactive n)) hs rfl (State.inactive_discards (s := s.clearOut) hses hn) (.post hs.clearOut)
  · exact idles_safe (E := (·.inactive n)) hs rfl (State.inactive_idle (s := s.clearOut) h)

end Sys2Proof.Machine
end

section
/-!
PROOF. Safety frames (R303 to R305): the frames the kernel sends, and the copies it pairs, accepts or discards.
-/
namespace Sys2Proof.Machine

/-! ### The bytes of a frame (R304) -/

theorem foldl_beBytes (n x a : Nat) : (beBytes n x).foldl (fun a b => a * 256 + b.toNat) a = a * 256 ^ n + x % 256 ^ n := by
  induction n generalizing a with
  | zero => simp [beBytes, Nat.mod_one]
  | succ n ih =>
    have hbyte : (BitVec.ofNat 8 (x / 256 ^ n)).toNat = x / 256 ^ n % 256 := BitVec.toNat_ofNat _ _
    rw [beBytes, List.foldl_cons, ih, hbyte, Nat.mod_pow_succ, pow_succ]
    ring

theorem beNat_beBytes (n x : Nat) : beNat (beBytes n x) = x % 256 ^ n := by
  have h := foldl_beBytes n x 0
  rw [Nat.zero_mul, Nat.zero_add] at h
  exact h

section
variable (net src serial boot seq kind pr scs sender sec ns param : Nat) (crc : Word)

/-- A payload whose TX_TIME is in seconds and nanoseconds. -/
def sfTimed (net src serial boot seq kind pr scs sender sec ns param : Nat) (crc : Word) : List Byte :=
  sfPayload net src serial boot seq kind pr scs sender (beBytes 6 sec ++ beBytes 4 ns) param crc

theorem sfTimed_length : (sfTimed net src serial boot seq kind pr scs sender sec ns param crc).length = 46 := rfl

theorem sfTimed_net : sfByte (sfTimed net src serial boot seq kind pr scs sender sec ns param crc) 2 1 = net % 256 :=
  beNat_beBytes 1 net

theorem sfTimed_seq : sfSeq (sfTimed net src serial boot seq kind pr scs sender sec ns param crc) = seq % 2 ^ 32 :=
  beNat_beBytes 4 seq

theorem sfTimed_kind : sfByte (sfTimed net src serial boot seq kind pr scs sender sec ns param crc) 14 1 = kind % 256 :=
  beNat_beBytes 1 kind

theorem sfTimed_pr : sfByte (sfTimed net src serial boot seq kind pr scs sender sec ns param crc) 15 1 = pr % 256 :=
  beNat_beBytes 1 pr

theorem sfTimed_scs : sfByte (sfTimed net src serial boot seq kind pr scs sender sec ns param crc) 16 1 = scs % 256 :=
  beNat_beBytes 1 scs

theorem sfTimed_crc : sfByte (sfTimed net src serial boot seq kind pr scs sender sec ns param crc) 32 4 = crc.toNat :=
  (beNat_beBytes 4 crc.toNat).trans (Nat.mod_eq_of_lt crc.isLt)

/-- The check does not cover NET, TX_TIME and itself. -/
theorem sfTimed_masked : sfMasked (sfTimed net src serial boot seq kind pr scs sender sec ns param crc) =
    beBytes 2 1 ++ [0] ++ (beBytes 1 src ++ beBytes 4 serial ++ beBytes 2 boot ++ beBytes 4 seq ++ beBytes 1 kind ++ beBytes 1 pr ++ beBytes 1 scs ++
      beBytes 1 sender) ++ List.replicate 10 0 ++ beBytes 4 param := rfl

end

theorem sfFrame_destination (p : List Byte) : (sfFrame p).take 6 = [0x03, 0x4C, 0x47, 0x53, 0x46, 0x00] := rfl

theorem sfFrame_rest (p : List Byte) : (sfFrame p).drop 12 = [0x88, 0xB5] ++ p := rfl

/-! ### The periodic frame (R303) -/

/-- The kernel's payload is a timed one, whose check agrees. -/
theorem State.sfOut_timed (s : State) (kind net : Nat) : ∃ sec ns : Nat, ∃ crc : Word, s.sfOut kind net =
    sfTimed net s.train.addr Config.serial.toNat s.saf.boot s.saf.txSeq kind s.outPr s.outScs (convCode s.conv.state + 8 * b2n s.kernelFault) sec ns
      s.paramCrc.toNat crc ∧ s.sfCrc (s.sfOut kind net) = crc := by
  refine ⟨_, _, _, rfl, ?_⟩
  unfold State.sfCrc
  refine congrArg _ ?_
  exact (sfTimed_masked ..).trans (sfTimed_masked ..).symm

/-- The fields of the kernel's payload of kind 0 on a network. -/
theorem State.sfOut_fields (s : State) (net : Nat) : let p := s.sfOut 0 net
    p.length = 46 ∧ sfSeq p = s.saf.txSeq % 2 ^ 32 ∧ sfByte p 14 1 = 0 ∧ sfByte p 15 1 = s.outPr % 256 ∧ sfByte p 16 1 = s.outScs % 256 ∧
      sfByte p 32 4 = (s.sfCrc p).toNat ∧ sfByte p 2 1 = net % 256 := by
  obtain ⟨sec, ns, crc, hp, hcrc⟩ := s.sfOut_timed 0 net
  dsimp only
  rw [hcrc, hp]
  exact ⟨sfTimed_length .., sfTimed_seq .., sfTimed_kind .., sfTimed_pr .., sfTimed_scs .., sfTimed_crc .., sfTimed_net ..⟩

theorem State.sfOut_masked (s : State) (kind n m : Nat) : sfMasked (s.sfOut kind n) = sfMasked (s.sfOut kind m) := by
  obtain ⟨_, _, _, hn, -⟩ := s.sfOut_timed kind n
  obtain ⟨_, _, _, hm, -⟩ := s.sfOut_timed kind m
  rw [hn, hm, sfTimed_masked, sfTimed_masked]

theorem State.sfPeriodic_sends {s : State} (hon : s.cfgB Obj.SF_ENABLE = true)
    (hdue : ∀ a : Nat, s.saf.sfAt = some a → a + 4 * s.cfgN Obj.SF_PERIOD ≤ s.pwr.uptimeTicks) :
    s.sfPeriodic = State.sfSend { s with saf := { s.saf with sfAt := some s.pwr.uptimeTicks } } 0 := by
  have hd : s.sfDue = true := by
    unfold State.sfDue
    cases hat : s.saf.sfAt with
    | none => simp
    | some a => simp [hdue a hat]
  unfold State.sfPeriodic
  exact if_pos (by simp [hon, hd])

theorem State.sfPeriodic_idle {s : State} (ht : s.ticking = true)
    (h : s.cfgB Obj.SF_ENABLE = false ∨ ∃ a : Nat, s.saf.sfAt = some a ∧ s.pwr.uptimeTicks < a + 4 * s.cfgN Obj.SF_PERIOD) : s.sfPeriodic = s := by
  unfold State.sfPeriodic State.sfDue
  refine if_neg ?_
  obtain h | ⟨a, hat, h⟩ := h
  · simp [h]
  · simp [hat, ht, h]

/-! ### A producer's account (R305) -/

/-- What a producer demands. -/
def Producer.demands (x : Producer) : Bool × Bool × Bool := (x.pr, x.scs, x.watchdog)

theorem State.setProducer_demandSources (s : State) (a : Nat) {g : Producer → Producer} (hg : ∀ x, (g x).demands = x.demands) :
    (s.setProducer a g).demandSources = s.demandSources := by
  have hview : ∀ b, ((s.setProducer a g).producer b).demands = (s.producer b).demands := fun b => modifyAt_view Producer.demands g hg _ _ _ _
  have hpr : ∀ b, ((s.setProducer a g).producer b).pr = (s.producer b).pr := fun b => congrArg (·.1) (hview b)
  have hscs : ∀ b, ((s.setProducer a g).producer b).scs = (s.producer b).scs := fun b => congrArg (·.2.1) (hview b)
  have hwd : ∀ b, ((s.setProducer a g).producer b).watchdog = (s.producer b).watchdog := fun b => congrArg (·.2.2) (hview b)
  unfold State.demandSources
  simp only [hpr, hscs, hwd]
  rfl

theorem State.setProducer_other (s : State) {a b : Nat} (g : Producer → Producer) (h : b ≠ a) : (s.setProducer a g).producer b = s.producer b :=
  getD_modify_other _ _ _ _ _ h

/-- Two changes of an account that agree on it are one. -/
theorem State.setProducer_congr (s : State) (a : Nat) (g k : Producer → Producer) (h : g (s.producer a) = k (s.producer a)) :
    s.setProducer a g = s.setProducer a k := by
  have hlist : s.saf.producers.modify a g = s.saf.producers.modify a k := by
    refine List.ext_getElem? fun n => ?_
    rw [List.getElem?_modify, List.getElem?_modify]
    cases hn : s.saf.producers[n]? with
    | none => rfl
    | some x =>
      by_cases hna : a = n
      · have hx : s.producer a = x := by
          unfold State.producer
          rw [hna, List.getD_eq_getElem?_getD, hn]
          rfl
        simpa [hna, ← hx] using h
      · simp [hna]
  unfold State.setProducer modifyAt
  rw [hlist]

/-- The kernel's counters of discarded copies. -/
def Safety.rejects (k : Safety) : Nat × Nat × Nat × Nat := (k.rxSingle, k.rxDisagree, k.rxCrc, k.rxSeq)

theorem State.post_demandSources (s : State) (c i : Nat) (d : List Byte) : (s.post c i d).demandSources = s.demandSources := by
  unfold State.post
  rw [State.postAt_eq]
  rfl

/-- A discarded copy is counted, and changes no demand. -/
theorem State.sfReject_keeps (s : State) (a n : Nat) (b : Bool) : (s.sfReject a n b).demandSources = s.demandSources ∧
    (s.sfReject a n b).objs = s.objs ∧ (s.sfReject a n b).saf.rejectRos = true ∧
    (s.sfReject a n b).saf.rejects = (s.saf.rxSingle + b2n (n = 0), s.saf.rxDisagree + b2n (n = 1), s.saf.rxCrc + b2n (n = 2), s.saf.rxSeq + b2n (n = 3)) ∧
    (s.sfReject a n b).saf.producers.length = s.saf.producers.length := by
  unfold State.sfReject
  dsimp only
  rw [State.post_demandSources, State.post_objs, State.post_saf]
  exact ⟨State.setProducer_demandSources _ a fun _ => rfl, rfl, rfl, rfl, State.setProducer_length _ _ _⟩

/-- What a copy that is discarded leaves: its producer's account, the counters, and no other demand. -/
structure State.Discards (s f : State) (a : Nat) (x : Producer) (counts : Nat × Nat × Nat × Nat) : Prop where
  awake : f.Awake
  account : f.producer a = x
  counted : f.saf.rejects = counts
  flagged : f.saf.rejectRos = true
  demands : f.demandSources = s.demandSources
  objs : f.objs = s.objs

/-- The producer's account and the counters at the end of the command. -/
theorem next_discards {c : Instr} {s f : State} {a : Nat} {x : Producer} {n : Nat × Nat × Nat × Nat} (hd : s.clearOut.Discards f a x n)
    (h : Does c s f) : ∃ t, exec c s = .next t ∧ t.producer a = x ∧ t.saf.rejects = n ∧ t.saf.rejectRos = true ∧
      t.demandSources = s.demandSources ∧ t.objs = s.objs := by
  obtain ⟨-, haccount, hcounted, hflagged, hdemands, hobjs⟩ := hd
  obtain ⟨t, hexec, he⟩ := h
  refine ⟨t, hexec, (he.producer_eq a).trans haccount, ?_, ?_, he.demandSources_eq.trans hdemands, he.objs_eq.trans hobjs⟩
  · rw [he.frame]
    exact hcounted
  · rw [he.frame]
    exact hflagged

section
variable {s : State} {a n : Nat} {b : Bool}

theorem State.sfReject_discards (hs : s.Awake) (ha : a < s.saf.producers.length) : s.Discards (s.sfReject a n b) a { s.producer a with good := 0 }
    (s.saf.rxSingle + b2n (n = 0), s.saf.rxDisagree + b2n (n = 1), s.saf.rxCrc + b2n (n = 2), s.saf.rxSeq + b2n (n = 3)) := by
  obtain ⟨hdemands, hobjs, hflag, hcount, -⟩ := s.sfReject_keeps a n b
  exact ⟨.sfReject hs, s.producer_sfReject_same n b ha, hcount, hflag, hdemands, hobjs⟩

/-- A waiting copy leaves, and is discarded. -/
theorem State.leaves_discards {g : Producer → Producer} (hs : s.Awake) (ha : a < s.saf.producers.length) (hg : ∀ x, (g x).demands = x.demands) :
    s.Discards ((s.setProducer a g).sfReject a n b) a { g (s.producer a) with good := 0 }
      (s.saf.rxSingle + b2n (n = 0), s.saf.rxDisagree + b2n (n = 1), s.saf.rxCrc + b2n (n = 2), s.saf.rxSeq + b2n (n = 3)) := by
  have hd := State.sfReject_discards (s := s.setProducer a g) (a := a) (n := n) (b := b) (.setProducer hs) (by rwa [State.setProducer_length])
  rw [State.producer_setProducer_same s g ha] at hd
  exact ⟨hd.awake, hd.account, hd.counted, hd.flagged, hd.demands.trans (s.setProducer_demandSources a hg), hd.objs⟩

/-- The copy that came leaves too, and both are discarded. -/
theorem State.both_discards {g : Producer → Producer} {w : Bool} (hs : s.Awake) (ha : a < s.saf.producers.length)
    (hg : ∀ x, (g x).demands = x.demands) :
    s.Discards (((s.setProducer a g).sfReject a n w).sfReject a n b) a { g (s.producer a) with good := 0 }
      (s.saf.rxSingle + b2n (n = 0) + b2n (n = 0), s.saf.rxDisagree + b2n (n = 1) + b2n (n = 1), s.saf.rxCrc + b2n (n = 2) + b2n (n = 2),
        s.saf.rxSeq + b2n (n = 3) + b2n (n = 3)) := by
  have hd := State.leaves_discards (s := s) (n := n) (b := w) hs ha hg
  obtain ⟨-, -, -, -, hlen⟩ := (s.setProducer a g).sfReject_keeps a n w
  have hr := State.sfReject_discards (s := (s.setProducer a g).sfReject a n w) (a := a) (n := n) (b := b) hd.awake
    (by rwa [hlen, State.setProducer_length])
  rw [hd.account] at hr
  have hcounts := hd.counted
  simp only [Safety.rejects, Prod.mk.injEq] at hcounts
  obtain ⟨hsingle, hdis, hcrc, hseq⟩ := hcounts
  rw [hsingle, hdis, hcrc, hseq] at hr
  exact ⟨hr.awake, hr.account, hr.counted, hr.flagged, hr.demands.trans hd.demands, hr.objs.trans hd.objs⟩

/-- A copy that stays single is discarded, and the one that came waits. -/
theorem State.late_discards {g k : Producer → Producer} {w : Bool} (hs : s.Awake) (ha : a < s.saf.producers.length) (hg : ∀ x, (g x).demands = x.demands)
    (hk : ∀ x, (k x).demands = x.demands) :
    s.Discards (((s.setProducer a g).sfReject a n w).setProducer a k) a (k { g (s.producer a) with good := 0 })
      (s.saf.rxSingle + b2n (n = 0), s.saf.rxDisagree + b2n (n = 1), s.saf.rxCrc + b2n (n = 2), s.saf.rxSeq + b2n (n = 3)) := by
  have hd := State.leaves_discards (s := s) (n := n) (b := w) hs ha hg
  obtain ⟨-, -, -, -, hlen⟩ := (s.setProducer a g).sfReject_keeps a n w
  refine ⟨.setProducer hd.awake, ?_, hd.counted, hd.flagged, (State.setProducer_demandSources _ a hk).trans hd.demands, hd.objs⟩
  rw [State.producer_setProducer_same _ k (by rwa [hlen, State.setProducer_length]), hd.account]

end

/-! ### A copy arrives (R305) -/

/-- A waiting copy that leaves its producer. -/
def Producer.without (x : Producer) (w : Bool × List Byte) : Producer := { x with waiting := x.waiting.erase w }

theorem Producer.without_only {x : Producer} {w : Bool × List Byte} (h : x.waiting = [w]) : x.without w = { x with waiting := [] } := by
  unfold Producer.without
  rw [h, List.erase_cons_head]

theorem exec_sfFrameRx (s : State) (b : Bool) {p : List Byte} (us : Nat) (hwf : p.length = 46) :
    exec (.sfFrameRx b p us) s = runSafe true s fun u => u.sfRx b p us := by
  have hok : Instr.wf (.sfFrameRx b p us) = true := decide_eq_true hwf
  show runSafe (Instr.wf (.sfFrameRx b p us)) s _ = _
  rw [hok]

section
variable {s : State} {b : Bool} {p q : List Byte} {us : Nat}

theorem State.sfRx_unlisted (h : 32 ≤ sfSrc p ∨ s.isProducer (sfSrc p) = false) : s.sfRx b p us = s := by
  unfold State.sfRx
  refine if_pos ?_
  obtain h | h := h <;> simp [h]

theorem State.sfRx_corrupt (hsrc : sfSrc p < 32) (hp : s.isProducer (sfSrc p) = true) (hc : sfByte p 32 4 ≠ (s.sfCrc p).toNat) :
    s.sfRx b p us = s.sfReject (sfSrc p) 2 b := by
  unfold State.sfRx
  dsimp only
  rw [if_neg (by simp [hp, hsrc]), if_pos hc]

theorem State.sfRx_waits (hsrc : sfSrc p < 32) (hp : s.isProducer (sfSrc p) = true) (hc : sfByte p 32 4 = (s.sfCrc p).toNat)
    (hw : (s.producer (sfSrc p)).waiting = []) :
    s.sfRx b p us = s.setProducer (sfSrc p) fun x => { x with waiting := [(b, p)] } := by
  have hadds : s.setProducer (sfSrc p) (fun x => { x with waiting := x.waiting ++ [(b, p)] }) =
      s.setProducer (sfSrc p) fun x => { x with waiting := [(b, p)] } := State.setProducer_congr s _ _ _ (by rw [hw]; rfl)
  unfold State.sfRx
  dsimp only
  rw [if_neg (by simp [hp, hsrc]), if_neg (not_not.mpr hc), hw]
  exact hadds

/-- A copy whose partner waits, by whether it comes in time, agrees and lies ahead. -/
theorem State.sfRx_pairs (hsrc : sfSrc p < 32) (hp : s.isProducer (sfSrc p) = true) (hc : sfByte p 32 4 = (s.sfCrc p).toNat)
    (hw : (s.producer (sfSrc p)).waiting = [(!b, q)]) (hseq : sfSeq q = sfSeq p) : s.sfRx b p us =
      let u := s.setProducer (sfSrc p) (·.without (!b, q))
      if s.cfgN Obj.SF_ACCEPT_WIN < us then
        (u.sfReject (sfSrc p) 0 !b).setProducer (sfSrc p) fun x => { x with waiting := x.waiting ++ [(b, p)] }
      else if sfMasked q ≠ sfMasked p then (u.sfReject (sfSrc p) 1 !b).sfReject (sfSrc p) 1 b
      else if !(s.producer (sfSrc p)).ahead (sfBoot p) (sfSeq p) then (u.sfReject (sfSrc p) 3 !b).sfReject (sfSrc p) 3 b
      else u.setProducer (sfSrc p) fun x => x.take p (s.cfgN Obj.SF_GROUPS) := by
  have hfind : ((s.producer (sfSrc p)).waiting.find? fun w => w.1 != b && sfSeq w.2 == sfSeq p) = some (!b, q) := by
    simp [hw, hseq]
  unfold State.sfRx
  dsimp only
  rw [if_neg (by simp [hp, hsrc]), if_neg (not_not.mpr hc), hfind]
  rfl

theorem State.sfRx_late (hsrc : sfSrc p < 32) (hp : s.isProducer (sfSrc p) = true) (hc : sfByte p 32 4 = (s.sfCrc p).toNat)
    (hw : (s.producer (sfSrc p)).waiting = [(!b, q)]) (hseq : sfSeq q = sfSeq p) (hus : s.cfgN Obj.SF_ACCEPT_WIN < us) : s.sfRx b p us =
      ((s.setProducer (sfSrc p) (·.without (!b, q))).sfReject (sfSrc p) 0 !b).setProducer (sfSrc p) fun x => { x with waiting := x.waiting ++ [(b, p)] } :=
  (State.sfRx_pairs hsrc hp hc hw hseq).trans (if_pos hus)

theorem State.sfRx_disagrees (hsrc : sfSrc p < 32) (hp : s.isProducer (sfSrc p) = true) (hc : sfByte p 32 4 = (s.sfCrc p).toNat)
    (hw : (s.producer (sfSrc p)).waiting = [(!b, q)]) (hseq : sfSeq q = sfSeq p) (hus : us ≤ s.cfgN Obj.SF_ACCEPT_WIN)
    (hm : sfMasked q ≠ sfMasked p) : s.sfRx b p us =
      ((s.setProducer (sfSrc p) (·.without (!b, q))).sfReject (sfSrc p) 1 !b).sfReject (sfSrc p) 1 b := by
  rw [State.sfRx_pairs hsrc hp hc hw hseq]
  exact (if_neg (Nat.not_lt.mpr hus)).trans (if_pos hm)

theorem State.sfRx_behind (hsrc : sfSrc p < 32) (hp : s.isProducer (sfSrc p) = true) (hc : sfByte p 32 4 = (s.sfCrc p).toNat)
    (hw : (s.producer (sfSrc p)).waiting = [(!b, q)]) (hseq : sfSeq q = sfSeq p) (hus : us ≤ s.cfgN Obj.SF_ACCEPT_WIN)
    (hm : sfMasked q = sfMasked p) (ha : (s.producer (sfSrc p)).ahead (sfBoot p) (sfSeq p) = false) : s.sfRx b p us =
      ((s.setProducer (sfSrc p) (·.without (!b, q))).sfReject (sfSrc p) 3 !b).sfReject (sfSrc p) 3 b := by
  rw [State.sfRx_pairs hsrc hp hc hw hseq]
  exact (if_neg (Nat.not_lt.mpr hus)).trans ((if_neg (not_not.mpr hm)).trans (if_pos (by simp [ha])))

end

/-- A pair's producer is the only one whose account an accepted pair touches. -/
theorem State.pairTaken_other (s : State) (p : List Byte) (w : Bool × List Byte) {a : Nat} (h : a ≠ sfSrc p) :
    (s.pairTaken p w).producer a = s.producer a := by
  unfold State.pairTaken
  rw [State.setProducer_other _ _ h, State.setProducer_other _ _ h]

/-- Settles O51: the periodic frame's fields, and each copy's end: unlisted, corrupt, waiting, in disagreement, out of sequence, single or accepted. -/
theorem safetyFramesArePaired : Obligations.SafetyFramesArePaired := by
  unfold Obligations.SafetyFramesArePaired
  intro s hs
  refine ⟨fun hon hdue => ?_, fun h => ?_, fun b p us hwf h => ?_, fun b p us hwf hsrc hp hlen =>
    ⟨fun hc => ?_, fun hc hw => ?_, fun q hc hw hseq hus hm => ?_, fun q hc hw hseq hus hm ha => ?_, fun q hc hw hseq hus => ?_,
      fun q hc hw hm hseq hus ha => ?_⟩, fun a w ws hw hlen => ?_, fun a hw => ?_⟩
  · let u : State := { s.clearOut with saf := { s.saf with sfAt := some s.pwr.uptimeTicks } }
    obtain ⟨hlA, hsA, hkA, hpA, hcA, hcrcA, hnA⟩ := u.sfOut_fields 0
    obtain ⟨hlB, hsB, hkB, hpB, hcB, hcrcB, hnB⟩ := u.sfOut_fields 1
    refine ⟨u.sfOut 0 0, u.sfOut 0 1, does_safe hs rfl (State.sfPeriodic_sends (s := s.clearOut) hon hdue) hs.clearOut, ?_, hnA, hnB, u.sfOut_masked 0 0 1⟩
    intro p hmem
    simp only [List.mem_cons, List.not_mem_nil, or_false] at hmem
    obtain rfl | rfl := hmem
    · exact ⟨hlA, sfFrame_destination _, sfFrame_rest _, hsA, hkA, hpA, hcA, hcrcA⟩
    · exact ⟨hlB, sfFrame_destination _, sfFrame_rest _, hsB, hkB, hpB, hcB, hcrcB⟩
  · exact idles_safe hs rfl (State.sfPeriodic_idle (s := s.clearOut) hs.clearOut.ticks h)
  · exact idles_safe (E := (·.sfRx b p us)) hs (exec_sfFrameRx s b us hwf) (State.sfRx_unlisted (s := s.clearOut) h)
  · have hd := State.sfReject_discards (s := s.clearOut) (n := 2) (b := b) hs.clearOut (hlen ▸ hsrc)
    have hrx := State.sfRx_corrupt (s := s.clearOut) (b := b) (us := us) hsrc hp hc
    obtain ⟨t, hexec, hx, hn, hflag, hdem, hobjs⟩ := next_discards hd (does_safe (E := (·.sfRx b p us)) hs (exec_sfFrameRx s b us hwf) hrx hd.awake)
    exact ⟨t, hexec, congrArg (fun n => n.2.2.1) hn, hflag, hx, hdem, hobjs⟩
  · exact does_safe (E := (·.sfRx b p us)) hs (exec_sfFrameRx s b us hwf) (State.sfRx_waits (s := s.clearOut) hsrc hp hc hw) hs.clearOut.setProducer
  · have hd := State.both_discards (s := s.clearOut) (n := 1) (b := b) (w := !b) (g := (·.without (!b, q))) hs.clearOut (hlen ▸ hsrc) fun _ => rfl
    have hrx := State.sfRx_disagrees (s := s.clearOut) hsrc hp hc hw hseq hus hm
    obtain ⟨t, hexec, hx, hn, hflag, hdem, hobjs⟩ := next_discards hd (does_safe (E := (·.sfRx b p us)) hs (exec_sfFrameRx s b us hwf) hrx hd.awake)
    rw [Producer.without_only (x := s.clearOut.producer (sfSrc p)) hw] at hx
    exact ⟨t, hexec, hx, congrArg (fun n => n.2.1) hn, congrArg (fun n => n.2.2.2) hn, hflag, hdem, hobjs⟩
  · have hd := State.both_discards (s := s.clearOut) (n := 3) (b := b) (w := !b) (g := (·.without (!b, q))) hs.clearOut (hlen ▸ hsrc) fun _ => rfl
    have hrx := State.sfRx_behind (s := s.clearOut) hsrc hp hc hw hseq hus hm ha
    obtain ⟨t, hexec, hx, hn, hflag, hdem, hobjs⟩ := next_discards hd (does_safe (E := (·.sfRx b p us)) hs (exec_sfFrameRx s b us hwf) hrx hd.awake)
    rw [Producer.without_only (x := s.clearOut.producer (sfSrc p)) hw] at hx
    exact ⟨t, hexec, hx, congrArg (fun n => n.2.2.2) hn, congrArg (fun n => n.2.1) hn, hflag, hdem, hobjs⟩
  · have hd := State.late_discards (s := s.clearOut) (n := 0) (w := !b) (g := (·.without (!b, q))) (k := fun x => { x with waiting := x.waiting ++ [(b, p)] })
      hs.clearOut (hlen ▸ hsrc) (fun _ => rfl) fun _ => rfl
    have hrx := State.sfRx_late (s := s.clearOut) hsrc hp hc hw hseq hus
    obtain ⟨t, hexec, hx, hn, hflag, hdem, hobjs⟩ := next_discards hd (does_safe (E := (·.sfRx b p us)) hs (exec_sfFrameRx s b us hwf) hrx hd.awake)
    rw [Producer.without_only (x := s.clearOut.producer (sfSrc p)) hw] at hx
    exact ⟨t, hexec, hx, congrArg (·.1) hn, hflag, hdem, hobjs⟩
  · obtain ⟨t, hexec, he⟩ := does_sfFrameRx_accepted hs hwf ⟨hsrc, hp, hc, hw, hm, hseq, hus, ha⟩
    have hx := (he.producer_eq (sfSrc p)).trans (State.producer_pairTaken (s := s.clearOut) (!b, q) (hlen ▸ hsrc))
    have hleft : ((s.producer (sfSrc p)).waiting.erase (!b, q)) = [] := by
      rw [hw, List.erase_cons_head]
    have hwd : ∀ (x : Producer) (g : Nat), x.watchdog = true → (x.take p g).watchdog = decide (x.good < 2) := fun x g h => by
      rw [Producer.take_watchdog, h, Bool.true_and]
    have hcounts : t.saf.rejects = s.saf.rejects := by
      rw [he.frame]
      rfl
    refine ⟨t, hexec, ?_⟩
    rw [hx]
    exact ⟨hleft, rfl, rfl, rfl, rfl, rfl, fun h => hwd _ _ h, fun a ha => (he.producer_eq a).trans (State.pairTaken_other _ _ _ ha),
      congrArg (fun n => n.1) hcounts, congrArg (fun n => n.2.1) hcounts, congrArg (fun n => n.2.2.1) hcounts, congrArg (fun n => n.2.2.2) hcounts,
      he.conv_eq, he.objs_eq⟩
  · have hd := State.leaves_discards (s := s.clearOut) (n := 0) (b := w.1) (a := a.val) (g := fun x => { x with waiting := ws }) hs.clearOut
      (lt_of_lt_of_eq a.isLt hlen.symm) fun _ => rfl
    obtain ⟨t, hexec, hx, hn, hflag, hdem, hobjs⟩ := next_discards hd (does_sfAcceptTimeout_waiting (w := w) hs a hw)
    exact ⟨t, hexec, hx, congrArg (fun n => n.1) hn, hflag, hdem, hobjs⟩
  · have hnone : s.clearOut.sfSingle a.val = s.clearOut := by
      have hempty : (s.clearOut.producer a.val).waiting = [] := hw
      unfold State.sfSingle
      rw [hempty]
    exact idles_safe hs rfl hnone

end Sys2Proof.Machine
end

section
/-!
PROOF. The supervisor (R345, R373, R374): its watchdog, its start and the fall-back.
-/
namespace Sys2Proof.Machine

/-- The state without the host link, the transfers of tables, the release that waits for its entry, and the log. -/
def State.offHost (s : State) : State :=
  { s with host := {}, esc := { s.esc with load := none, verify := none }, pwr := { s.pwr with releasePending := false }, log := {} }

theorem State.offHost_keeps {s t : State} (h : t.offHost = s.offHost) : t.bal = s.bal ∧ t.conv = s.conv ∧ t.objs = s.objs :=
  ⟨congrArg (·.bal) h, congrArg (·.conv) h, congrArg (·.objs) h⟩

theorem State.Awake.of_offHost {s t : State} (hs : s.Awake) (h : t.offHost = s.offHost) : t.Awake := by
  obtain ⟨hreset, hpwr, hgated, hmissing⟩ := hs
  have hin : t.pwr.inReset = s.pwr.inReset := congrArg (·.pwr.inReset) h
  have hst : t.pwr.state = s.pwr.state := congrArg (·.pwr.state) h
  have hr : t.reg = s.reg := congrArg (·.reg) h
  have hk : t.saf = s.saf := congrArg (·.saf) h
  exact ⟨hin.trans hreset, hst.trans hpwr, hr ▸ hgated, hk ▸ hmissing⟩

theorem State.post_offHost (s : State) (c i : Nat) (d : List Byte) : (s.post c i d).offHost = s.offHost := by
  unfold State.post
  rw [State.postAt_eq]
  rfl

theorem State.closeSession_offHost (s : State) (id : Word) (n : Nat) : (s.closeSession id n).offHost = s.offHost := by
  unfold State.closeSession
  split
  · exact State.post_offHost _ _ _ _
  · rfl

theorem State.closeAll_offHost (s : State) (n : Nat) : (s.closeAll n).offHost = s.offHost :=
  List.foldlRecOn s.host.sessions (fun (u : State) (x : Session) => u.closeSession x.id n) (motive := fun u : State => u.offHost = s.offHost) rfl
    fun u hu x _ => (u.closeSession_offHost x.id n).trans hu

theorem State.closeSession_epoch (s : State) (id : Word) (n : Nat) : (s.closeSession id n).host.supEpoch = s.host.supEpoch := by
  unfold State.closeSession
  split
  · rw [State.post_host]
    rfl
  · rfl

theorem State.closeAll_epoch (s : State) (n : Nat) : (s.closeAll n).host.supEpoch = s.host.supEpoch :=
  List.foldlRecOn s.host.sessions (fun (u : State) (x : Session) => u.closeSession x.id n)
    (motive := fun u : State => u.host.supEpoch = s.host.supEpoch) rfl fun u hu x _ => (u.closeSession_epoch x.id n).trans hu

/-- What a start of the supervisor leaves of the host link (R373). -/
structure State.Restarted (s t : State) : Prop where
  off : t.offHost = s.offHost
  sessions : t.host.sessions = []
  pendings : t.host.pendings = []
  starting : t.host.starting = false
  epoch : t.host.supEpoch = s.host.supEpoch + 1
  mbs : t.host.mbs = List.replicate 8 {}
  fwSup : t.host.fwSup = none
  fwSk : t.host.fwSk = none
  load : t.esc.load = none

theorem State.Restarted.post {s t : State} {c i : Nat} {d : List Byte} (h : s.Restarted t) : s.Restarted (t.post c i d) := by
  obtain ⟨hoff, hsessions, hpendings, hstarting, hepoch, hmbs, hsup, hsk, hload⟩ := h
  unfold State.post
  rw [State.postAt_eq]
  exact ⟨hoff, hsessions, hpendings, hstarting, hepoch, hmbs, hsup, hsk, hload⟩

theorem State.supStart_restarts (s : State) : s.Restarted s.supStart := by
  have hoff := s.closeAll_offHost 2
  have hepoch := s.closeAll_epoch 2
  unfold State.supStart
  dsimp only
  generalize s.closeAll 2 = u at hoff hepoch
  have hemptied : s.Restarted { u with host := u.host.restarted, esc := { u.esc with load := none, verify := none } } :=
    ⟨hoff, rfl, rfl, rfl, congrArg (· + 1) hepoch, rfl, rfl, rfl, rfl⟩
  split
  · exact State.Restarted.post ⟨hoff, rfl, rfl, rfl, hemptied.epoch, rfl, rfl, rfl, rfl⟩
  · exact hemptied

theorem State.supStarted_restarts (s : State) : s.Restarted s.supStarted := by
  obtain ⟨hoff, hsessions, hpendings, hstarting, hepoch, hmbs, hsup, hsk, hload⟩ := s.supStart_restarts
  unfold State.supStarted
  dsimp only
  generalize s.supStart = u at *
  split
  · exact State.Restarted.post ⟨hoff, hsessions, hpendings, hstarting, hepoch, hmbs, hsup, hsk, hload⟩
  · exact ⟨hoff, hsessions, hpendings, hstarting, hepoch, hmbs, hsup, hsk, hload⟩

section
variable {s : State}

theorem State.supWatchdog_restarts (hr : s.pwr.inReset = false) (hs : s.host.starting = false) : s.supWatchdog =
    State.post { s with host := { s.host with
      supRestarts := s.host.supRestarts + 1, wdRuns := s.host.wdRuns + (if s.newImage then 1 else 0), starting := true } } 0x2A30 0xFF [] := by
  unfold State.supWatchdog State.serves
  exact if_pos (by simp [hr, hs])

theorem State.supWatchdog_idle (hs : s.host.starting = true) : s.supWatchdog = s := by
  unfold State.supWatchdog State.serves
  exact if_neg (by simp [hs])

/-- The effect of SUP_START. -/
def State.supStarts (s : State) : State := if s.host.starting then s.supStarted else s

theorem State.fwFallback_falls {v : Word} (hv : s.host.supFallback = some v)
    (h : (s.host.starting = true ∧ s.host.supStaged = true) ∨ 3 ≤ s.host.wdRuns) : s.fwFallback =
    State.post { s with host := { s.host with
      supRunning := v, supInactive := s.host.supRunning, supFallback := none, supStaged := false, wdRuns := 0, newSince := none, starting := true } } 0x1F08 0xFF
      (beBytes 4 s.host.supRunning.toNat ++ beBytes 4 v.toNat) := by
  have hfalls : ((s.host.starting && s.host.supStaged) || decide (3 ≤ s.host.wdRuns)) = true := by
    obtain ⟨hst, hsg⟩ | h := h
    · simp [hst, hsg]
    · simp [h]
  unfold State.fwFallback
  rw [hv]
  exact if_pos hfalls

theorem State.fwFallback_idle (h : s.host.supFallback = none ∨ (s.host.supStaged = false ∧ s.host.wdRuns < 3)) : s.fwFallback = s := by
  unfold State.fwFallback
  split
  · rfl
  next v hv =>
    refine if_neg ?_
    obtain h | ⟨hsg, hwd⟩ := h
    · rw [hv] at h
      cases h
    · simp [hsg, hwd]

end

/-- Settles O45: the watchdog and the fall-back change the host link alone; a start leaves what `State.Restarted` says. -/
theorem supervisorRestarts : Obligations.SupervisorRestarts := by
  unfold Obligations.SupervisorRestarts
  intro s hs
  refine ⟨fun hst => ?_, fun hst => ?_, fun hst => ?_, fun hst => ?_, fun v hv h => ?_, fun h => ?_⟩
  · exact does_safe hs rfl (State.supWatchdog_restarts (s := s.clearOut) hs.1 hst) (.post hs.clearOut)
  · exact idles_safe hs rfl (State.supWatchdog_idle (s := s.clearOut) hst)
  · obtain ⟨hoff, hsessions, hpendings, hstarting, hepoch, hmbs, hsup, hsk, hload⟩ := s.clearOut.supStarted_restarts
    have hstarts : s.clearOut.supStarts = s.clearOut.supStarted := if_pos hst
    obtain ⟨t, hexec, he⟩ := does_safe (c := .supStart) (E := State.supStarts) hs rfl hstarts (hs.clearOut.of_offHost hoff)
    obtain ⟨hbal, hconv, hobjs⟩ := State.offHost_keeps hoff
    refine ⟨t, hexec, ?_⟩
    rw [he.host_eq, he.esc_eq, he.bal_eq, he.conv_eq, he.objs_eq]
    refine ⟨hsessions, hpendings, hstarting, hepoch, fun n => ?_, hsup, hsk, hload, hbal, hconv, hobjs⟩
    unfold State.mbox
    rw [he.host_eq, hmbs]
    rw [List.getD_eq_getElem?_getD, List.getElem?_replicate]
    split <;> rfl
  · exact idles_safe (E := State.supStarts) hs rfl (if_neg (by
      have hserves : s.clearOut.host.starting = false := hst
      simp [hserves]))
  · exact does_safe hs rfl (State.fwFallback_falls (s := s.clearOut) hv h) (.post hs.clearOut)
  · exact idles_safe hs rfl (State.fwFallback_idle (s := s.clearOut) h)

end Sys2Proof.Machine
end

section
/-!
PROOF. Sessions of the host link (R353 to R355): HELLO, PROVE, and how a session closes.
-/
namespace Sys2Proof.Machine

/-! ### Commands of the host that start none of a mailbox -/

theorem State.MailIdle.done {s : State} (h : s.MailIdle) : s.MailDone := fun n => ⟨(h n).1, (h n).2.2⟩

/-- Nothing waits in a mailbox where the mailboxes stay and no session closes. -/
theorem State.MailDone.stays {s t : State} (h : s.MailDone) (hm : t.host.mbs = s.host.mbs) (ho : ∀ o, s.isOpen o = true → t.isOpen o = true) :
    t.MailDone := fun n => by
  have hbox : t.mbox n = s.mbox n := by
    unfold State.mbox
    rw [hm]
  rw [hbox]
  exact ⟨(h n).1, fun o hown => ho o ((h n).2 o hown)⟩

theorem State.isOpen_congr {s t : State} (h : t.host.sessions = s.host.sessions) (o : Word) : t.isOpen o = s.isOpen o := by
  unfold State.isOpen State.session
  rw [h]

theorem State.MailIdle.clearOut {s : State} (h : s.MailIdle) : s.clearOut.MailIdle := h

/-- A command of the host after which no mailbox has a command to start. -/
theorem does_mail {c : Instr} {s f : State} {E : State → State} (hs : s.Awake) (hc : exec c s = runHost true s E) (hE : E s.clearOut = f)
    (hm : f.MailDone) (hf : f.Awake) : Does c s f :=
  does_host hs hc (by rw [hE, State.pump_done f hm]) hf

theorem idles_mail {c : Instr} {s : State} {E : State → State} (hs : s.Awake) (hm : s.MailIdle) (hc : exec c s = runHost true s E)
    (hE : E s.clearOut = s.clearOut) : Idles c s := does_mail hs hc hE hm.clearOut.done hs.clearOut

theorem State.serves_of_awake {s : State} (hs : s.Awake) (h : s.host.starting = false) : s.serves = true := by
  obtain ⟨hreset, -⟩ := hs
  simp [State.serves, h, hreset]

/-- The effect of a command that acts while the supervisor serves. -/
def State.served (E : State → State) (s : State) : State := if s.serves then E s else s

theorem State.served_eq {E : State → State} {s : State} (h : s.serves = true) : State.served E s = E s := if_pos h

/-! ### The opening (R354) -/

section
variable {s : State}

theorem State.hello_challenges {x : HelloFrame} {slot : Byte} (hslot : slot.toNat ≤ 1) (hn : s.sessionsHeld < 4) (hout : s.host.out = []) :
    s.hello x slot = { s.fresh with host := { s.host with
      asker := x.peer, pendings := s.host.pendings ++ [{ id := s.newSession, ro := slot = 1, nh := x.nh, nm := s.newNonce }]
      out := [.challenge s.newSession s.newNonce] } } := by
  have hheld : ¬ 4 ≤ (s.asked x.peer).sessionsHeld := Nat.not_le.mpr hn
  have hemit : ∀ (h : HostLink) (o : HostOut), h.out = [] → State.emit { s.fresh with host := h } o = { s.fresh with host := { h with out := [o] } } :=
    fun h o ho => by
      unfold State.emit
      dsimp only
      rw [ho]
      rfl
  unfold State.hello
  dsimp only
  rw [if_neg (Nat.not_lt.mpr hslot), if_neg hheld]
  exact hemit _ _ hout

theorem State.hello_busy {x : HelloFrame} {slot : Byte} (hslot : slot.toNat ≤ 1) (hn : 4 ≤ s.sessionsHeld) (hout : s.host.out = []) :
    s.hello x slot = { s with host := { s.host with asker := x.peer, out := [.error 0 0x01] } } := by
  have hheld : 4 ≤ (s.asked x.peer).sessionsHeld := hn
  unfold State.hello
  dsimp only
  rw [if_neg (Nat.not_lt.mpr hslot), if_pos hheld]
  unfold State.emit State.asked
  dsimp only
  rw [hout]
  rfl

theorem State.prove_opens {id : Word} {mac : List Byte} {ip : Peer} {p : PendingSession} (hout : s.host.out = [])
    (hp : s.host.pendings.find? (fun p => p.id == id) = some p) (hm : mac = hmac (s.host.key p.ro) (proveText ++ p.nh ++ p.nm)) :
    s.prove id mac ip = State.post { s with host := { s.host with
      asker := ip, pendings := s.host.pendings.filter fun q => q.id ≠ id
      sessions := s.host.sessions ++ [{ id := id, ro := p.ro, key := s.sessionKey p, lastSeq := 0, peer := ip }]
      out := [.welcome id (hmac (s.host.key p.ro) (welcomeText ++ p.nm ++ p.nh))] } } 0x1F01 0xFF (beBytes 4 id.toNat ++ [BitVec.ofNat 8 (b2n p.ro)]) := by
  have hpending : (s.asked ip).host.pendings.find? (fun p => p.id == id) = some p := hp
  have hproof : ¬ mac ≠ (s.asked ip).proveMac p := not_not.mpr hm
  unfold State.prove
  dsimp only
  rw [hpending]
  dsimp only
  rw [if_neg hproof]
  unfold State.emit State.dropPending State.asked
  dsimp only
  rw [hout]
  rfl

theorem State.prove_refuses {id : Word} {mac : List Byte} {ip : Peer} {p : PendingSession} (hout : s.host.out = [])
    (hp : s.host.pendings.find? (fun p => p.id == id) = some p) (hm : mac ≠ hmac (s.host.key p.ro) (proveText ++ p.nh ++ p.nm)) :
    s.prove id mac ip = State.post { s with host := { s.host with
      asker := ip, pendings := s.host.pendings.filter fun q => q.id ≠ id, authFail := s.host.authFail + 1
      out := [.error id 0x09] } } 0x1F03 0xFF (beBytes 4 ip.ip.toNat) := by
  have hpending : (s.asked ip).host.pendings.find? (fun p => p.id == id) = some p := hp
  have hproof : mac ≠ (s.asked ip).proveMac p := hm
  unfold State.prove
  dsimp only
  rw [hpending]
  dsimp only
  rw [if_pos hproof]
  unfold State.emit State.dropPending State.asked
  dsimp only
  rw [hout]
  rfl

end

/-! ### The close (R355) -/

/-- The session is closed, its mailboxes are free, and nothing of another session has changed. -/
structure State.Closes (s : State) (id : Word) (f : State) : Prop where
  off : f.offHost = s.offHost
  closed : f.isOpen id = false
  others : ∀ o, o ≠ id → f.session o = s.session o
  mbox : ∀ k, f.mbox k = if (s.mbox k).owner = some id then { s.mbox k with owner := none } else s.mbox k

theorem Mailbox.release_idle {m : Mailbox} {o : Word} {p : Word → Bool} (hq : m.queue = []) (hr : m.running = none) (ho : m.owner = some o) :
    m.release p = if p o then m else { m with owner := none } := by
  unfold Mailbox.release
  rw [ho]
  dsimp only
  rw [hq, hr]
  cases p o <;> rfl

theorem State.closeSession_closes {s : State} {id : Word} {n : Nat} (hm : s.MailIdle) (ho : s.isOpen id = true) : s.Closes id (s.closeSession id n) := by
  let u : State := { s with host := { s.host with sessions := s.host.sessions.filter (fun x => x.id ≠ id)
                                                  gone := s.host.gone ++ s.host.sessions.filter fun (x : Session) => x.id = id } }
  have hclose : s.closeSession id n = u.releaseMbs.post 0x1F02 noInst (beBytes 4 id.toNat ++ [BitVec.ofNat 8 n]) := if_pos ho
  have hhost : (s.closeSession id n).host = u.releaseMbs.host := by rw [hclose, State.post_host]
  have hsession : ∀ o, (s.closeSession id n).session o = (s.host.sessions.filter (fun x => x.id ≠ id)).find? fun x => x.id == o := fun o => by
    unfold State.session
    rw [hhost]
    rfl
  have hclosed : u.isOpen id = false := by
    have hnone : u.session id = none := by
      refine List.find?_eq_none.mpr fun x hx => ?_
      have hne := (List.mem_filter.mp hx).2
      simpa using hne
    unfold State.isOpen
    rw [hnone]
    rfl
  have hothers : ∀ o, o ≠ id → (s.host.sessions.filter (fun x => x.id ≠ id)).find? (fun x => x.id == o) = s.session o := fun o hne => by
    rw [List.find?_filter]
    refine List.find?_congr fun x _ => ?_
    by_cases hx : x.id = o
    · simp [hx, hne]
    · simp [hx]
  refine ⟨s.closeSession_offHost id n, ?_, fun o hne => (hsession o).trans (hothers o hne), fun k => ?_⟩
  · unfold State.isOpen at hclosed ⊢
    rw [hsession id]
    exact hclosed
  · have hbox : (s.closeSession id n).mbox k = (s.mbox k).release u.isOpen := by
      unfold State.mbox
      rw [hhost]
      show (s.host.mbs.map (Mailbox.release u.isOpen)).getD k {} = _
      rw [List.getD_eq_getElem?_getD, List.getElem?_map, List.getD_eq_getElem?_getD]
      cases s.host.mbs[k]? <;> rfl
    obtain ⟨hq, hr, hopen⟩ := hm k
    rw [hbox]
    cases hown : (s.mbox k).owner with
    | none =>
      rw [if_neg (by simp)]
      unfold Mailbox.release
      rw [hown]
    | some o =>
      rw [Mailbox.release_idle hq hr hown]
      by_cases hoi : o = id
      · rw [hoi, hclosed]
        simp
      · have hstays : u.isOpen o = true := by
          have hso : u.session o = s.session o := hothers o hoi
          unfold State.isOpen
          rw [hso]
          exact hopen o hown
        rw [hstays, if_pos rfl, if_neg (by simp [hoi])]

theorem State.Closes.done {s f : State} {id : Word} (h : s.Closes id f) (hm : s.MailIdle) : f.MailDone := fun n => by
  obtain ⟨hq, -, hopen⟩ := hm n
  rw [h.mbox n]
  split
  · exact ⟨hq, fun o ho => by cases ho⟩
  next hne =>
    refine ⟨hq, fun o ho => ?_⟩
    have hoi : o ≠ id := fun heq => hne (heq ▸ ho)
    unfold State.isOpen
    rw [h.others o hoi]
    exact hopen o ho

/-- A command that closes a session, at its end. -/
theorem next_closes {c : Instr} {s u f : State} {id : Word} {E : State → State} (hs : s.Awake) (hc : exec c s = runHost true s E)
    (hE : E s.clearOut = f) (hu : u.Awake) (hm : u.MailIdle) (h : u.Closes id f) (hsessions : ∀ o, o ≠ id → u.session o = s.session o)
    (hmbs : u.host.mbs = s.host.mbs) (hconv : u.conv = s.conv) (hobjs : u.objs = s.objs) :
    ∃ t, exec c s = .next t ∧ t.isOpen id = false ∧ (∀ o, o ≠ id → t.session o = s.session o) ∧
      (∀ k : Nat, t.mbox k = if (s.mbox k).owner = some id then { s.mbox k with owner := none } else s.mbox k) ∧ t.conv = s.conv ∧ t.objs = s.objs := by
  obtain ⟨t, hexec, he⟩ := does_mail hs hc hE (h.done hm) (hu.of_offHost h.off)
  obtain ⟨-, hfconv, hfobjs⟩ := State.offHost_keeps h.off
  have hbox : ∀ k, u.mbox k = s.mbox k := fun k => by
    unfold State.mbox
    rw [hmbs]
  have hsession : ∀ o, t.session o = f.session o := fun o => by
    unfold State.session
    rw [he.host_eq]
  have htbox : ∀ k, t.mbox k = f.mbox k := fun k => by
    unfold State.mbox
    rw [he.host_eq]
  refine ⟨t, hexec, ?_, fun o ho => ?_, fun k => ?_, (he.conv_eq.trans hfconv).trans hconv, (he.objs_eq.trans hfobjs).trans hobjs⟩
  · unfold State.isOpen
    rw [hsession]
    exact h.closed
  · rw [hsession, h.others o ho, hsessions o ho]
  · rw [htbox, h.mbox k, hbox]

theorem State.tookFrame_other (s : State) {id o : Word} (seq : FrameNo) (h : o ≠ id) : (s.tookFrame id seq).session o = s.session o := by
  have hview : ∀ l : List Session, (l.map fun x => if x.id = id then { x with lastSeq := seq.n, peer := seq.peer } else x).find? (fun x => x.id == o) =
      l.find? fun x => x.id == o := fun l => by
    induction l with
    | nil => rfl
    | cons x l ih =>
      rw [List.map_cons, List.find?_cons, List.find?_cons]
      by_cases hx : x.id = id
      · have hne : (x.id == o) = false := by simp [hx, h.symm]
        rw [if_pos hx]
        dsimp only
        rw [hne]
        exact ih
      · rw [if_neg hx, ih]
  exact hview s.host.sessions

theorem State.MailIdle.tookFrame {s : State} (id : Word) (seq : FrameNo) (h : s.MailIdle) : (s.tookFrame id seq).MailIdle := fun n => by
  obtain ⟨hq, hr, hopen⟩ := h n
  refine ⟨hq, hr, fun o ho => ?_⟩
  unfold State.isOpen
  rw [State.session_tookFrame]
  exact hopen o ho

/-- A frame of an open session whose SEQ is new is handled (R353, R355). -/
theorem State.frame_new {s : State} {id : Word} {seq : FrameNo} {x : Session} {k : Session → State → State} (hs : s.serves = true)
    (hx : s.session id = some x) (hn : x.lastSeq < seq.n) : s.frame id seq k = k x (s.tookFrame id seq) := by
  unfold State.frame
  rw [hs, hx]
  exact if_neg (Nat.not_le.mpr hn)

theorem State.frame_old {s : State} {id : Word} {seq : FrameNo} {x : Session} {k : Session → State → State} (hs : s.serves = true)
    (hx : s.session id = some x) (hn : seq.n ≤ x.lastSeq) :
    s.frame id seq k = { s with host := { s.host with replay := s.host.replay + 1 } } := by
  unfold State.frame
  rw [hs, hx]
  exact if_pos hn

theorem State.sessionIdle_waits {s : State} {id : Word} {n : Nat} (h : n < s.cfgN Obj.HL_SESSION_TIMEOUT) : s.sessionIdle id n = s :=
  if_neg (by simp [Nat.not_le.mpr h])

theorem State.sessionIdle_closes {s : State} {id : Word} {n : Nat} (hs : s.serves = true) (h : s.cfgN Obj.HL_SESSION_TIMEOUT ≤ n) :
    s.sessionIdle id n = s.closeSession id 1 := if_pos (by simp [hs, h])

theorem exec_hello {s : State} {x : HelloFrame} {slot : Byte} (hwf : Instr.wf (.hello x slot) = true) :
    exec (.hello x slot) s = runHost true s (State.served (·.hello x slot)) := by
  show runHost (Instr.wf (.hello x slot)) s _ = _
  rw [hwf]
  rfl

theorem exec_prove {s : State} {id : Word} {mac : List Byte} {ip : Peer} (hwf : Instr.wf (.prove id mac ip) = true) :
    exec (.prove id mac ip) s = runHost true s (State.served (·.prove id mac ip)) := by
  show runHost (Instr.wf (.prove id mac ip)) s _ = _
  rw [hwf]
  rfl

/-- A session that is opened closes none. -/
theorem State.isOpen_append {s t : State} {xs : List Session} (h : t.host.sessions = s.host.sessions ++ xs) (o : Word) (ho : s.isOpen o = true) :
    t.isOpen o = true := by
  unfold State.isOpen State.session at *
  rw [h, List.find?_append]
  cases hf : s.host.sessions.find? fun x => x.id == o with
  | none =>
    rw [hf] at ho
    cases ho
  | some x => rfl

theorem State.post_done {s : State} {c i : Nat} {d : List Byte} (h : s.MailDone) : (s.post c i d).MailDone :=
  h.stays (by rw [State.post_host]) fun o ho => (State.isOpen_congr (by rw [State.post_host]) o).trans ho

/-- Settles O53: HELLO and PROVE by their own rules; a close, however it comes, is `State.Closes`; bad datagrams are counted. -/
theorem sessionsOpenAndClose : Obligations.SessionsOpenAndClose := by
  unfold Obligations.SessionsOpenAndClose
  intro s hs hst hm
  have hserves := State.serves_of_awake (s := s.clearOut) hs.clearOut hst
  have hdone := hm.clearOut.done
  refine ⟨fun x slot hwf hslot => ⟨fun hn => ?_, fun hn => ?_⟩, fun id mac ip p hwf hp => ⟨fun hmac => ?_, fun hmac => ?_⟩, fun id => ?_,
    fun id n => ⟨fun hn => ?_, fun hn ho => ?_⟩, fun id seq x hx => ⟨fun hn => ?_, fun hn => ?_⟩, fun id ip => ⟨?_, ?_, ?_, ?_⟩⟩
  · obtain ⟨hne, hclosed⟩ := State.newSession_not_open s hn
    exact ⟨hne, hclosed, does_mail hs (exec_hello hwf) ((State.served_eq hserves).trans (State.hello_challenges (s := s.clearOut) hslot hn rfl))
      (hdone.stays rfl fun _ h => h) hs.clearOut⟩
  · exact does_mail hs (exec_hello hwf) ((State.served_eq hserves).trans (State.hello_busy (s := s.clearOut) hslot hn rfl)) (hdone.stays rfl fun _ h => h) hs.clearOut
  · exact does_mail hs (exec_prove hwf) ((State.served_eq hserves).trans (State.prove_opens (s := s.clearOut) rfl hp hmac))
      (State.post_done (hdone.stays rfl (State.isOpen_append rfl))) (.post hs.clearOut)
  · exact does_mail hs (exec_prove hwf) ((State.served_eq hserves).trans (State.prove_refuses (s := s.clearOut) rfl hp hmac))
      (State.post_done (hdone.stays rfl fun _ h => h)) (.post hs.clearOut)
  · exact does_mail (E := State.served (·.dropPending id)) hs rfl (State.served_eq hserves) (hdone.stays rfl fun _ h => h) hs.clearOut
  · exact idles_mail (E := (·.sessionIdle id n)) hs hm rfl (State.sessionIdle_waits (s := s.clearOut) hn)
  · exact next_closes (E := (·.sessionIdle id n)) hs rfl (State.sessionIdle_closes (s := s.clearOut) hserves hn) hs.clearOut hm.clearOut
      (State.closeSession_closes hm.clearOut ho) (fun _ _ => rfl) rfl rfl rfl
  · have hopen : (s.clearOut.tookFrame id seq).isOpen id = true := by
      unfold State.isOpen
      rw [State.session_tookFrame]
      have hsx : s.clearOut.session id = some x := hx
      rw [hsx]
      rfl
    have hmf := hm.clearOut.tookFrame id seq
    exact next_closes (E := fun u => u.frame id seq fun _ u => u.closeSession id 0) (u := s.clearOut.tookFrame id seq) hs rfl
      (State.frame_new (s := s.clearOut) hserves hx hn) hs.clearOut hmf (State.closeSession_closes hmf hopen)
      (fun o ho => State.tookFrame_other s.clearOut seq ho) rfl rfl rfl
  · exact does_mail (E := fun u => u.frame id seq fun _ u => u.closeSession id 0) hs rfl (State.frame_old (s := s.clearOut) hserves hx hn)
      (hdone.stays rfl fun _ h => h) hs.clearOut
  · exact does_mail (E := State.served (·.badFrame .format)) hs rfl (State.served_eq hserves) (hdone.stays rfl fun _ h => h) hs.clearOut
  · exact does_mail (E := State.served (·.badFrame .noSession)) hs rfl (State.served_eq hserves) (hdone.stays rfl fun _ h => h) hs.clearOut
  · exact does_mail (E := State.served (·.badFrame .authTag)) hs rfl (State.served_eq hserves) (hdone.stays rfl fun _ h => h) hs.clearOut
  · exact does_mail (E := State.served (·.badFrame .oldSeq)) hs rfl (State.served_eq hserves) (hdone.stays rfl fun _ h => h) hs.clearOut

end Sys2Proof.Machine
end

section
/-!
PROOF. Commands of the host that are answered as they start (R269, R271, R274, R361, R370): what a command does is told apart from its mailbox.
-/
namespace Sys2Proof.Machine

/-! ### An effect that asks no mailbox -/

/-- The state with other mailboxes. -/
def State.withMbs (s : State) (mbs : List Mailbox) : State := { s with host := { s.host with mbs := mbs } }

/-- An effect that neither asks nor changes the mailboxes and the sessions. -/
def OffMail (F : State → State) : Prop :=
  ∀ s : State, (F s).host.mbs = s.host.mbs ∧ (F s).host.sessions = s.host.sessions ∧ (F s).host.starting = s.host.starting ∧
    ∀ mbs, F (s.withMbs mbs) = (F s).withMbs mbs

theorem OffMail.runs {F : State → State} (hF : OffMail F) (s : State) (m : Msg) (op : BitVec 16) (c : HostCmd) :
    F (s.runs m op c) = (F s).runs m op c := by
  obtain ⟨hmbs, -, -, hcomm⟩ := hF s
  have hruns : s.runs m op c = s.withMbs (s.runs m op c).host.mbs := rfl
  have hlists : (s.runs m op c).host.mbs = ((F s).runs m op c).host.mbs := by
    show modifyAt s.host.mbs _ _ = modifyAt (F s).host.mbs _ _
    rw [hmbs]
  rw [hruns, hcomm, hlists]
  rfl

theorem OffMail.id : OffMail fun s => s := fun _ => ⟨rfl, rfl, rfl, fun _ => rfl⟩

section
variable {i : Instr} {s : State} {m : Msg} {op : BitVec 16} {ro : Bool} {c : HostCmd} {a : Ans}

theorem State.Awake.took (hs : s.Awake) (m : Msg) : (s.took m).Awake := ⟨hs.1, hs.2.1, hs.2.2.1, hs.2.2.2⟩

theorem State.Awake.runs (hs : s.Awake) (m : Msg) (op : BitVec 16) (c : HostCmd) : (s.runs m op c).Awake := ⟨hs.1, hs.2.1, hs.2.2.1, hs.2.2.2⟩

theorem State.answer_chr (s : State) (m : Msg) (op : BitVec 16) (a : Ans) : (s.answer m op a).chr = s.chr := rfl
theorem State.answer_conv (s : State) (m : Msg) (op : BitVec 16) (a : Ans) : (s.answer m op a).conv = s.conv := rfl
theorem State.answer_objs (s : State) (m : Msg) (op : BitVec 16) (a : Ans) : (s.answer m op a).objs = s.objs := rfl
theorem State.took_chr (s : State) (m : Msg) : (s.took m).chr = s.chr := rfl
theorem State.took_conv (s : State) (m : Msg) : (s.took m).conv = s.conv := rfl
theorem State.took_objs (s : State) (m : Msg) : (s.took m).objs = s.objs := rfl

theorem State.runs_log (s : State) (m : Msg) (op : BitVec 16) (c : HostCmd) : (s.runs m op c).log = s.log := rfl
theorem State.took_log (s : State) (m : Msg) : (s.took m).log = s.log := rfl
theorem State.log_running (s : State) (m : Msg) (op : BitVec 16) (c : HostCmd) : ((s.took m).runs m op c).log = s.log :=
  (State.runs_log ..).trans (State.took_log ..)

theorem State.runs_chr (s : State) (m : Msg) (op : BitVec 16) (c : HostCmd) : (s.runs m op c).chr = s.chr := rfl
theorem State.chr_running (s : State) (m : Msg) (op : BitVec 16) (c : HostCmd) : ((s.took m).runs m op c).chr = s.chr :=
  (State.runs_chr ..).trans (State.took_chr ..)

theorem State.runs_objs (s : State) (m : Msg) (op : BitVec 16) (c : HostCmd) : (s.runs m op c).objs = s.objs := rfl
theorem State.objs_running (s : State) (m : Msg) (op : BitVec 16) (c : HostCmd) : ((s.took m).runs m op c).objs = s.objs :=
  (State.runs_objs ..).trans (State.took_objs ..)

theorem State.startCmd_open {u : State} {r : Reply} (hs : u.Awake) (he : u.pwr.entry = none) : u.startCmd r c = u.perform r c := by
  refine State.startCmd_awake u r c hs.2.1 ?_
  unfold State.closing
  rw [he]

/-- A command that is answered at once and does `F` besides. -/
theorem does_effect {F : State → State} (hF : OffMail F) (hs : s.Awake) (he : s.pwr.entry = none)
    (hi : exec i s = runHost true s fun s => s.acceptMsg m op ro c) (h : s.Takes m ro)
    (hv : ((s.took m).runs m op c).perform (replyOf m op) c = (F ((s.took m).runs m op c)).reply (replyOf m op) a)
    (ha : (F (s.took m)).Awake) : Does i s ((F (s.took m)).answer m op a) := by
  obtain ⟨hmbs, hsessions, hstarting, -⟩ := hF (s.took m)
  refine does_answer hs hi h ?_ hmbs hsessions (hstarting.trans h.1) ha
  rw [State.startCmd_open ((hs.took m).runs m op c) he, hv, hF.runs (s.took m) m op c]

/-- A command that is answered at once and does nothing besides. -/
theorem does_reply (hs : s.Awake) (he : s.pwr.entry = none) (hi : exec i s = runHost true s fun s => s.acceptMsg m op ro c) (h : s.Takes m ro)
    (hv : ((s.took m).runs m op c).perform (replyOf m op) c = ((s.took m).runs m op c).reply (replyOf m op) a) :
    Does i s ((s.took m).answer m op a) :=
  does_effect OffMail.id hs he hi h hv (hs.took m)

end

/-! ### Objects (R370) -/

theorem State.chrStatus_withMbs (s : State) (mbs : List Mailbox) : (s.withMbs mbs).chrStatus = s.chrStatus := by
  have hobjs : (s.withMbs mbs).chrView.objs = s.chrView.objs := State.chrView_objs_congr rfl rfl
  have hslot : (s.withMbs mbs).noSlot = s.noSlot := by
    unfold State.noSlot
    rw [State.cfgN_congr hobjs]
    rfl
  unfold State.chrStatus
  dsimp only
  rw [hslot]
  rfl

theorem State.read28_withMbs (s : State) (mbs : List Mailbox) (i : Nat) : (s.withMbs mbs).read28 i = s.read28 i := by
  unfold State.read28
  rw [State.chrStatus_withMbs]
  rfl

theorem State.readOnly_withMbs (s : State) (mbs : List Mailbox) (i : Nat) : (s.withMbs mbs).readOnly i = s.readOnly i := by
  unfold State.readOnly
  rw [State.read28_withMbs]
  rfl

theorem State.objVal_withMbs (s : State) (mbs : List Mailbox) (d : ObjDef) (i : Nat) : (s.withMbs mbs).objVal d i = s.objVal d i := by
  unfold State.objVal
  rw [State.readOnly_withMbs]
  rfl

theorem State.objVal_runs (s : State) (m : Msg) (op : BitVec 16) (c : HostCmd) (d : ObjDef) (i : Nat) : (s.runs m op c).objVal d i = s.objVal d i :=
  State.objVal_withMbs s _ d i

theorem State.clearRos_host (s : State) (i : Nat) : (s.clearRos i).host = s.host := by
  simp only [State.clearRos, apply_ite State.host, State.setLane_host, ite_self]

theorem State.clearRos_withMbs (s : State) (mbs : List Mailbox) (i : Nat) : (s.withMbs mbs).clearRos i = (s.clearRos i).withMbs mbs := by
  simp only [State.clearRos, apply_ite (fun u : State => u.withMbs mbs)]
  rfl

theorem OffMail.clearRos (i : Nat) : OffMail (·.clearRos i) := fun s => by
  dsimp only
  rw [State.clearRos_host]
  exact ⟨rfl, rfl, rfl, fun mbs => State.clearRos_withMbs s mbs i⟩

/-- A value whose bytes are few: a string of 64 bytes at most. -/
def FewBytes : ObjVal → Prop
  | .str bs => bs.length ≤ 64
  | _ => True
theorem State.read10_short (s : State) (i : Nat) : FewBytes (s.read10 i) := by
  unfold State.read10
  split
  · exact (by decide : 10 ≤ 64)
  all_goals trivial

theorem State.readOnly_short (s : State) (i : Nat) : FewBytes (s.readOnly i) := by
  unfold State.readOnly State.read20 State.read21 State.read22 State.read23 State.read24 State.read25 State.read26 State.read27 State.read28 State.read29
    State.read2A State.read2B State.read2C State.read2D
  split
  · exact s.read10_short i
  all_goals (repeat' split) <;> trivial

theorem valBytes_short {v : ObjVal} (ty : Nat) (h : FewBytes v) : (valBytes ty v).length ≤ 65 := by
  cases v with
  | num v =>
    have hlen : ∀ n x, (beBytes n x).length = n := fun n => by
      induction n with
      | zero => exact fun _ => rfl
      | succ n ih => exact fun x => congrArg (· + 1) (ih x)
    have hty : tyBytes ty ≤ 10 := by
      unfold tyBytes
      split <;> decide
    unfold valBytes
    rw [hlen]
    omega
  | time sec ns => exact (by decide : 10 ≤ 65)
  | str bs => exact Nat.succ_le_succ h

theorem State.objVal_short (s : State) (d : ObjDef) (i : Nat) : FewBytes (s.objVal d i) := by
  unfold State.objVal
  split
  · trivial
  · split
    · exact Nat.zero_le _
    · trivial
  · exact s.readOnly_short i

/-- An entry that fits is all that a read of one object answers. -/
theorem State.readAll_one {s : State} {i : Nat} (h : (s.readEntry i).2.length ≤ 1016) :
    s.readAll [i] [] = ((s.readEntry i).1, Ans.ok (s.readEntry i).2) := by
  unfold State.readAll
  dsimp only
  rw [if_pos (by simpa [paramBytes] using h)]
  rfl

theorem State.domainOff_awake {s : State} (hs : s.Awake) (d : Domain) : s.domainOff d = false := by
  obtain ⟨-, hpwr, -⟩ := hs
  cases d <;> simp [State.domainOff, hpwr]

theorem State.readEntry_object {s : State} {i : Nat} {d : ObjDef} (hs : s.Awake) (hd : objDef i = some d) :
    s.readEntry i = (s.clearRos i, beBytes 2 i ++ [0, BitVec.ofNat 8 d.ty] ++ valBytes d.ty (s.objVal d i)) := by
  unfold State.readEntry
  rw [hd]
  dsimp only
  rw [if_neg (by simp [State.domainOff_awake hs])]

theorem State.readEntry_none {s : State} {i : Nat} (hd : objDef i = none) : s.readEntry i = (s, beBytes 2 i ++ [0x03, 0]) := by
  unfold State.readEntry
  rw [hd]

theorem State.startObjRead_one {s : State} {r : Reply} {i : BitVec 16} (h : (s.readEntry i.toNat).2.length ≤ 1016) :
    s.startObjRead r [i] = (s.readEntry i.toNat).1.reply r (Ans.ok (s.readEntry i.toNat).2) := by
  unfold State.startObjRead
  rw [if_neg (by simp)]
  show (s.readAll [i.toNat] []).1.reply r (s.readAll [i.toNat] []).2 = _
  rw [State.readAll_one h]

theorem State.startObjRead_object {s : State} {r : Reply} {i : BitVec 16} {d : ObjDef} (hs : s.Awake) (hd : objDef i.toNat = some d) :
    s.startObjRead r [i] = (s.clearRos i.toNat).reply r
      { status := 0, params := beBytes 2 i.toNat ++ [0, BitVec.ofNat 8 d.ty] ++ valBytes d.ty (s.objVal d i.toNat) } := by
  have hentry := State.readEntry_object hs hd
  have hshort := valBytes_short d.ty (s.objVal_short d i.toNat)
  rw [State.startObjRead_one, hentry]
  · rfl
  · rw [hentry]
    have hlen : (beBytes 2 i.toNat).length = 2 := rfl
    simp only [List.length_append, List.length_cons, List.length_nil, hlen]
    omega

theorem State.startObjRead_none {s : State} {r : Reply} {i : BitVec 16} (hd : objDef i.toNat = none) :
    s.startObjRead r [i] = s.reply r { status := 0, params := beBytes 2 i.toNat ++ [0x03, 0] } := by
  have hentry := State.readEntry_none (s := s) hd
  rw [State.startObjRead_one, hentry]
  · rfl
  · rw [hentry]
    exact (by decide : 4 ≤ 1016)

theorem State.clearRos_awake {s : State} (i : Nat) (hs : s.Awake) : (s.clearRos i).Awake := by
  unfold State.clearRos
  iterate 18 refine iteInduction (motive := State.Awake) (fun _ => hs) fun _ => ?_
  exact hs

/-! ### The chronograph (R266 to R268) -/

/-- An entry does not ask for the mailboxes. -/
theorem State.post_withMbs (s : State) (mbs : List Mailbox) (c i : Nat) (d : List Byte) : (s.withMbs mbs).post c i d = (s.post c i d).withMbs mbs := by
  have htime : ∀ n, (s.withMbs mbs).timeOf n = s.timeOf n := fun _ => rfl
  have hburst : ∀ n, (s.withMbs mbs).burst n = s.burst n := fun _ => rfl
  have hlog : (s.withMbs mbs).log = s.log := rfl
  have htick : (s.withMbs mbs).tick = s.tick := rfl
  unfold State.post State.postAt State.postFine
  dsimp only
  simp only [htime, hburst, hlog, htick]
  split
  · rfl
  · split <;> rfl

theorem State.chrView_withMbs (s : State) (mbs : List Mailbox) : (s.withMbs mbs).chrView = s.chrView.withMbs mbs := by
  have hchr : (s.withMbs mbs).chr = s.chr := rfl
  unfold State.chrView
  rw [hchr]
  split <;> rfl

theorem State.takeSlot_withMbs (s : State) (mbs : List Mailbox) : (s.withMbs mbs).takeSlot = (s.takeSlot.1.withMbs mbs, s.takeSlot.2) := by
  have hslot : (s.withMbs mbs).noSlot = s.noSlot := by
    unfold State.noSlot
    rw [State.chrView_withMbs]
    rfl
  unfold State.takeSlot
  rw [hslot]
  split
  · rfl
  · dsimp only
    rw [← State.post_withMbs]
    rfl

theorem State.armChrono_withMbs (s : State) (mbs : List Mailbox) (id : Nat) (rep master : Bool) :
    (s.withMbs mbs).armChrono id rep master = (s.armChrono id rep master).withMbs mbs := by
  unfold State.armChrono
  rw [State.takeSlot_withMbs]
  dsimp only
  rw [State.chrView_withMbs, ← State.post_withMbs]
  rfl

theorem State.armChrono_host (s : State) (id : Nat) (rep master : Bool) : (s.armChrono id rep master).host = s.host := by
  rw [(s.armChrono_sets id rep master).1]

theorem OffMail.armChrono (id : Nat) (rep master : Bool) : OffMail (·.armChrono id rep master) := fun s => by
  dsimp only
  rw [State.armChrono_host]
  exact ⟨rfl, rfl, rfl, fun mbs => State.armChrono_withMbs s mbs id rep master⟩

theorem State.armChrono_awake {s : State} (id : Nat) (rep master : Bool) (hs : s.Awake) : (s.armChrono id rep master).Awake := by
  rw [(s.armChrono_sets id rep master).1]
  exact hs

/-- An effect on the chronograph's state alone. -/
theorem OffMail.chr (f : Chrono → Chrono) : OffMail fun s => { s with chr := f s.chr } := fun _ => ⟨rfl, rfl, rfl, fun _ => rfl⟩

section
variable {s : State} {r : Reply}

/-- The three options by which CHRONO_ARM is told. -/
theorem State.startChronoArm_arm {rep train : Bool} : s.startChronoArm r (armOptions true rep train false) = s.chronoArm r rep train := by
  cases rep <;> cases train <;> rfl

theorem State.startChronoArm_disarm {train : Bool} : s.startChronoArm r (armOptions false false train false) = s.chronoDisarm r train := by
  cases train <;> rfl

theorem State.startChronoArm_force : s.startChronoArm r (armOptions false false false true) =
    if s.chr.state ≠ .armed then s.reply r (Ans.st stState)
    else State.reply { s with chr := { s.chr with force := true } } r (Ans.ok (beBytes 4 s.chr.armId)) := rfl

theorem State.chronoArm_busy {rep train : Bool} (h : s.chr.state ≠ .idle) : s.chronoArm r rep train = s.reply r (Ans.st stState) :=
  if_pos (by simp [h])

theorem State.chronoArm_full {rep train : Bool} (hs : s.Awake) (he : s.pwr.entry = none) (hst : s.chr.state = .idle) (hc : s.canArm = false) :
    s.chronoArm r rep train = s.reply r (Ans.refuse rsChronoFull) := by
  unfold State.chronoArm
  rw [if_neg (by simp [hst, hs.2.1, he])]
  exact if_pos (by simp [hc])

theorem State.chronoArm_arms {rep : Bool} (hs : s.Awake) (he : s.pwr.entry = none) (hst : s.chr.state = .idle) (hc : s.canArm = true) :
    s.chronoArm r rep false = (s.armChrono 0 rep false).reply r (Ans.ok (beBytes 4 0)) := by
  unfold State.chronoArm
  rw [if_neg (by simp [hst, hs.2.1, he])]
  exact if_neg (by simp [hc])

theorem State.chronoDisarm_asks (hst : s.chr.state ≠ .idle) :
    s.chronoDisarm r false = State.reply { s with chr := { s.chr with disarm := true } } r (Ans.ok (beBytes 4 s.chr.armId)) := by
  have hask : s.askDisarm = { s with chr := { s.chr with disarm := true } } := if_neg hst
  unfold State.chronoDisarm
  dsimp only
  rw [if_neg (by simp), hask]

theorem State.chronoDisarm_idle (hst : s.chr.state = .idle) : s.chronoDisarm r false = s.reply r (Ans.ok (beBytes 4 s.chr.armId)) := by
  have hask : s.askDisarm = s := if_pos hst
  unfold State.chronoDisarm
  dsimp only
  rw [if_neg (by simp), hask]

theorem State.startChronoRead_unfit {id part options off len : Nat} (h : 2 < part ∨ 1000 < len) :
    s.startChronoRead r id part options off len = s.reply r (Ans.st stRange) :=
  if_pos (by obtain h | h := h <;> simp [h])

theorem State.startChronoRead_keeps {id part off len : Nat} {x : Record} (hid : id ≠ 0) (hp : part ≤ 2) (hl : len ≤ 1000)
    (hx : s.chr.records.find? (fun x => x.id == id) = some x) :
    s.startChronoRead r id part 0 off len = s.reply r (partAns (s.recordPart x part) off len) := by
  unfold State.startChronoRead
  rw [if_neg (by simp [hp, hl]), if_neg hid, if_neg (by simp), hx]
  rfl

theorem State.startChronoRead_releases {id part off len : Nat} {x : Record} (hid : id ≠ 0) (hp : part ≤ 2) (hl : len ≤ 1000)
    (hc : s.chr.cur = none) (hx : s.chr.records.find? (fun x => x.id == id) = some x) :
    s.startChronoRead r id part 1 off len = (s.releaseRecord id).reply r (partAns (s.recordPart x part) off len) := by
  unfold State.startChronoRead
  rw [if_neg (by simp [hp, hl, hid]), if_neg hid, hc, if_neg (by simp), hx]
  rfl

theorem State.recordPart_congr {t : State} (h : t.objs = s.objs) (x : Record) (part : Nat) : t.recordPart x part = s.recordPart x part := by
  have hf : t.fNom = s.fNom := by
    unfold State.fNom
    rw [State.cfgN_congr h]
  unfold State.recordPart State.recordCfg
  rw [hf]

/-! ### The log (R274) -/

theorem State.startLogRead_unfit {ring most a : Nat} (h : 1 < ring ∨ most < 1 ∨ 20 < most) : s.startLogRead r ring most a = s.reply r (Ans.st stRange) :=
  if_pos (by obtain h | h | h := h <;> simp [h])

/-- The entries of a ring from a SEQ on, as a read takes them. -/
def LogS.readOf (l : LogS) (ring most : Byte) (n : Nat) : List LogEntry :=
  ((if ring = 1 then l.safety else l.general).filter fun e => decide (n ≤ e.seq)).take most.toNat

/-- The answer of a read of the log that gives the entries `es`, TRUNCATED where older ones are gone. -/
def LogS.readAns (l : LogS) (ring : Byte) (a n : Nat) (es : List LogEntry) : Ans :=
  { status := if ring = 0 ∧ l.gone n = true then 0x0C else 0
    params := [BitVec.ofNat 8 es.length, 0, 0, 0] ++ beBytes 4 (match es.getLast? with | some e => e.seq + 1 | none => a) ++ es.flatMap LogEntry.bytes }

theorem State.startLogRead_reads {ring most : Byte} {a n : Nat} (hr : ring.toNat ≤ 1) (hlow : 1 ≤ most.toNat) (hhigh : most.toNat ≤ 20)
    (hn : s.log.fullSeq a = some n) :
    s.startLogRead r ring.toNat most.toNat a = s.reply r (s.log.readAns ring a n (s.log.readOf ring most n)) := by
  have hfit : ¬(decide (1 < ring.toNat) || decide (most.toNat < 1) || decide (20 < most.toNat)) = true := by
    simp only [Bool.or_eq_true, decide_eq_true_eq]
    omega
  have hone : (ring.toNat = 1) = (ring = 1) := propext (BitVec.toNat_inj (y := 1)).symm.symm
  have hzero : (ring.toNat = 0) = (ring = 0) := propext (BitVec.toNat_inj (y := 0))
  unfold State.startLogRead
  rw [if_neg hfit, hn]
  simp only [Option.any_some, Bool.and_eq_true, decide_eq_true_eq, hzero, hone, LogS.entriesFrom]
  rfl

end

theorem State.canArm_running (s : State) (m : Msg) (op : BitVec 16) (c : HostCmd) : ((s.took m).runs m op c).canArm = s.canArm :=
  State.canArm_congr (State.chr_running ..) (State.objs_running ..)

section
variable {s : State} {m : Msg} (hs : s.Awake) (he : s.pwr.entry = none)
include hs he

theorem does_objRead (h : s.Takes m true) {i : BitVec 16} {d : ObjDef} (hd : objDef i.toNat = some d) :
    Does (.objRead m [i]) s (((s.took m).clearRos i.toNat).answer m 0x0101
      { status := 0, params := beBytes 2 i.toNat ++ [0, BitVec.ofNat 8 d.ty] ++ valBytes d.ty ((s.took m).objVal d i.toNat) }) := by
  have hv := State.startObjRead_object (r := replyOf m 0x0101) ((hs.took m).runs m 0x0101 (.objRead [i])) hd
  rw [State.objVal_runs] at hv
  exact does_effect (OffMail.clearRos i.toNat) hs he rfl h hv (State.clearRos_awake _ (hs.took m))

theorem does_logRead (h : s.Takes m true) {ring most : Byte} {a : Word} {n : Nat} (hr : ring.toNat ≤ 1) (hlow : 1 ≤ most.toNat) (hhigh : most.toNat ≤ 20)
    (hn : s.log.fullSeq a.toNat = some n) :
    Does (.logRead m ring most a) s ((s.took m).answer m 0x0601 (s.log.readAns ring a.toNat n (s.log.readOf ring most n))) := by
  have hv := State.startLogRead_reads (r := replyOf m 0x0601) hr hlow hhigh
    ((congrArg (LogS.fullSeq · a.toNat) (s.log_running m 0x0601 (.logRead ring most a))).trans hn)
  rw [State.log_running] at hv
  exact does_reply hs he rfl h hv

theorem does_chronoRead (h : s.Takes m true) {id off len : Nat} {part : Byte} {x : Record} (hid : id ≠ 0) (hp : part.toNat ≤ 2) (hl : len ≤ 1000)
    (hx : s.chr.records.find? (fun x => x.id == id) = some x) :
    Does (.chronoRead m id part 0 off len) s ((s.took m).answer m 0x0502 (partAns (s.recordPart x part.toNat) off len)) := by
  have hv := State.startChronoRead_keeps (r := replyOf m 0x0502) (off := off) hid hp hl
    ((congrArg (fun c : Chrono => c.records.find? (fun x => x.id == id)) (s.chr_running m 0x0502 (.chronoRead id part 0 off len))).trans hx)
  rw [State.recordPart_congr (s.objs_running m 0x0502 (.chronoRead id part 0 off len))] at hv
  exact does_reply hs he rfl h hv

theorem does_chronoRead_releases (h : s.Takes m false) {id off len : Nat} {part : Byte} {x : Record} (hid : id ≠ 0) (hp : part.toNat ≤ 2) (hl : len ≤ 1000)
    (hc : s.chr.cur = none) (hx : s.chr.records.find? (fun x => x.id == id) = some x) :
    Does (.chronoRead m id part 1 off len) s (((s.took m).releaseRecord id).answer m 0x0502 (partAns (s.recordPart x part.toNat) off len)) := by
  have hoff : OffMail (·.releaseRecord id) := OffMail.chr fun c => { c with records := c.records.filter fun r => r.id ≠ id }
  have hchr := s.chr_running m 0x0502 (.chronoRead id part 1 off len)
  have hv := State.startChronoRead_releases (r := replyOf m 0x0502) (off := off) hid hp hl ((congrArg Chrono.cur hchr).trans hc)
    ((congrArg (fun c : Chrono => c.records.find? (fun x => x.id == id)) hchr).trans hx)
  rw [State.recordPart_congr (s.objs_running m 0x0502 (.chronoRead id part 1 off len))] at hv
  exact does_effect hoff hs he rfl h hv (hs.took m)

theorem does_chronoArm (h : s.Takes m false) {rep : Bool} (hst : s.chr.state = .idle) (hc : s.canArm = true) :
    Does (.chronoArm m rep false) s (((s.took m).armChrono 0 rep false).answer m 0x0501 { status := 0, params := [0, 0, 0, 0] }) :=
  does_effect (OffMail.armChrono 0 rep false) hs he rfl h
    (State.startChronoArm_arm.trans (State.chronoArm_arms ((hs.took m).runs _ _ _) he ((congrArg Chrono.state (State.chr_running ..)).trans hst) ((State.canArm_running ..).trans hc)))
    (State.armChrono_awake 0 rep false (hs.took m))

theorem does_chronoArm_full (h : s.Takes m false) {rep train : Bool} (hst : s.chr.state = .idle) (hc : s.canArm = false) :
    Does (.chronoArm m rep train) s ((s.took m).answer m 0x0501 { status := 0x08, reason := 0x30 }) :=
  does_reply hs he rfl h (State.startChronoArm_arm.trans (State.chronoArm_full ((hs.took m).runs _ _ _) he ((congrArg Chrono.state (State.chr_running ..)).trans hst) ((State.canArm_running ..).trans hc)))

theorem does_chronoDisarm (h : s.Takes m false) (hst : s.chr.state ≠ .idle) :
    Does (.chronoDisarm m false) s
      (State.answer { s.took m with chr := { s.chr with disarm := true } } m 0x0501 { status := 0, params := beBytes 4 s.chr.armId }) :=
  does_effect (OffMail.chr fun c => { c with disarm := true }) hs he rfl h (State.startChronoArm_disarm.trans (State.chronoDisarm_asks hst)) (hs.took m)

theorem does_chronoForce (h : s.Takes m false) (hst : s.chr.state = .armed) :
    Does (.chronoForce m) s (State.answer { s.took m with chr := { s.chr with force := true } } m 0x0501 { status := 0, params := beBytes 4 s.chr.armId }) :=
  does_effect (OffMail.chr fun c => { c with force := true }) hs he rfl h (State.startChronoArm_force.trans (if_neg (not_not.2 hst))) (hs.took m)

end

/-- Settles O55: each command is answered as it starts; what it does beside the answer does not ask for the mailboxes. -/
theorem hostReadsAndArms : Obligations.HostReadsAndArms := by
  unfold Obligations.HostReadsAndArms
  intro s m hs he h
  refine ⟨fun i d hd => ?_, fun i hd => ?_, fun is hn => ?_, fun ring most a n hr hlow hhigh hn => ⟨_, _, rfl, rfl, ?_⟩, fun ring most a hn => ?_,
    fun id part off len x hid hp hl hx => ?_, fun id part off len hn => ?_, fun hw => ⟨fun id part off len x hid hp hl hcur hx => ?_,
    fun rep hst hc => ?_, fun rep train hst => ?_, fun rep train hst hc => ?_, fun hst => ?_, fun hst => ?_, fun hst => ?_, fun hst => ?_⟩⟩
  · exact does_objRead hs he h hd
  · exact does_reply hs he rfl h (State.startObjRead_none hd)
  · exact does_reply hs he rfl h (if_pos (by simpa using hn))
  · exact does_logRead hs he h hr hlow hhigh hn
  · exact does_reply hs he rfl h (State.startLogRead_unfit hn)
  · exact does_chronoRead hs he h hid hp hl hx
  · exact does_reply hs he rfl h (State.startChronoRead_unfit hn)
  · obtain ⟨t, ht, hends⟩ := does_chronoRead_releases hs he hw hid hp hl hcur hx
    refine ⟨t, ht, ?_, ?_, ?_⟩
    · rw [hends.chr_eq, State.answer_chr, State.releaseRecord, State.took_chr]
    · rw [hends.conv_eq, State.answer_conv, State.releaseRecord, State.took_conv]
    · rw [hends.objs_eq, State.answer_objs, State.releaseRecord, State.took_objs]
  · exact does_chronoArm hs he hw hst hc
  · exact does_reply hs he rfl hw (State.startChronoArm_arm.trans (State.chronoArm_busy (by rwa [State.chr_running])))
  · exact does_chronoArm_full hs he hw hst hc
  · exact does_chronoDisarm hs he hw hst
  · exact does_reply hs he rfl hw (State.startChronoArm_disarm.trans (State.chronoDisarm_idle ((congrArg Chrono.state (State.chr_running ..)).trans hst)))
  · exact does_chronoForce hs he hw hst
  · exact does_reply hs he rfl hw (State.startChronoArm_force.trans (if_pos (by rwa [State.chr_running])))

end Sys2Proof.Machine
end

section
/-!
PROOF. Transfers of table and firmware images (R310, R371, R372, R374).
-/
namespace Sys2Proof.Machine

theorem State.runs_esc (s : State) (m : Msg) (op : BitVec 16) (c : HostCmd) : (s.runs m op c).esc = s.esc := rfl
theorem State.took_esc (s : State) (m : Msg) : (s.took m).esc = s.esc := rfl
theorem State.esc_running (s : State) (m : Msg) (op : BitVec 16) (c : HostCmd) : ((s.took m).runs m op c).esc = s.esc :=
  (State.runs_esc ..).trans (State.took_esc ..)

theorem State.runs_pwr (s : State) (m : Msg) (op : BitVec 16) (c : HostCmd) : (s.runs m op c).pwr = s.pwr := rfl
theorem State.took_pwr (s : State) (m : Msg) : (s.took m).pwr = s.pwr := rfl
theorem State.pwr_running (s : State) (m : Msg) (op : BitVec 16) (c : HostCmd) : ((s.took m).runs m op c).pwr = s.pwr :=
  (State.runs_pwr ..).trans (State.took_pwr ..)

theorem State.runs_saf (s : State) (m : Msg) (op : BitVec 16) (c : HostCmd) : (s.runs m op c).saf = s.saf := rfl
theorem State.took_saf (s : State) (m : Msg) : (s.took m).saf = s.saf := rfl
theorem State.saf_running (s : State) (m : Msg) (op : BitVec 16) (c : HostCmd) : ((s.took m).runs m op c).saf = s.saf :=
  (State.runs_saf ..).trans (State.took_saf ..)

theorem State.runs_conv (s : State) (m : Msg) (op : BitVec 16) (c : HostCmd) : (s.runs m op c).conv = s.conv := rfl
theorem State.conv_running (s : State) (m : Msg) (op : BitVec 16) (c : HostCmd) : ((s.took m).runs m op c).conv = s.conv :=
  (State.runs_conv ..).trans (State.took_conv ..)

theorem State.runs_fwSup (s : State) (m : Msg) (op : BitVec 16) (c : HostCmd) : (s.runs m op c).host.fwSup = s.host.fwSup := rfl
theorem State.took_fwSup (s : State) (m : Msg) : (s.took m).host.fwSup = s.host.fwSup := rfl
theorem State.fwSup_running (s : State) (m : Msg) (op : BitVec 16) (c : HostCmd) : ((s.took m).runs m op c).host.fwSup = s.host.fwSup :=
  (State.runs_fwSup ..).trans (State.took_fwSup ..)

theorem State.runs_fwSk (s : State) (m : Msg) (op : BitVec 16) (c : HostCmd) : (s.runs m op c).host.fwSk = s.host.fwSk := rfl
theorem State.took_fwSk (s : State) (m : Msg) : (s.took m).host.fwSk = s.host.fwSk := rfl
theorem State.fwSk_running (s : State) (m : Msg) (op : BitVec 16) (c : HostCmd) : ((s.took m).runs m op c).host.fwSk = s.host.fwSk :=
  (State.runs_fwSk ..).trans (State.took_fwSk ..)

theorem State.runs_supStaged (s : State) (m : Msg) (op : BitVec 16) (c : HostCmd) : (s.runs m op c).host.supStaged = s.host.supStaged := rfl
theorem State.took_supStaged (s : State) (m : Msg) : (s.took m).host.supStaged = s.host.supStaged := rfl
theorem State.supStaged_running (s : State) (m : Msg) (op : BitVec 16) (c : HostCmd) : ((s.took m).runs m op c).host.supStaged = s.host.supStaged :=
  (State.runs_supStaged ..).trans (State.took_supStaged ..)

/-! ### Effects that ask no mailbox -/

theorem OffMail.esc (f : Esc → Esc) : OffMail fun s => { s with esc := f s.esc } := fun _ => ⟨rfl, rfl, rfl, fun _ => rfl⟩

theorem OffMail.post (c i : Nat) (d : List Byte) : OffMail (·.post c i d) := fun s => by
  dsimp only
  rw [State.post_host]
  exact ⟨rfl, rfl, rfl, fun mbs => State.post_withMbs s mbs c i d⟩

theorem OffMail.comp {F G : State → State} (hF : OffMail F) (hG : OffMail G) : OffMail fun s => G (F s) := fun s => by
  obtain ⟨hmbs, hsessions, hstarting, hcomm⟩ := hF s
  obtain ⟨hmbs', hsessions', hstarting', hcomm'⟩ := hG (F s)
  refine ⟨hmbs'.trans hmbs, hsessions'.trans hsessions, hstarting'.trans hstarting, fun mbs => ?_⟩
  dsimp only
  rw [hcomm, hcomm']

/-- The part of the host's link that a transfer of the supervisor's image may change. -/
theorem OffMail.fwSup (t : Option Transfer) : OffMail fun s => { s with host := s.host.setFw false t } := fun _ => ⟨rfl, rfl, rfl, fun _ => rfl⟩

section
variable {i : Instr} {s : State} {m : Msg} {op : BitVec 16} {ro : Bool} {c : HostCmd}

/-- A command that does `F` as it starts and stays in execution. -/
theorem does_running {F : State → State} (hF : OffMail F) (hs : s.Awake) (he : s.pwr.entry = none)
    (hi : exec i s = runHost true s fun s => s.acceptMsg m op ro c) (h : s.Takes m ro)
    (hv : ((s.took m).runs m op c).perform (replyOf m op) c = F ((s.took m).runs m op c)) (ha : (F (s.took m)).Awake) :
    Does i s ((F (s.took m)).runs m op c) := by
  obtain ⟨hmbs, hsessions, -, -⟩ := hF (s.took m)
  refine does_run hs hi h ?_ hmbs hsessions ha
  rw [State.startCmd_open ((hs.took m).runs m op c) he, hv, hF.runs (s.took m) m op c]

end

/-! ### Table images (R371) -/

section
variable {s : State} {r : Reply} {f : Fragment}

/-- A fragment of the right form. -/
theorem fragment_fits (hf : f.flags.toNat < 4) (hlow : 1 ≤ f.data.length) (hhigh : f.data.length ≤ 1008) :
    ¬(decide (4 ≤ f.flags.toNat) || decide (f.data.length < 1) || decide (1008 < f.data.length)) = true := by
  simp only [Bool.or_eq_true, decide_eq_true_eq]
  omega

theorem State.startTableLoad_first (hf : f.flags = 1) (ho : f.offset = 0) (hlow : 1 ≤ f.data.length) (hhigh : f.data.length ≤ 1008)
    (hl : s.esc.load = none) (hb : s.esc.loadBusy = false) :
    s.startTableLoad r f = State.reply
      { s with esc := { s.esc with load := some { id := f.transfer.toNat, mb := r.mb.val, length := 139584, bytes := f.data } } } r
      (Ans.ok (beBytes 4 f.data.length)) := by
  unfold State.startTableLoad
  dsimp only
  rw [if_neg (fragment_fits (by rw [hf]; decide) hlow hhigh), hf, if_pos (by decide), hl, hb, if_neg (by simp), if_neg (by simp [ho])]
  unfold State.takeFragment
  rw [hf]
  rfl

variable {x : Transfer}

/-- A fragment in order. -/
theorem fragment_extends (hmb : x.mb = r.mb.val) (hid : x.id = f.transfer.toNat) (ho : f.offset = x.bytes.length)
    (hmost : x.bytes.length + f.data.length ≤ 139584) :
    ¬(decide (x.mb ≠ r.mb.val) || decide (x.id ≠ f.transfer.toNat) || decide (f.offset ≠ x.bytes.length) ||
      decide (imageMost < x.bytes.length + f.data.length)) = true := by
  have hfits : ¬imageMost < x.bytes.length + f.data.length := not_lt.2 hmost
  simp [hmb, hid, ho, hfits]

theorem State.startTableLoad_next (hf : f.flags = 0) (ho : f.offset = x.bytes.length) (hlow : 1 ≤ f.data.length) (hhigh : f.data.length ≤ 1008)
    (hl : s.esc.load = some x) (hmb : x.mb = r.mb.val) (hid : x.id = f.transfer.toNat) (hmost : x.bytes.length + f.data.length ≤ 139584) :
    s.startTableLoad r f = State.reply { s with esc := { s.esc with load := some { x with bytes := x.bytes ++ f.data } } } r
      (Ans.ok (beBytes 4 (x.bytes ++ f.data).length)) := by
  unfold State.startTableLoad
  dsimp only
  rw [if_neg (fragment_fits (by rw [hf]; decide) hlow hhigh), hf, if_neg (by decide), hl]
  dsimp only
  rw [if_neg (fragment_extends hmb hid ho hmost), if_neg (by simp)]
  unfold State.takeFragment
  rw [hf]
  rfl

theorem State.startTableLoad_last (hf : f.flags = 2) (ho : f.offset = x.bytes.length) (hlow : 1 ≤ f.data.length) (hhigh : f.data.length ≤ 1008)
    (hl : s.esc.load = some x) (hmb : x.mb = r.mb.val) (hid : x.id = f.transfer.toNat) (hmost : x.bytes.length + f.data.length ≤ 139584)
    (hb : s.esc.loadBusy = false) :
    s.startTableLoad r f = { s with esc := { s.esc with
      load := none, verify := some { image := x.bytes ++ f.data, conforms := f.conforms, reply := some r, before := some x } } } := by
  unfold State.startTableLoad
  dsimp only
  rw [if_neg (fragment_fits (by rw [hf]; decide) hlow hhigh), hf, if_neg (by decide), hl]
  dsimp only
  rw [if_neg (fragment_extends hmb hid ho hmost), hb, if_neg (by simp)]
  unfold State.takeFragment
  rw [hf, hl]
  rfl

theorem State.startTableLoad_gap (hf : f.flags = 0) (ho : f.offset ≠ x.bytes.length) (hl : s.esc.load = some x) :
    s.startTableLoad r f = s.reply r (Ans.st stRange) := by
  have hgap : (decide (x.mb ≠ r.mb.val) || decide (x.id ≠ f.transfer.toNat) || decide (f.offset ≠ x.bytes.length) ||
      decide (imageMost < x.bytes.length + f.data.length)) = true := by
    simp [ho]
  unfold State.startTableLoad
  dsimp only
  rw [hf, if_neg (by decide : ¬(0 : Byte).getLsbD 0 = true), hl]
  dsimp only
  rw [if_pos hgap, ite_self]

end

/-! ### Firmware (R310, R372, R374) -/

section
variable {s : State} {r : Reply} {x : Transfer}

theorem State.startFwBegin_begins {len : Nat} (hlen : len ≤ 2 ^ 23) (hn : s.host.fwSup = none) :
    s.startFwBegin r 0 len =
      State.reply { s with host := { s.host.setFw false (some { id := 0, mb := r.mb.val, length := len, bytes := [] }) with fwTarget := 0 } } r Ans.ok := by
  have hclosed : s.fwClosed false = false := rfl
  have hfree : s.host.fw false = none := hn
  unfold State.startFwBegin
  dsimp only
  rw [if_neg (by decide), show decide (0 = 1) = false from rfl, hclosed, if_neg (by decide), if_neg (show ¬fwMost false < len from not_lt.2 hlen), hfree]
  rfl

theorem State.startFwBegin_long {len : Nat} (hlen : 2 ^ 23 < len) : s.startFwBegin r 0 len = s.reply r (Ans.st stRange) := by
  have hclosed : s.fwClosed false = false := rfl
  unfold State.startFwBegin
  dsimp only
  rw [if_neg (by decide), show decide (0 = 1) = false from rfl, hclosed, if_neg (by decide), if_pos (show fwMost false < len from hlen)]

theorem State.startFwBegin_closed {len : Nat} (h : s.saf.session = false ∨ s.conv.state ≠ .pr) : s.startFwBegin r 1 len = s.reply r (Ans.st stState) := by
  have hclosed : s.fwClosed true = true := by
    obtain h | h := h <;> simp [State.fwClosed, h]
  unfold State.startFwBegin
  dsimp only
  rw [if_neg (by decide), show decide (1 = 1) = true from rfl, hclosed, if_pos rfl]

/-- The supervisor's transfer is the mailbox's. -/
theorem HostLink.fwOf_sup {h : HostLink} {mb : Nat} (hsup : h.fwSup = some x) (hsk : h.fwSk = none) (hmb : x.mb = mb) : h.fwOf mb = some (false, x) := by
  have hfw : ∀ k, h.fw k = if k then none else some x := fun k => by
    unfold HostLink.fw
    rw [hsk, hsup]
  unfold HostLink.fwOf
  dsimp only
  rw [hfw, hfw]
  cases decide (h.fwTarget = 1) <;> simp [hmb]

variable (hx : s.host.fwOf r.mb.val = some (false, x))
include hx

theorem State.startFwData_extends {data : List Byte} (hlow : 1 ≤ data.length) (hhigh : data.length ≤ 1008) (hmost : x.bytes.length + data.length ≤ x.length) :
    s.startFwData r x.bytes.length data = State.reply { s with host := s.host.setFw false (some { x with bytes := x.bytes ++ data }) } r
      (Ans.ok (beBytes 4 (x.bytes.length + data.length))) := by
  have hfits : ¬(decide (data.length < 1) || decide (1008 < data.length) || decide (x.bytes.length ≠ x.bytes.length) ||
      decide (x.length < x.bytes.length + data.length)) = true := by
    simp only [Bool.or_eq_true, decide_eq_true_eq]
    omega
  have hclosed : s.fwClosed false = false := rfl
  unfold State.startFwData
  rw [hx]
  dsimp only
  rw [hclosed, if_neg (by decide), if_neg hfits]

theorem State.startFwData_gap {off : Nat} {data : List Byte} (ho : off ≠ x.bytes.length) : s.startFwData r off data = s.reply r (Ans.st stRange) := by
  have hclosed : s.fwClosed false = false := rfl
  unfold State.startFwData
  rw [hx]
  dsimp only
  rw [hclosed, if_neg (by decide), if_pos (by simp [ho])]

theorem State.startFwEnd_valid (hlen : x.bytes.length = x.length) (hlow : 104 ≤ x.length) (hv : Config.signatureValid false x.bytes = true) :
    s.startFwEnd r = (State.post { s with host := (s.host.setFw false none).staged false (Config.imageVersion x.bytes) } 0x1F06 0
      (beBytes 4 (Config.imageVersion x.bytes).toNat)).reply r (Ans.ok (beBytes 4 (Config.imageVersion x.bytes).toNat)) := by
  have hclosed : s.fwClosed false = false := rfl
  unfold State.startFwEnd
  rw [hx]
  dsimp only
  rw [hclosed, if_neg (by decide), if_neg (not_not.2 hlen), hv, if_neg (by simpa using hlow)]
  rfl

theorem State.startFwEnd_invalid (hlen : x.bytes.length = x.length) (hv : Config.signatureValid false x.bytes = false) :
    s.startFwEnd r = State.reply { s with host := s.host.setFw false none } r (Ans.st stAuth) := by
  have hclosed : s.fwClosed false = false := rfl
  unfold State.startFwEnd
  rw [hx]
  dsimp only
  rw [hclosed, if_neg (by decide), if_neg (not_not.2 hlen), hv, if_pos (by simp)]

theorem State.startFwEnd_short (hlen : x.bytes.length ≠ x.length) : s.startFwEnd r = s.reply r (Ans.st stRange) := by
  have hclosed : s.fwClosed false = false := rfl
  unfold State.startFwEnd
  rw [hx]
  dsimp only
  rw [hclosed, if_neg (by decide), if_pos hlen]

end

/-- The supervisor starts from the staged slot (R374). -/
def State.activates (s : State) : State := { s with host := s.host.activated }

section
variable {s : State} {r : Reply}

theorem State.startFwActivate_starts (h : s.host.supStaged = true) :
    s.startFwActivate r 0 = (s.reply r Ans.ok).activates := by
  unfold State.startFwActivate
  rw [if_neg (by decide), if_neg (by decide), h, if_neg (by decide)]
  rfl

theorem State.startFwActivate_unstaged (h : s.host.supStaged = false) : s.startFwActivate r 0 = s.reply r (Ans.st stState) := by
  unfold State.startFwActivate
  rw [if_neg (by decide), if_neg (by decide), h, if_pos (by decide)]

end

/-! ### The commands -/

section
variable {s : State} {m : Msg} (hs : s.Awake) (he : s.pwr.entry = none) (h : s.Takes m false)
include hs he h

theorem does_tableLoad_first {f : Fragment} (hf : f.flags = 1) (ho : f.offset = 0) (hlow : 1 ≤ f.data.length) (hhigh : f.data.length ≤ 1008)
    (hl : s.esc.load = none) (hb : s.esc.loadBusy = false) :
    Does (.tableLoad m f) s (State.answer { s.took m with esc := { s.esc with
      load := some { id := f.transfer.toNat, mb := m.mb.val, length := 139584, bytes := f.data } } } m 0x0201
      { status := 0, params := beBytes 4 f.data.length }) :=
  does_effect (OffMail.esc fun e => { e with load := some { id := f.transfer.toNat, mb := m.mb.val, length := 139584, bytes := f.data } }) hs he rfl h
    (State.startTableLoad_first hf ho hlow hhigh (by rwa [State.esc_running]) (by rwa [State.esc_running])) (hs.took m)

theorem does_tableLoad_next {f : Fragment} {x : Transfer} (hl : s.esc.load = some x) (hmb : x.mb = m.mb.val) (hid : x.id = f.transfer.toNat)
    (hf : f.flags = 0) (ho : f.offset = x.bytes.length) (hlow : 1 ≤ f.data.length) (hhigh : f.data.length ≤ 1008)
    (hmost : x.bytes.length + f.data.length ≤ 139584) :
    Does (.tableLoad m f) s (State.answer { s.took m with esc := { s.esc with load := some { x with bytes := x.bytes ++ f.data } } } m 0x0201
      { status := 0, params := beBytes 4 (x.bytes ++ f.data).length }) :=
  does_effect (OffMail.esc fun e => { e with load := some { x with bytes := x.bytes ++ f.data } }) hs he rfl h
    (State.startTableLoad_next hf ho hlow hhigh (by rwa [State.esc_running]) hmb hid hmost) (hs.took m)

theorem does_tableLoad_last {f : Fragment} {x : Transfer} (hl : s.esc.load = some x) (hmb : x.mb = m.mb.val) (hid : x.id = f.transfer.toNat)
    (hf : f.flags = 2) (ho : f.offset = x.bytes.length) (hlow : 1 ≤ f.data.length) (hhigh : f.data.length ≤ 1008)
    (hmost : x.bytes.length + f.data.length ≤ 139584) (hb : s.esc.loadBusy = false) :
    Does (.tableLoad m f) s (State.runs { s.took m with esc := { s.esc with
      load := none, verify := some { image := x.bytes ++ f.data, conforms := f.conforms, reply := some (replyOf m 0x0201), before := some x } } } m 0x0201
      (.tableLoad f)) :=
  does_running (OffMail.esc fun e => { e with
      load := none, verify := some { image := x.bytes ++ f.data, conforms := f.conforms, reply := some (replyOf m 0x0201), before := some x } }) hs he rfl h
    (State.startTableLoad_last hf ho hlow hhigh (by rwa [State.esc_running]) hmb hid hmost (by rwa [State.esc_running])) (hs.took m)

theorem does_tableLoad_gap {f : Fragment} {x : Transfer} (hl : s.esc.load = some x) (hf : f.flags = 0) (ho : f.offset ≠ x.bytes.length) :
    Does (.tableLoad m f) s ((s.took m).answer m 0x0201 { status := 0x04 }) :=
  does_reply hs he rfl h (State.startTableLoad_gap hf ho (by rwa [State.esc_running]))

omit he in
theorem does_tableLoadAbandon : Does .tableLoadAbandon s { s.clearOut with esc := { s.esc with load := none } } :=
  does_mail hs rfl rfl (h.2.1.clearOut.done.stays rfl fun _ h => h) hs.clearOut

theorem does_fwBegin {len : Nat} (hlen : len ≤ 2 ^ 23) (hn : s.host.fwSup = none) :
    Does (.fwBegin m 0 len) s (State.answer { s.took m with host := { (s.took m).host with
      fwSup := some { id := 0, mb := m.mb.val, length := len, bytes := [] }, fwTarget := 0 } } m 0x0801 { status := 0 }) :=
  does_effect (F := fun u => { u with host := { u.host with fwSup := some { id := 0, mb := m.mb.val, length := len, bytes := [] }, fwTarget := 0 } })
    (fun _ => ⟨rfl, rfl, rfl, fun _ => rfl⟩) hs he rfl h (State.startFwBegin_begins hlen (by rwa [State.fwSup_running])) (hs.took m)

theorem does_fwBegin_closed {len : Nat} (hc : s.saf.session = false ∨ s.conv.state ≠ .pr) :
    Does (.fwBegin m 1 len) s ((s.took m).answer m 0x0801 { status := 0x05 }) :=
  does_reply hs he rfl h (State.startFwBegin_closed (by rwa [State.saf_running, State.conv_running]))

section
variable {x : Transfer} (hsup : s.host.fwSup = some x) (hsk : s.host.fwSk = none) (hmb : x.mb = m.mb.val)
include hsup hsk hmb

omit hs he h in
theorem fwOf_running (op : BitVec 16) (c : HostCmd) : ((s.took m).runs m op c).host.fwOf (replyOf m op).mb.val = some (false, x) :=
  HostLink.fwOf_sup (by rwa [State.fwSup_running]) (by rwa [State.fwSk_running]) hmb

theorem does_fwData {data : List Byte} (hlow : 1 ≤ data.length) (hhigh : data.length ≤ 1008) (hmost : x.bytes.length + data.length ≤ x.length) :
    Does (.fwData m x.bytes.length data) s (State.answer { s.took m with host := { (s.took m).host with
      fwSup := some { x with bytes := x.bytes ++ data } } } m 0x0802 { status := 0, params := beBytes 4 (x.bytes.length + data.length) }) :=
  does_effect (OffMail.fwSup (some { x with bytes := x.bytes ++ data })) hs he rfl h
    (State.startFwData_extends (fwOf_running hsup hsk hmb _ _) hlow hhigh hmost) (hs.took m)

theorem does_fwData_gap {off : Nat} {data : List Byte} (ho : off ≠ x.bytes.length) :
    Does (.fwData m off data) s ((s.took m).answer m 0x0802 { status := 0x04 }) :=
  does_reply hs he rfl h (State.startFwData_gap (fwOf_running hsup hsk hmb _ _) ho)

theorem does_fwEnd_valid (hlen : x.bytes.length = x.length) (hlow : 104 ≤ x.length) (hv : Config.signatureValid false x.bytes = true) :
    Does (.fwEnd m) s (State.answer (State.post { s.took m with host := { (s.took m).host with
      fwSup := none, supInactive := Config.imageVersion x.bytes, supStaged := true, supFallback := none } } 0x1F06 0
      (beBytes 4 (Config.imageVersion x.bytes).toNat)) m 0x0803 { status := 0, params := beBytes 4 (Config.imageVersion x.bytes).toNat }) := by
  have hstaged : OffMail fun u => { u with host := (u.host.setFw false none).staged false (Config.imageVersion x.bytes) } :=
    fun _ => ⟨rfl, rfl, rfl, fun _ => rfl⟩
  exact does_effect (hstaged.comp (OffMail.post 0x1F06 0 (beBytes 4 (Config.imageVersion x.bytes).toNat))) hs he rfl h
    (State.startFwEnd_valid (fwOf_running hsup hsk hmb _ _) hlen hlow hv) (.post (hs.took m))

theorem does_fwEnd_invalid (hlen : x.bytes.length = x.length) (hv : Config.signatureValid false x.bytes = false) :
    Does (.fwEnd m) s (State.answer { s.took m with host := { (s.took m).host with fwSup := none } } m 0x0803 { status := 0x09 }) :=
  does_effect (OffMail.fwSup none) hs he rfl h (State.startFwEnd_invalid (fwOf_running hsup hsk hmb _ _) hlen hv) (hs.took m)

theorem does_fwEnd_short (hlen : x.bytes.length ≠ x.length) : Does (.fwEnd m) s ((s.took m).answer m 0x0803 { status := 0x04 }) :=
  does_reply hs he rfl h (State.startFwEnd_short (fwOf_running hsup hsk hmb _ _) hlen)

end

omit hs he in
theorem answer_activates_done (a : Ans) : (((s.took m).answer m 0x0804 a).activates).MailDone :=
  State.runs_done s (s.took m) m false h rfl rfl
    (fun x => { x with running := none, unacked := x.unacked ++ [msgResponse m 0x0804 a], last := some (msgResponse m 0x0804 a) })
    (fun _ => rfl) (fun _ => rfl) (((s.took m).answer m 0x0804 a).activates) rfl rfl

theorem startCmd_activates (hst : s.host.supStaged = true) :
    ((s.took m).runs m 0x0804 (.fwActivate 0)).startCmd (replyOf m 0x0804) (.fwActivate 0) = ((s.took m).answer m 0x0804 Ans.ok).activates := by
  have hlen : (s.took m).host.mbs.length = 8 := by
    rw [State.mbs_took_length]
    exact h.2.2.2.2.2.2.1
  have hentry : ((s.took m).runs m 0x0804 (.fwActivate 0)).pwr.entry = none := by rwa [State.pwr_running]
  rw [State.startCmd_open ((hs.took m).runs _ _ _) hentry, ← State.runs_reply (s.took m) m 0x0804 (.fwActivate 0) Ans.ok hlen h.1]
  exact State.startFwActivate_starts (by rwa [State.supStaged_running])

/-- The start that an activation causes comes after its answer. -/
theorem does_fwActivate (hst : s.host.supStaged = true) : Does (.fwActivate m 0) s ((s.took m).answer m 0x0804 { status := 0 }).activates :=
  does_host (E := fun s => s.acceptMsg m 0x0804 false (.fwActivate 0)) hs rfl
    (State.takes_pump s _ m 0x0804 false (.fwActivate 0) hs.1 h (startCmd_activates hs he h hst) (answer_activates_done h _))
    ⟨hs.1, hs.2.1, hs.2.2.1, hs.2.2.2⟩

end

/-- Settles O57: each command by its own rule; what it does beside the answer changes one transfer of the host's link or the escapement's. -/
theorem transfersFillInOrder : Obligations.TransfersFillInOrder := by
  unfold Obligations.TransfersFillInOrder
  intro s m hs he h
  refine ⟨fun f hlow hhigh => ⟨fun hf ho hl hb => ?_, fun x hl hmb hid => ⟨fun hf ho hmost => ?_, fun hf ho hmost hb => ?_, fun hf ho => ?_⟩⟩, ?_,
    fun len hlen hn => ?_, fun len hlen => ?_, fun len hc => ?_, fun x hsup hsk hmb => ⟨fun data hlow hhigh hmost => ?_, fun off data ho => ?_,
    fun hlen hlow => ?_, fun hlen => ?_⟩, fun hst => ?_, fun hst => ?_⟩
  · exact does_tableLoad_first hs he h hf ho hlow hhigh hl hb
  · exact does_tableLoad_next hs he h hl hmb hid hf ho hlow hhigh hmost
  · exact does_tableLoad_last hs he h hl hmb hid hf ho hlow hhigh hmost hb
  · exact does_tableLoad_gap hs he h hl hf ho
  · exact does_tableLoadAbandon hs h
  · exact does_fwBegin hs he h hlen hn
  · exact does_reply hs he rfl h (State.startFwBegin_long hlen)
  · exact does_fwBegin_closed hs he h hc
  · exact does_fwData hs he h hsup hsk hmb hlow hhigh hmost
  · exact does_fwData_gap hs he h hsup hsk hmb ho
  · split
    case isTrue hv => exact does_fwEnd_valid hs he h hsup hsk hmb hlen hlow hv
    case isFalse hv => exact does_fwEnd_invalid hs he h hsup hsk hmb hlen (Bool.not_eq_true _ ▸ hv)
  · exact does_fwEnd_short hs he h hsup hsk hmb hlen
  · obtain ⟨t, ht, hends⟩ := does_fwActivate hs he h hst
    have hhost : t.host = ((s.took m).answer m 0x0804 { status := 0 }).host.activated := hends.host_eq
    have hconv : t.conv = ((s.took m).answer m 0x0804 { status := 0 }).conv := hends.conv_eq
    have hobjs : t.objs = ((s.took m).answer m 0x0804 { status := 0 }).objs := hends.objs_eq
    refine ⟨t, ht, ?_⟩
    rw [hhost, hconv, hobjs, State.answer_conv, State.answer_objs, State.took_conv, State.took_objs]
    exact ⟨rfl, rfl, rfl, rfl, rfl, rfl, rfl, rfl⟩
  · exact does_reply hs he rfl h (State.startFwActivate_unstaged (by rwa [State.supStaged_running]))

end Sys2Proof.Machine
end

section
/-!
PROOF. Commands that take their turn at a boundary (R185, R188, R195, R202, R210, R252, R309, R370).
-/
namespace Sys2Proof.Machine

/-! ### What a command asks does not depend on the host's link -/

/-- The state with another link to the host and an empty outbox of time messages: that of a command that starts. -/
def State.mail (s : State) (h : HostLink) : State := { s with host := h, time := { s.time with out := [] } }

theorem State.runs_withMbs (s : State) (m : Msg) (op : BitVec 16) (c : HostCmd) : ∃ mbs, s.runs m op c = s.withMbs mbs := ⟨_, rfl⟩

theorem State.took_mail (s : State) (m : Msg) : ∃ h, s.took m = s.mail h := ⟨_, rfl⟩

theorem State.running_mail (s : State) (m : Msg) (op : BitVec 16) (c : HostCmd) : ∃ h, (s.took m).runs m op c = s.mail h := by
  obtain ⟨h, hh⟩ := s.took_mail m
  obtain ⟨mbs, hmbs⟩ := (s.took m).runs_withMbs m op c
  rw [hmbs, hh]
  exact ⟨_, rfl⟩

section
variable {i : Instr} {s : State} {m : Msg} {op : BitVec 16} {ro : Bool} {c : HostCmd} {a : Ans} {F : State → State}

theorem State.Awake.mail (hs : s.Awake) (h : HostLink) : (s.mail h).Awake := ⟨hs.1, hs.2.1, hs.2.2.1, hs.2.2.2⟩

theorem effect_mail (hF : OffMail F) (hs : s.Awake) (he : s.pwr.entry = none)
    (hi : exec i s = runHost true s fun s => s.acceptMsg m op ro c) (h : s.Takes m ro)
    (hv : ∀ l, (s.mail l).perform (replyOf m op) c = (F (s.mail l)).reply (replyOf m op) a)
    (ha : (F (s.took m)).Awake) : Does i s ((F (s.took m)).answer m op a) := by
  obtain ⟨l, hl⟩ := s.running_mail m op c
  exact does_effect hF hs he hi h (by rw [hl]; exact hv l) ha

theorem reply_mail (hs : s.Awake) (he : s.pwr.entry = none) (hi : exec i s = runHost true s fun s => s.acceptMsg m op ro c) (h : s.Takes m ro)
    (hv : ∀ l, (s.mail l).perform (replyOf m op) c = (s.mail l).reply (replyOf m op) a) : Does i s ((s.took m).answer m op a) :=
  effect_mail OffMail.id hs he hi h hv (hs.took m)

theorem running_mail (hF : OffMail F) (hs : s.Awake) (he : s.pwr.entry = none)
    (hi : exec i s = runHost true s fun s => s.acceptMsg m op ro c) (h : s.Takes m ro)
    (hv : ∀ l, (s.mail l).perform (replyOf m op) c = F (s.mail l)) (ha : (F (s.took m)).Awake) : Does i s ((F (s.took m)).runs m op c) := by
  obtain ⟨l, hl⟩ := s.running_mail m op c
  exact does_running hF hs he hi h (by rw [hl]; exact hv l) ha

end

/-! ### Effects that ask no mailbox -/

theorem State.postAt_withMbs (s : State) (mbs : List Mailbox) (n c i : Nat) (d : List Byte) :
    (s.withMbs mbs).postAt n c i d = (s.postAt n c i d).withMbs mbs := by
  have htime : ∀ n, (s.withMbs mbs).timeOf n = s.timeOf n := fun _ => rfl
  have hburst : ∀ n, (s.withMbs mbs).burst n = s.burst n := fun _ => rfl
  have hlog : (s.withMbs mbs).log = s.log := rfl
  unfold State.postAt State.postFine
  dsimp only
  simp only [htime, hburst, hlog]
  split
  · rfl
  · split <;> rfl

theorem OffMail.postNext (c i : Nat) (d : List Byte) : OffMail fun s => s.postAt s.nextTick c i d := fun s => by
  dsimp only
  rw [State.postAt_host]
  exact ⟨rfl, rfl, rfl, fun mbs => State.postAt_withMbs s mbs s.nextTick c i d⟩

theorem OffMail.escOf (f : State → Esc) (hf : ∀ (s : State) mbs, f (s.withMbs mbs) = f s) : OffMail fun s => { s with esc := f s } := fun s => by
  refine ⟨rfl, rfl, rfl, fun mbs => ?_⟩
  dsimp only
  rw [hf]
  rfl

theorem OffMail.addWaiting (i : Nat) (v : Int) (p : ApplyPoint) : OffMail (·.addWaiting i v p) := fun _ => ⟨rfl, rfl, rfl, fun _ => rfl⟩

theorem OffMail.waitEntries (es : List ObjEntry) : OffMail (·.waitEntries es) := by
  induction es with
  | nil => exact OffMail.id
  | cons e es ih => exact (OffMail.addWaiting e.index.toNat (entryNum e) (pointOf e.index.toNat)).comp ih

theorem State.waitEntries_awake {s : State} (es : List ObjEntry) (hs : s.Awake) : (s.waitEntries es).Awake := by
  induction es generalizing s with
  | nil => exact hs
  | cons e es ih => exact ih (s := s.addWaiting e.index.toNat (entryNum e) (pointOf e.index.toNat)) hs

theorem OffMail.stage (i : Nat) (v : Int) : OffMail (·.stage i v) := fun _ => ⟨rfl, rfl, rfl, fun _ => rfl⟩

theorem OffMail.queueGroup (r : Reply) (items : List Item) (isSet : Bool) (move : Option (Nat × Nat)) : OffMail (·.queueGroup r items isSet move) :=
  fun _ => ⟨rfl, rfl, rfl, fun _ => rfl⟩

theorem State.queueGroup_host (s : State) (r : Reply) (items : List Item) (isSet : Bool) (move : Option (Nat × Nat)) :
    (s.queueGroup r items isSet move).host = s.host := rfl

theorem State.queueGroup_hands (s : State) (r : Reply) (items : List Item) (isSet : Bool) (move : Option (Nat × Nat)) :
    (s.queueGroup r items isSet move).hands = s.hands := rfl

theorem State.queueGroup_groups (s : State) (r : Reply) (items : List Item) (isSet : Bool) (move : Option (Nat × Nat)) :
    (s.queueGroup r items isSet move).esc.groups =
      s.esc.groups ++ [{ acc := s.tick.now, items := items, isSet := isSet, reply := some r, move := move }] := rfl

/-! ### OBJ_WRITE and OBJ_WRITE_SET (R185, R186, R252, R309, R370) -/

theorem State.closing_none {s : State} (he : s.pwr.entry = none) (d : Domain) : s.closing d = false := by
  unfold State.closing
  rw [he]

theorem State.coefClosed_none {s : State} (he : s.pwr.entry = none) : s.coefClosed = false := by
  unfold State.coefClosed
  rw [he]

section
variable {s : State} {r : Reply} {e : ObjEntry}

theorem State.entryRefused_open {a : Ans} (i : Nat) (ha : a.status ≠ 0x0B) : s.entryRefused i a = s := if_neg ha

theorem State.startObjWrite_refused {a : Ans} (hj : s.judgeWrite e = some a) (ha : a.status ≠ 0x0B) : s.startObjWrite r e = s.reply r a := by
  unfold State.startObjWrite
  dsimp only
  rw [hj]
  dsimp only
  rw [State.entryRefused_open _ ha]

variable (he : s.pwr.entry = none) (hj : s.judgeWrite e = none)
include he hj

theorem State.startObjWrite_stages (hf : isSafetyObj e.index.toNat = true) :
    s.startObjWrite r e = (s.stage e.index.toNat (entryNum e)).reply r (Ans.ok (beBytes 8 0)) := by
  unfold State.startObjWrite
  dsimp only
  rw [hj]
  dsimp only
  rw [State.closing_none he, if_neg (by decide), if_pos hf]

theorem State.startObjWrite_waits (hf : isSafetyObj e.index.toNat = false) (hp : pointOf e.index.toNat ≠ .nextTick) :
    s.startObjWrite r e = (s.addWaiting e.index.toNat (entryNum e) (pointOf e.index.toNat)).reply r (Ans.ok (beBytes 8 0)) := by
  unfold State.startObjWrite
  dsimp only
  rw [hj]
  dsimp only
  rw [State.closing_none he, if_neg (by decide), hf, if_neg (by decide), if_pos hp]

variable (hf : isSafetyObj e.index.toNat = false) (hp : pointOf e.index.toNat = .nextTick) (hc : e.index.toNat ≠ Obj.COEF_WRITE)
include hf hp hc

/-- A write whose object takes effect with its group: the queue and the group's size decide. -/
theorem State.startObjWrite_group : s.startObjWrite r e =
    if s.queueFull then s.reply r (Ans.st stBusy)
    else if (s.groupOver [entryItem e]).isSome then s.reply r (Ans.st stRange) else s.queueGroup r [entryItem e] false none := by
  unfold State.startObjWrite
  dsimp only
  rw [hj]
  dsimp only
  rw [State.closing_none he, if_neg (by decide), hf, if_neg (by decide), if_neg (not_not.2 hp), if_neg hc, if_neg hc, State.coefClosed_none he, Bool.false_or]

theorem State.startObjWrite_full (hg : 16 ≤ s.esc.groups.length) : s.startObjWrite r e = s.reply r (Ans.st stBusy) := by
  rw [State.startObjWrite_group he hj hf hp hc]
  exact if_pos (decide_eq_true hg)

theorem State.startObjWrite_long (hg : s.esc.groups.length < 16) (ho : s.groupOver [entryItem e] ≠ none) : s.startObjWrite r e = s.reply r (Ans.st stRange) := by
  rw [State.startObjWrite_group he hj hf hp hc, if_neg (by simpa [State.queueFull] using hg), if_pos (Option.isSome_iff_ne_none.2 ho)]

theorem State.startObjWrite_queues (hg : s.esc.groups.length < 16) (ho : s.groupOver [entryItem e] = none) :
    s.startObjWrite r e = s.queueGroup r [entryItem e] false none := by
  rw [State.startObjWrite_group he hj hf hp hc, if_neg (by simpa [State.queueFull] using hg), ho, if_neg (by simp)]

end

/-- What a set does whose entries are judged fit. -/
def State.fitSet (s : State) (r : Reply) (k : SchedKey) (es : List ObjEntry) : State :=
  match s.groupOver (es.map entryItem) with
  | some n => s.reply r { status := stRange, params := beBytes 2 n }
  | none =>
    if !keyNow k then s.schedule k (.objWriteSet k es) (some r)
    else if es.all fun e => !atGroup e.index.toNat then (s.waitEntries es).reply r (Ans.ok (beBytes 8 0))
    else if s.queueFull then s.reply r (Ans.st stBusy)
    else s.queueGroup r (es.map entryItem) true none

theorem setLength_fits {es : List ObjEntry} (hlow : 1 ≤ es.length) (hhigh : es.length ≤ 64) :
    ¬(decide (es.length < 1) || decide (64 < es.length)) = true := by
  simp only [Bool.or_eq_true, decide_eq_true_eq]
  omega

section
variable {s : State} {r : Reply} {k : SchedKey} {es : List ObjEntry} (hlow : 1 ≤ es.length) (hhigh : es.length ≤ 64) (hk : s.keyJudge k = none)
include hlow hhigh hk

theorem State.startObjWriteSet_refused {n : Nat} {a : Ans} (hj : s.judgeEntries es (keyNow k) = some (n, a)) (ha : a.status ≠ 0x0B) :
    s.startObjWriteSet r k es = s.reply r { a with params := beBytes 2 n } := by
  unfold State.startObjWriteSet
  rw [if_neg (setLength_fits hlow hhigh), hk]
  dsimp only
  rw [hj]
  dsimp only
  rw [State.entryRefused_open _ ha]

variable (he : s.pwr.entry = none) (hj : s.judgeEntries es (keyNow k) = none)
include he hj

theorem State.startObjWriteSet_fit : s.startObjWriteSet r k es = s.fitSet r k es := by
  unfold State.startObjWriteSet
  rw [if_neg (setLength_fits hlow hhigh), hk]
  dsimp only
  rw [hj]
  dsimp only
  rw [State.coefClosed_none he, if_neg (by simp [State.closing_none he])]
  rfl

theorem State.startObjWriteSet_long {n : Nat} (ho : s.groupOver (es.map entryItem) = some n) :
    s.startObjWriteSet r k es = s.reply r { status := stRange, params := beBytes 2 n } := by
  rw [State.startObjWriteSet_fit hlow hhigh hk he hj, State.fitSet, ho]

variable (ho : s.groupOver (es.map entryItem) = none)
include ho

theorem State.startObjWriteSet_waits (hn : keyNow k = true) (ha : ∀ e ∈ es, atGroup e.index.toNat = false) :
    s.startObjWriteSet r k es = (s.waitEntries es).reply r (Ans.ok (beBytes 8 0)) := by
  rw [State.startObjWriteSet_fit hlow hhigh hk he hj, State.fitSet, ho]
  dsimp only
  rw [hn, if_neg (by decide), if_pos (by simpa using ha)]

theorem State.startObjWriteSet_queues (hn : keyNow k = true) (ha : ∃ e ∈ es, atGroup e.index.toNat = true) (hg : s.esc.groups.length < 16) :
    s.startObjWriteSet r k es = s.queueGroup r (es.map entryItem) true none := by
  rw [State.startObjWriteSet_fit hlow hhigh hk he hj, State.fitSet, ho]
  dsimp only
  rw [hn, if_neg (by decide), if_neg (by simpa using ha), if_neg (by simpa [State.queueFull] using hg)]

theorem State.startObjWriteSet_schedules (hn : keyNow k = false) (hd : keyDiscard k = false) :
    s.startObjWriteSet r k es = State.reply { s with sched := { s.sched with
      pending := s.sched.pending ++ [s.newAction k (.objWriteSet k es)], nextId := s.sched.nextId + 1 } } r
      (Ans.ok (beBytes 4 s.sched.nextId ++ beBytes 8 ((s.keyTick k).getD 0))) := by
  rw [State.startObjWriteSet_fit hlow hhigh hk he hj, State.fitSet, ho]
  dsimp only
  rw [hn, if_pos (by decide)]
  unfold State.schedule
  dsimp only
  rw [hd, if_neg (by simp)]
  rfl

end

/-! ### TABLE_SWAP, CONV_STATE, HANDS_TARGET and SETTING_START (R7, R188, R202, R210) -/

section
variable {s : State} {r : Reply} {k : SchedKey} (hk : s.keyJudge k = none) (hn : keyNow k = true)
include hk hn

theorem State.startTableSwap_swaps (he : s.pwr.entry = none) (hj : s.swapJudge = none) :
    s.startTableSwap r k = { s with esc := { s.esc with swap := some ⟨s.nextTick, some r⟩ } } := by
  unfold State.startTableSwap
  rw [hk]
  dsimp only
  rw [State.coefClosed_none he, if_neg (by decide), hn, if_neg (by decide), hj]
  rfl

theorem State.startTableSwap_refused {a : Ans} (he : s.pwr.entry = none) (hj : s.swapJudge = some a) : s.startTableSwap r k = s.reply r a := by
  unfold State.startTableSwap
  rw [hk]
  dsimp only
  rw [State.coefClosed_none he, if_neg (by decide), hn, if_neg (by decide), hj]

theorem State.startConvState_asks {t : Nat} (hs : s.Awake) (ht : t ≤ 5) :
    s.startConvState r k t = { s with conv := { s.conv with reqs := s.conv.reqs ++ [{ target := convOf t, reply := some r, sched := none }] } } := by
  unfold State.startConvState
  rw [if_neg (not_lt.2 ht), hk]
  dsimp only
  rw [if_pos hn]
  unfold State.convRequest
  rw [hs.ticks]
  rfl

theorem State.startHandsTarget_queues {axes options : Nat} {ts : List Int} (he : s.pwr.entry = none) (hform : s.handsForm axes options ts = none)
    (hheld : s.handsHeld axes = none) (hg : s.esc.groups.length < 16) (ho : s.groupOver (s.handsItems axes options ts).1 = none) :
    s.startHandsTarget r k axes options ts =
      (s.handsBegin axes options).1.queueGroup r (s.handsItems axes options ts).1 false (some (s.hands.moveId + 1, (s.handsItems axes options ts).2)) := by
  unfold State.startHandsTarget
  rw [hk, hform]
  dsimp only [Option.none_or]
  rw [State.coefClosed_none he, if_neg (by decide), hn, if_neg (by decide), hheld]
  dsimp only
  rw [if_neg (by simpa [State.queueFull] using hg), ho, if_neg (by simp)]
  rfl

end

theorem State.startSetting_starts {s : State} {r : Reply} (hj : s.settingJudge = none) :
    s.startSetting r = State.reply { s with set := { s.set with starting := true } } r Ans.ok := by
  unfold State.startSetting
  rw [hj]

theorem State.startSetting_refused {s : State} {r : Reply} {a : Ans} (hj : s.settingJudge = some a) : s.startSetting r = s.reply r a := by
  unfold State.startSetting
  rw [hj]

theorem OffMail.handsBegin (axes options : Nat) : OffMail fun s => (s.handsBegin axes options).1 := by
  have hmove : OffMail fun s => { s with hands := { s.hands with
      moveId := s.hands.moveId + 1
      coordRos := s.hands.coordRos || (options % 2 = 1 && (axesOf axes).any fun a => (s.axis a).moving) } } := fun _ => ⟨rfl, rfl, rfl, fun _ => rfl⟩
  intro s
  obtain ⟨hmbs, hsessions, hstarting, hcomm⟩ := hmove.comp (OffMail.post 0x2501 noInst (beBytes 4 (s.hands.moveId + 1) ++ [BitVec.ofNat 8 axes])) s
  exact ⟨hmbs, hsessions, hstarting, hcomm⟩

/-! ### ENGINE_SPARE (R193, R195) -/

/-- A spare begins to take over a logical engine. -/
def State.spareFills (s : State) (n slot : Nat) (r : Reply) : State :=
  { s with esc := { ((s.mirrorOne n).outOfService (s.esc.phys n)).esc with
    migration := some { logical := n, slot := slot, start := s.nextTick, byCommand := true, reply := some r } } }

theorem OffMail.spareFills (n slot : Nat) (r : Reply) : OffMail (·.spareFills n slot r) := fun _ => ⟨rfl, rfl, rfl, fun _ => rfl⟩

/-- It says so in the log. -/
def State.spareBegins (s : State) (n slot : Nat) (r : Reply) : State := (s.spareFills n slot r).postAt s.nextTick 0x2D05 n [1]

theorem OffMail.spareBegins (n slot : Nat) (r : Reply) : OffMail (·.spareBegins n slot r) :=
  (OffMail.spareFills n slot r).comp (OffMail.postNext 0x2D05 n [1])

theorem State.spareBegins_keeps (s : State) (n slot : Nat) (r : Reply) :
    (s.spareBegins n slot r).esc.migration = some { logical := n, slot := slot, start := s.nextTick, byCommand := true, reply := r } ∧
      (s.spareBegins n slot r).conv = s.conv ∧ (s.spareBegins n slot r).objs = s.objs ∧ (s.spareBegins n slot r).host = s.host := by
  unfold State.spareBegins
  rw [State.postAt_esc, State.postAt_conv, State.postAt_objs, State.postAt_host]
  exact ⟨rfl, rfl, rfl, rfl⟩

theorem State.startEngineSpare_refused {s : State} {r : Reply} {n : Nat} {a : Ans} (hj : s.migrateJudge n = some a) :
    s.startEngineSpare r 0 n = s.reply r a := by
  unfold State.startEngineSpare
  rw [if_neg (by decide), if_neg (by decide), hj]

theorem State.startEngineSpare_migrates {s : State} {r : Reply} {n slot : Nat} {rest : List Nat} (hj : s.migrateJudge n = none)
    (hm : s.esc.migration = none) (hf : s.freeSlots = slot :: rest) :
    s.startEngineSpare r 0 n = s.spareBegins n slot r := by
  unfold State.startEngineSpare
  rw [if_neg (by decide), if_neg (by decide), hj]
  dsimp only
  unfold State.askMigration
  rw [hm, if_neg (by decide)]
  unfold State.startMigration
  rw [hf]
  rfl

/-- What is left of a failed engine that has passed its test: it resumes from its mirror (R195). -/
def Engine.resumed (e : Engine) : Engine := { e with locals := e.mLocals, tag := e.mTag, failed := false }

/-- A physical engine resumes the logical engine it still carries. -/
def State.resumes (s : State) (p n : Nat) : State :=
  let t := (s.fresh.setEngine p Engine.resumed).restoreLaws n
  { t with esc := { t.esc with noSpare := t.esc.noSpare.filter (· ≠ n), waiting := t.esc.waiting.filter fun w => w.logical ≠ n } }

/-- A physical engine that failed its test again. -/
def State.staysOut (s : State) (p : Nat) : State := s.fresh.setEngine p fun e => { e with barred := true }

section
variable {s : State} {r : Reply} {p : Nat} (hp : p < 16) (hfail : (s.esc.engine p).failed = true)
include hp hfail

theorem State.retest_open (hi : s.idleOrPr = false) : s.retest r p = s.reply r (Ans.st stState) := by
  unfold State.retest
  rw [if_neg (by simp [hfail, hp]), hi, if_pos (by decide)]

variable (hi : s.idleOrPr = true)
include hi

theorem State.retest_fails (ht : (Config.selfTestPass s.free && !(s.esc.engine p).barred) = false) :
    s.retest r p = (s.staysOut p).reply r (Ans.ok [BitVec.ofNat 8 p]) := by
  unfold State.retest
  rw [if_neg (by simp [hfail, hp]), hi, if_neg (by decide)]
  dsimp only
  rw [ht, if_neg (by decide)]
  rfl

theorem State.retest_passes (ht : (Config.selfTestPass s.free && !(s.esc.engine p).barred) = true) (hl : s.isLogical (s.esc.logicalOf p) = true)
    (hg : s.esc.groups = []) : s.retest r p = ((s.resumes p (s.esc.logicalOf p)).sparesSettled).reply r (Ans.ok [BitVec.ofNat 8 p]) := by
  have hheld : s.fresh.esc.groups = [] := hg
  have hl' : s.fresh.isLogical (s.fresh.esc.logicalOf p) = true := hl
  have hback : s.fresh.retested p = (s.fresh.setEngine p Engine.resumed).restoreLaws (s.fresh.esc.logicalOf p) := by
    unfold State.retested
    dsimp only
    rw [hl', if_pos rfl]
    rfl
  have hl'' : ((s.fresh.setEngine p Engine.resumed).restoreLaws (s.fresh.esc.logicalOf p)).isLogical (s.fresh.esc.logicalOf p) = true := hl
  unfold State.retest
  rw [if_neg (by simp [hfail, hp]), hi, if_neg (by decide)]
  dsimp only
  rw [ht, if_pos rfl, hheld, hback, hl'', if_pos rfl]
  rfl

end

theorem State.resumes_keeps (s : State) (p n : Nat) : (s.resumes p n).esc.engines = modifyAt s.esc.engines p Engine.resumed ∧
    (s.resumes p n).esc.map = s.esc.map ∧ (s.resumes p n).conv = s.conv ∧ (s.resumes p n).objs = s.objs ∧ (s.resumes p n).host = s.host :=
  ⟨rfl, rfl, rfl, rfl, rfl⟩

theorem State.staysOut_keeps (s : State) (p : Nat) : (s.staysOut p).esc.engines = modifyAt s.esc.engines p (fun e => { e with barred := true }) ∧
    (s.staysOut p).esc.map = s.esc.map ∧ (s.staysOut p).conv = s.conv ∧ (s.staysOut p).objs = s.objs ∧ (s.staysOut p).host = s.host :=
  ⟨rfl, rfl, rfl, rfl, rfl⟩

theorem Esc.engine_modified {e f : Esc} {p : Nat} {g : Engine → Engine} (h : f.engines = modifyAt e.engines p g) (hp : p < e.engines.length) :
    f.engine p = g (e.engine p) ∧ ∀ q, q ≠ p → f.engine q = e.engine q := by
  unfold Esc.engine
  rw [h]
  exact ⟨modifyAt_getD g {} hp, fun q hq => getD_modify_other _ _ _ _ _ hq⟩

theorem OffMail.ite {c : State → Prop} [∀ s, Decidable (c s)] {F G : State → State} (hc : ∀ (s : State) mbs, c (s.withMbs mbs) ↔ c s)
    (hF : OffMail F) (hG : OffMail G) : OffMail fun s => if c s then F s else G s := fun s => by
  dsimp only
  by_cases h : c s
  · rw [if_pos h]
    obtain ⟨hmbs, hsessions, hstarting, hcomm⟩ := hF s
    exact ⟨hmbs, hsessions, hstarting, fun mbs => (if_pos ((hc s mbs).2 h)).trans (hcomm mbs)⟩
  · rw [if_neg h]
    obtain ⟨hmbs, hsessions, hstarting, hcomm⟩ := hG s
    exact ⟨hmbs, hsessions, hstarting, fun mbs => (if_neg fun h' => h ((hc s mbs).1 h')).trans (hcomm mbs)⟩

theorem OffMail.sparesSettled : OffMail State.sparesSettled := by
  have hstill : OffMail fun s => { s with esc := { s.esc with noSpare := s.esc.noSpare.filter fun n => !s.esc.runs n } } :=
    OffMail.esc fun e => { e with noSpare := e.noSpare.filter fun n => !e.runs n }
  have hdie : OffMail fun s => { s with saf := { s.saf with mainDie := false } } := fun _ => ⟨rfl, rfl, rfl, fun _ => rfl⟩
  exact hstill.comp (OffMail.ite (c := fun s => (s.saf.mainDie && (List.range 16).all fun n =>
    !([s.esc.bankA, s.esc.bankB].any fun b => (b.tables.getD n {}).nonEmpty) || s.esc.runs n) = true) (fun _ _ => Iff.rfl) hdie OffMail.id)

theorem OffMail.resumes (p n : Nat) : OffMail (·.resumes p n) := fun _ => ⟨rfl, rfl, rfl, fun _ => rfl⟩

theorem OffMail.staysOut (p : Nat) : OffMail (·.staysOut p) := fun _ => ⟨rfl, rfl, rfl, fun _ => rfl⟩

/-! ### What the end of a command leaves -/

theorem Ends.of_runs {v t : State} {m : Msg} {op : BitVec 16} {c : HostCmd} (h : Ends (v.runs m op c) t) (hl : v.host.mbs.length = 8) :
    t.esc = v.esc ∧ t.conv = v.conv ∧ t.objs = v.objs ∧ t.hands = v.hands ∧ (t.mbox m.mb.val).running = some (replyOf m op, c) := by
  have hrun : (v.runs m op c).mbox m.mb.val = { v.mbox m.mb.val with running := some (replyOf m op, c) } :=
    State.mbox_setMbox_same v m.mb.val _ (by rw [hl]; exact m.mb.isLt)
  have hmbox : t.mbox m.mb.val = (v.runs m op c).mbox m.mb.val := by
    unfold State.mbox
    rw [h.host_eq]
  exact ⟨h.esc_eq, h.conv_eq, h.objs_eq, h.hands_eq, by rw [hmbox, hrun]⟩

theorem Ends.of_answer {v t : State} {m : Msg} {op : BitVec 16} {a : Ans} (h : Ends (v.answer m op a) t) :
    t.esc = v.esc ∧ t.conv = v.conv ∧ t.objs = v.objs ∧ t.host.out = v.host.out ++ [.mbResp m.session m.mb (msgResponse m op a) false] :=
  ⟨h.esc_eq, h.conv_eq, h.objs_eq, congrArg HostLink.out h.host_eq⟩

theorem State.Takes.length {s : State} {m : Msg} {ro : Bool} (h : s.Takes m ro) : (s.took m).host.mbs.length = 8 := by
  rw [State.mbs_took_length]
  exact h.2.2.2.2.2.2.1

theorem State.took_out (s : State) (m : Msg) : (s.took m).host.out = [] := rfl
theorem State.took_hands (s : State) (m : Msg) : (s.took m).hands = s.hands := rfl
theorem State.took_tick (s : State) (m : Msg) : (s.took m).tick = s.tick := rfl
theorem State.queueGroup_conv (s : State) (r : Reply) (items : List Item) (isSet : Bool) (move : Option (Nat × Nat)) :
    (s.queueGroup r items isSet move).conv = s.conv := rfl
theorem State.queueGroup_objs (s : State) (r : Reply) (items : List Item) (isSet : Bool) (move : Option (Nat × Nat)) :
    (s.queueGroup r items isSet move).objs = s.objs := rfl

theorem State.handsBegin_keeps (s : State) (axes options : Nat) :
    (s.handsBegin axes options).1.hands.moveId = s.hands.moveId + 1 ∧ (s.handsBegin axes options).1.esc = s.esc ∧
      (s.handsBegin axes options).1.conv = s.conv ∧ (s.handsBegin axes options).1.objs = s.objs ∧ (s.handsBegin axes options).1.tick = s.tick ∧
      (s.handsBegin axes options).1.host = s.host := by
  unfold State.handsBegin
  simp

theorem State.sparesSettled_host (s : State) : s.sparesSettled.host = s.host := by
  unfold State.sparesSettled
  dsimp only
  split <;> rfl

/-! ### The commands -/

section
variable {s : State} {m : Msg} (hs : s.Awake) (he : s.pwr.entry = none) (h : s.Takes m false)
include hs he h

theorem does_objWrite_queues {e : ObjEntry} (hj : s.judgeWrite e = none) (hf : isSafetyObj e.index.toNat = false) (hp : pointOf e.index.toNat = .nextTick)
    (hc : e.index.toNat ≠ Obj.COEF_WRITE) (hg : s.esc.groups.length < 16) (ho : s.groupOver [entryItem e] = none) :
    Does (.objWrite m e) s (State.runs { s.took m with esc := { s.esc with
      groups := s.esc.groups ++ [{ acc := s.tick.now, items := [entryItem e], isSet := false, reply := some (replyOf m 0x0102), move := none }] } }
      m 0x0102 (.objWrite e)) :=
  running_mail (OffMail.queueGroup (replyOf m 0x0102) [entryItem e] false none) hs he rfl h
    (fun l => State.startObjWrite_queues (s := s.mail l) he hj hf hp hc hg ho) (hs.took m)

theorem does_objWriteSet_queues {k : SchedKey} {es : List ObjEntry} (hlow : 1 ≤ es.length) (hhigh : es.length ≤ 64) (hk : s.keyJudge k = none)
    (hn : keyNow k = true) (hj : s.judgeEntries es true = none) (ho : s.groupOver (es.map entryItem) = none)
    (ha : ∃ e ∈ es, atGroup e.index.toNat = true) (hg : s.esc.groups.length < 16) :
    Does (.objWriteSet m k es) s (State.runs { s.took m with esc := { s.esc with
      groups := s.esc.groups ++ [{ acc := s.tick.now, items := es.map entryItem, isSet := true, reply := some (replyOf m 0x0103), move := none }] } }
      m 0x0103 (.objWriteSet k es)) :=
  running_mail (OffMail.queueGroup (replyOf m 0x0103) (es.map entryItem) true none) hs he rfl h
    (fun l => State.startObjWriteSet_queues (s := s.mail l) hlow hhigh hk he (hn ▸ hj) ho hn ha hg) (hs.took m)

theorem does_objWriteSet_schedules {k : SchedKey} {es : List ObjEntry} (hlow : 1 ≤ es.length) (hhigh : es.length ≤ 64) (hk : s.keyJudge k = none)
    (hn : keyNow k = false) (hj : s.judgeEntries es false = none) (ho : s.groupOver (es.map entryItem) = none) (hd : keyDiscard k = false) :
    Does (.objWriteSet m k es) s (State.answer { s.took m with sched := { s.sched with
      pending := s.sched.pending ++ [s.newAction k (.objWriteSet k es)], nextId := s.sched.nextId + 1 } } m 0x0103
      { status := 0, params := beBytes 4 s.sched.nextId ++ beBytes 8 ((s.keyTick k).getD 0) }) := by
  have hoff : OffMail fun u => { u with sched := { u.sched with
      pending := u.sched.pending ++ [s.newAction k (.objWriteSet k es)], nextId := u.sched.nextId + 1 } } := fun _ => ⟨rfl, rfl, rfl, fun _ => rfl⟩
  exact effect_mail hoff hs he rfl h (fun l => State.startObjWriteSet_schedules (s := s.mail l) hlow hhigh hk he (hn ▸ hj) ho hn hd) (hs.took m)

theorem does_tableSwap {k : SchedKey} (hk : s.keyJudge k = none) (hn : keyNow k = true) (hj : s.swapJudge = none) :
    Does (.tableSwap m k) s (State.runs { s.took m with esc := { s.esc with swap := some ⟨s.nextTick, some (replyOf m 0x0202)⟩ } } m 0x0202 (.tableSwap k)) :=
  running_mail (OffMail.esc fun e => { e with swap := some ⟨s.nextTick, some (replyOf m 0x0202)⟩ }) hs he rfl h
    (fun l => State.startTableSwap_swaps (s := s.mail l) hk hn he hj) (hs.took m)

theorem does_convState {k : SchedKey} {t : Byte} (ht : t.toNat ≤ 5) (hk : s.keyJudge k = none) (hn : keyNow k = true) :
    Does (.convState m k t) s (State.runs { s.took m with conv := { s.conv with
      reqs := s.conv.reqs ++ [{ target := convOf t.toNat, reply := some (replyOf m 0x0301), sched := none }] } } m 0x0301 (.convState k t)) := by
  have hoff : OffMail fun u => { u with conv := { u.conv with
      reqs := u.conv.reqs ++ [{ target := convOf t.toNat, reply := some (replyOf m 0x0301), sched := none }] } } := fun _ => ⟨rfl, rfl, rfl, fun _ => rfl⟩
  exact running_mail hoff hs he rfl h (fun l => State.startConvState_asks (s := s.mail l) hk hn (hs.mail l) ht) (hs.took m)

theorem does_settingStart (hj : s.settingJudge = none) :
    Does (.settingStart m) s (State.answer { s.took m with set := { s.set with starting := true } } m 0x0402 { status := 0 }) := by
  have hoff : OffMail fun u => { u with set := { u.set with starting := true } } := fun _ => ⟨rfl, rfl, rfl, fun _ => rfl⟩
  exact effect_mail hoff hs he rfl h (fun l => State.startSetting_starts (s := s.mail l) hj) (hs.took m)

/-- The move that an accepted HANDS_TARGET begins and the group it queues. -/
theorem does_handsTarget {k : SchedKey} {axes options : Byte} {ts : List Int} (hk : s.keyJudge k = none) (hn : keyNow k = true)
    (hform : s.handsForm axes.toNat options.toNat ts = none) (hheld : s.handsHeld axes.toNat = none) (hg : s.esc.groups.length < 16)
    (ho : s.groupOver (s.handsItems axes.toNat options.toNat ts).1 = none) :
    Does (.handsTarget m k axes options ts) s ((State.queueGroup ((s.took m).handsBegin axes.toNat options.toNat).1 (replyOf m 0x0401)
      (s.handsItems axes.toNat options.toNat ts).1 false (some (s.hands.moveId + 1, (s.handsItems axes.toNat options.toNat ts).2))).runs
      m 0x0401 (.handsTarget k axes options ts)) := by
  have hoff := (OffMail.handsBegin axes.toNat options.toNat).comp (OffMail.queueGroup (replyOf m 0x0401)
    (s.handsItems axes.toNat options.toNat ts).1 false (some (s.hands.moveId + 1, (s.handsItems axes.toNat options.toNat ts).2)))
  exact running_mail hoff hs he rfl h
    (fun l => State.startHandsTarget_queues (s := s.mail l) hk hn he hform hheld hg ho) (.post (hs.took m))

theorem does_engineSpareMigrate {n : Byte} {slot : Nat} {rest : List Nat} (hj : s.migrateJudge n.toNat = none) (hm : s.esc.migration = none)
    (hf : s.freeSlots = slot :: rest) :
    Does (.engineSpareMigrate m n) s (((s.took m).spareBegins n.toNat slot (replyOf m 0x0203)).runs m 0x0203 (.engineSpare 0 n)) := by
  have hawake : ((s.took m).spareBegins n.toNat slot (replyOf m 0x0203)).Awake := .postAt (hs.took m)
  exact running_mail (F := (·.spareBegins n.toNat slot (replyOf m 0x0203))) (OffMail.spareBegins n.toNat slot (replyOf m 0x0203)) hs he rfl h
    (fun l => State.startEngineSpare_migrates (s := s.mail l) hj hm hf) hawake

theorem handsTarget_queues {k : SchedKey} {axes options : Byte} {ts : List Int} (hk : s.keyJudge k = none) (hn : keyNow k = true)
    (hform : s.handsForm axes.toNat options.toNat ts = none) (hheld : s.handsHeld axes.toNat = none) (hg : s.esc.groups.length < 16)
    (ho : s.groupOver (s.handsItems axes.toNat options.toNat ts).1 = none) :
    ∃ t, exec (.handsTarget m k axes options ts) s = .next t ∧ t.hands.moveId = s.hands.moveId + 1 ∧
      t.esc.groups = s.esc.groups ++ [{ acc := s.tick.now, items := (s.handsItems axes.toNat options.toNat ts).1, isSet := false
                                        reply := some (replyOf m 0x0401)
                                        move := some (s.hands.moveId + 1, (s.handsItems axes.toNat options.toNat ts).2) }] ∧
      (t.mbox m.mb.val).running = some (replyOf m 0x0401, .handsTarget k axes options ts) ∧ t.conv = s.conv ∧ t.objs = s.objs := by
  obtain ⟨t, ht, hends⟩ := does_handsTarget hs he h hk hn hform hheld hg ho
  obtain ⟨hmove, hesc, hconv, hobjs, htick, hhost⟩ := State.handsBegin_keeps (s.took m) axes.toNat options.toNat
  obtain ⟨htesc, htconv, htobjs, hthands, hrun⟩ := hends.of_runs (by rw [State.queueGroup_host, hhost]; exact h.length)
  refine ⟨t, ht, ?_, ?_, hrun, ?_, ?_⟩
  · rw [hthands, State.queueGroup_hands, hmove, State.took_hands]
  · rw [htesc, State.queueGroup_groups, hesc, htick, State.took_esc, State.took_tick]
  · rw [htconv, State.queueGroup_conv, hconv, State.took_conv]
  · rw [htobjs, State.queueGroup_objs, hobjs, State.took_objs]

theorem engineSpare_migrates {n : Byte} {slot : Nat} {rest : List Nat} (hj : s.migrateJudge n.toNat = none) (hm : s.esc.migration = none)
    (hf : s.freeSlots = slot :: rest) :
    ∃ t, exec (.engineSpareMigrate m n) s = .next t ∧
      t.esc.migration = some { logical := n.toNat, slot := slot, start := s.nextTick, byCommand := true, reply := some (replyOf m 0x0203) } ∧
      (t.mbox m.mb.val).running = some (replyOf m 0x0203, .engineSpare 0 n) ∧ t.conv = s.conv ∧ t.objs = s.objs := by
  obtain ⟨t, ht, hends⟩ := does_engineSpareMigrate hs he h hj hm hf
  obtain ⟨hesc, hconv, hobjs, hhost⟩ := (s.took m).spareBegins_keeps n.toNat slot (replyOf m 0x0203)
  obtain ⟨htesc, htconv, htobjs, -, hrun⟩ := hends.of_runs (by rw [hhost]; exact h.length)
  refine ⟨t, ht, ?_, hrun, ?_, ?_⟩
  · rw [htesc, hesc, State.nextTick, State.took_tick]
    rfl
  · rw [htconv, hconv, State.took_conv]
  · rw [htobjs, hobjs, State.took_objs]

variable {n : Byte} (hn : n.toNat < 16) (hfail : (s.esc.engine n.toNat).failed = true)
include hn hfail

theorem does_retest_closed (hi : s.idleOrPr = false) : Does (.engineSpareRetest m n) s ((s.took m).answer m 0x0203 { status := 0x05 }) :=
  reply_mail hs he rfl h fun l => State.retest_open (s := s.mail l) hn hfail hi

variable (hi : s.idleOrPr = true)
include hi

theorem does_retest_fails (ht : (Config.selfTestPass s.free && !(s.esc.engine n.toNat).barred) = false) :
    Does (.engineSpareRetest m n) s (((s.took m).staysOut n.toNat).answer m 0x0203 { status := 0, params := [BitVec.ofNat 8 n.toNat] }) :=
  effect_mail (OffMail.staysOut n.toNat) hs he rfl h (fun l => State.retest_fails (s := s.mail l) hn hfail hi ht) (hs.took m)

theorem does_retest_passes (ht : (Config.selfTestPass s.free && !(s.esc.engine n.toNat).barred) = true)
    (hl : s.isLogical (s.esc.logicalOf n.toNat) = true) (hg : s.esc.groups = []) :
    Does (.engineSpareRetest m n) s ((((s.took m).resumes n.toNat (s.esc.logicalOf n.toNat)).sparesSettled).answer m 0x0203
      { status := 0, params := [BitVec.ofNat 8 n.toNat] }) := by
  have hoff : OffMail fun u => (u.resumes n.toNat (s.esc.logicalOf n.toNat)).sparesSettled :=
    (OffMail.resumes n.toNat (s.esc.logicalOf n.toNat)).comp OffMail.sparesSettled
  have hv : ∀ l, (s.mail l).retest (replyOf m 0x0203) n.toNat =
      (((s.mail l).resumes n.toNat (s.esc.logicalOf n.toNat)).sparesSettled).reply (replyOf m 0x0203) (Ans.ok [BitVec.ofNat 8 n.toNat]) :=
    fun l => State.retest_passes (s := s.mail l) hn hfail hi ht hl hg
  have hawake : (((s.took m).resumes n.toNat (s.esc.logicalOf n.toNat)).sparesSettled).Awake := by
    obtain ⟨-, hpwr, hreg, hsaf, -⟩ := State.sparesSettled_keeps ((s.took m).resumes n.toNat (s.esc.logicalOf n.toNat))
    have htook := hs.took m
    unfold State.Awake
    rw [hpwr, hreg, hsaf]
    exact htook
  exact effect_mail (F := fun u => (u.resumes n.toNat (s.esc.logicalOf n.toNat)).sparesSettled) hoff hs he rfl h hv hawake

theorem engineSpare_resumes (hlen : s.esc.engines.length = 16) (hl : s.isLogical (s.esc.logicalOf n.toNat) = true) (hg : s.esc.groups = [])
    (hpass : (Config.selfTestPass s.free && !(s.esc.engine n.toNat).barred) = true) :
    ∃ t, exec (.engineSpareRetest m n) s = .next t ∧ t.esc.engine n.toNat = (s.esc.engine n.toNat).resumed ∧
      (∀ q, q ≠ n.toNat → t.esc.engine q = s.esc.engine q) ∧ t.esc.map = s.esc.map ∧
      t.host.out = [.mbResp m.session m.mb (msgResponse m 0x0203 { status := 0, params := [n] }) false] ∧
      t.conv = s.conv ∧ t.objs = s.objs := by
  obtain ⟨t, ht, hends⟩ := does_retest_passes hs he h hn hfail hi hpass hl hg
  obtain ⟨htesc, htconv, htobjs, hout⟩ := hends.of_answer
  obtain ⟨⟨still, hesc⟩, -, -, -, -, -, -, -, -, hconv, hobjs⟩ := State.sparesSettled_keeps ((s.took m).resumes n.toNat (s.esc.logicalOf n.toNat))
  obtain ⟨hengines, hmap, hrconv, hrobjs, hhost⟩ := (s.took m).resumes_keeps n.toNat (s.esc.logicalOf n.toNat)
  rw [State.took_esc] at hengines hmap
  have htmap : t.esc.map = ((s.took m).resumes n.toNat (s.esc.logicalOf n.toNat)).esc.map := by
    rw [htesc, hesc]
  have htengines : t.esc.engines = ((s.took m).resumes n.toNat (s.esc.logicalOf n.toNat)).esc.engines := by
    rw [htesc, hesc]
  obtain ⟨hsame, hother⟩ := Esc.engine_modified (htengines.trans hengines) (hlen ▸ hn)
  rw [State.sparesSettled_host, hhost, State.took_out, BitVec.ofNat_toNat, BitVec.setWidth_eq] at hout
  exact ⟨t, ht, hsame, hother, htmap.trans hmap, hout, (htconv.trans hconv).trans (hrconv.trans (State.took_conv ..)),
    (htobjs.trans hobjs).trans (hrobjs.trans (State.took_objs ..))⟩

theorem engineSpare_staysOut (hlen : s.esc.engines.length = 16)
    (hpass : (Config.selfTestPass s.free && !(s.esc.engine n.toNat).barred) = false) :
    ∃ t, exec (.engineSpareRetest m n) s = .next t ∧ t.esc.engine n.toNat = { s.esc.engine n.toNat with barred := true } ∧
      (∀ q, q ≠ n.toNat → t.esc.engine q = s.esc.engine q) ∧ t.esc.map = s.esc.map ∧
      t.host.out = [.mbResp m.session m.mb (msgResponse m 0x0203 { status := 0, params := [n] }) false] ∧
      t.conv = s.conv ∧ t.objs = s.objs := by
  obtain ⟨t, ht, hends⟩ := does_retest_fails hs he h hn hfail hi hpass
  obtain ⟨htesc, htconv, htobjs, hout⟩ := hends.of_answer
  obtain ⟨hengines, hmap, hrconv, hrobjs, hhost⟩ := (s.took m).staysOut_keeps n.toNat
  rw [State.took_esc] at hengines hmap
  obtain ⟨hsame, hother⟩ := Esc.engine_modified ((congrArg Esc.engines htesc).trans hengines) (hlen ▸ hn)
  rw [hhost, State.took_out, BitVec.ofNat_toNat, BitVec.setWidth_eq] at hout
  exact ⟨t, ht, hsame, hother, (congrArg Esc.map htesc).trans hmap, hout, htconv.trans (hrconv.trans (State.took_conv ..)),
    htobjs.trans (hrobjs.trans (State.took_objs ..))⟩

end

/-- Settles O56: each command is refused, answered or kept by its own rule; what it changes does not ask for the mailboxes. -/
theorem hostCommandsTakeTheirTurn : Obligations.HostCommandsTakeTheirTurn := by
  unfold Obligations.HostCommandsTakeTheirTurn
  intro s m hs he h
  refine ⟨fun op r hr => ?_, fun e hj => ⟨fun hf => ?_, fun hf hp => ?_⟩, fun e a hj ha => ?_, fun n a hj => ?_,
    fun n hn hfail hi hlen hl hg => ?_, fun n hn hfail hi => ?_, fun hj => ?_, fun a hj => ?_⟩
  · subst hr
    refine ⟨fun e hop hj hf hp hc => ?_, fun k es hop hlow hhigh hk => ?_, fun k hop hn hk => ?_, fun k t hop ht hn hk => ?_,
      fun k axes options ts hop hn hk hform hheld hg ho => ?_, fun n slot rest hop hj hm hf => ?_⟩ <;> subst hop
    · refine ⟨fun hg ho => ?_, fun hg ho => ?_, fun hg => ?_⟩
      · exact reply_mail hs he rfl h fun l => State.startObjWrite_long (s := s.mail l) he hj hf hp hc hg ho
      · exact does_objWrite_queues hs he h hj hf hp hc hg ho
      · exact reply_mail hs he rfl h fun l => State.startObjWrite_full (s := s.mail l) he hj hf hp hc hg
    · refine ⟨fun n hj ho => ?_, fun hn hj ho ha => ?_, fun hn hj ho ha hg => ?_, fun hn hj ho hd => ?_, fun n a hj ha => ?_⟩
      · exact reply_mail hs he rfl h fun l => State.startObjWriteSet_long (s := s.mail l) hlow hhigh hk he hj ho
      · exact effect_mail (OffMail.waitEntries es) hs he rfl h
          (fun l => State.startObjWriteSet_waits (s := s.mail l) hlow hhigh hk he (hn ▸ hj) ho hn ha) (State.waitEntries_awake es (hs.took m))
      · exact does_objWriteSet_queues hs he h hlow hhigh hk hn hj ho ha hg
      · exact does_objWriteSet_schedules hs he h hlow hhigh hk hn hj ho hd
      · exact reply_mail hs he rfl h fun l => State.startObjWriteSet_refused (s := s.mail l) hlow hhigh hk hj ha
    · exact ⟨fun hj => does_tableSwap hs he h hk hn hj,
        fun a hj => reply_mail hs he rfl h fun l => State.startTableSwap_refused (s := s.mail l) hk hn he hj⟩
    · exact does_convState hs he h ht hk hn
    · exact handsTarget_queues hs he h hk hn hform hheld hg ho
    · exact engineSpare_migrates hs he h hj hm hf
  · exact effect_mail (OffMail.stage e.index.toNat (entryNum e)) hs he rfl h (fun l => State.startObjWrite_stages (s := s.mail l) he hj hf) (hs.took m)
  · exact effect_mail (OffMail.addWaiting e.index.toNat (entryNum e) (pointOf e.index.toNat)) hs he rfl h
      (fun l => State.startObjWrite_waits (s := s.mail l) he hj hf hp) (hs.took m)
  · exact reply_mail hs he rfl h fun l => State.startObjWrite_refused (s := s.mail l) hj ha
  · exact reply_mail hs he rfl h fun l => State.startEngineSpare_refused (s := s.mail l) hj
  · split
    case isTrue hpass => exact engineSpare_resumes hs he h hn hfail hi hlen hl hg hpass
    case isFalse hpass => exact engineSpare_staysOut hs he h hn hfail hi hlen (Bool.eq_false_of_not_eq_true hpass)
  · exact does_retest_closed hs he h hn hfail hi
  · exact does_settingStart hs he h hj
  · exact reply_mail hs he rfl h fun l => State.startSetting_refused (s := s.mail l) hj

end Sys2Proof.Machine
end

section
/-!
PROOF. Commands that write one object are its OBJ_WRITE (R18, R185, R186, R370).
-/
namespace Sys2Proof.Machine

/-- An object whose write is queued as a group of its own. -/
def GroupObj (i : Nat) : Prop := isSafetyObj i = false ∧ pointOf i = .nextTick ∧ i ≠ Obj.COEF_WRITE

section
variable {i : Instr} {s : State} {m : Msg} {e : ObjEntry} (hs : s.Awake) (he : s.pwr.entry = none) (h : s.Takes m false)
  (hi : exec i s = runHost true s fun s => s.acceptMsg m 0x0102 false (.objWrite e)) (hj : s.judgeWrite e = none) (ho : GroupObj e.index.toNat)
include hs he h hi hj ho

theorem write_long (hg : s.esc.groups.length < 16) (hover : s.groupOver [entryItem e] ≠ none) : Does i s ((s.took m).answer m 0x0102 { status := 0x04 }) := by
  obtain ⟨hf, hp, hc⟩ := ho
  exact reply_mail hs he hi h fun l => State.startObjWrite_long (s := s.mail l) he hj hf hp hc hg hover

theorem write_queues (hg : s.esc.groups.length < 16) (hover : s.groupOver [entryItem e] = none) :
    Does i s (State.runs { s.took m with esc := { s.esc with
      groups := s.esc.groups ++ [{ acc := s.tick.now, items := [entryItem e], isSet := false, reply := some (replyOf m 0x0102), move := none }] } }
      m 0x0102 (.objWrite e)) := by
  obtain ⟨hf, hp, hc⟩ := ho
  exact running_mail (OffMail.queueGroup (replyOf m 0x0102) [entryItem e] false none) hs he hi h
    (fun l => State.startObjWrite_queues (s := s.mail l) he hj hf hp hc hg hover) (hs.took m)

theorem write_full (hg : 16 ≤ s.esc.groups.length) : Does i s ((s.took m).answer m 0x0102 { status := 0x01 }) := by
  obtain ⟨hf, hp, hc⟩ := ho
  exact reply_mail hs he hi h fun l => State.startObjWrite_full (s := s.mail l) he hj hf hp hc hg

end

theorem groupObj_tripArms (n : TripIn) : GroupObj (BitVec.ofNat 16 (0x2330 + n.val)).toNat := by
  revert n
  unfold GroupObj
  decide

theorem groupObj_laneEn (n : LaneId) : GroupObj (BitVec.ofNat 16 (0x2400 + n.val)).toNat := by
  revert n
  unfold GroupObj
  decide

/-! ### COEF_WRITE (R185, R186) -/

/-- The entry that writes a word to COEF_WRITE. -/
def coefEntry (w : DWord) : ObjEntry := ⟨0x2D02, 4, .num w.toNat⟩

theorem coefEntry_word (w : DWord) : BitVec.ofInt 64 (entryNum (coefEntry w)) = w := by
  show BitVec.ofInt 64 (w.toNat : Int) = w
  rw [BitVec.ofInt_natCast, BitVec.ofNat_toNat, BitVec.setWidth_eq]

theorem State.entryForm_coef {s : State} (hs : s.Awake) (fNom : Int) (w : DWord) : s.entryForm fNom false (coefEntry w) = none := by
  have hobj : objDef (coefEntry w).index.toNat = some ⟨0x2D02, 0x2D02, 4, .wo, .ivs [(0, 18446744073709551615)], 0, .nextTick⟩ := by
    show objDef 0x2D02 = _
    decide
  have hlt := w.isLt
  have hvalue : s.valueOk ⟨0x2D02, 0x2D02, 4, .wo, .ivs [(0, 18446744073709551615)], 0, .nextTick⟩ fNom (coefEntry w) = true := by
    have hwidth : tyFits 4 (.num (w.toNat : Int)) = true := by
      simp only [tyFits, decide_eq_true_eq]
      omega
    have hrange : ((w.toNat : Int) ≤ 18446744073709551615) := by omega
    unfold State.valueOk
    simp only [coefEntry, ObjDef.inRange, hwidth]
    simp [hrange]
  unfold State.entryForm
  dsimp only
  rw [hobj]
  dsimp only
  rw [State.domainOff_awake hs, hvalue]
  rfl

/-- Nothing in the state stands against a write of COEF_WRITE but what its own judgement says. -/
theorem State.entryState_coef (s : State) (old get : Nat → Int) (v : Int) : s.entryState old get Obj.COEF_WRITE v = none := by
  have hidle : Obj.COEF_WRITE ∉ idlePrObjs := by decide
  have hordered : orderedOk get Obj.COEF_WRITE = true := rfl
  have hchr : isChrObj Obj.COEF_WRITE = false := by decide
  have hmap : inRow Obj.COEF_WRITE Obj.ARM_MAP 48 = false := by decide
  have htype : inRow Obj.COEF_WRITE Obj.CELL_TYPE 48 = false := by decide
  have hrole : inRow Obj.COEF_WRITE Obj.AI_ROLE 24 = false := by decide
  unfold State.entryState
  simp [hidle, hordered, hchr, hmap, htype, hrole]

theorem State.judgeWrite_coef {s : State} (hs : s.Awake) (w : DWord) : s.judgeWrite (coefEntry w) = none := by
  unfold State.judgeWrite
  rw [State.entryForm_coef hs]
  show (if (isAction 0x2D02 || isSafetyObj 0x2D02) = true then none else s.entryNow (s.withEntries [coefEntry w]) Obj.COEF_WRITE (entryNum (coefEntry w))) = none
  rw [if_neg (by decide)]
  unfold State.entryNow
  rw [State.entryState_coef, ite_self]

theorem State.groupOver_coef (s : State) (w : DWord) : s.groupOver [coefItem w] = none := rfl

/-- What a write of COEF_WRITE does by its own judgement. -/
def State.coefFit (s : State) (r : Reply) (w : DWord) : State :=
  match s.coefJudge w with
  | some a => s.reply r a
  | none => if s.queueFull then s.reply r (Ans.st stBusy) else s.queueGroup r [coefItem w] false none

section
variable {s : State} {r : Reply} {w : DWord} (hs : s.Awake) (he : s.pwr.entry = none)
include hs he

theorem State.startObjWrite_coef : s.startObjWrite r (coefEntry w) = s.coefFit r w := by
  unfold State.startObjWrite
  dsimp only
  rw [State.judgeWrite_coef hs]
  dsimp only
  rw [State.closing_none he, if_neg (by decide), coefEntry_word]
  show (if isSafetyObj 0x2D02 = true then _ else if pointOf 0x2D02 ≠ .nextTick then _ else
    match (if 0x2D02 = Obj.COEF_WRITE then s.coefJudge w else none) with
    | some a => s.reply r a
    | none =>
      if (s.coefClosed || s.queueFull) = true then s.reply r (Ans.st stBusy)
      else if (s.groupOver [if 0x2D02 = Obj.COEF_WRITE then coefItem w else _]).isSome = true then s.reply r (Ans.st stRange)
      else s.queueGroup r [if 0x2D02 = Obj.COEF_WRITE then coefItem w else _] false none) = _
  rw [if_neg (by decide), if_neg (by decide), if_pos rfl, if_pos rfl, State.coefClosed_none he, State.groupOver_coef]
  rfl

theorem State.startObjWrite_coef_refused {a : Ans} (hj : s.coefJudge w = some a) : s.startObjWrite r (coefEntry w) = s.reply r a := by
  rw [State.startObjWrite_coef hs he, State.coefFit, hj]

theorem State.startObjWrite_coef_queues (hj : s.coefJudge w = none) (hg : s.esc.groups.length < 16) :
    s.startObjWrite r (coefEntry w) = s.queueGroup r [coefItem w] false none := by
  rw [State.startObjWrite_coef hs he, State.coefFit, hj]
  exact if_neg (by simpa [State.queueFull] using hg)

theorem State.startObjWrite_coef_full (hj : s.coefJudge w = none) (hg : 16 ≤ s.esc.groups.length) :
    s.startObjWrite r (coefEntry w) = s.reply r (Ans.st stBusy) := by
  rw [State.startObjWrite_coef hs he, State.coefFit, hj]
  exact if_pos (decide_eq_true hg)

end

theorem does_coefWrite_queues {s : State} {m : Msg} {w : DWord} (hs : s.Awake) (he : s.pwr.entry = none) (h : s.Takes m false)
    (hj : s.coefJudge w = none) (hg : s.esc.groups.length < 16) :
    Does (.coefWrite m w) s (State.runs { s.took m with esc := { s.esc with
      groups := s.esc.groups ++ [{ acc := s.tick.now, items := [coefItem w], isSet := false, reply := some (replyOf m 0x0102), move := none }] } }
      m 0x0102 (.objWrite (coefEntry w))) :=
  running_mail (OffMail.queueGroup (replyOf m 0x0102) [coefItem w] false none) hs he rfl h
    (fun l => State.startObjWrite_coef_queues (s := s.mail l) (hs.mail l) he hj hg) (hs.took m)

/-- Settles O59: each command carries the OBJ_WRITE of its object, whose value takes effect with its group. -/
theorem objectCommandsAreQueued : Obligations.ObjectCommandsAreQueued := by
  unfold Obligations.ObjectCommandsAreQueued
  refine ⟨fun s m c e hs he h hc => ?_, fun s m w hs he h => ⟨fun a hj => ?_, fun hj hg => ?_, fun hj hg => ?_⟩⟩
  · have hwrite : (exec c s = runHost true s fun s => s.acceptMsg m 0x0102 false (.objWrite e)) ∧ GroupObj e.index.toNat := by
      rcases hc with ⟨b, rfl, rfl⟩ | ⟨n, b, rfl, rfl⟩ | ⟨b, rfl, rfl⟩ | ⟨b, rfl, rfl⟩ | ⟨b, rfl, rfl⟩ | ⟨b, rfl, rfl⟩ | ⟨rfl, rfl⟩ | ⟨rfl, rfl⟩ |
        ⟨rfl, rfl⟩ | ⟨rfl, rfl⟩ | ⟨b, rfl, rfl⟩ | ⟨rfl, rfl⟩ | ⟨b, rfl, rfl⟩ | ⟨b, rfl, rfl⟩ | ⟨b, rfl, rfl⟩ | ⟨b, rfl, rfl⟩ | ⟨b, rfl, rfl⟩ |
        ⟨n, b, rfl, rfl⟩ | ⟨b, rfl, rfl⟩ | ⟨b, rfl, rfl⟩ | ⟨v, rfl, rfl⟩ | ⟨b, rfl, rfl⟩
      case inr.inl => exact ⟨rfl, groupObj_tripArms n⟩
      case inr.inr.inr.inr.inr.inr.inr.inr.inr.inr.inr.inr.inr.inr.inr.inr.inr.inl => exact ⟨rfl, groupObj_laneEn n⟩
      all_goals exact ⟨rfl, by unfold GroupObj; dsimp only; decide⟩
    obtain ⟨hi, ho⟩ := hwrite
    exact ⟨fun a hj ha => reply_mail hs he hi h fun l => State.startObjWrite_refused (s := s.mail l) hj ha, fun hj hg hover => write_long hs he h hi hj ho hg hover,
      fun hj hg hover => write_queues hs he h hi hj ho hg hover, fun hj hg => write_full hs he h hi hj ho hg⟩
  · exact reply_mail hs he rfl h fun l => State.startObjWrite_coef_refused (s := s.mail l) (hs.mail l) he hj
  · exact does_coefWrite_queues hs he h hj hg
  · exact reply_mail hs he rfl h fun l => State.startObjWrite_coef_full (s := s.mail l) (hs.mail l) he hj hg

end Sys2Proof.Machine
end

section
/-!
PROOF. PSTATE_REQ of a sleep state while a wake is noted (R386, R389): the statement about sleep entries leaves the wake in progress open.
-/
namespace Sys2Proof.Machine

/-- A module in S0 in PR, with one session open, that still notes a wake in progress: no command of the model leads here. -/
def wakingInS0 : State :=
  { State.reset with
    pwr := { State.reset.pwr with waking := some ⟨6, 6, 400, freeFlags 0⟩ }
    reg := { State.reset.reg with gated := false }
    saf := { State.reset.saf with startDone := true }
    host := { State.reset.host with sessions := [{ id := 7, ro := false, key := [], lastSeq := 3 }] } }

/-- A message of its session. -/
def sleepRequest : Msg := { session := 7, seq := ⟨4, {}⟩, mb := 2, tag := 9, lenOk := true }

theorem wakingInS0_mbox (n : Nat) : wakingInS0.mbox n = {} := by
  show (List.replicate 8 ({} : Mailbox)).getD n {} = {}
  rw [List.getD_eq_getElem?_getD, List.getElem?_replicate]
  split <;> rfl

theorem wakingInS0_takes : wakingInS0.Takes sleepRequest false := by
  have hidle : wakingInS0.MailIdle := fun n => by
    rw [wakingInS0_mbox]
    exact ⟨rfl, rfl, fun o ho => by cases ho⟩
  refine ⟨rfl, hidle, rfl, ?_, ?_, fun o ho => ?_, rfl, { id := 7, ro := false, key := [], lastSeq := 3 }, rfl, by decide, fun h => by cases h⟩
  · rw [wakingInS0_mbox]
    decide
  · rw [wakingInS0_mbox]
    rfl
  · rw [wakingInS0_mbox] at ho
    cases ho

/-- The request is answered BUSY, for the wake, and no entry begins. -/
theorem wakingInS0_stays : (match exec (.pstateReqSleep sleepRequest 1) wakingInS0 with | .next t => t.pwr.entry.isNone | _ => false) = true := by
  decide +kernel

/-- Refutes O58: in S0 with a wake noted as in progress, whatever bars no sleep entry, PSTATE_REQ S1 is answered BUSY and begins none. -/
theorem not_safetySessionsAndSleep : ¬ Obligations.SafetySessionsAndSleep := by
  unfold Obligations.SafetySessionsAndSleep
  intro h
  obtain ⟨hawake, -⟩ := h wakingInS0 sleepRequest rfl rfl rfl rfl wakingInS0_takes
  obtain ⟨-, -, -, -, -, -, -, -, -, hsleep, -⟩ := hawake rfl
  obtain ⟨hbegins, -⟩ := hsleep 1 (by decide) (by decide) rfl
  obtain ⟨t, ht, hentry, -⟩ := hbegins (by decide +kernel)
  have hnone := wakingInS0_stays
  rw [ht] at hnone
  rw [Option.isNone_iff_eq_none.1 hnone] at hentry
  cases hentry

end Sys2Proof.Machine
end

section
/-!
PROOF. Registers, the doorbell, the mailboxes and the domains that are off (R355, R356, R359 to R361, R363 to R366).
-/
namespace Sys2Proof.Machine

/-! ### The end of a command while no PR demand is active, in every power state -/

theorem State.post_ended (s : State) (c i : Nat) (d : List Byte) : s.post c i d = s.ended (s.post c i d) := by
  unfold State.post
  rw [State.postAt_eq]
  rfl

theorem State.demandEvent_ended (s : State) (d : Nat × Nat × Nat) : s.demandEvent d = s.ended (s.demandEvent d) := by
  unfold State.demandEvent
  dsimp only
  split
  · exact State.ended_trans (State.post_ended _ _ _ _) (State.post_ended _ _ _ _)
  · exact State.post_ended _ _ _ _

theorem State.noteDemands_ended (s : State) : s.noteDemands = s.ended s.noteDemands := by
  have h := foldl_ended State.demandEvent State.demandEvent_ended (s.demandSources.filter fun d => !s.saf.active.contains d) s
  have hactive : ∀ (u : State) (now : List (Nat × Nat × Nat)) (ack : Bool),
      { u with saf := { u.saf with active := now, ackPending := ack } } = u.ended { u with saf := { u.saf with active := now, ackPending := ack } } :=
    fun u now ack => (State.active_adds u now ack).1
  unfold State.noteDemands
  dsimp only
  split
  · exact State.ended_trans h (hactive _ _ _)
  · exact State.ended_trans (State.ended_trans h (State.noteWake_adds _ _).1) (hactive _ _ _)

theorem State.settle_undemanded {s : State} (hd : s.prDemand = false) : s.settle s.ticking = s.ended (s.settle s.ticking) := by
  have hnote : s.noteDemands.prDemand = false := by
    rw [s.noteDemands_ended]
    exact (State.ended_demands s s.noteDemands).2.1.trans hd
  have hstop : ¬(s.ticking && !s.ticking) = true := by simp
  unfold State.settle
  dsimp only
  rw [if_neg hstop]
  simp only [hnote, Bool.false_and, Bool.false_eq_true, if_false]
  exact State.ended_trans s.noteDemands_ended (State.sfEvent_adds _).1

theorem exec_runHost {c : Instr} {s : State} {E : State → State} (hr : s.pwr.inReset = false) (hc : exec c s = runHost true s E) :
    exec c s = .next ((E s.clearOut).pump.settle s.ticking) := by
  rw [hc]
  simp [runHost, guarded, State.unlessReset, hr]

theorem undemanded_next {c : Instr} {s f : State} {E : State → State} (hr : s.pwr.inReset = false) (hc : exec c s = runHost true s E)
    (hE : (E s.clearOut).pump = f) (htick : f.ticking = s.ticking) (hd : f.prDemand = false) : ∃ t, exec c s = .next t ∧ t = f.ended t := by
  refine ⟨f.settle f.ticking, ?_, State.settle_undemanded hd⟩
  rw [exec_runHost hr hc, hE, htick]

/-! ### Frames of a session (R355, R356, R361) -/

/-- An access to a domain that is off asks and changes no mailbox. -/
theorem OffMail.accessErr (k x : Nat) : OffMail (·.accessErr k x) := by
  have hnote : OffMail fun s => { s with host := { s.host with
      accessErr := true, accessErrs := s.host.accessErrs + 1, accessErrAddr := if s.host.accessErr then s.host.accessErrAddr else accessWord k x } } :=
    fun _ => ⟨rfl, rfl, rfl, fun _ => rfl⟩
  exact hnote.comp (OffMail.post 0x1F05 noInst (beBytes 4 (accessWord k x)))

theorem State.accessErr_host (s : State) (k x : Nat) : (s.accessErr k x).host = { s.host with
    accessErr := true, accessErrs := s.host.accessErrs + 1, accessErrAddr := if s.host.accessErr then s.host.accessErrAddr else accessWord k x } := by
  unfold State.accessErr
  rw [State.post_host]

theorem State.accessErr_eq (s : State) (k x : Nat) : s.accessErr k x = { s with host := (s.accessErr k x).host, log := (s.accessErr k x).log } := by
  unfold State.accessErr State.post
  rw [State.postAt_eq]

/-- The first access error is the one that is noted (R361). -/
def State.firstAccess (s : State) (w : Nat) : Nat := if s.host.accessErr then s.host.accessErrAddr else w

section
variable {s : State} {id : Word} {seq : FrameNo} {x : Session}

theorem State.session_id (hx : s.session id = some x) : x.id = id := by
  have h := List.find?_some hx
  simpa using h

theorem State.regRead_unfit {a : Word} {n : Nat} (hserves : s.serves = true) (hid : id ≠ 0) (hx : s.session id = some x) (hn : x.lastSeq < seq.n)
    (h : regReadOk a.toNat n = false) : s.regRead id seq a n = (s.tookFrame id seq).emit (.error id stRange) := by
  unfold State.regRead
  rw [if_neg hid, State.frame_new hserves hx hn, h, if_neg (by decide)]

theorem State.regRead_reads {a : Word} {n : Nat} (hserves : s.serves = true) (hid : id ≠ 0) (hx : s.session id = some x) (hn : x.lastSeq < seq.n)
    (h : regReadOk a.toNat n = true) : s.regRead id seq a n = (s.tookFrame id seq).regReadDo id a n := by
  unfold State.regRead
  rw [if_neg hid, State.frame_new hserves hx hn, h, if_pos rfl]

theorem State.regWrite_other {a : Word} {v : Nat} (hserves : s.serves = true) (hx : s.session id = some x) (hn : x.lastSeq < seq.n) (ha : a ≠ 0x300)
    (hro : x.ro = false) : s.regWrite id seq a v =
      let u := (s.tookFrame id seq).emit (.regWriteResp id a)
      if regCore a.toNat && u.domainOff .core then u.accessErr 0 a.toNat else u := by
  unfold State.regWrite
  rw [State.frame_new hserves hx hn, if_neg ha, hro, if_neg (by decide)]

theorem State.regWrite_doorbell {v : Nat} (hserves : s.serves = true) (hx : s.session id = some x) (hn : x.lastSeq < seq.n) :
    s.regWrite id seq 0x300 v = (s.tookFrame id seq).doorbell x v := by
  unfold State.regWrite
  rw [State.frame_new hserves hx hn, if_pos rfl]

/-- A read of registers of domains that are on, of which none is AON_STATUS. -/
theorem State.regReadDo_on {a : Word} {n : Nat} (hs : s.Awake) (h : (regAddrs a.toNat n).contains 0x400 = false) :
    s.regReadDo id a n = s.emit (.regReadResp id a ((regAddrs a.toNat n).map fun a => BitVec.ofNat 32 (s.regValue a))) := by
  have hword : s.regWord = fun a => BitVec.ofNat 32 (s.regValue a) := by
    funext a
    unfold State.regWord
    rw [State.domainOff_awake hs, Bool.and_false, if_neg (by decide)]
  unfold State.regReadDo
  dsimp only
  rw [h, State.domainOff_awake hs, hword]
  rfl

/-- AON_STATUS clears ACCESS_ERR. -/
theorem State.regReadDo_aonStatus (hs : s.Awake) :
    s.regReadDo id 0x400 1 = let u := s.emit (.regReadResp id 0x400 ((regAddrs (0x400 : Word).toNat 1).map s.regWord))
      { u with host := { u.host with accessErr := false } } := by
  unfold State.regReadDo
  dsimp only
  rw [State.domainOff_awake hs]
  rfl

theorem regReadOk_iff {a n : Nat} : regReadOk a n = true ↔ a % 4 = 0 ∧ 1 ≤ n ∧ n ≤ 64 := by
  simp [regReadOk, and_assoc]

theorem State.doorbell_serves {v : Nat} (h : ¬(x.ro && v / 2 ^ 16 % 256 ≠ 0) = true) :
    s.doorbell x v = ({ s with host := { s.host with
      mbs := s.host.mbs.mapIdx fun n (m : Mailbox) => m.doorbell x.id (v.testBit n) (v.testBit (16 + n)) } }).emit (.regWriteResp x.id 0x300) :=
  if_neg h

theorem State.doorbell_barred {v : Nat} (hro : x.ro = true) (h : v / 2 ^ 16 % 256 ≠ 0) : s.doorbell x v = s.emit (.error x.id stAuth) :=
  if_pos (by rw [hro]; simpa using h)

end

/-! ### The doorbell at the mailboxes (R359, R364, R365) -/

/-- Every mailbox of a session at a write of DOORBELL. -/
def State.rung (s : State) (id : Word) (v : Nat) : State :=
  { s with host := { s.host with mbs := s.host.mbs.mapIdx fun n (m : Mailbox) => m.doorbell id (v.testBit n) (v.testBit (16 + n)) } }

theorem State.rung_mbox (s : State) (id : Word) (v n : Nat) : (s.rung id v).mbox n = (s.mbox n).doorbell id (v.testBit n) (v.testBit (16 + n)) := by
  show (s.host.mbs.mapIdx _).getD n ({} : Mailbox) = _
  unfold State.mbox
  rw [List.getD_eq_getElem?_getD, List.getD_eq_getElem?_getD, List.getElem?_mapIdx]
  cases s.host.mbs[n]? with
  | none => rfl
  | some m => rfl

theorem Mailbox.doorbell_owner (m : Mailbox) (id : Word) (ack flush : Bool) : (m.doorbell id ack flush).owner = m.owner := by
  unfold Mailbox.doorbell
  split <;> rfl

/-- An acknowledgement takes the oldest response out. -/
theorem Mailbox.doorbell_ack (m : Mailbox) (id : Word) (ack : Bool) :
    m.doorbell id ack false = if m.owner = some id ∧ ack = true then { m with unacked := m.unacked.drop 1 } else m := by
  unfold Mailbox.doorbell
  by_cases ho : m.owner = some id
  · cases ack with
    | true => exact (if_pos ho).trans (if_pos ⟨ho, rfl⟩).symm
    | false => exact (if_pos ho).trans (if_neg (by simp)).symm
  · exact (if_neg ho).trans (if_neg fun h => ho h.1).symm

theorem Mailbox.queue_none {m : Mailbox} (h : m.queue = []) : { m with queue := [] } = m := by
  obtain ⟨⟩ := m
  cases h
  rfl

/-- A flush empties the queue. -/
theorem Mailbox.doorbell_flush {m : Mailbox} {id : Word} {flush : Bool} (h : m.queue = [] ∨ (m.owner = some id ∧ flush = true)) :
    m.doorbell id false flush = { m with queue := [] } := by
  unfold Mailbox.doorbell
  obtain hq | ⟨ho, rfl⟩ := h
  · obtain ⟨⟩ := m
    cases hq
    simp
  · rw [if_pos ho]
    rfl

theorem mbox_beyond {s : State} {n : Nat} (hl : s.host.mbs.length = 8) (hn : 8 ≤ n) : s.mbox n = ({} : Mailbox) :=
  List.getD_eq_default _ _ (hl ▸ hn)

theorem testBit_high (bits : Byte) {n : Nat} (hn : n < 8) : (bits.toNat * 2 ^ 16).testBit n = false ∧ (bits.toNat * 2 ^ 16).testBit (16 + n) = bits.toNat.testBit n := by
  rw [Nat.testBit_mul_two_pow, Nat.testBit_mul_two_pow]
  simp
  omega

theorem testBit_low (bits : Byte) (n : Nat) : bits.toNat.testBit (16 + n) = false :=
  Nat.testBit_lt_two_pow (lt_of_lt_of_le bits.isLt (Nat.pow_le_pow_right (by decide) (by omega)))

section
variable {s : State} {id : Word} {bits : Byte}

theorem State.rung_acks (n : Nat) : (s.rung id bits.toNat).mbox n =
    if (s.mbox n).owner = some id ∧ bits.toNat.testBit n = true then { s.mbox n with unacked := (s.mbox n).unacked.drop 1 } else s.mbox n := by
  rw [State.rung_mbox, testBit_low, Mailbox.doorbell_ack]

theorem State.rung_flushes (hl : s.host.mbs.length = 8)
    (h : ∀ n : Nat, (s.mbox n).queue = [] ∨ (n < 8 ∧ (s.mbox n).owner = some id ∧ bits.toNat.testBit n = true)) (n : Nat) :
    (s.rung id (bits.toNat * 2 ^ 16)).mbox n = { s.mbox n with queue := [] } := by
  rw [State.rung_mbox]
  by_cases hn : n < 8
  · obtain ⟨hlow, hhigh⟩ := testBit_high bits hn
    rw [hlow, hhigh]
    exact Mailbox.doorbell_flush ((h n).imp (fun hq => hq) fun hf => hf.2)
  · rw [mbox_beyond hl (by omega)]
    rfl

/-- After a doorbell nothing waits where nothing is left in a queue and every owner has an open session. -/
theorem State.rung_done {v : Nat} {u : State} (hq : ∀ n, ((s.rung id v).mbox n).queue = []) (ho : ∀ n o, (s.mbox n).owner = some o → s.isOpen o = true)
    (hm : u.host.mbs = (s.rung id v).host.mbs) (hses : u.host.sessions = s.host.sessions) : u.MailDone := by
  have hmbox : ∀ n, u.mbox n = (s.rung id v).mbox n := fun n => by
    unfold State.mbox
    rw [hm]
  intro n
  rw [hmbox]
  refine ⟨hq n, fun o howner => ?_⟩
  rw [State.rung_mbox, Mailbox.doorbell_owner] at howner
  exact (State.isOpen_congr hses o).trans (ho n o howner)

end

/-! ### Responses and commands that wait (R364, R365) -/

section
variable {s : State}

theorem State.resend_sends {x : UnackedAt} {r : Response} {id : Word} (hr : (s.mbox x.mb.val).unacked[x.k]? = some r)
    (ho : (s.mbox x.mb.val).owner = some id) (hopen : s.isOpen id = true) : s.resend x = s.emit (.mbResp id x.mb r true) := by
  have howner : s.ownerOf x.mb.val = some id := by
    unfold State.ownerOf
    rw [ho]
    exact if_pos hopen
  unfold State.resend
  rw [hr, howner]

theorem State.resend_none {x : UnackedAt} (hr : (s.mbox x.mb.val).unacked[x.k]? = none) : s.resend x = s := by
  unfold State.resend
  rw [hr]

theorem State.discardResp_none {mb : Nat} (hr : (s.mbox mb).unacked = []) : s.discardResp mb = s := by
  unfold State.discardResp
  rw [hr]

/-- A mailbox without its oldest response, and the count of it. -/
def State.discarded (s : State) (mb : Nat) (rs : List Response) : State :=
  { s.setMbox mb fun m => { m with unacked := rs } with
    host := { (s.setMbox mb fun m => { m with unacked := rs }).host with discards := s.host.discards + 1 } }

theorem State.discardResp_discards {mb : Nat} {r : Response} {rs : List Response} (hr : (s.mbox mb).unacked = r :: rs) :
    s.discardResp mb = (s.discarded mb rs).post 0x1F04 mb (beBytes 2 r.opcode.toNat ++ beBytes 2 r.tag.toNat) := by
  unfold State.discardResp
  rw [hr]
  rfl

theorem State.discarded_mbox (mb k : Nat) (rs : List Response) : (s.discarded mb rs).mbox k = (s.setMbox mb fun m => { m with unacked := rs }).mbox k := rfl

theorem State.cmdBound_none {mb : Nat} (hr : (s.mbox mb).running = none) : s.cmdBound mb = s := by
  unfold State.cmdBound
  rw [hr]

/-- The load of a table whose last fragment waits is undone (R371). -/
def State.loadUndone (s : State) (v : Verify) : State := { s with esc := { s.esc with load := v.before, verify := none } }

theorem State.cmdBound_load {mb : Nat} {r : Reply} {f : Fragment} {v : Verify} (hr : (s.mbox mb).running = some (r, .tableLoad f))
    (hv : s.esc.verify = some v) : s.cmdBound mb = (s.loadUndone v).reply r (Ans.st 0x01) := by
  unfold State.cmdBound
  rw [hr, hv]
  rfl

/-- The command that a mailbox executes is answered. -/
theorem State.reply_runs {r : Reply} {a : Ans} (hr : (s.mbox r.mb.val).runs r = true) (hst : s.host.starting = false) :
    s.reply r a = (s.setMbox r.mb.val fun m =>
      { m with running := none, unacked := m.unacked ++ [r.response a], last := some (r.response a) }).emit (.mbResp r.session r.mb (r.response a) false) :=
  if_pos (by rw [hr, hst]; rfl)

end

/-! ### The commands of a module in service -/

theorem State.tookFrame_mbox (s : State) (id : Word) (seq : FrameNo) (n : Nat) : (s.clearOut.tookFrame id seq).mbox n = s.mbox n := rfl

theorem State.rung_conv (s : State) (id : Word) (seq : FrameNo) (v : Nat) : ((s.clearOut.tookFrame id seq).rung id v).conv = s.conv := rfl
theorem State.rung_objs (s : State) (id : Word) (seq : FrameNo) (v : Nat) : ((s.clearOut.tookFrame id seq).rung id v).objs = s.objs := rfl
theorem State.rung_out (s : State) (id : Word) (seq : FrameNo) (v : Nat) : ((s.clearOut.tookFrame id seq).rung id v).host.out = [] := rfl

section
variable {s : State} {id : Word} {seq : FrameNo} {x : Session} (hs : s.Awake) (hst : s.host.starting = false) (hx : s.session id = some x)
  (hn : x.lastSeq < seq.n)
include hs hst hx hn

/-- A write of DOORBELL that leaves no command in a queue. -/
theorem doorbell_rings {c : Instr} {v : Nat} (hc : exec c s = runHost true s fun s => s.regWrite id seq 0x300 v)
    (hro : ¬(x.ro && v / 2 ^ 16 % 256 ≠ 0) = true) (hq : ∀ n, (((s.clearOut.tookFrame id seq).rung id v).mbox n).queue = [])
    (ho : ∀ n o, (s.mbox n).owner = some o → s.isOpen o = true) :
    ∃ t, exec c s = .next t ∧ (∀ n, t.mbox n = ((s.clearOut.tookFrame id seq).rung id v).mbox n) ∧
      t.host.out = [.regWriteResp id 0x300] ∧ t.conv = s.conv ∧ t.objs = s.objs := by
  have hserves := State.serves_of_awake (s := s.clearOut) hs.clearOut hst
  have hrings : s.clearOut.regWrite id seq 0x300 v = ((s.clearOut.tookFrame id seq).rung id v).emit (.regWriteResp id 0x300) := by
    rw [State.regWrite_doorbell hserves hx hn, State.doorbell_serves hro, State.session_id hx]
    rfl
  have howner : ∀ n o, ((s.clearOut.tookFrame id seq).mbox n).owner = some o → (s.clearOut.tookFrame id seq).isOpen o = true := fun n o h => by
    unfold State.isOpen
    rw [State.session_tookFrame]
    exact ho n o h
  obtain ⟨t, ht, hends⟩ := does_mail hs hc hrings (State.rung_done hq howner rfl rfl) ⟨hs.1, hs.2.1, hs.2.2.1, hs.2.2.2⟩
  refine ⟨t, ht, fun n => ?_, ?_, hends.conv_eq.trans (s.rung_conv id seq v), hends.objs_eq.trans (s.rung_objs id seq v)⟩
  · unfold State.mbox
    rw [hends.host_eq]
    rfl
  · rw [hends.host_eq]
    rfl

variable (hm : s.MailIdle)
include hm

theorem does_regWriteOther {a v : Word} (ha : a ≠ 0x300) (hro : x.ro = false) :
    Does (.regWriteOther id seq a v) s
      { s.clearOut.tookFrame id seq with host := { (s.clearOut.tookFrame id seq).host with out := [.regWriteResp id a] } } := by
  have hserves := State.serves_of_awake (s := s.clearOut) hs.clearOut hst
  have hawake : ((s.clearOut.tookFrame id seq).emit (.regWriteResp id a)).Awake := ⟨hs.1, hs.2.1, hs.2.2.1, hs.2.2.2⟩
  have hwrites : s.clearOut.regWrite id seq a v.toNat = (s.clearOut.tookFrame id seq).emit (.regWriteResp id a) := by
    rw [State.regWrite_other hserves hx hn ha hro]
    exact if_neg (by rw [State.domainOff_awake hawake, Bool.and_false]; decide)
  exact does_mail (E := fun s => s.regWrite id seq a v.toNat) hs rfl hwrites ((hm.clearOut.tookFrame id seq).done.stays rfl fun _ h => h) hawake

theorem does_doorbellFlush_barred {bits : Byte} (hro : x.ro = true) (hbits : bits ≠ 0) :
    Does (.doorbellFlush id seq bits) s
      { s.clearOut.tookFrame id seq with host := { (s.clearOut.tookFrame id seq).host with out := [.error id 0x09] } } := by
  have hserves := State.serves_of_awake (s := s.clearOut) hs.clearOut hst
  have hne : bits.toNat ≠ 0 := fun h => hbits (BitVec.eq_of_toNat_eq h)
  have hflush : bits.toNat * 2 ^ 16 / 2 ^ 16 % 256 ≠ 0 := by
    have hlt := bits.isLt
    omega
  have hbarred : s.clearOut.regWrite id seq 0x300 (bits.toNat * 2 ^ 16) = (s.clearOut.tookFrame id seq).emit (.error id stAuth) := by
    rw [State.regWrite_doorbell hserves hx hn, State.doorbell_barred hro hflush, State.session_id hx]
  exact does_mail (E := fun s => s.regWrite id seq 0x300 (bits.toNat * 2 ^ 16)) hs rfl hbarred ((hm.clearOut.tookFrame id seq).done.stays rfl fun _ h => h)
    ⟨hs.1, hs.2.1, hs.2.2.1, hs.2.2.2⟩

/-- A flush where nothing waits changes no mailbox. -/
theorem does_doorbellFlush_idle {bits : Byte} (hro : x.ro = false) (hlen : s.host.mbs.length = 8) :
    Does (.doorbellFlush id seq bits) s
      { s.clearOut.tookFrame id seq with host := { (s.clearOut.tookFrame id seq).host with out := [.regWriteResp id 0x300] } } := by
  have hserves := State.serves_of_awake (s := s.clearOut) hs.clearOut hst
  have hrung : (s.clearOut.tookFrame id seq).rung id (bits.toNat * 2 ^ 16) = s.clearOut.tookFrame id seq := by
    have hmbs : (s.host.mbs.mapIdx fun n (m : Mailbox) => m.doorbell id ((bits.toNat * 2 ^ 16).testBit n) ((bits.toNat * 2 ^ 16).testBit (16 + n))) =
        s.host.mbs := by
      refine List.ext_getElem (List.length_mapIdx) fun n hn hn' => ?_
      have hqueue : s.host.mbs[n].queue = [] := by
        have hq := (hm n).1
        unfold State.mbox at hq
        rwa [List.getD_eq_getElem _ _ hn'] at hq
      obtain ⟨hlow, hhigh⟩ := testBit_high bits (n := n) (hlen ▸ hn')
      rw [List.getElem_mapIdx, hlow, Mailbox.doorbell_flush (.inl hqueue)]
      exact Mailbox.queue_none hqueue
    unfold State.rung
    have htook : (s.clearOut.tookFrame id seq).host.mbs = s.host.mbs := rfl
    rw [htook, hmbs]
    rfl
  have hrings : s.clearOut.regWrite id seq 0x300 (bits.toNat * 2 ^ 16) = (s.clearOut.tookFrame id seq).emit (.regWriteResp id 0x300) := by
    rw [State.regWrite_doorbell hserves hx hn, State.doorbell_serves (by simp [hro]), State.session_id hx]
    exact congrArg (State.emit · (.regWriteResp id 0x300)) hrung
  exact does_mail (E := fun s => s.regWrite id seq 0x300 (bits.toNat * 2 ^ 16)) hs rfl hrings ((hm.clearOut.tookFrame id seq).done.stays rfl fun _ h => h)
    ⟨hs.1, hs.2.1, hs.2.2.1, hs.2.2.2⟩

variable (hid : id ≠ 0)
include hid

theorem does_regRead {a : Word} {n : Nat} (ha : a.toNat % 4 = 0) (hlow : 1 ≤ n) (hhigh : n ≤ 64) (hno : (regAddrs a.toNat n).contains 0x400 = false) :
    Does (.regRead id seq a n) s { s.clearOut.tookFrame id seq with host := { (s.clearOut.tookFrame id seq).host with
      out := [.regReadResp id a ((List.range n).map fun i => BitVec.ofNat 32 ((s.clearOut.tookFrame id seq).regValue (a.toNat + 4 * i)))] } } := by
  have hserves := State.serves_of_awake (s := s.clearOut) hs.clearOut hst
  have hawake : (s.clearOut.tookFrame id seq).Awake := ⟨hs.1, hs.2.1, hs.2.2.1, hs.2.2.2⟩
  have hreads : s.clearOut.regRead id seq a n = (s.clearOut.tookFrame id seq).emit (.regReadResp id a
      ((List.range n).map fun i => BitVec.ofNat 32 ((s.clearOut.tookFrame id seq).regValue (a.toNat + 4 * i)))) := by
    rw [State.regRead_reads hserves hid hx hn (regReadOk_iff.2 ⟨ha, hlow, hhigh⟩), State.regReadDo_on hawake hno]
    unfold regAddrs
    rw [List.map_map]
    rfl
  exact does_mail (E := fun s => s.regRead id seq a n) hs rfl hreads ((hm.clearOut.tookFrame id seq).done.stays rfl fun _ h => h) hawake

theorem does_regRead_aonStatus : ∃ t, exec (.regRead id seq 0x400 1) s = .next t ∧ t.host.accessErr = false ∧ t.objs = s.objs := by
  have hserves := State.serves_of_awake (s := s.clearOut) hs.clearOut hst
  have hawake : (s.clearOut.tookFrame id seq).Awake := ⟨hs.1, hs.2.1, hs.2.2.1, hs.2.2.2⟩
  have hreads := (State.regRead_reads (a := 0x400) (n := 1) hserves hid hx hn (by decide)).trans (State.regReadDo_aonStatus hawake)
  obtain ⟨t, ht, hends⟩ := does_mail (c := .regRead id seq 0x400 1) (E := fun s => s.regRead id seq 0x400 1) hs rfl hreads ((hm.clearOut.tookFrame id seq).done.stays rfl fun _ h => h) hawake
  refine ⟨t, ht, ?_, hends.objs_eq⟩
  rw [hends.host_eq]

theorem does_regRead_unfit {a : Word} {n : Nat} (h : a.toNat % 4 ≠ 0 ∨ n < 1 ∨ 64 < n) :
    Does (.regRead id seq a n) s
      { s.clearOut.tookFrame id seq with host := { (s.clearOut.tookFrame id seq).host with out := [.error id 0x04] } } := by
  have hserves := State.serves_of_awake (s := s.clearOut) hs.clearOut hst
  have hunfit : regReadOk a.toNat n = false := by
    rw [← Bool.not_eq_true, regReadOk_iff]
    omega
  exact does_mail (E := fun s => s.regRead id seq a n) hs rfl (State.regRead_unfit hserves hid hx hn hunfit)
    ((hm.clearOut.tookFrame id seq).done.stays rfl fun _ h => h) ⟨hs.1, hs.2.1, hs.2.2.1, hs.2.2.2⟩

end

/-- A mailbox whose command has been answered (R358). -/
def Mailbox.replied (m : Mailbox) (x : Response) : Mailbox := { m with running := none, unacked := m.unacked ++ [x], last := some x }

/-- The state after the bound of a TABLE_LOAD whose image is being verified: the transfer stands as before its last fragment, and its command is
answered BUSY. -/
def State.undone (s : State) (r : Reply) (v : Verify) : State :=
  ((s.loadUndone v).setMbox r.mb.val (Mailbox.replied · (r.response (Ans.st 0x01)))).emit (.mbResp r.session r.mb (r.response (Ans.st 0x01)) false)

theorem State.cmdBound_undone {s : State} {r : Reply} {f : Fragment} {v : Verify} (hst : s.host.starting = false)
    (hrun : (s.mbox r.mb.val).running = some (r, .tableLoad f)) (hv : s.esc.verify = some v) : s.cmdBound r.mb.val = s.undone r v := by
  have hruns : ((s.loadUndone v).mbox r.mb.val).runs r = true := by
    show (s.mbox r.mb.val).runs r = true
    unfold Mailbox.runs
    rw [hrun]
    exact beq_self_eq_true r
  exact (State.cmdBound_load hrun hv).trans (State.reply_runs hruns hst)

theorem State.undone_mbox (s : State) (r : Reply) (v : Verify) (n : Nat) :
    (s.undone r v).mbox n = ((s.loadUndone v).setMbox r.mb.val (Mailbox.replied · (r.response (Ans.st 0x01)))).mbox n := rfl

theorem State.undone_mbox_same (s : State) (r : Reply) (v : Verify) (hlen : s.host.mbs.length = 8) :
    (s.undone r v).mbox r.mb.val = (s.mbox r.mb.val).replied (r.response (Ans.st 0x01)) := by
  rw [State.undone_mbox]
  exact State.mbox_setMbox_same _ _ _ (hlen.symm ▸ r.mb.isLt)

theorem State.undone_mbox_other (s : State) (r : Reply) (v : Verify) {n : Nat} (h : n ≠ r.mb.val) : (s.undone r v).mbox n = s.mbox n := by
  rw [State.undone_mbox]
  exact State.mbox_setMbox_other _ _ _ _ h

theorem State.undone_isOpen (s : State) (r : Reply) (v : Verify) (o : Word) : (s.undone r v).isOpen o = s.isOpen o := rfl

theorem State.undone_done {s : State} (r : Reply) (v : Verify) (hlen : s.host.mbs.length = 8) (hq : ∀ n : Nat, (s.mbox n).queue = [])
    (ho : ∀ (n : Nat) (o : Word), (s.mbox n).owner = some o → s.isOpen o = true) : (s.undone r v).MailDone := fun n => by
  by_cases hn : n = r.mb.val
  · rw [hn, State.undone_mbox_same s r v hlen]
    exact ⟨hq _, ho _⟩
  · rw [State.undone_mbox_other s r v hn]
    exact ⟨hq n, ho n⟩

theorem State.undone_awake {s : State} (hs : s.Awake) (r : Reply) (v : Verify) : (s.undone r v).Awake := hs

theorem State.undone_keeps (s : State) (r : Reply) (v : Verify) :
    (s.undone r v).esc = { s.esc with load := v.before, verify := none } ∧ (s.undone r v).conv = s.conv ∧ (s.undone r v).objs = s.objs ∧
      (s.undone r v).host.out = s.host.out ++ [.mbResp r.session r.mb (r.response (Ans.st 0x01)) false] := ⟨rfl, rfl, rfl, rfl⟩

theorem mbCmdBound_undoes {s : State} (hs : s.Awake) (hst : s.host.starting = false) (hlen : s.host.mbs.length = 8)
    (ho : ∀ (n : Nat) (o : Word), (s.mbox n).owner = some o → s.isOpen o = true) {mb : Fin 8} {r : Reply} {f : Fragment} {v : Verify}
    (hq : ∀ n : Nat, (s.mbox n).queue = []) (hrun : (s.mbox mb.val).running = some (r, .tableLoad f)) (hmb : r.mb = mb) (hv : s.esc.verify = some v) :
    ∃ t, exec (.mbCmdBound mb) s = .next t ∧ t.esc = { s.esc with load := v.before, verify := none } ∧
      t.mbox mb.val = { s.mbox mb.val with running := none, unacked := (s.mbox mb.val).unacked ++ [r.response (Ans.st 0x01)], last := some (r.response (Ans.st 0x01)) } ∧
      (∀ k : Nat, k ≠ mb.val → t.mbox k = s.mbox k) ∧ t.host.out = [.mbResp r.session mb (r.response (Ans.st 0x01)) false] ∧ t.conv = s.conv ∧
      t.objs = s.objs := by
  subst hmb
  have hdone : (s.clearOut.undone r v).MailDone := State.undone_done (s := s.clearOut) r v hlen hq ho
  have hawake := State.undone_awake hs.clearOut r v
  obtain ⟨t, ht, hends⟩ := does_mail (c := .mbCmdBound r.mb) (E := fun s => s.cmdBound r.mb.val) hs rfl
    (State.cmdBound_undone (s := s.clearOut) hst hrun hv) hdone hawake
  obtain ⟨hesc, hconv, hobjs, hout⟩ := s.clearOut.undone_keeps r v
  have hmbox : ∀ n, t.mbox n = (s.clearOut.undone r v).mbox n := fun n => by
    unfold State.mbox
    rw [hends.host_eq]
  refine ⟨t, ht, hends.esc_eq.trans hesc, ?_, fun k hk => ?_, ?_, hends.conv_eq.trans hconv, hends.objs_eq.trans hobjs⟩
  · rw [hmbox]
    exact State.undone_mbox_same s.clearOut r v hlen
  · rw [hmbox]
    exact State.undone_mbox_other s.clearOut r v hk
  · rw [hends.host_eq]
    exact hout

/-- The supervisor's own domain is never off, nor does a sleep entry close it. -/
theorem State.startCmd_sup {u : State} {r : Reply} {c : HostCmd} (hc : cmdDomain c = .sup) : u.startCmd r c = u.perform r c := by
  have hclosing : u.closing .sup = false := by
    unfold State.closing
    split <;> rfl
  unfold State.startCmd
  rw [hc, hclosing]
  rfl

section
variable {s : State} (hs : s.Awake) (hst : s.host.starting = false) (hm : s.MailIdle)
include hs hst hm

theorem does_mbRespRetransmit {x : UnackedAt} {r : Response} {id : Word} (hr : (s.mbox x.mb.val).unacked[x.k]? = some r)
    (ho : (s.mbox x.mb.val).owner = some id) :
    Does (.mbRespRetransmit x) s { s.clearOut with host := { s.clearOut.host with out := [.mbResp id x.mb r true] } } := by
  have hserves := State.serves_of_awake (s := s.clearOut) hs.clearOut hst
  exact does_mail (E := fun s => if s.serves then s.resend x else s) hs rfl
    ((if_pos hserves).trans (State.resend_sends (s := s.clearOut) hr ho ((hm x.mb.val).2.2 id ho))) (hm.clearOut.done.stays rfl fun _ h => h) hs.clearOut

theorem idles_mbRespRetransmit {x : UnackedAt} (hr : (s.mbox x.mb.val).unacked[x.k]? = none) : Idles (.mbRespRetransmit x) s := by
  have hserves := State.serves_of_awake (s := s.clearOut) hs.clearOut hst
  exact idles_mail (E := fun s => if s.serves then s.resend x else s) hs hm rfl ((if_pos hserves).trans (State.resend_none (s := s.clearOut) hr))

theorem idles_mbRespDiscard {mb : Fin 8} (hr : (s.mbox mb.val).unacked = []) : Idles (.mbRespDiscard mb) s := by
  have hserves := State.serves_of_awake (s := s.clearOut) hs.clearOut hst
  exact idles_mail (E := fun s => if s.serves then s.discardResp mb.val else s) hs hm rfl ((if_pos hserves).trans (State.discardResp_none (s := s.clearOut) hr))

omit hst in
theorem idles_mbCmdBound (mb : Fin 8) : Idles (.mbCmdBound mb) s :=
  idles_mail (E := fun s => s.cmdBound mb.val) hs hm rfl (State.cmdBound_none (s := s.clearOut) (hm mb.val).2.1)

theorem mbRespDiscard_discards {mb : Fin 8} {r : Response} {rs : List Response} (hlen : s.host.mbs.length = 8) (hr : (s.mbox mb.val).unacked = r :: rs) :
    ∃ t, exec (.mbRespDiscard mb) s = .next t ∧ t.mbox mb.val = { s.mbox mb.val with unacked := rs } ∧
      (∀ k : Nat, k ≠ mb.val → t.mbox k = s.mbox k) ∧ t.host.discards = s.host.discards + 1 ∧ t.conv = s.conv ∧ t.objs = s.objs := by
  have hserves := State.serves_of_awake (s := s.clearOut) hs.clearOut hst
  have hsame : (s.clearOut.discarded mb.val rs).mbox mb.val = { s.mbox mb.val with unacked := rs } :=
    State.mbox_setMbox_same s.clearOut mb.val _ (by rw [show s.clearOut.host.mbs.length = 8 from hlen]; exact mb.isLt)
  have hother : ∀ k, k ≠ mb.val → (s.clearOut.discarded mb.val rs).mbox k = s.mbox k := fun k hk => State.mbox_setMbox_other s.clearOut mb.val k _ hk
  have hdone : (s.clearOut.discarded mb.val rs).MailDone := fun n => by
    by_cases hn : n = mb.val
    · rw [hn, hsame]
      exact ⟨(hm _).1, (hm _).2.2⟩
    · rw [hother n hn]
      exact ⟨(hm n).1, (hm n).2.2⟩
  obtain ⟨t, ht, hends⟩ := does_mail (c := .mbRespDiscard mb) (E := fun s => if s.serves then s.discardResp mb.val else s) hs rfl
    ((if_pos hserves).trans (State.discardResp_discards (s := s.clearOut) hr)) (State.post_done hdone) (.post ⟨hs.1, hs.2.1, hs.2.2.1, hs.2.2.2⟩)
  have hhost : t.host = (s.clearOut.discarded mb.val rs).host := hends.host_eq.trans (State.post_host ..)
  have hmbox : ∀ n, t.mbox n = (s.clearOut.discarded mb.val rs).mbox n := fun n => by
    unfold State.mbox
    rw [hhost]
  refine ⟨t, ht, (hmbox _).trans hsame, fun k hk => (hmbox k).trans (hother k hk), ?_, hends.conv_eq.trans (State.post_conv ..), hends.objs_eq.trans (State.post_objs ..)⟩
  rw [hhost]
  rfl

omit hm in
theorem does_mbMsgBadOpcode {m : Msg} {opcode : BitVec 16} (h : s.Takes m true) :
    Does (.mbMsgBadOpcode m opcode) s ((s.took m).answer m opcode { status := 0x02 }) :=
  does_answer (c := .bad stBadOpcode) hs rfl h (State.startCmd_sup rfl) rfl rfl hst (hs.took m)

end

end Sys2Proof.Machine
end

section
/-!
PROOF. A domain that is off answers DOMAIN_OFF, and every access to it is counted (R361).
-/
namespace Sys2Proof.Machine

theorem State.ended_keeps (f t : State) : (f.ended t).host = f.host ∧ (f.ended t).esc = f.esc ∧ (f.ended t).conv = f.conv ∧ (f.ended t).objs = f.objs ∧
    (f.ended t).pwr.state = f.pwr.state := ⟨rfl, rfl, rfl, rfl, rfl⟩

theorem State.answer_keeps (v : State) (m : Msg) (op : BitVec 16) (a : Ans) : (v.answer m op a).esc = v.esc ∧ (v.answer m op a).conv = v.conv ∧
    (v.answer m op a).objs = v.objs ∧ (v.answer m op a).pwr = v.pwr ∧ (v.answer m op a).reg = v.reg ∧
    (v.answer m op a).host.out = v.host.out ++ [.mbResp m.session m.mb (msgResponse m op a) false] ∧
    (v.answer m op a).host.accessErr = v.host.accessErr ∧ (v.answer m op a).host.accessErrs = v.host.accessErrs ∧
    (v.answer m op a).host.accessErrAddr = v.host.accessErrAddr := ⟨rfl, rfl, rfl, rfl, rfl, rfl, rfl, rfl, rfl⟩

/-- The host's link is no source of a demand. -/
theorem State.prDemand_host (s : State) (h : HostLink) (l : LogS) : State.prDemand { s with host := h, log := l } = s.prDemand := rfl

theorem State.prDemand_answer (v : State) (m : Msg) (op : BitVec 16) (a : Ans) : (v.answer m op a).prDemand = v.prDemand :=
  v.prDemand_host (v.answer m op a).host v.log

theorem State.prDemand_accessErr (s : State) (k x : Nat) : (s.accessErr k x).prDemand = s.prDemand := by
  rw [State.accessErr_eq]
  exact s.prDemand_host _ _

theorem State.prDemand_mail (s : State) (h : HostLink) : (s.mail h).prDemand = s.prDemand := rfl

theorem State.prDemand_took (s : State) (m : Msg) : (s.took m).prDemand = s.prDemand := by
  obtain ⟨l, hl⟩ := s.took_mail m
  rw [hl]
  exact s.prDemand_mail l

theorem State.accessErr_keeps (s : State) (k x : Nat) : (s.accessErr k x).esc = s.esc ∧ (s.accessErr k x).conv = s.conv ∧ (s.accessErr k x).objs = s.objs ∧
    (s.accessErr k x).pwr = s.pwr ∧ (s.accessErr k x).reg = s.reg := by
  rw [State.accessErr_eq]
  exact ⟨rfl, rfl, rfl, rfl, rfl⟩

/-- `t` is what `s` becomes when an access to a domain that is off is answered `out` and noted as `w`. -/
structure State.Noted (s : State) (w : Nat) (out : List HostOut) (t : State) : Prop where
  out : t.host.out = out
  err : t.host.accessErr = true
  errs : t.host.accessErrs = s.host.accessErrs + 1
  addr : t.host.accessErrAddr = if s.host.accessErr then s.host.accessErrAddr else w
  pwr : t.pwr.state = s.pwr.state
  esc : t.esc = s.esc
  conv : t.conv = s.conv
  objs : t.objs = s.objs

/-- A command that is answered at once while no PR demand is active, in every power state. -/
theorem undemanded_answers {i : Instr} {s : State} {m : Msg} {op : BitVec 16} {ro : Bool} {c : HostCmd} {a : Ans} {F : State → State} (hF : OffMail F)
    (hr : s.pwr.inReset = false) (hi : exec i s = runHost true s fun s => s.acceptMsg m op ro c) (h : s.Takes m ro)
    (hv : ((s.took m).runs m op c).startCmd (replyOf m op) c = (F ((s.took m).runs m op c)).reply (replyOf m op) a)
    (htick : (F (s.took m)).reg = s.reg) (hd : (F (s.took m)).prDemand = false) :
    ∃ t, exec i s = .next t ∧ t = ((F (s.took m)).answer m op a).ended t := by
  obtain ⟨hmbs, hsessions, hstarting, -⟩ := hF (s.took m)
  have hlen : (F (s.took m)).host.mbs.length = 8 := hmbs ▸ h.length
  have hticks : ((F (s.took m)).answer m op a).ticking = s.ticking := by
    obtain ⟨-, -, -, -, hreg, -⟩ := (F (s.took m)).answer_keeps m op a
    unfold State.ticking
    rw [hreg, htick]
  refine undemanded_next hr hi (State.takes_pump s _ m op ro c hr h ?_ ?_) hticks ((State.prDemand_answer ..).trans hd)
  · rw [hv, hF.runs (s.took m) m op c]
    exact State.runs_reply (F (s.took m)) m op c a hlen (hstarting.trans h.1)
  · exact State.runs_done s (F (s.took m)) m ro h hmbs hsessions
      (fun x => { x with running := none, unacked := x.unacked ++ [msgResponse m op a], last := some (msgResponse m op a) })
      (fun _ => rfl) (fun _ => rfl) _ rfl rfl

/-- A command that is answered for a domain that is off. -/
theorem off_answers {i : Instr} {s : State} {m : Msg} {op : BitVec 16} {ro : Bool} {c : HostCmd} {a : Ans} {k x : Nat}
    (hr : s.pwr.inReset = false) (hd : s.prDemand = false) (hi : exec i s = runHost true s fun s => s.acceptMsg m op ro c) (h : s.Takes m ro)
    (hv : ((s.took m).runs m op c).startCmd (replyOf m op) c = (((s.took m).runs m op c).accessErr k x).reply (replyOf m op) a) :
    ∃ t, exec i s = .next t ∧ s.Noted (accessWord k x) [.mbResp m.session m.mb (msgResponse m op a) false] t := by
  obtain ⟨hesc, hconv, hobjs, hpwr, hreg⟩ := (s.took m).accessErr_keeps k x
  obtain ⟨t, ht, hended⟩ := undemanded_answers (OffMail.accessErr k x) hr hi h hv hreg
    ((State.prDemand_accessErr ..).trans ((s.prDemand_took m).trans hd))
  obtain ⟨hesc', hconv', hobjs', hpwr', -, hout, herr, herrs, haddr⟩ := ((s.took m).accessErr k x).answer_keeps m op a
  obtain ⟨hthost, htesc, htconv, htobjs, htpwr⟩ := State.ended_keeps (((s.took m).accessErr k x).answer m op a) t
  rw [← hended] at hthost htesc htconv htobjs htpwr
  refine ⟨t, ht, ?_, ?_, ?_, ?_, ?_, htesc.trans (hesc'.trans hesc), htconv.trans (hconv'.trans hconv), htobjs.trans (hobjs'.trans hobjs)⟩
  · rw [hthost, hout, State.accessErr_host]
    rfl
  · rw [hthost, herr, State.accessErr_host]
  · rw [hthost, herrs, State.accessErr_host]
    rfl
  · rw [hthost, haddr, State.accessErr_host]
    rfl
  · rw [htpwr, hpwr', hpwr]
    rfl

/-! ### A module that sleeps -/

section
variable {s : State} (hsleep : s.pwr.state = .s1 ∨ s.pwr.state = .s2 ∨ s.pwr.state = .s3)
include hsleep

theorem State.domainOff_core : s.domainOff .core = true := by
  obtain h | h | h := hsleep <;> simp [State.domainOff, h]

theorem State.startCmd_off {r : Reply} {c : HostCmd} (hc : cmdDomain c = .core) :
    s.startCmd r c = (s.accessErr 2 r.opcode.toNat).reply r (Ans.st stDomainOff) := by
  unfold State.startCmd
  rw [hc, State.domainOff_core hsleep]
  rfl

theorem State.startObjRead_off {r : Reply} {i : BitVec 16} {d : ObjDef} (hd : objDef i.toNat = some d) (hdom : objDomain i.toNat = .core) :
    s.startObjRead r [i] = (s.accessErr 1 i.toNat).reply r { status := 0, params := beBytes 2 i.toNat ++ [0x0B, BitVec.ofNat 8 d.ty] } := by
  have hentry : s.readEntry i.toNat = (s.accessErr 1 i.toNat, beBytes 2 i.toNat ++ [0x0B, BitVec.ofNat 8 d.ty]) := by
    unfold State.readEntry
    rw [hd]
    dsimp only
    rw [hdom, State.domainOff_core hsleep]
    rfl
  have hlen : (beBytes 2 i.toNat).length = 2 := rfl
  rw [State.startObjRead_one, hentry]
  · rfl
  · rw [hentry]
    simp only [List.length_append, List.length_cons, List.length_nil, hlen]
    omega

theorem State.startObjWrite_off {r : Reply} {e : ObjEntry} {d : ObjDef} (hd : objDef e.index.toNat = some d) (hdom : objDomain e.index.toNat = .core) :
    s.startObjWrite r e = (s.accessErr 1 e.index.toNat).reply r (Ans.st stDomainOff) := by
  have hform : ∀ fNom, s.entryForm fNom false e = some (Ans.st stDomainOff) := fun fNom => by
    unfold State.entryForm
    dsimp only
    rw [hd]
    dsimp only
    rw [hdom, State.domainOff_core hsleep]
    rfl
  have hjudge : s.judgeWrite e = some (Ans.st stDomainOff) := by
    unfold State.judgeWrite
    rw [hform]
  unfold State.startObjWrite
  dsimp only
  rw [hjudge]
  rfl

end

section
variable {s : State} {m : Msg} (hr : s.pwr.inReset = false) (hsleep : s.pwr.state = .s1 ∨ s.pwr.state = .s2 ∨ s.pwr.state = .s3)
  (hd : s.prDemand = false) (h : s.Takes m false)
include hr hsleep hd h

omit hr hd h in
theorem sleeping_running (op : BitVec 16) (c : HostCmd) : ((s.took m).runs m op c).pwr.state = .s1 ∨ ((s.took m).runs m op c).pwr.state = .s2 ∨
    ((s.took m).runs m op c).pwr.state = .s3 := by
  rw [State.pwr_running]
  exact hsleep

/-- A command of CORE. -/
theorem off_command {i : Instr} {op : BitVec 16} {c : HostCmd} (hi : exec i s = runHost true s fun s => s.acceptMsg m op false c)
    (hc : cmdDomain c = .core) :
    ∃ t, exec i s = .next t ∧ s.Noted (2 * 2 ^ 30 + op.toNat) [.mbResp m.session m.mb (msgResponse m op { status := 0x0B }) false] t := by
  have hword : accessWord 2 op.toNat = 2 * 2 ^ 30 + op.toNat := by
    unfold accessWord
    rw [Nat.mod_eq_of_lt op.isLt]
  rw [← hword]
  exact off_answers hr hd hi h (State.startCmd_off (sleeping_running hsleep op c) hc)

theorem off_objRead {i : BitVec 16} {d : ObjDef} (hobj : objDef i.toNat = some d) (hdom : objDomain i.toNat = .core) :
    ∃ t, exec (.objRead m [i]) s = .next t ∧ s.Noted (2 ^ 30 + i.toNat) [.mbResp m.session m.mb (msgResponse m 0x0101
      { status := 0, params := beBytes 2 i.toNat ++ [0x0B, BitVec.ofNat 8 d.ty] }) false] t := by
  have hword : accessWord 1 i.toNat = 2 ^ 30 + i.toNat := by
    unfold accessWord
    rw [Nat.mod_eq_of_lt i.isLt, one_mul]
  have ht : s.Takes m true := by
    obtain ⟨hst, hidle, hlen, hun, hans, hown, hl, x, hx, hseq, -⟩ := h
    exact ⟨hst, hidle, hlen, hun, hans, hown, hl, x, hx, hseq, fun _ => rfl⟩
  rw [← hword]
  exact off_answers hr hd rfl ht ((State.startCmd_sup rfl).trans (State.startObjRead_off (sleeping_running hsleep _ _) hobj hdom))

theorem off_objWrite {e : ObjEntry} {d : ObjDef} (hobj : objDef e.index.toNat = some d) (hdom : objDomain e.index.toNat = .core) :
    ∃ t, exec (.objWrite m e) s = .next t ∧ s.Noted (2 ^ 30 + e.index.toNat) [.mbResp m.session m.mb (msgResponse m 0x0102 { status := 0x0B }) false] t := by
  have hword : accessWord 1 e.index.toNat = 2 ^ 30 + e.index.toNat := by
    unfold accessWord
    rw [Nat.mod_eq_of_lt e.index.isLt, one_mul]
  rw [← hword]
  exact off_answers hr hd rfl h ((State.startCmd_sup rfl).trans (State.startObjWrite_off (sleeping_running hsleep _ _) hobj hdom))

omit hsleep in
/-- A frame of the session that makes one access error. -/
theorem off_frame {c : Instr} {E : State → State} {o : HostOut} {x : Nat} (hc : exec c s = runHost true s E)
    (hE : E s.clearOut = ((s.clearOut.tookFrame m.session m.seq).emit o).accessErr 0 x) :
    ∃ t, exec c s = .next t ∧ s.Noted (accessWord 0 x) [o] t := by
  have hmail : s.MailIdle := h.2.1
  obtain ⟨hesc, hconv, hobjs, hpwr, hreg⟩ := ((s.clearOut.tookFrame m.session m.seq).emit o).accessErr_keeps 0 x
  have hhost := ((s.clearOut.tookFrame m.session m.seq).emit o).accessErr_host 0 x
  have hdone : (((s.clearOut.tookFrame m.session m.seq).emit o).accessErr 0 x).MailDone :=
    (hmail.clearOut.tookFrame m.session m.seq).done.stays (by rw [hhost]; rfl) fun n hn => (State.isOpen_congr (by rw [hhost]; rfl) n).trans hn
  have htick : (((s.clearOut.tookFrame m.session m.seq).emit o).accessErr 0 x).ticking = s.ticking := by
    unfold State.ticking
    rw [hreg]
    rfl
  have hdemand : (((s.clearOut.tookFrame m.session m.seq).emit o).accessErr 0 x).prDemand = false := by
    rw [State.prDemand_accessErr]
    exact ((s.mail ((s.clearOut.tookFrame m.session m.seq).emit o).host).prDemand_host _ s.log).trans ((s.prDemand_mail _).trans hd)
  obtain ⟨t, ht, hended⟩ := undemanded_next hr hc (by rw [hE, State.pump_done _ hdone]) htick hdemand
  obtain ⟨hthost, htesc, htconv, htobjs, htpwr⟩ := State.ended_keeps (((s.clearOut.tookFrame m.session m.seq).emit o).accessErr 0 x) t
  rw [← hended] at hthost htesc htconv htobjs htpwr
  rw [hhost] at hthost
  refine ⟨t, ht, ?_, ?_, ?_, ?_, ?_, htesc.trans hesc, htconv.trans hconv, htobjs.trans hobjs⟩
  · rw [hthost]
    rfl
  · rw [hthost]
  · rw [hthost]
    rfl
  · rw [hthost]
    rfl
  · rw [htpwr, hpwr]
    rfl

theorem off_regRead (hid : m.session ≠ 0) :
    ∃ t, exec (.regRead m.session m.seq 0x204 1) s = .next t ∧ s.Noted 0x204 [.regReadResp m.session 0x204 [0]] t := by
  have htakes := h
  obtain ⟨hst, -, -, -, -, -, -, x, hx, hseq, -⟩ := htakes
  have hserves : s.clearOut.serves = true := by
    show (!s.host.starting && !s.pwr.inReset) = true
    rw [hst, hr]
    rfl
  have hoff : (s.clearOut.tookFrame m.session m.seq).domainOff .core = true := State.domainOff_core hsleep
  have hreads : (s.clearOut.tookFrame m.session m.seq).regReadDo m.session 0x204 1 =
      ((s.clearOut.tookFrame m.session m.seq).emit (.regReadResp m.session 0x204 [0])).accessErr 0 0x204 := by
    have hword : (s.clearOut.tookFrame m.session m.seq).regWord 0x204 = 0 := if_pos (by rw [hoff]; rfl)
    unfold State.regReadDo
    dsimp only
    rw [hoff, if_pos rfl]
    show ((s.clearOut.tookFrame m.session m.seq).emit (.regReadResp m.session 0x204 [(s.clearOut.tookFrame m.session m.seq).regWord 0x204])).accessErr 0 0x204 = _
    rw [hword]
  exact off_frame (c := .regRead m.session m.seq 0x204 1) (E := fun s => s.regRead m.session m.seq 0x204 1) hr hd h rfl
    ((State.regRead_reads (s := s.clearOut) hserves hid hx hseq (by decide)).trans hreads)

theorem off_regWrite {v : Word} (hro : (s.session m.session).any (·.ro) = false) :
    ∃ t, exec (.regWriteOther m.session m.seq 0x204 v) s = .next t ∧ s.Noted 0x204 [.regWriteResp m.session 0x204] t := by
  have htakes := h
  obtain ⟨hst, -, -, -, -, -, -, x, hx, hseq, -⟩ := htakes
  have hserves : s.clearOut.serves = true := by
    show (!s.host.starting && !s.pwr.inReset) = true
    rw [hst, hr]
    rfl
  rw [hx] at hro
  have hoff : ((s.clearOut.tookFrame m.session m.seq).emit (.regWriteResp m.session 0x204)).domainOff .core = true := State.domainOff_core hsleep
  exact off_frame (c := .regWriteOther m.session m.seq 0x204 v) (E := fun s => s.regWrite m.session m.seq 0x204 v.toNat) hr hd h rfl
    ((State.regWrite_other (s := s.clearOut) hserves hx hseq (by decide) hro).trans (if_pos (by rw [hoff]; rfl)))

end

/-- What a mailbox holds for a command of CORE. -/
def coreCmd : Instr → HostCmd
  | .tableSwap _ k => .tableSwap k
  | .convState _ k t => .convState k t
  | _ => .settingStart

section
variable {s : State} {id : Word} {seq : FrameNo} {x : Session} (hs : s.Awake) (hst : s.host.starting = false) (hx : s.session id = some x)
  (hn : x.lastSeq < seq.n)
include hs hst hx hn

theorem doorbellFlush_empties {bits : Byte} (hlen : s.host.mbs.length = 8) (ho : ∀ (n : Nat) (o : Word), (s.mbox n).owner = some o → s.isOpen o = true)
    (hro : x.ro = false) (hq : ∀ n : Nat, (s.mbox n).queue = [] ∨ (n < 8 ∧ (s.mbox n).owner = some id ∧ bits.toNat.testBit n = true)) :
    ∃ t, exec (.doorbellFlush id seq bits) s = .next t ∧ (∀ n : Nat, t.mbox n = { s.mbox n with queue := [] }) ∧
      t.host.out = [.regWriteResp id 0x300] ∧ t.conv = s.conv ∧ t.objs = s.objs := by
  have hflush := State.rung_flushes (s := s.clearOut.tookFrame id seq) hlen hq
  obtain ⟨t, ht, hmbox, hrest⟩ := doorbell_rings hs hst hx hn (c := .doorbellFlush id seq bits) rfl (by simp [hro]) (fun n => by rw [hflush]) ho
  exact ⟨t, ht, fun n => (hmbox n).trans (hflush n), hrest⟩

theorem doorbellAck_takes (hm : s.MailIdle) (bits : Byte) :
    ∃ t, exec (.doorbellAck id seq bits) s = .next t ∧ t.host.out = [.regWriteResp id 0x300] ∧
      (∀ k : Nat, k < 8 → t.mbox k =
        if (s.mbox k).owner = some id ∧ bits.toNat.testBit k = true then { s.mbox k with unacked := (s.mbox k).unacked.drop 1 } else s.mbox k) ∧
      t.conv = s.conv ∧ t.objs = s.objs := by
  have hack := State.rung_acks (s := s.clearOut.tookFrame id seq) (id := id) (bits := bits)
  have hlow : bits.toNat / 2 ^ 16 % 256 = 0 := by
    have hlt := bits.isLt
    omega
  have hqueue : ∀ n, (((s.clearOut.tookFrame id seq).rung id bits.toNat).mbox n).queue = [] := fun n => by
    rw [hack]
    split
    · exact (hm n).1
    · exact (hm n).1
  obtain ⟨t, ht, hmbox, hout, hconv, hobjs⟩ := doorbell_rings hs hst hx hn (c := .doorbellAck id seq bits) rfl (by rw [hlow]; simp) hqueue
    fun n => (hm n).2.2
  exact ⟨t, ht, hout, fun k _ => (hmbox k).trans (hack k), hconv, hobjs⟩

end

/-- Settles O54: frames and mailboxes by their own rules; an access to a domain that is off is `State.Noted`. -/
theorem registersAndMailboxesServe : Obligations.RegistersAndMailboxesServe := by
  unfold Obligations.RegistersAndMailboxesServe
  refine ⟨fun s hs hst hlen ho => ⟨fun mb r f v hq hrun hmb hv => ?_, fun id seq bits x hx hn hro hq => ?_⟩, fun s hs hst hm hlen =>
    ⟨fun id seq x hid hx hn => ⟨fun a n ha hlow hhigh hbig => ?_, ?_, ?_, fun a n h => ?_, fun a v ha hro => ?_, fun bits => ?_, fun bits hro hbits => ?_,
      fun bits hro => ?_⟩, fun x r id hr ho => ?_, fun mb r rs hr => ?_, fun x hr => ?_, fun mb hr => ?_, fun mb => ?_, fun m opcode h => ?_⟩,
    fun s m hr hsleep he hd hid h => ⟨fun k target c op ht hmem => ?_, fun i d hobj hdom => ⟨?_, fun e hi => ?_⟩, ?_, fun v hro => ?_⟩⟩
  · exact mbCmdBound_undoes hs hst hlen ho hq hrun hmb hv
  · exact doorbellFlush_empties hs hst hx hn hlen ho hro hq
  · refine does_regRead hs hst hx hn hm hid ha hlow hhigh ?_
    rw [← Bool.not_eq_true, List.contains_iff_mem, regAddrs, List.mem_map]
    rintro ⟨i, -, hi⟩
    omega
  · obtain ⟨t, ht, hends⟩ := does_regRead (a := 0x204) (n := 1) hs hst hx hn hm hid (by decide) (by decide) (by decide) (by decide)
    exact ⟨t, ht, congrArg HostLink.out hends.host_eq⟩
  · exact does_regRead_aonStatus hs hst hx hn hm hid
  · exact does_regRead_unfit hs hst hx hn hm hid h
  · exact does_regWriteOther hs hst hx hn hm ha hro
  · exact doorbellAck_takes hs hst hx hn hm bits
  · exact does_doorbellFlush_barred hs hst hx hn hm hro hbits
  · exact does_doorbellFlush_idle hs hst hx hn hm hro hlen
  · exact does_mbRespRetransmit hs hst hm hr ho
  · exact mbRespDiscard_discards hs hst hm hlen hr
  · exact idles_mbRespRetransmit hs hst hm hr
  · exact idles_mbRespDiscard hs hst hm hr
  · exact idles_mbCmdBound hs hm mb
  · exact does_mbMsgBadOpcode hs hst h
  · have hcommand : (exec c s = runHost true s fun s => s.acceptMsg m op false (coreCmd c)) ∧ cmdDomain (coreCmd c) = .core := by
      simp only [List.mem_cons, Prod.mk.injEq, List.not_mem_nil, or_false] at hmem
      obtain ⟨rfl, rfl⟩ | ⟨rfl, rfl⟩ | ⟨rfl, rfl⟩ := hmem
      · exact ⟨rfl, rfl⟩
      · exact ⟨rfl, if_neg fun heq => ht (congrArg BitVec.toNat heq)⟩
      · exact ⟨rfl, rfl⟩
    obtain ⟨hi, hdom⟩ := hcommand
    obtain ⟨t, ht, n⟩ := off_command hr hsleep hd h hi hdom
    exact ⟨t, ht, n.out, n.err, n.errs, n.addr, n.pwr, n.esc, n.conv, n.objs⟩
  · obtain ⟨t, ht, n⟩ := off_objRead hr hsleep hd h hobj hdom
    exact ⟨t, ht, n.out, n.err, n.errs, n.addr, n.objs⟩
  · subst hi
    obtain ⟨t, ht, n⟩ := off_objWrite hr hsleep hd h hobj hdom
    exact ⟨t, ht, n.out, n.err, n.errs, n.addr, n.esc, n.objs⟩
  · obtain ⟨t, ht, n⟩ := off_regRead hr hsleep hd h hid
    exact ⟨t, ht, n.out, n.err, n.errs, n.addr⟩
  · obtain ⟨t, ht, n⟩ := off_regWrite hr hsleep hd h hro
    exact ⟨t, ht, n.out, n.err, n.errs, n.addr, n.objs⟩

end Sys2Proof.Machine
end

section
/-!
PROOF. The kernel's own checks: its faults demand PR and open the switches (R285, R287, R292), its tests of the switches (R299 to R301, R412) and its
start-up test (R307).
-/
namespace Sys2Proof.Machine

/-- The end of a command under a kernel-detected fault demands PR and opens the switches (R287). -/
theorem Ends.demanded {f t : State} {n : Nat} (he : Ends f t) (h : f.kernelFaults[n]? = some true) :
    t.prDemand = true ∧ t.saf.switches.any id = false :=
  ⟨(Ends.prDemand_eq he).trans (State.prDemand_of_fault h), he.open_ (State.prDemand_of_fault h)⟩

variable {s : State}

/-! ### VIO -/

theorem State.vioLost_due {mv ms : Nat} (hok : s.saf.vioOk = true) (hmv : mv < 16000) (hms : 1 ≤ ms) :
    s.vioLost mv ms = State.post { s with saf := { s.saf with vioOk := false, vioFault := true, vioMv := mv } } 0x290A noInst [] :=
  if_pos (by simp [hok, hmv, hms])

theorem State.vioLost_idle {mv ms : Nat} (h : s.saf.vioOk = false ∨ 16000 ≤ mv ∨ ms < 1) : s.vioLost mv ms = s := by
  refine if_neg fun hc => ?_
  simp only [Bool.and_eq_true, decide_eq_true_eq] at hc
  obtain ⟨⟨hok, hmv⟩, hms⟩ := hc
  obtain h | h | h := h
  · cases hok.symm.trans h
  · omega
  · omega

theorem State.vioPresent_due {mv ms : Nat} (hok : s.saf.vioOk = false) (hmv : 17000 < mv) (hms : 10 ≤ ms) :
    s.vioPresent mv ms = { s with saf := { s.saf with vioOk := true, vioFault := false, vioMv := mv } } :=
  if_pos (by simp [hok, hmv, hms])

theorem State.vioPresent_idle {mv ms : Nat} (h : s.saf.vioOk = true ∨ mv ≤ 17000 ∨ ms < 10) : s.vioPresent mv ms = s := by
  refine if_neg fun hc => ?_
  simp only [Bool.and_eq_true, Bool.not_eq_true', decide_eq_true_eq] at hc
  obtain ⟨⟨hok, hmv⟩, hms⟩ := hc
  obtain h | h | h := h
  · cases hok.symm.trans h
  · omega
  · omega

theorem vioLost_stops (hs : s.Awake) {mv ms : Nat} (hok : s.saf.vioOk = true) (hmv : mv < 16000) (hms : 1 ≤ ms) :
    ∃ t, exec (.vioLost mv ms) s = .next t ∧ t.saf.vioOk = false ∧ t.saf.vioFault = true ∧ t.saf.vioMv = mv ∧ t.prDemand = true ∧
      t.saf.switches.any id = false ∧ t.conv = s.conv ∧ t.objs = s.objs := by
  have hf : (s.clearOut.vioLost mv ms) = _ := State.vioLost_due (s := s.clearOut) hok hmv hms
  rw [State.post_ended] at hf
  obtain ⟨t, ht, he⟩ := does_safe (c := .vioLost mv ms) hs rfl hf hs
  obtain ⟨hpr, hopen⟩ := he.demanded (n := 7) rfl
  exact ⟨t, ht, by rw [he.frame]; rfl, by rw [he.frame]; rfl, by rw [he.frame]; rfl, hpr, hopen, by rw [he.frame]; rfl, by rw [he.frame]; rfl⟩

theorem vio_watched (hs : s.Awake) (mv ms : Nat) :
    (s.saf.vioOk = false ∨ 16000 ≤ mv ∨ ms < 1 → Idles (.vioLost mv ms) s) ∧
    (s.saf.vioOk = false → 17000 < mv → 10 ≤ ms →
      Does (.vioPresent mv ms) s { s.clearOut with saf := { s.saf with vioOk := true, vioFault := false, vioMv := mv } }) ∧
    (s.saf.vioOk = true ∨ mv ≤ 17000 ∨ ms < 10 → Idles (.vioPresent mv ms) s) :=
  ⟨fun h => idles_safe hs rfl (State.vioLost_idle (s := s.clearOut) h),
    fun hok hmv hms => does_safe hs rfl (State.vioPresent_due (s := s.clearOut) hok hmv hms) hs,
    fun h => idles_safe hs rfl (State.vioPresent_idle (s := s.clearOut) h)⟩

/-! ### The tests of the switches -/

/-- A failed test of a switch. -/
theorem testFail_stops {c : Instr} {E : State → State} {u : State} {sw mv : Nat} (hs : s.Awake) (hc : exec c s = runSafe true s E)
    (hE : E s.clearOut = u.testFail sw mv) (hu : u.Awake) (hfails : u.saf.testFails = s.saf.testFails) (hconv : u.conv = s.conv)
    (hobjs : u.objs = s.objs) :
    ∃ t, exec c s = .next t ∧ t.saf.faultTest = true ∧ t.saf.testFails = s.saf.testFails + 1 ∧ t.saf.testRos = true ∧ t.prDemand = true ∧
      t.saf.switches.any id = false ∧ t.conv = s.conv ∧ t.objs = s.objs := by
  unfold State.testFail at hE
  rw [State.post_ended] at hE
  obtain ⟨t, ht, he⟩ := does_safe hs hc hE hu
  obtain ⟨hpr, hopen⟩ := he.demanded (n := 2) rfl
  refine ⟨t, ht, by rw [he.frame]; rfl, ?_, by rw [he.frame]; rfl, hpr, hopen, ?_, ?_⟩
  · rw [he.frame]; exact congrArg (· + 1) hfails
  · rw [he.frame]; exact hconv
  · rw [he.frame]; exact hobjs

theorem State.switchTest_off {sw us mv : Nat} {pass during : Bool} (h : during = false ∨ s.anyDemand = false) :
    s.switchTest sw us false pass mv during = s :=
  if_pos (by obtain h | h := h <;> simp [h])

/-- A switch whose output is on, or that a demand in the pulse has opened, is tested. -/
theorem State.switchTest_run {sw us mv : Nat} {on pass during : Bool} (h : on = true ∨ during = true ∧ s.anyDemand = true) :
    s.switchTest sw us on pass mv during =
      let u : State := { s with saf := { s.saf with pulse := some (sw, us) } }
      if during then u.testPreempt sw else if pass then u else u.testFail sw mv :=
  if_neg (by obtain h | ⟨h, h'⟩ := h <;> simp [*])

theorem State.emitterTest_early {x : EmitterPoint} {ns mv : Nat} {recovered during : Bool}
    (h : x.sinceMs < 1000 * s.cfgN Obj.EM_TEST_PERIOD ∨ 2 * x.apartMs < 1000 * s.cfgN Obj.EM_TEST_PERIOD) :
    s.emitterTest x ns recovered mv during = s :=
  if_pos (by simpa using h)

theorem State.emitterTest_due {x : EmitterPoint} {ns mv : Nat} {recovered during : Bool}
    (hsince : 1000 * s.cfgN Obj.EM_TEST_PERIOD ≤ x.sinceMs) (hapart : 1000 * s.cfgN Obj.EM_TEST_PERIOD ≤ 2 * x.apartMs) :
    s.emitterTest x ns recovered mv during =
      let t := s.switchTest (b2n x.low) 1 s.emitterOn (ns ≤ 500 && recovered) mv during
      if s.emitterOn then { t with mod := { t.mod with gap := 8 } } else t :=
  if_neg (by simp; omega)

theorem State.soTest_early {x : SoPoint} {mv vio : Nat} {other during : Bool}
    (h : x.sinceMs < 1000 * s.cfgN Obj.SO_TEST_PERIOD ∨ x.apartMs < 10) : s.soTest x mv vio other during = s :=
  if_pos (by simpa using h)

theorem State.soTest_due {x : SoPoint} {mv vio : Nat} {other during : Bool}
    (hsince : 1000 * s.cfgN Obj.SO_TEST_PERIOD ≤ x.sinceMs) (hapart : 10 ≤ x.apartMs) :
    s.soTest x mv vio other during = s.switchTest (2 + x.sw.val) (s.cfgN Obj.SO_TEST_WIDTH) (if x.sw.val < 2 then s.so1On else s.so2On)
      ((if x.sw.val % 2 = 0 then decide (mv < 5000) else decide (vio < mv + 5000)) && !other) mv during :=
  if_neg (by simp; omega)

/-- The pulse of a test. -/
def State.pulsed (s : State) (sw us : Nat) : State := { s with saf := { s.saf with pulse := some (sw, us) } }

/-- The frames that the test of an emitter switch costs. -/
def State.gapped (s : State) : State := { s with mod := { s.mod with gap := 8 } }

theorem State.emitterTest_passed {x : EmitterPoint} {ns mv : Nat}
    (hsince : 1000 * s.cfgN Obj.EM_TEST_PERIOD ≤ x.sinceMs) (hapart : 1000 * s.cfgN Obj.EM_TEST_PERIOD ≤ 2 * x.apartMs)
    (hon : s.emitterOn = true) (hns : ns ≤ 500) : s.emitterTest x ns true mv false = (s.pulsed (b2n x.low) 1).gapped := by
  rw [State.emitterTest_due hsince hapart, State.switchTest_run (.inl hon)]
  simp only [hon, hns, decide_true, Bool.and_self, if_true, Bool.false_eq_true, if_false]
  rfl

theorem State.emitterTest_failed {x : EmitterPoint} {ns mv : Nat} {recovered : Bool}
    (hsince : 1000 * s.cfgN Obj.EM_TEST_PERIOD ≤ x.sinceMs) (hapart : 1000 * s.cfgN Obj.EM_TEST_PERIOD ≤ 2 * x.apartMs)
    (hon : s.emitterOn = true) (h : 500 < ns ∨ recovered = false) :
    s.emitterTest x ns recovered mv false = ((s.pulsed (b2n x.low) 1).gapped).testFail (b2n x.low) mv := by
  have hfail : (decide (ns ≤ 500) && recovered) = false := by
    obtain h | h := h
    · simp [Nat.not_le.mpr h]
    · simp [h]
  rw [State.emitterTest_due hsince hapart, State.switchTest_run (.inl hon)]
  simp only [hon, hfail, if_true, Bool.false_eq_true, if_false]
  unfold State.testFail
  rw [State.post_ended, State.post_ended]
  rfl

theorem State.emitterTest_preempted {x : EmitterPoint} {ns mv : Nat} {recovered : Bool}
    (hsince : 1000 * s.cfgN Obj.EM_TEST_PERIOD ≤ x.sinceMs) (hapart : 1000 * s.cfgN Obj.EM_TEST_PERIOD ≤ 2 * x.apartMs)
    (h : s.emitterOn = true ∨ s.anyDemand = true) :
    s.emitterTest x ns recovered mv true =
      let f := (s.pulsed (b2n x.low) 1).testPreempt (b2n x.low)
      if s.emitterOn then { f with mod := { f.mod with gap := 8 } } else f := by
  rw [State.emitterTest_due hsince hapart, State.switchTest_run (h.imp_right fun hd => ⟨rfl, hd⟩)]
  rfl

theorem State.emitterTest_off {x : EmitterPoint} {ns mv : Nat} {recovered during : Bool}
    (hoff : s.emitterOn = false) (h : during = false ∨ s.anyDemand = false) : s.emitterTest x ns recovered mv during = s := by
  by_cases hdue : 1000 * s.cfgN Obj.EM_TEST_PERIOD ≤ x.sinceMs ∧ 1000 * s.cfgN Obj.EM_TEST_PERIOD ≤ 2 * x.apartMs
  · rw [State.emitterTest_due hdue.1 hdue.2, hoff, State.switchTest_off h]
    rfl
  · exact State.emitterTest_early (by omega)

theorem emitter_tested (hs : s.Awake) (x : EmitterPoint) (ns mv : Nat)
    (hsince : 1000 * s.cfgN Obj.EM_TEST_PERIOD ≤ x.sinceMs) (hapart : 1000 * s.cfgN Obj.EM_TEST_PERIOD ≤ 2 * x.apartMs)
    (hon : s.emitterOn = true) (hns : ns ≤ 500) :
    Does (.emitterTest x ns true mv false) s { s.clearOut with
      saf := { s.saf with pulse := some (b2n x.low, 1) }, mod := { s.mod with gap := 8 } } :=
  does_safe hs rfl (State.emitterTest_passed (s := s.clearOut) hsince hapart hon hns) hs

theorem emitter_fails (hs : s.Awake) (x : EmitterPoint) (ns mv : Nat) (recovered : Bool)
    (hsince : 1000 * s.cfgN Obj.EM_TEST_PERIOD ≤ x.sinceMs) (hapart : 1000 * s.cfgN Obj.EM_TEST_PERIOD ≤ 2 * x.apartMs)
    (hon : s.emitterOn = true) (h : 500 < ns ∨ recovered = false) :
    ∃ t, exec (.emitterTest x ns recovered mv false) s = .next t ∧ t.saf.faultTest = true ∧ t.saf.testFails = s.saf.testFails + 1 ∧
      t.saf.testRos = true ∧ t.prDemand = true ∧ t.saf.switches.any id = false ∧ t.conv = s.conv ∧ t.objs = s.objs :=
  testFail_stops hs rfl (State.emitterTest_failed (s := s.clearOut) hsince hapart hon h) hs rfl rfl rfl

/-- What a test that a demand has preempted leaves (R300). -/
def State.preempted (s : State) (sw us : Nat) : State :=
  State.post { s.clearOut with saf := { s.saf with
    switches := setFlag s.saf.switches sw false, pulse := some (sw, us)
    preempts := s.saf.preempts + 1, preemptRos := true } } 0x2906 sw []

theorem State.Awake.preempted (hs : s.Awake) (sw us : Nat) : (s.preempted sw us).Awake := State.Awake.post hs

theorem emitter_preempted (hs : s.Awake) (x : EmitterPoint) (ns mv : Nat) (recovered : Bool)
    (hsince : 1000 * s.cfgN Obj.EM_TEST_PERIOD ≤ x.sinceMs) (hapart : 1000 * s.cfgN Obj.EM_TEST_PERIOD ≤ 2 * x.apartMs)
    (h : s.emitterOn = true ∨ s.anyDemand = true) :
    (s.emitterOn = true → Does (.emitterTest x ns recovered mv true) s { s.preempted (b2n x.low) 1 with mod := { s.mod with gap := 8 } }) ∧
    (s.emitterOn = false → Does (.emitterTest x ns recovered mv true) s (s.preempted (b2n x.low) 1)) := by
  have hE := State.emitterTest_preempted (s := s.clearOut) (ns := ns) (mv := mv) (recovered := recovered) hsince hapart h
  have hmod : (s.preempted (b2n x.low) 1).mod = s.mod := State.post_mod _ _ _ _
  refine ⟨fun hon => does_safe hs rfl (hE.trans (if_pos hon) |>.trans ?_) (hs.preempted _ _), fun hoff =>
    does_safe hs rfl (hE.trans (if_neg (by rw [show s.clearOut.emitterOn = s.emitterOn from rfl, hoff]; exact Bool.false_ne_true)))
      (hs.preempted _ _)⟩
  rw [← hmod]
  rfl

theorem emitter_idles (hs : s.Awake) (x : EmitterPoint) (ns mv : Nat) (recovered during : Bool)
    (h : x.sinceMs < 1000 * s.cfgN Obj.EM_TEST_PERIOD ∨ 2 * x.apartMs < 1000 * s.cfgN Obj.EM_TEST_PERIOD ∨
      s.emitterOn = false ∧ (during = false ∨ s.anyDemand = false)) : Idles (.emitterTest x ns recovered mv during) s := by
  refine idles_safe hs rfl ?_
  obtain h | h | ⟨hoff, h⟩ := h
  · exact State.emitterTest_early (s := s.clearOut) (.inl h)
  · exact State.emitterTest_early (s := s.clearOut) (.inr h)
  · exact State.emitterTest_off (s := s.clearOut) hoff h

/-! ### The switches of the safety outputs -/

/-- The read-back of a pulse of an SO switch agrees (R300). -/
def soAgrees (x : SoPoint) (mv vio : Nat) : Prop := if x.sw.val % 2 = 0 then mv < 5000 else vio < mv + 5000

theorem so_tested (hs : s.Awake) (x : SoPoint) (mv vio : Nat)
    (hsince : 1000 * s.cfgN Obj.SO_TEST_PERIOD ≤ x.sinceMs) (hapart : 10 ≤ x.apartMs)
    (hon : (if x.sw.val < 2 then s.so1On else s.so2On) = true) (h : soAgrees x mv vio) :
    Does (.soTest x mv vio false false) s { s.clearOut with
      saf := { s.saf with pulse := some (2 + x.sw.val, s.cfgN Obj.SO_TEST_WIDTH) } } := by
  have hpass : (if x.sw.val % 2 = 0 then decide (mv < 5000) else decide (vio < mv + 5000)) = true := by
    unfold soAgrees at h
    split <;> rename_i hodd
    · exact decide_eq_true (by rwa [if_pos hodd] at h)
    · exact decide_eq_true (by rwa [if_neg hodd] at h)
  refine does_safe hs rfl ((State.soTest_due (s := s.clearOut) hsince hapart).trans ((State.switchTest_run (.inl hon)).trans ?_)) hs
  rw [hpass]
  rfl

theorem so_fails (hs : s.Awake) (x : SoPoint) (mv vio : Nat)
    (hsince : 1000 * s.cfgN Obj.SO_TEST_PERIOD ≤ x.sinceMs) (hapart : 10 ≤ x.apartMs)
    (hon : (if x.sw.val < 2 then s.so1On else s.so2On) = true) :
    ∃ t, exec (.soTest x mv vio true false) s = .next t ∧ t.saf.faultTest = true ∧ t.saf.testFails = s.saf.testFails + 1 ∧
      t.saf.testRos = true ∧ t.prDemand = true ∧ t.saf.switches.any id = false ∧ t.conv = s.conv ∧ t.objs = s.objs := by
  have hE := (State.soTest_due (s := s.clearOut) (mv := mv) (vio := vio) (other := true) (during := false) hsince hapart).trans
    (State.switchTest_run (.inl hon))
  rw [Bool.not_true, Bool.and_false] at hE
  exact testFail_stops (u := s.clearOut.pulsed (2 + x.sw.val) (s.cfgN Obj.SO_TEST_WIDTH)) hs rfl hE hs rfl rfl rfl

theorem so_preempted (hs : s.Awake) (x : SoPoint) (mv vio : Nat) (other : Bool)
    (hsince : 1000 * s.cfgN Obj.SO_TEST_PERIOD ≤ x.sinceMs) (hapart : 10 ≤ x.apartMs)
    (h : (if x.sw.val < 2 then s.so1On else s.so2On) = true ∨ s.anyDemand = true) :
    Does (.soTest x mv vio other true) s (s.preempted (2 + x.sw.val) (s.cfgN Obj.SO_TEST_WIDTH)) :=
  does_safe hs rfl ((State.soTest_due (s := s.clearOut) hsince hapart).trans (State.switchTest_run (h.imp_right fun hd => ⟨rfl, hd⟩)))
    (hs.preempted _ _)

theorem so_idles (hs : s.Awake) (x : SoPoint) (mv vio : Nat) (other during : Bool)
    (h : x.sinceMs < 1000 * s.cfgN Obj.SO_TEST_PERIOD ∨ x.apartMs < 10 ∨
      (if x.sw.val < 2 then s.so1On else s.so2On) = false ∧ (during = false ∨ s.anyDemand = false)) :
    Idles (.soTest x mv vio other during) s := by
  refine idles_safe hs rfl ?_
  by_cases hdue : 1000 * s.cfgN Obj.SO_TEST_PERIOD ≤ x.sinceMs ∧ 10 ≤ x.apartMs
  · obtain h | h | ⟨hoff, h⟩ := h
    · omega
    · omega
    · have hoff' : (if x.sw.val < 2 then s.clearOut.so1On else s.clearOut.so2On) = false := hoff
      refine (State.soTest_due (s := s.clearOut) hdue.1 hdue.2).trans ?_
      rw [hoff']
      exact State.switchTest_off h
  · exact State.soTest_early (s := s.clearOut) (by
      have hcfg : s.clearOut.cfgN Obj.SO_TEST_PERIOD = s.cfgN Obj.SO_TEST_PERIOD := rfl
      omega)

theorem soTrip_between : 3000 ≤ soTrip ∧ soTrip ≤ 4500 := by
  unfold soTrip clampInt
  omega

theorem so_shorted (hs : s.Awake) (so2 : Bool) (ma : Nat) (hon : (if so2 then s.so2On else s.so1On) = true) (h : 4500 < ma) :
    ∃ t, exec (.soOvercurrent so2 ma) s = .next t ∧ t.saf.faultTest = true ∧ t.saf.testFails = s.saf.testFails + 1 ∧
      t.saf.testRos = true ∧ t.prDemand = true ∧ t.saf.switches.any id = false ∧ t.conv = s.conv ∧ t.objs = s.objs := by
  have htrip := soTrip_between.2
  have hE : ∀ sw, (if so2 then 4 else 2) = sw → s.clearOut.soShort so2 ma =
      State.testFail (State.fresh { s.clearOut with saf := { s.saf with switches := setFlag (setFlag s.saf.switches sw false) (sw + 1) false } }) sw
        (Config.openValue s.free % 2 ^ 16).toNat := by
    rintro _ rfl
    exact if_neg (by
      rw [show (if so2 then s.clearOut.so2On else s.clearOut.so1On) = true from hon]
      simp
      omega)
  exact testFail_stops hs rfl (hE _ rfl) hs rfl rfl rfl

theorem so_carries (hs : s.Awake) (so2 : Bool) (ma : Nat) (h : ma ≤ 3000) : Idles (.soOvercurrent so2 ma) s := by
  have htrip := soTrip_between.1
  exact idles_safe hs rfl (if_pos (by
    rw [Bool.or_eq_true]
    exact .inr (decide_eq_true (by omega))))

/-! ### The start-up test -/

theorem start_passes (hs : s.Awake) (item : Byte) (hrun : s.saf.startRunning = true) (hvio : s.saf.vioOk = true) :
    Does (.startTestDone true item) s (State.post { s.clearOut with saf := { s.saf with
      startDone := true, startRunning := false, faultCore := false, faultTest := false, faultStart := false } } 0x290B 0xFF []) :=
  does_safe hs rfl (if_neg (by
    rw [show s.clearOut.saf = s.saf from rfl, hrun, hvio]
    exact Bool.false_ne_true)) (State.Awake.post hs)

theorem start_waits (hs : s.Awake) (item : Byte) (hvio : s.saf.vioOk = false) : Idles (.startTestDone true item) s :=
  idles_safe hs rfl (if_pos (by
    rw [show s.clearOut.saf = s.saf from rfl, hvio, Bool.not_false, Bool.and_true, Bool.or_true]))

theorem start_fails (hs : s.Awake) (item : Byte) (hrun : s.saf.startRunning = true) :
    ∃ t, exec (.startTestDone false item) s = .next t ∧ t.saf.faultStart = true ∧ t.saf.startDone = s.saf.startDone ∧ t.prDemand = true ∧
      t.saf.switches.any id = false ∧ t.objs = s.objs := by
  have hf : s.clearOut.startTest false item =
      State.post { s.clearOut with saf := { s.saf with startRunning := false, faultStart := true } } 0x290C noInst [item] :=
    (if_neg (by rw [show s.clearOut.saf = s.saf from rfl, hrun]; exact Bool.false_ne_true))
  rw [State.post_ended] at hf
  obtain ⟨t, ht, he⟩ := does_safe (c := .startTestDone false item) hs rfl hf hs
  obtain ⟨hpr, hopen⟩ := he.demanded (n := 3) rfl
  exact ⟨t, ht, by rw [he.frame]; rfl, by rw [he.frame]; rfl, hpr, hopen, by rw [he.frame]; rfl⟩

end Sys2Proof.Machine
end

section
/-!
PROOF. A mismatch of the lockstep cores blocks every lane (R285, R293), and a tick that the kernel misses takes the converter to PR without a
boundary (R287).
-/
namespace Sys2Proof.Machine

variable {s : State}

/-! ### The lanes after a block -/

/-- Lane `l` sends what it is told: it is UP, and no dark test of an emitter switch holds its frames back. -/
def State.Sends (s : State) (l : Nat) : Prop := s.lanes.length = 48 ∧ l < 48 ∧ (s.lane l).state = .up ∧ s.mod.gap = 0

/-- The last blocks of the lane's wire are its block command (R143). -/
def State.LaneBlocked (s : State) (l : Nat) : Prop := blockCommand l <:+ (s.lane l).wire

theorem State.Sends.blockLane {l : Nat} (h : s.Sends l) (k : Nat) : (s.blockLane k).Sends l := by
  obtain ⟨hlen, hl, hup, hgap⟩ := h
  obtain ⟨hstate, -⟩ := Lane.unsent_keeps ((s.blockLane_blocks k).1 l)
  exact ⟨(State.setLane_length s k _).trans hlen, hl, hstate.trans hup, hgap⟩

theorem State.Sends.blocked {l : Nat} (h : s.Sends l) : (s.blockLane l).LaneBlocked l := by
  obtain ⟨hlen, hl, hup, hgap⟩ := h
  unfold State.LaneBlocked State.blockLane
  dsimp only
  rw [show ∀ (u : State) (cs : List Cell), ({ u with cells := cs } : State).lane l = u.lane l from fun _ _ => rfl,
    State.setLane_same _ (by omega)]
  simp [hup, hgap, LaneState.sends]

theorem State.LaneBlocked.blockLane {l : Nat} (h : s.LaneBlocked l) (hs : s.Sends l) (k : Nat) : (s.blockLane k).LaneBlocked l := by
  obtain rfl | hne := eq_or_ne l k
  · exact hs.blocked
  · unfold State.LaneBlocked at h ⊢
    have hlane : (s.blockLane k).lane l = s.lane l := State.setLane_other s _ hne
    rwa [hlane]

/-- Blocking lanes one after the other leaves a block on each of them. -/
theorem State.Sends.foldl_blocked {l : Nat} (lanes : List Nat) :
    ∀ s : State, s.Sends l → l ∈ lanes ∨ s.LaneBlocked l → (lanes.foldl State.blockLane s).LaneBlocked l := by
  induction lanes with
  | nil => exact fun s _ h => h.resolve_left List.not_mem_nil
  | cons k ks ih =>
    intro s hs h
    refine ih _ (hs.blockLane k) ?_
    obtain h | h := h
    · obtain rfl | h := List.mem_cons.mp h
      · exact .inr hs.blocked
      · exact .inl h
    · exact .inr (h.blockLane hs k)

/-- Pulse removal blocks every lane that sends (R293). -/
theorem State.Sends.pulseRemoval {l : Nat} (h : s.Sends l) : s.pulseRemoval.LaneBlocked l := by
  have hfold : ((List.range 48).foldl State.blockLane s).LaneBlocked l := State.Sends.foldl_blocked _ s h (.inl (List.mem_range.mpr h.2.1))
  unfold State.pulseRemoval State.blockAll
  generalize (List.range 48).foldl State.blockLane s = t at hfold
  exact hfold

/-- The end of a command blocks every lane where it opens switches (R293). -/
theorem State.settle_blocked {f : State} {l : Nat} (hf : f.Awake) (hd : f.prDemand = true) (hon : f.saf.switches.any id = true) (h : f.Sends l) :
    (f.settle true).LaneBlocked l := by
  obtain ⟨hlanes, -, hsw, hpr⟩ := f.noteDemands_keeps
  have hmod : f.noteDemands.mod = f.mod := by rw [(f.noteDemands_adds hf.ticks).1]; rfl
  rw [State.settle_eq f true hf.ticks hf.2.1 hf.2.2.2, hpr, hsw, hd, hon, Bool.and_self, if_pos rfl]
  generalize f.noteDemands = n at hlanes hmod
  have hn : n.Sends l := by
    obtain ⟨hlen, hl, hup, hgap⟩ := h
    exact ⟨(congrArg List.length hlanes).trans hlen, hl, (congrArg Lane.state (State.lane_congr hlanes l)).trans hup, by rw [hmod, hgap]⟩
  have hblocked := hn.pulseRemoval
  unfold State.LaneBlocked at hblocked ⊢
  rwa [State.lane_congr n.pulseRemoval.sfEvent_keeps.1 l]

theorem core_mismatch (hs : s.Awake) :
    ∃ t, exec .coreMismatch s = .next t ∧ t.saf.faultCore = true ∧ t.prDemand = true ∧ t.saf.switches.any id = false ∧
      (∀ l : Nat, l < 48 → s.lanes.length = 48 → s.saf.switches.any id = true → (s.lane l).state = .up → s.mod.gap = 0 →
        blockCommand l <:+ (t.lane l).wire) ∧ t.conv = s.conv ∧ t.objs = s.objs := by
  have hawake : s.clearOut.coreMismatch.Awake := hs
  have he : Ends s.clearOut.coreMismatch (s.clearOut.coreMismatch.settle true) :=
    State.settle_ends _ true hawake.ticks hawake.2.1 hawake.2.2.2
  have hdemand : s.clearOut.coreMismatch.prDemand = true := State.prDemand_of_fault (n := 0) rfl
  obtain ⟨hpr, hopen⟩ := he.demanded (n := 0) rfl
  refine ⟨_, ?_, by rw [he.frame]; rfl, hpr, hopen, fun l hl hlen hon hup hgap => State.settle_blocked hawake hdemand hon ⟨hlen, hl, hup, hgap⟩,
    by rw [he.frame]; rfl, by rw [he.frame]; rfl⟩
  exact (exec_runSafe hs.1 rfl).trans (by rw [hs.ticks])

/-! ### The tick that the kernel misses -/

namespace State

/-- What the kernel has found and begun, and whether the supervisor starts: nothing of it is the converter's. -/
def findings (s : State) : Bool × Bool × Bool × Bool × Bool :=
  (s.saf.tickMissing, s.saf.startRunning, s.saf.startDone, s.saf.startFailed, s.host.starting)

/-- States of one core agree in what the kernel has found. -/
theorem findings_of_core {s t : State} (h : t.core = s.core) : t.findings = s.findings := by
  have hsaf : t.saf = s.saf := congrArg (fun c : State.Core => c.2.2.2.1) h
  have hstarting : t.host.starting = s.host.starting := congrArg (fun c : State.Core => c.2.2.2.2.2.getD 4 false) h
  unfold findings
  rw [hsaf, hstarting]

theorem post_findings (c i : Nat) (d : List Byte) : (s.post c i d).findings = s.findings := findings_of_core (s.post_core c i d)

theorem postAt_findings (t c i : Nat) (d : List Byte) : (s.postAt t c i d).findings = s.findings := by
  rw [State.postAt_eq]
  rfl

theorem refSwitch_findings (r : Bool) : (s.refSwitch r).findings = s.findings := findings_of_core (s.refSwitch_core r)

theorem refGone_findings : s.refGone.findings = s.findings := by
  unfold State.refGone
  split
  · exact s.refSwitch_findings _
  · split
    · unfold State.unlock State.discardWindow
      dsimp only
      rw [post_findings]
      split <;> rfl
    · rfl

theorem refWrite_findings (r : Bool) : (s.refWrite r).findings = s.findings := by
  unfold State.refWrite
  dsimp only
  split
  · rfl
  · split
    exacts [s.refSwitch_findings r, refGone_findings.trans (s.refSwitch_findings r)]

/-- What follows a written value leaves the kernel's findings alone. -/
theorem hook_findings (i : Nat) (old v : Int) : (s.hook i old v).findings = s.findings := by
  by_cases h : i = Obj.REG_REF
  · subst h
    exact s.refWrite_findings _
  · exact findings_of_core (s.hook_core i old v fun hi => absurd hi h)

theorem writeObj_findings (i : Nat) (v : Int) : (s.writeObj i v).findings = s.findings :=
  (State.hook_findings i _ v).trans (findings_of_core (s.putObj_core i v))

theorem foldl_findings {α : Type} (f : State → α → State) (hf : ∀ s a, (f s a).findings = s.findings) (l : List α) (s : State) :
    (l.foldl f s).findings = s.findings :=
  List.foldlRecOn l f (motive := fun t : State => t.findings = s.findings) rfl fun t ht a _ => (hf t a).trans ht

theorem applyChange_findings : s.applyChange.findings = s.findings :=
  foldl_findings _ (fun t _ => t.writeObj_findings _ _) _ _

theorem scsEnd_findings (r : Nat) : (s.scsEnd r).findings = s.findings := by
  unfold State.scsEnd
  split
  · rfl
  · exact post_findings _ _ _

theorem setAbort_findings (r : Nat) : (s.setAbort r).findings = s.findings := by
  unfold State.setAbort
  split
  · exact post_findings _ _ _
  · rfl

theorem leave_findings (old new : ConvState) : (s.leave old new).findings = s.findings := by
  have hramp : (if releasedIn old && !releasedIn new then { s with fus := { s.fus with enrgRamp := false } } else s : State).findings = s.findings := by
    split <;> rfl
  unfold State.leave
  dsimp only
  generalize (if releasedIn old && !releasedIn new then { s with fus := { s.fus with enrgRamp := false } } else s : State) = u at hramp
  split
  · exact (u.setAbort_findings 4).trans hramp
  · exact hramp

theorem changing_findings (new : ConvState) (c : Nat) : (s.changing new c).findings = s.findings := by
  have hscs : (if s.conv.state = .scs then s.scsEnd 3 else s).findings = s.findings := by
    split
    exacts [s.scsEnd_findings 3, rfl]
  unfold State.changing
  dsimp only
  generalize (if s.conv.state = .scs then s.scsEnd 3 else s) = u at hscs
  rw [leave_findings, post_findings]
  exact hscs

theorem parkedOff_findings : s.parkedOff.findings = s.findings := by
  unfold State.parkedOff
  generalize List.range 48 = lanes
  exact foldl_findings _ (fun t l => by
    split
    exacts [findings_of_core (t.laneTo_core l _ _), rfl]) lanes s

theorem pulseRemoval_findings : s.pulseRemoval.findings = s.findings := by
  have hblock := findings_of_core s.blockAll_core
  unfold State.pulseRemoval
  dsimp only
  generalize s.blockAll = u at hblock
  exact hblock

theorem enterPr_findings : s.enterPr.findings = s.findings := s.pulseRemoval_findings

theorem enter_pr_findings (old : ConvState) : (s.enter old .pr).findings = s.findings := by
  have hswitch : ∀ t : State, (if old = .pr then t.closeSwitches else t).findings = t.findings := fun t => by split <;> rfl
  have hparked : (if convBlocked .pr then s.parkedOff else s).findings = s.findings := s.parkedOff_findings
  unfold State.enter
  dsimp only
  generalize (if convBlocked .pr then s.parkedOff else s) = u at hparked
  exact enterPr_findings.trans ((hswitch u).trans hparked)

theorem convTo_pr_findings (c : Nat) : (s.convTo .pr c).findings = s.findings := by
  by_cases hst : s.conv.state = .pr
  · have hno : s.convTo .pr c = s := if_pos hst
    rw [hno]
  · rw [State.convTo_eq hst]
    exact (enter_pr_findings _).trans (applyChange_findings.trans (s.changing_findings .pr c))

theorem replyTo_findings (s : State) (r : Option Reply) (a : Ans) : (s.replyTo r a).findings = s.findings := by
  cases r with
  | none => rfl
  | some r =>
    show (s.reply r a).findings = _
    unfold State.reply
    split <;> rfl

theorem answerReq_findings (s : State) (r : ConvReq) (a : Ans) : (s.answerReq r a).findings = s.findings := by
  have hreply := s.replyTo_findings r.reply { a with params := [BitVec.ofNat 8 (convCode s.conv.state)] }
  unfold State.answerReq
  dsimp only
  generalize s.replyTo r.reply { a with params := [BitVec.ofNat 8 (convCode s.conv.state)] } = u at hreply
  split
  · exact hreply
  · split
    · unfold State.actionDone
      dsimp only
      split <;> rw [postAt_findings] <;> exact hreply
    · unfold State.actionFailed
      rw [postAt_findings]
      split <;> exact hreply

/-- The way to PR leaves the kernel's findings as they are (R287). -/
theorem goPr_findings : s.goPr.findings = s.findings :=
  (foldl_findings _ (fun t r => t.answerReq_findings r _) _ _).trans (State.convTo_pr_findings (s := (s.splitReqs .pr).2) _)

theorem noteDemands_findings : s.noteDemands.findings = s.findings := by
  have hevent : ∀ (t : State) (d : Nat × Nat × Nat), (t.demandEvent d).findings = t.findings := fun t d => by
    unfold State.demandEvent
    dsimp only
    rw [post_findings]
    split
    exacts [post_findings _ _ _, rfl]
  have hwake : ∀ (t : State) (w : WakeSource), (t.noteWake w).findings = t.findings := fun t w => by
    unfold State.noteWake
    split
    · split <;> rfl
    · rfl
  have hposted := foldl_findings State.demandEvent hevent (s.demandSources.filter fun d => !s.saf.active.contains d) s
  unfold State.noteDemands
  dsimp only
  generalize (s.demandSources.filter fun d => !s.saf.active.contains d).foldl State.demandEvent s = u at hposted
  have hwoken : (if (s.demandSources.filter fun d => !s.saf.active.contains d).isEmpty then u else u.noteWake .safety).findings = s.findings := by
    split
    exacts [hposted, (hwake u _).trans hposted]
  generalize (if (s.demandSources.filter fun d => !s.saf.active.contains d).isEmpty then u else u.noteWake .safety) = v at hwoken
  exact hwoken

theorem sfEvent_findings : s.sfEvent.findings = s.findings := by
  unfold State.sfEvent
  dsimp only
  split
  · rfl
  · split <;> rfl

theorem chronoStop_findings : s.chronoStop.findings = s.findings := by
  rw [State.chronoStop_eq]
  rfl

/-- The end of a command leaves the kernel's findings as they are. -/
theorem settle_findings (b : Bool) : (s.settle b).findings = s.findings := by
  have hstop : (if b && !s.ticking then s.chronoStop else s).findings = s.findings := by
    split
    exacts [chronoStop_findings, rfl]
  unfold State.settle
  dsimp only
  generalize (if b && !s.ticking then s.chronoStop else s) = u at hstop
  have hnote := (u.noteDemands_findings).trans hstop
  generalize u.noteDemands = n at hnote
  have hpulse : (if n.prDemand && n.saf.switches.any id then n.pulseRemoval else n).findings = s.findings := by
    split
    exacts [n.pulseRemoval_findings.trans hnote, hnote]
  generalize (if n.prDemand && n.saf.switches.any id then n.pulseRemoval else n) = p at hpulse
  rw [sfEvent_findings]
  split
  exacts [goPr_findings.trans hpulse, hpulse]

theorem sfEvent_convState : s.sfEvent.conv.state = s.conv.state := by
  rw [s.sfEvent_adds.1]
  rfl

/-- A state under missing ticks demands PR (R287). -/
theorem prDemand_of_tickMissing (h : s.saf.tickMissing = true) : s.prDemand = true :=
  State.prDemand_of_fault (n := 1) (congrArg some h)

/-- The end of a command with ticks missing leaves the converter in PR: no boundary is to come (R287, R293). -/
theorem settle_tickMissing (ht : s.ticking = true) (h : s.saf.tickMissing = true) (b : Bool) :
    (s.settle b).saf.tickMissing = true ∧ (s.settle b).conv.state = .pr := by
  refine ⟨(congrArg Prod.fst (s.settle_findings b)).trans h, ?_⟩
  have hnote : s.noteDemands.saf.tickMissing = true := (congrArg Prod.fst s.noteDemands_findings).trans h
  unfold State.settle
  dsimp only
  rw [ht, Bool.not_true, Bool.and_false, if_neg Bool.false_ne_true]
  generalize s.noteDemands = n at hnote
  have hremoved : (if n.prDemand && n.saf.switches.any id then n.pulseRemoval else n).saf.tickMissing = true := by
    split
    exacts [(congrArg Prod.fst n.pulseRemoval_findings).trans hnote, hnote]
  generalize (if n.prDemand && n.saf.switches.any id then n.pulseRemoval else n) = r at hremoved
  rw [State.sfEvent_convState]
  have hnow : r.noBoundary = true := by
    unfold State.noBoundary
    rw [hremoved, Bool.or_true, Bool.true_or]
  rw [State.prDemand_of_tickMissing hremoved, hnow, Bool.and_self, Bool.true_and]
  split
  · exact State.goPr_convState _
  · next hpr =>
    rw [Bool.or_eq_true, decide_eq_true_eq, not_or, not_not] at hpr
    exact hpr.1

end State

/-- Missing ticks are a demand that takes the converter to PR at once (R287). -/
theorem tick_missed (hs : s.Awake) {us : Nat} (hus : 2 ≤ us) (htick : s.pwr.noTick = false) :
    ∃ t, exec (.tickMissing us) s = .next t ∧ t.saf.tickMissing = true ∧ t.prDemand = true ∧ t.saf.switches.any id = false ∧
      t.conv.state = .pr := by
  have hf : s.clearOut.tickLost us = { s.clearOut with saf := { s.saf with tickMissing := true } } := if_neg (by
    rw [show s.clearOut.pwr = s.pwr from rfl, htick, Bool.or_false]
    rw [decide_eq_true_eq]
    omega)
  obtain ⟨hmiss, hpr⟩ := State.settle_tickMissing (s := { s.clearOut with saf := { s.saf with tickMissing := true } }) hs.ticks rfl s.ticking
  have hdemand := State.prDemand_of_tickMissing hmiss
  exact ⟨_, (exec_runSafe (c := .tickMissing us) hs.1 rfl).trans (by rw [hf]), hmiss, hdemand, (State.settle_safe _ _).1 hdemand, hpr⟩

theorem tick_watched (hs : s.Awake) {us : Nat} (h : us < 2 ∨ s.pwr.noTick = true) : Idles (.tickMissing us) s :=
  idles_safe hs rfl (if_pos (by
    rw [Bool.or_eq_true, decide_eq_true_eq]
    exact h))

end Sys2Proof.Machine
end

section
/-! The kernel's faults. -/
namespace Sys2Proof.Machine

/-- Settles O49, by the fault that each finding of the kernel leaves: `core_mismatch`, `tick_missed`, `vioLost_stops`, `testFail_stops` and
`start_fails`. -/
theorem kernelFaultsStopTheConverter : Obligations.KernelFaultsStopTheConverter := by
  unfold Obligations.KernelFaultsStopTheConverter
  intro s hs
  refine ⟨core_mismatch hs, fun us => ⟨fun h ht => tick_missed hs h ht, tick_watched hs⟩,
    fun mv ms => ⟨fun hok hmv hms => vioLost_stops hs hok hmv hms, vio_watched hs mv ms⟩, ?_, ?_, ?_, ?_⟩
  · intro x ns recovered mv during p
    refine ⟨fun hsince hapart => ⟨?_, ?_, ?_⟩, emitter_idles hs x ns mv recovered during⟩
    · rintro hon rfl hns rfl
      exact emitter_tested hs x ns mv hsince hapart hon hns
    · rintro hon rfl h
      exact emitter_fails hs x ns mv recovered hsince hapart hon h
    · rintro rfl h
      exact emitter_preempted hs x ns mv recovered hsince hapart h
  · intro x mv vio other during on pulse
    refine ⟨fun hsince hapart => ⟨?_, ?_, ?_⟩, so_idles hs x mv vio other during⟩
    · rintro hon h rfl rfl
      exact so_tested hs x mv vio hsince hapart hon h
    · rintro hon rfl rfl
      obtain ⟨t, ht, hfault, hfails, -, hpr, hopen, -, hobjs⟩ := so_fails hs x mv vio hsince hapart hon
      exact ⟨t, ht, hfault, hpr, hopen, hfails, hobjs⟩
    · rintro rfl h
      exact so_preempted hs x mv vio other hsince hapart h
  · intro so2 ma hon
    refine ⟨fun h => ?_, so_carries hs so2 ma⟩
    obtain ⟨t, ht, hfault, hfails, -, hpr, hopen, -, hobjs⟩ := so_shorted hs so2 ma hon h
    exact ⟨t, ht, hfault, hpr, hopen, hfails, hobjs⟩
  · exact fun item hrun => ⟨start_passes hs item hrun, start_waits hs item, start_fails hs item hrun⟩

end Sys2Proof.Machine
end

section
/-!
PROOF. Reset (R343, R382, R383): what a low of RESET_N and the end of the hold-up keep, and what they lose.
-/
namespace Sys2Proof.Machine

/-- Of a filtered store an object that the filter keeps has its value, and any other its Default. -/
theorem objsGet_filter (keep : Nat → Bool) (l : List (Nat × Int)) (i : Nat) :
    objsGet (l.filter fun p => keep p.1) i = if keep i then objsGet l i else objDefault i := by
  induction l with
  | nil => exact (ite_self _).symm
  | cons q l ih =>
    obtain ⟨j, v⟩ := q
    by_cases hij : i = j
    · subst hij
      cases h : keep i <;> simp [objsGet, h, ih]
    · cases h : keep j <;> simp [objsGet, h, ih, hij]

variable {s : State}

/-- A row of a unit that leaves the module in reset ends with its effect. -/
theorem exec_runAlways_reset {c : Instr} {E : State → State} (hc : exec c s = runAlways true s E) (hr : (E s.clearOut).pwr.inReset = true) :
    exec c s = .next (E s.clearOut) := by
  rw [hc]
  unfold runAlways guarded
  dsimp only
  rw [if_pos hr, if_pos rfl]

/-! ### The end of the hold-up -/

/-- What survives the loss of both feeds: of the objects the safety set and the host's addresses, of the rest the non-volatile stores (R343). -/
theorem State.powerLost_cfg (s : State) (i : Nat) : s.powerLost.cfg i = if keptObj i then s.storeVal i else objDefault i :=
  (objsGet_filter keptObj s.storeObjs i).trans (by rw [State.storeObjs_get])

theorem State.holdupExpired_lost (h : s.feed.inUse = 2) (hr : s.pwr.inReset = true → s.pwr.lastReset = 1) : s.holdupExpired = s.powerLost := by
  refine if_pos ?_
  rw [h, Bool.and_eq_true, Bool.not_eq_true']
  refine ⟨by decide, ?_⟩
  cases hin : s.pwr.inReset
  · rfl
  · rw [hr hin]
    rfl

theorem State.holdupExpired_carried (h : s.feed.inUse ≠ 2) : s.holdupExpired = s := if_neg (by simp [h])

theorem exec_holdupExpired (h : s.feed.inUse = 2) (hr : s.pwr.inReset = true → s.pwr.lastReset = 1) :
    exec .holdupExpired s = .next s.clearOut.powerLost := by
  have hE : s.clearOut.holdupExpired = s.clearOut.powerLost := State.holdupExpired_lost h hr
  refine (exec_runAlways_reset (c := .holdupExpired) rfl ?_).trans (congrArg _ hE)
  rw [hE]
  rfl

/-- The end of the hold-up ends a module that RESET_N holds as well. -/
theorem holdup_ends_reset (hr : s.pwr.lastReset = 1) (h : s.feed.inUse = 2) :
    ∃ t, exec .holdupExpired s = .next t ∧ t.pwr.lastReset = 2 ∧ t.pwr.inReset = true ∧ t.tick.started = false ∧ t.time.epoch = 0 ∧
      t.log.general = [] ∧ t.log.safety = [] ∧ t.chr.records = [] ∧ t.host.accessErr = false ∧ t.saf.paramVersion = s.saf.paramVersion :=
  ⟨_, exec_holdupExpired h fun _ => hr, rfl, rfl, rfl, rfl, rfl, rfl, rfl, rfl, rfl⟩

theorem holdup_ends (hin : s.pwr.inReset = false) (h : s.feed.inUse = 2) :
    ∃ t, exec .holdupExpired s = .next t ∧ t.pwr.lastReset = 2 ∧ t.pwr.inReset = true ∧
      (∀ i, t.cfg i = if keptObj i then s.storeVal i else objDefault i) ∧ t.conv = {} ∧ t.reg = {} ∧ t.saf.switches.any id = false ∧
      t.tick.started = false ∧ t.time.epoch = 0 ∧ t.time.stepDone = false ∧ t.log.general = [] ∧ t.log.safety = [] ∧ t.chr.records = [] ∧
      t.saf.paramVersion = s.saf.paramVersion ∧ t.train.stored = s.train.stored ∧ t.host.supRunning = s.host.supRunning :=
  ⟨_, exec_holdupExpired h fun hr => (Bool.noConfusion (hin.symm.trans hr)), rfl, rfl, s.clearOut.powerLost_cfg, rfl, rfl, rfl, rfl, rfl, rfl, rfl, rfl,
    rfl, rfl, rfl, rfl⟩

/-! ### A low of RESET_N -/

theorem State.resetAssert_short {us : Nat} (h : us < 1000) : s.resetAssert us = s := if_pos h

theorem State.resetAssert_resets {us : Nat} (h : 1000 ≤ us) (hin : s.pwr.inReset = false) : s.resetAssert us = s.resetKept := by
  unfold State.resetAssert
  rw [if_neg (by omega), hin, if_neg Bool.false_ne_true]

theorem exec_resetAssert {us : Nat} (h : 1000 ≤ us) (hin : s.pwr.inReset = false) : exec (.resetAssert us) s = .next s.clearOut.resetKept := by
  have hE : s.clearOut.resetAssert us = s.clearOut.resetKept := State.resetAssert_resets h hin
  refine (exec_runAlways_reset (c := .resetAssert us) (E := fun s => s.resetAssert us) rfl ?_).trans (congrArg _ hE)
  rw [hE]
  rfl

/-- Away from a recording the end of the recording adds nothing to the log and to the records. -/
theorem State.chronoStop_still (h : s.chr.state ≠ .recording) : s.chronoStop.log = s.log ∧ s.chronoStop.chr.records = s.chr.records := by
  unfold State.chronoStop
  dsimp only
  rw [if_neg h]
  exact ⟨rfl, rfl⟩

/-- A record in progress is closed and kept, cut (R270). -/
theorem State.chronoStop_cuts {r : Record} (h : s.chr.state = .recording) (hr : s.chr.cur = some r) (hpost : 0 < s.chr.postLeft)
    (ht : r.trigTick ≠ s.tick.now) : s.chronoStop.chr.records = s.chr.records ++ [{ r with flags := r.flags + 8 }] := by
  unfold State.chronoStop State.closeRecord
  simp [h, hr, hpost, ht, b2n]

end Sys2Proof.Machine
end

section
/-! Reset. -/
namespace Sys2Proof.Machine

/-- Settles O46: the state that `State.resetKept` and `State.powerLost` leave, field by field. -/
theorem resetKeepsWhatTheSpecKeeps : Obligations.ResetKeepsWhatTheSpecKeeps := by
  unfold Obligations.ResetKeepsWhatTheSpecKeeps
  refine ⟨fun s _ hr h => holdup_ends_reset hr h, fun s us hin => ⟨fun hus => ?_, fun hus hs => ?_, holdup_ends hin, fun h hs => ?_⟩⟩
  · refine ⟨_, exec_resetAssert hus hin, rfl, rfl, s.clearOut.powerLost_cfg, rfl, rfl, rfl, rfl, rfl, rfl, rfl, fun h => ?_, fun r h hr hpost ht => ?_, rfl,
      rfl, rfl, rfl, rfl, rfl, rfl, rfl⟩
    · exact State.chronoStop_still (s := s.clearOut) h
    · exact State.chronoStop_cuts (s := s.clearOut) h hr hpost ht
  · exact idles_always (E := fun s => s.resetAssert us) hs rfl (State.resetAssert_short hus)
  · exact idles_always hs rfl (State.holdupExpired_carried h)

end Sys2Proof.Machine
end

section
/-!
PROOF. What the end of a command, which may take the converter to PR without a boundary, leaves of a start: the power state, the gate of the
outputs, the loop's lock and its sources (R238, R287, R381).
-/
namespace Sys2Proof.Machine
namespace State

variable {s : State}

/-- What a start leaves that no demand touches: the power state but for a sleep entry's wake, the gate, the loop and the strap. -/
def launch (s : State) : Pwr × Bool × Bool × Bool × Bool × Bool × Bool :=
  ({ s.pwr with entry := none }, s.reg.gated, s.reg.locked, s.reg.filterRos, s.reg.ocxoOk, s.reg.refclkOk, s.train.strapped)

theorem launch_of_offDemand {t : State} (h : t.offDemand = s.offDemand) : t.launch = s.launch := by
  have hlaunch : t.offDemand.launch = s.offDemand.launch := congrArg launch h
  exact hlaunch

theorem launch_of_core {t : State} (h : t.core = s.core) : t.launch = s.launch :=
  congrArg (fun c : State.Core => (({ c.2.2.1 with entry := none } : Pwr), c.2.2.2.2.1, c.2.2.2.2.2.getD 0 false, c.2.2.2.2.2.getD 1 false,
    c.2.2.2.2.2.getD 2 false, c.2.2.2.2.2.getD 3 false, c.2.2.2.2.2.getD 5 false)) h

/-- The loop has a source, or is gated off already: a write of REG_REF does not unlock it (R238). -/
def Secure (s : State) : Prop := s.reg.ocxoOk = true ∨ s.reg.refclkOk = true ∨ s.reg.gated = true

theorem Secure.of_launch {t : State} (hs : s.Secure) (h : t.launch = s.launch) : t.Secure := by
  unfold launch at h
  simp only [Prod.mk.injEq] at h
  obtain ⟨-, hgate, -, -, hocxo, hrefclk, -⟩ := h
  unfold Secure
  rwa [hgate, hocxo, hrefclk]

theorem Secure.good {r : Bool} (h : s.Secure) (hr : s.reg.good r = false) (ht : s.ticking = true) : s.reg.good (!r) = true := by
  have hgate : s.reg.gated = false := by simpa [State.ticking] using ht
  unfold Secure at h
  rw [hgate] at h
  cases r with
  | false =>
    have hocxo : s.reg.ocxoOk = false := hr
    have hgood : s.reg.refclkOk = true := by simpa [hocxo] using h
    exact hgood
  | true =>
    have hrefclk : s.reg.refclkOk = false := hr
    have hgood : s.reg.ocxoOk = true := by simpa [hrefclk] using h
    exact hgood

/-- A reference that is gone from a loop with a source, or gated off, leaves the core. -/
theorem refGone_core (h : s.Secure) (hr : s.reg.good s.reg.refclk = false) : s.refGone.core = s.core := by
  unfold State.refGone
  split
  · exact s.refSwitch_core _
  · next hgood =>
    split
    · next ht => exact absurd (h.good hr ht) hgood
    · rfl

theorem refWrite_core_secure (h : s.Secure) (r : Bool) : (s.refWrite r).core = s.core := by
  have hcore := s.refSwitch_core r
  have hsecure : (s.refSwitch r).Secure := h.of_launch (launch_of_core hcore)
  have hused : (s.refSwitch r).reg.refclk = r := by
    unfold State.refSwitch
    rw [State.post_reg]
    rfl
  unfold State.refWrite
  dsimp only
  split
  · rfl
  · split
    · exact hcore
    · next hgood => exact (refGone_core hsecure (by rw [hused]; simpa using hgood)).trans hcore

/-- What follows a written value leaves the core of a secure loop. -/
theorem writeObj_core_secure (h : s.Secure) (i : Nat) (v : Int) : (s.writeObj i v).core = s.core := by
  have hput := s.putObj_core i v
  have hsecure : (s.putObj i v).Secure := h.of_launch (launch_of_core hput)
  refine Eq.trans ?_ hput
  by_cases hi : i = Obj.REG_REF
  · subst hi
    exact refWrite_core_secure hsecure _
  · exact State.hook_core _ i _ v fun hr => absurd hr hi

theorem applyChange_core_secure (h : s.Secure) : s.applyChange.core = s.core :=
  List.foldlRecOn _ (fun (t : State) (w : Waiting) => t.writeObj w.index w.value) (motive := fun t : State => t.core = s.core) rfl
    fun _ ht _ _ => (writeObj_core_secure (h.of_launch (launch_of_core ht)) _ _).trans ht

theorem convTo_pr_launch (h : s.Secure) (c : Nat) : (s.convTo .pr c).launch = s.launch := by
  by_cases hst : s.conv.state = .pr
  · have hno : s.convTo .pr c = s := if_pos hst
    rw [hno]
  · have hchange := launch_of_offDemand (s.changing_offDemand .pr c)
    have happlied := launch_of_core (applyChange_core_secure (h.of_launch hchange))
    rw [convTo_eq hst]
    exact (launch_of_offDemand (enter_pr_offDemand _ _)).trans (happlied.trans hchange)

theorem goPr_launch (h : s.Secure) : s.goPr.launch = s.launch :=
  (launch_of_offDemand (foldl_offDemand _ _ (fun u r => u.answerReq_offDemand r _) _)).trans
    (convTo_pr_launch (s := (s.splitReqs .pr).2) h s.prCauseOf)

/-- The end of a command leaves of a secure loop's start what it was. -/
theorem settle_launch (h : s.Secure) (b : Bool) : (s.settle b).launch = s.launch := by
  have hstop : (if b && !s.ticking then s.chronoStop else s).launch = s.launch := by
    split
    · rw [chronoStop_eq]
      rfl
    · rfl
  unfold State.settle
  dsimp only
  generalize (if b && !s.ticking then s.chronoStop else s) = u at hstop
  have hnote := (launch_of_offDemand u.noteDemands_offDemand).trans hstop
  generalize u.noteDemands = n at hnote
  have hpulse : (if n.prDemand && n.saf.switches.any id then n.pulseRemoval else n).launch = s.launch := by
    split
    exacts [(launch_of_offDemand n.pulseRemoval_offDemand).trans hnote, hnote]
  generalize (if n.prDemand && n.saf.switches.any id then n.pulseRemoval else n) = p at hpulse
  refine (launch_of_offDemand (sfEvent_offDemand _)).trans ?_
  split
  exacts [(goPr_launch (h.of_launch hpulse)).trans hpulse, hpulse]

/-- The end of a command closes no switch. -/
theorem settle_stays_open (h : s.saf.switches.any id = false) (b : Bool) : (s.settle b).saf.switches.any id = false := by
  have hstop : (if b && !s.ticking then s.chronoStop else s).saf.switches.any id = false := by
    split
    · rw [chronoStop_eq]
      exact h
    · exact h
  unfold State.settle
  dsimp only
  generalize (if b && !s.ticking then s.chronoStop else s) = u at hstop
  rw [← u.noteDemands_keeps.2.2.1] at hstop
  generalize u.noteDemands = n at hstop
  rw [hstop, Bool.and_false, if_neg Bool.false_ne_true, (State.sfEvent_keeps _).2.2]
  split
  exacts [State.goPr_opens hstop, hstop]

/-! ### What the steps of a start change -/

/-- The state but for what the steps of a start may touch beside the power state, the gate and the lock: the lanes and what is logged, the number of
the next tick, the time state, the window in progress, and the answers to requests of S0. -/
def offStart (s : State) : State :=
  { s with
    tick := { now := s.tick.now }, time := {}, lanes := [], cells := [], arms := {}, cond := {}, log := {}, free := 0
    meas := { vanaOk := s.meas.vanaOk }, host := { starting := s.host.starting }
    reg := { gated := s.reg.gated, locked := s.reg.locked, filterRos := s.reg.filterRos, ocxoOk := s.reg.ocxoOk, refclkOk := s.reg.refclkOk }
    pwr := { s.pwr with plTarget := none, plRefused := 0, wakeReply := [], uptimeTicks := 0 } }

theorem offStart_of_offLanes {t : State} (h : t.offLanes = s.offLanes) : t.offStart = s.offStart := by
  have hoff : t.offLanes.offStart = s.offLanes.offStart := congrArg offStart h
  exact hoff

theorem post_offStart (c i : Nat) (d : List Byte) : (s.post c i d).offStart = s.offStart := offStart_of_offLanes (s.post_offLanes c i d)

theorem foldl_offStart {α : Type} (f : State → α → State) (hf : ∀ s a, (f s a).offStart = s.offStart) (l : List α) (s : State) :
    (l.foldl f s).offStart = s.offStart :=
  List.foldlRecOn l f (motive := fun t : State => t.offStart = s.offStart) rfl fun t ht a _ => (hf t a).trans ht

theorem laneTo_offStart (l : Nat) (st : LaneState) (r : Nat) : (s.laneTo l st r).offStart = s.offStart :=
  offStart_of_offLanes (s.laneTo_offLanes l st r)

theorem lanesAdmit_offStart : s.lanesAdmit.offStart = s.offStart := by
  unfold State.lanesAdmit
  generalize List.range 48 = lanes
  refine foldl_offStart _ (fun t l => ?_) lanes s
  unfold State.laneAdmit
  split
  exacts [laneTo_offStart l _ _, rfl]

theorem lanesWake_offStart : s.lanesWake.offStart = s.offStart := by
  unfold State.lanesWake
  generalize List.range 48 = lanes
  refine lanesAdmit_offStart.trans (foldl_offStart _ (fun t l => ?_) lanes s)
  split
  exacts [laneTo_offStart l _ _, rfl]

theorem reply_offStart (r : Reply) (a : Ans) : (s.reply r a).offStart = s.offStart := by
  unfold State.reply
  split <;> rfl

theorem levelStart_offStart (r : Reply) (level : Nat) : (s.levelStart r level).offStart = s.offStart := by
  unfold State.levelStart
  split
  · exact reply_offStart _ _
  · split
    · exact reply_offStart _ _
    · split
      · exact reply_offStart _ _
      · rfl

theorem answerEach_offStart (rs : List (Reply × Nat)) : ∀ s : State, (s.answerEach rs).offStart = s.offStart := by
  induction rs with
  | nil => exact fun s => rfl
  | cons x rest ih =>
    obtain ⟨r, level⟩ := x
    intro s
    have hlevel : (s.levelStart r level).offStart = s.offStart := levelStart_offStart r level
    unfold State.answerEach
    dsimp only
    generalize s.levelStart r level = t at hlevel
    split
    exacts [hlevel, (ih t).trans hlevel]

theorem wakeAnswer_offStart : s.wakeAnswer.offStart = s.offStart := answerEach_offStart _ s

theorem discardWindow_offStart : s.discardWindow.offStart = s.offStart := by
  unfold State.discardWindow
  split <;> rfl

theorem timeSet_offStart (st : TimeState) (c : Nat) : (s.timeSet st c).offStart = s.offStart := by
  unfold State.timeSet
  dsimp only
  split
  · rfl
  · exact post_offStart _ _ _

theorem resumeTick_offStart (skip : Nat) : (s.resumeTick skip).offStart = s.offStart := by
  unfold State.resumeTick
  dsimp only
  generalize (if s.reg.aonLost then 0 else skip) = n
  split
  · rfl
  · split
    · exact post_offStart _ _ _
    · rfl

theorem timeAfterSleep_offStart (skip : Nat) : (s.timeAfterSleep skip).offStart = s.offStart := by
  unfold State.timeAfterSleep
  split
  exacts [timeSet_offStart _ _, rfl]

/-- The loop is locked and its outputs are released (R242). -/
def loopLocked (s : State) : State := { s with reg := { s.reg with locked := true, gated := false } }

theorem loopLocked_offStart {t : State} (h : t.offStart = s.offStart) : t.loopLocked.offStart = s.loopLocked.offStart := by
  have hoff : t.offStart.loopLocked = s.offStart.loopLocked := congrArg loopLocked h
  exact hoff

theorem relocked_offStart (skip : Nat) : (s.relocked skip).offStart = s.loopLocked.offStart := by
  have hresumed := resumeTick_offStart (s := s) skip
  unfold State.relocked
  dsimp only
  generalize s.resumeTick skip = u at hresumed
  exact (timeAfterSleep_offStart skip).trans (loopLocked_offStart hresumed)

/-- W5 has passed, without the lanes and the answers that follow (R381). -/
def inS0 (s : State) : State :=
  { s with
    pwr := { s.pwr with state := .s0, started := true, coreRail := true, ioRail := true, escGated := false }
    saf := { s.saf with startFailed := false, feedsLost := false } }

theorem startEnds_offStart : s.startEnds.offStart = s.inS0.offStart :=
  wakeAnswer_offStart.trans lanesWake_offStart

end State
end Sys2Proof.Machine
end

section
/-!
PROOF. Starts (R381, R382, R390): the steps of a start that passes and of one that fails, the release of RESET_N, the power-up and the retry.
-/
namespace Sys2Proof.Machine
namespace State

variable {s : State}

/-! ### A start that passes -/

theorem anaChecked_offStart {t : State} (h : t.offStart = s.offStart) (f : StartFlags) : (t.anaChecked f).offStart = (s.anaChecked f).offStart := by
  have hoff := congrArg (fun x : State => (x.anaChecked f).offStart) h
  exact hoff

theorem fastChecked_offStart {t : State} (h : t.offStart = s.offStart) (f : StartFlags) : (t.fastChecked f).offStart = (s.fastChecked f).offStart := by
  have hoff := congrArg (fun x : State => (x.fastChecked f).offStart) h
  exact hoff

theorem inS0_offStart {t : State} (h : t.offStart = s.offStart) : t.inS0.offStart = s.inS0.offStart := by
  have hoff := congrArg (fun x : State => x.inS0.offStart) h
  exact hoff

/-- What the steps from `first` on leave (R381): the loop locked, the analogue rail and the fast path by their flags, the module in S0. -/
def startedBy (s : State) (first : Nat) (f : StartFlags) : State :=
  let u := if first ≤ 3 then s.loopLocked else s
  let u := if first ≤ 4 then u.anaChecked f else u
  (if first ≤ 5 then u.fastChecked f else u).inS0

theorem startOk_offStart (first : Nat) (f : StartFlags) (skip : Nat) : (s.startOk first f skip).offStart = (s.startedBy first f).offStart := by
  have hloop : (if first ≤ 3 then s.relocked skip else s).offStart = (if first ≤ 3 then s.loopLocked else s).offStart := by
    split
    exacts [relocked_offStart skip, rfl]
  unfold State.startOk startedBy
  dsimp only
  generalize (if first ≤ 3 then s.relocked skip else s) = u at hloop
  generalize (if first ≤ 3 then s.loopLocked else s) = v at hloop
  have hana : (if first ≤ 4 then u.anaChecked f else u).offStart = (if first ≤ 4 then v.anaChecked f else v).offStart := by
    split
    exacts [anaChecked_offStart hloop f, hloop]
  generalize (if first ≤ 4 then u.anaChecked f else u) = u' at hana
  generalize (if first ≤ 4 then v.anaChecked f else v) = v' at hana
  refine startEnds_offStart.trans (inS0_offStart ?_)
  split
  exacts [fastChecked_offStart hana f, hana]

/-! ### A start that fails -/

/-- What a start that has failed at step `k` leaves (R390). -/
def failedAt (s : State) (first k : Nat) : State :=
  { s with
    pwr := { s.pwr with
      state := .wakeFail, wakeFailRos := true, wakeFails := s.pwr.wakeFails + 1, wakeFailLast := k * 2 ^ 8 + s.pwr.attempt
      coreRail := s.pwr.coreRail && !(!s.pwr.started), ioRail := s.pwr.ioRail && !(!s.pwr.started)
      anaOk := s.pwr.anaOk && decide (4 < first), fastOk := s.pwr.fastOk && decide (5 < first) }
    reg := if first ≤ 3 then { s.reg with locked := false, gated := true } else s.reg
    saf := { s.saf with startFailed := true } }

theorem failedAt_offStart {t : State} (h : t.offStart = s.offStart) (first k : Nat) : (t.failedAt first k).offStart = (s.failedAt first k).offStart := by
  have hoff := congrArg (fun x : State => (x.failedAt first k).offStart) h
  have hself : ∀ x : State, (x.offStart.failedAt first k).offStart = (x.failedAt first k).offStart := fun x => by
    unfold failedAt
    split <;> rfl
  rwa [hself, hself] at hoff

theorem startFails_offStart (h : s.pwr.attempt < 4) (first k : Nat) : (s.startFails first k).offStart = (s.failedAt first k).offStart := by
  have hwindow : (if 4 < first then s else s.discardWindow).offStart = s.offStart := by
    split
    exacts [rfl, discardWindow_offStart]
  have hattempt : (if 4 < first then s else s.discardWindow).pwr.attempt = s.pwr.attempt := by
    have hsame := congrArg (fun x : State => x.pwr.attempt) hwindow
    exact hsame
  unfold State.startFails
  dsimp only
  generalize (if 4 < first then s else s.discardWindow) = u at hwindow hattempt
  rw [post_pwr, if_pos (by rw [hattempt]; exact h)]
  exact (post_offStart _ _ _).trans (failedAt_offStart hwindow first k)

/-! ### The steps themselves -/

/-- What P, W0 and W2 leave: the OCXO's flag where the start begins at P, and the filter fault. -/
def stepped (s : State) (first : Nat) (f : StartFlags) (ros : Bool) : State :=
  { s with reg := { s.reg with ocxoOk := if first = 0 then f.ocxoOk else s.reg.ocxoOk, filterRos := ros } }

theorem refSwitch_offStart (r : Bool) : (s.refSwitch r).offStart = s.offStart := by
  unfold State.refSwitch
  exact post_offStart _ _ _

theorem selectRef_offStart : s.selectRef.offStart = s.offStart := by
  unfold State.selectRef
  dsimp only
  split
  exacts [refSwitch_offStart _, rfl]

theorem failStep_of_offStart {t : State} (h : t.offStart = s.offStart) (first : Nat) (f : StartFlags) : t.failStep first f = s.failStep first f := by
  have hfail := congrArg (fun x : State => x.failStep first f) h
  exact hfail

/-- A start sets the filter fault where a rise of LOCK_S lies outside its window, and nothing else but the OCXO's flag (R240). -/
theorem startSteps_offStart (first : Nat) (f : StartFlags) : ∃ ros, (s.startSteps first f).offStart = (s.stepped first f ros).offStart ∧
    (first ≤ 3 → (s.stepped first f ros).failStep first f = none → f.badRise = true → ros = true) := by
  have hocxo : (if first = 0 then { s with reg := { s.reg with ocxoOk := f.ocxoOk } } else s : State) = s.stepped first f s.reg.filterRos := by
    unfold stepped
    split <;> rfl
  unfold State.startSteps
  dsimp only
  rw [hocxo]
  have hsame : ∀ ros, (s.stepped first f ros).failStep first f = (s.stepped first f s.reg.filterRos).failStep first f := fun _ => rfl
  generalize hu : s.stepped first f s.reg.filterRos = u at hsame
  have hselect : (if first ≤ 1 && 2 ≤ (u.failStep first f).getD 7 then u.selectRef else u).offStart = u.offStart := by
    split
    exacts [selectRef_offStart, rfl]
  generalize (if first ≤ 1 && 2 ≤ (u.failStep first f).getD 7 then u.selectRef else u) = v at hselect
  split
  · refine ⟨true, (post_offStart _ _ _).trans ?_, fun _ _ _ => rfl⟩
    have hoff := congrArg (fun x : State => ({ x with reg := { x.reg with filterRos := true } } : State).offStart) hselect
    rw [← hu] at hoff
    exact hoff
  · next hno =>
    refine ⟨s.reg.filterRos, hselect.trans (by rw [hu]), fun hfirst hnone hbad => absurd ?_ hno⟩
    rw [hsame] at hnone
    simp [hfirst, hnone, hbad]

/-- Every fatal flag of a start from step `first` holds (R381). -/
def Passes (s : State) (first : Nat) (f : StartFlags) : Prop :=
  (first = 0 → f.ocxoOk = true) ∧ (first = 0 ∨ s.reg.ocxoOk = true ∨ s.reg.refclkOk = true) ∧ f.railOk = true ∧ f.regLocked = true ∧ f.escOk = true

theorem Passes.failStep {first : Nat} {f : StartFlags} (h : s.Passes first f) (ros : Bool) : (s.stepped first f ros).failStep first f = none := by
  obtain ⟨hocxo, href, hrail, hreg, hesc⟩ := h
  have hsource : ((s.stepped first f ros).reg.ocxoOk || (s.stepped first f ros).reg.refclkOk) = true := by
    unfold stepped
    by_cases h0 : first = 0
    · simp [h0, hocxo h0]
    · simpa [h0] using href
  unfold State.failStep
  rw [Option.map_eq_none_iff, List.find?_eq_none]
  simpa [hsource, hrail, hreg, hesc] using hocxo

/-- A start counts its attempt only in a series that fails (R392). -/
def tried (s : State) (attempt : Nat) : State := if attempt = 1 then s else { s with pwr := { s.pwr with attempt := attempt } }

/-- The state that a start with all its flags leaves. -/
def afterStart (s : State) (first attempt : Nat) (f : StartFlags) (ros : Bool) : State :=
  ((s.stepped first f ros).tried attempt).startedBy first f

theorem startRun_passes {first : Nat} {f : StartFlags} (h : s.Passes first f) (attempt skip : Nat) : ∃ ros,
    (first ≤ 3 → f.badRise = true → ros = true) ∧
      (s.startRun first attempt f skip).offStart = (s.afterStart first attempt f ros).offStart := by
  obtain ⟨ros, hsteps, hros⟩ := s.startSteps_offStart first f
  refine ⟨ros, fun h3 => hros h3 (h.failStep ros), ?_⟩
  unfold State.startRun
  dsimp only
  generalize s.startSteps first f = u at hsteps
  rw [failStep_of_offStart hsteps, h.failStep ros]
  refine (startOk_offStart _ _ _).trans ?_
  have hoff := congrArg (fun x : State => ((x.tried attempt).startedBy first f).offStart) hsteps
  have hself : ∀ x : State, ((x.offStart.tried attempt).startedBy first f).offStart = ((x.tried attempt).startedBy first f).offStart := fun x => by
    unfold tried startedBy
    (repeat' split) <;> rfl
  rw [hself, hself] at hoff
  exact hoff

/-- The state that a start from W0 without a source leaves. -/
def afterFailure (s : State) (attempt : Nat) (f : StartFlags) (ros : Bool) : State :=
  State.failedAt { s.stepped 1 f ros with pwr := { s.pwr with attempt := attempt, retryFrom := 1 } } 1 1

/-- A start from W0 without a source fails there (R381, R390). -/
theorem startRun_fails {f : StartFlags} (hocxo : s.reg.ocxoOk = false) (hrefclk : s.reg.refclkOk = false) {attempt : Nat} (ha : attempt < 4)
    (skip : Nat) : ∃ ros, (s.startRun 1 attempt f skip).offStart = (s.afterFailure attempt f ros).offStart := by
  obtain ⟨ros, hsteps, -⟩ := s.startSteps_offStart 1 f
  have hfail : (s.stepped 1 f ros).failStep 1 f = some 1 := by
    unfold State.failStep stepped
    simp [hocxo, hrefclk, List.find?]
  refine ⟨ros, ?_⟩
  unfold State.startRun
  dsimp only
  generalize s.startSteps 1 f = u at hsteps
  rw [failStep_of_offStart hsteps, hfail]
  refine (startFails_offStart ha 1 1).trans (failedAt_offStart ?_ 1 1)
  have hoff := congrArg (fun x : State => ({ x with pwr := { x.pwr with attempt := attempt, retryFrom := 1 } } : State).offStart) hsteps
  exact hoff

/-! ### What stands after the end of the command -/

/-- State `t` is what the end of a command makes of a start that has left `e`. -/
structure Starts (e t : State) : Prop where
  pwr : ({ t.pwr with entry := none, plTarget := none, plRefused := 0, wakeReply := [], uptimeTicks := 0 } : Pwr) =
    { e.pwr with entry := none, plTarget := none, plRefused := 0, wakeReply := [], uptimeTicks := 0 }
  gated : t.reg.gated = e.reg.gated
  locked : t.reg.locked = e.reg.locked
  filterRos : t.reg.filterRos = e.reg.filterRos
  strapped : t.train.strapped = e.train.strapped
  findings : t.findings = e.findings
  now : t.tick.now = e.tick.now
  opened : e.saf.switches.any id = false → t.saf.switches.any id = false

theorem settle_starts {v e : State} (h : v.offStart = e.offStart) (hsec : e.Secure) (b : Bool) : Starts e (v.settle b) := by
  have hview : ∀ {α : Type} (g : State → α), g v.offStart = g e.offStart := fun g => congrArg g h
  have hfind : v.findings = e.findings := hview findings
  have hocxo : v.reg.ocxoOk = e.reg.ocxoOk := hview fun x => x.reg.ocxoOk
  have hrefclk : v.reg.refclkOk = e.reg.refclkOk := hview fun x => x.reg.refclkOk
  have hgate : v.reg.gated = e.reg.gated := hview fun x => x.reg.gated
  have hsecure : v.Secure := by
    unfold Secure
    rwa [hocxo, hrefclk, hgate]
  have hlocked : v.reg.locked = e.reg.locked := hview fun x => x.reg.locked
  have hros : v.reg.filterRos = e.reg.filterRos := hview fun x => x.reg.filterRos
  have hstrap : v.train.strapped = e.train.strapped := hview fun x => x.train.strapped
  have hnow : v.tick.now = e.tick.now := hview fun x => x.tick.now
  have hsaf : v.saf = e.saf := hview State.saf
  have hpwr : ({ v.pwr with entry := none, plTarget := none, plRefused := 0, wakeReply := [], uptimeTicks := 0 } : Pwr) =
      { e.pwr with entry := none, plTarget := none, plRefused := 0, wakeReply := [], uptimeTicks := 0 } :=
    hview fun x => ({ x.pwr with entry := none } : Pwr)
  have hlaunch := settle_launch hsecure b
  unfold launch at hlaunch
  simp only [Prod.mk.injEq] at hlaunch
  obtain ⟨hp, hg, hl, hr, -, -, hs⟩ := hlaunch
  refine ⟨?_, hg.trans hgate, hl.trans hlocked, hr.trans hros, hs.trans hstrap, (settle_findings b).trans hfind, ?_, fun hopen => ?_⟩
  · exact (congrArg (fun p : Pwr => ({ p with plTarget := none, plRefused := 0, wakeReply := [], uptimeTicks := 0 } : Pwr)) hp).trans hpwr
  · rw [(v.settle_frame b).2, hnow]
  · exact settle_stays_open (by rw [hsaf]; exact hopen) b

/-- Of the power state what the answers to requests of S0 and the up-time leave alone. -/
theorem Starts.pwr_eq {e t : State} (h : Starts e t) : t.pwr.inReset = e.pwr.inReset ∧ t.pwr.state = e.pwr.state ∧ t.pwr.started = e.pwr.started ∧
    t.pwr.anaOk = e.pwr.anaOk ∧ t.pwr.fastOk = e.pwr.fastOk ∧ t.pwr.attempt = e.pwr.attempt ∧ t.pwr.wakeFails = e.pwr.wakeFails ∧
    t.pwr.wakeFailLast = e.pwr.wakeFailLast := by
  have hpwr : ∀ {α : Type} (g : Pwr → α), g _ = g _ := fun g => congrArg g h.pwr
  exact ⟨hpwr Pwr.inReset, hpwr Pwr.state, hpwr Pwr.started, hpwr Pwr.anaOk, hpwr Pwr.fastOk, hpwr Pwr.attempt, hpwr Pwr.wakeFails,
    hpwr Pwr.wakeFailLast⟩

theorem Starts.findings_eq {e t : State} (h : Starts e t) : t.saf.startRunning = e.saf.startRunning ∧ t.saf.startDone = e.saf.startDone ∧
    t.saf.startFailed = e.saf.startFailed ∧ t.host.starting = e.host.starting := by
  have hfind := h.findings
  unfold State.findings at hfind
  simp only [Prod.mk.injEq] at hfind
  obtain ⟨-, hrun, hdone, hfail, hstarting⟩ := hfind
  exact ⟨hrun, hdone, hfail, hstarting⟩

end State
end Sys2Proof.Machine
end

section
/-!
PROOF. The commands that start a module (R381, R382, R390): the release of RESET_N, the power-up and the retry.
-/
namespace Sys2Proof.Machine

variable {s : State}

namespace State

theorem tried_keeps (attempt : Nat) : (s.tried attempt).reg = s.reg ∧ (s.tried attempt).saf = s.saf ∧ (s.tried attempt).meas = s.meas ∧
    (s.tried attempt).tick = s.tick ∧ (s.tried attempt).host = s.host ∧ (s.tried attempt).train = s.train ∧
    (s.tried attempt).pwr.inReset = s.pwr.inReset := by
  unfold tried
  split <;> exact ⟨rfl, rfl, rfl, rfl, rfl, rfl, rfl⟩

/-- What a start that passes leaves alone. -/
theorem startedBy_keeps (first : Nat) (f : StartFlags) : (s.startedBy first f).reg.ocxoOk = s.reg.ocxoOk ∧
    (s.startedBy first f).reg.refclkOk = s.reg.refclkOk ∧ (s.startedBy first f).reg.filterRos = s.reg.filterRos ∧
    (s.startedBy first f).pwr.attempt = s.pwr.attempt ∧ (s.startedBy first f).pwr.inReset = s.pwr.inReset ∧
    (s.startedBy first f).saf = { s.saf with startFailed := false, feedsLost := false } ∧ (s.startedBy first f).host = s.host ∧
    (s.startedBy first f).train = s.train ∧ (s.startedBy first f).tick = s.tick := by
  unfold startedBy
  dsimp only
  (repeat' split) <;> exact ⟨rfl, rfl, rfl, rfl, rfl, rfl, rfl, rfl, rfl⟩

/-- A start that passes ends in S0 (R381). -/
theorem startedBy_state (first : Nat) (f : StartFlags) : (s.startedBy first f).pwr.state = .s0 ∧ (s.startedBy first f).pwr.started = true :=
  ⟨rfl, rfl⟩

/-- A start from W2 or before releases the outputs, and takes the rails by their flags. -/
theorem startedBy_releases {first : Nat} (h : first ≤ 3) (f : StartFlags) : (s.startedBy first f).reg.gated = false ∧
    (s.startedBy first f).reg.locked = true ∧ (s.startedBy first f).pwr.anaOk = (f.anaOk && s.meas.vanaOk) ∧
    (s.startedBy first f).pwr.fastOk = f.fastOk := by
  unfold startedBy
  dsimp only
  rw [if_pos h, if_pos (by omega : first ≤ 4), if_pos (by omega : first ≤ 5)]
  exact ⟨rfl, rfl, rfl, rfl⟩

theorem afterStart_keeps (first attempt : Nat) (f : StartFlags) (ros : Bool) : (s.afterStart first attempt f ros).reg.filterRos = ros ∧
    (s.afterStart first attempt f ros).pwr.inReset = s.pwr.inReset ∧
    (s.afterStart first attempt f ros).saf = { s.saf with startFailed := false, feedsLost := false } ∧
    (s.afterStart first attempt f ros).host = s.host ∧ (s.afterStart first attempt f ros).train = s.train ∧
    (s.afterStart first attempt f ros).tick = s.tick := by
  obtain ⟨hreg, hsaf, -, htick, hhost, htrain, hin⟩ := tried_keeps (s := s.stepped first f ros) attempt
  obtain ⟨-, -, hros, -, hin', hsaf', hhost', htrain', htick'⟩ := startedBy_keeps (s := (s.stepped first f ros).tried attempt) first f
  unfold afterStart
  exact ⟨hros.trans (congrArg Reg.filterRos hreg), hin'.trans hin, hsaf'.trans (by rw [hsaf]; rfl), hhost'.trans hhost, htrain'.trans htrain,
    htick'.trans htick⟩

theorem afterStart_state (first attempt : Nat) (f : StartFlags) (ros : Bool) : (s.afterStart first attempt f ros).pwr.state = .s0 ∧
    (s.afterStart first attempt f ros).pwr.started = true := startedBy_state first f

theorem afterStart_releases {first : Nat} (h : first ≤ 3) (attempt : Nat) (f : StartFlags) (ros : Bool) :
    (s.afterStart first attempt f ros).reg.gated = false ∧ (s.afterStart first attempt f ros).reg.locked = true ∧
      (s.afterStart first attempt f ros).pwr.anaOk = (f.anaOk && s.meas.vanaOk) ∧ (s.afterStart first attempt f ros).pwr.fastOk = f.fastOk := by
  obtain ⟨-, -, hmeas, -⟩ := tried_keeps (s := s.stepped first f ros) attempt
  obtain ⟨hgate, hlock, hana, hfast⟩ := startedBy_releases (s := (s.stepped first f ros).tried attempt) h f
  unfold afterStart
  exact ⟨hgate, hlock, hana.trans (by rw [hmeas]; rfl), hfast⟩

theorem Passes.secure {first : Nat} {f : StartFlags} (h : s.Passes first f) (attempt : Nat) (ros : Bool) :
    (s.afterStart first attempt f ros).Secure := by
  obtain ⟨hreg, -⟩ := tried_keeps (s := s.stepped first f ros) attempt
  obtain ⟨hocxo, hrefclk, -⟩ := startedBy_keeps (s := (s.stepped first f ros).tried attempt) first f
  obtain ⟨hflag, hsource, -⟩ := h
  unfold Secure afterStart
  rw [hocxo, hrefclk, hreg]
  unfold stepped
  by_cases h0 : first = 0
  · exact .inl (by simp [h0, hflag h0])
  · exact (hsource.resolve_left h0).imp (fun ho => by simp [h0, ho]) .inl

/-- A start from W0 that has failed leaves the outputs gated off, and the module in WAKE_FAIL with its step noted (R390). -/
theorem afterFailure_keeps (attempt : Nat) (f : StartFlags) (ros : Bool) : (s.afterFailure attempt f ros).reg.gated = true ∧
    (s.afterFailure attempt f ros).pwr.inReset = s.pwr.inReset ∧ (s.afterFailure attempt f ros).pwr.state = .wakeFail ∧
    (s.afterFailure attempt f ros).pwr.attempt = attempt ∧ (s.afterFailure attempt f ros).pwr.wakeFails = s.pwr.wakeFails + 1 ∧
    (s.afterFailure attempt f ros).pwr.wakeFailLast = 1 * 2 ^ 8 + attempt ∧ (s.afterFailure attempt f ros).saf.startFailed = true :=
  ⟨rfl, rfl, rfl, rfl, rfl, rfl, rfl⟩

theorem afterFailure_secure (attempt : Nat) (f : StartFlags) (ros : Bool) : (s.afterFailure attempt f ros).Secure :=
  .inr (.inr (afterFailure_keeps attempt f ros).1)

end State

/-- A row of a unit that leaves the module out of reset ends as every command. -/
theorem exec_runAlways_starts {c : Instr} {E : State → State} (hc : exec c s = runAlways true s E) (hr : (E s.clearOut).pwr.inReset = false) :
    exec c s = .next ((E s.clearOut).settle s.ticking) := by
  rw [hc]
  unfold runAlways guarded
  dsimp only
  rw [hr, if_neg Bool.false_ne_true, if_pos rfl]

/-! ### The release of RESET_N -/

/-- What every start from reset begins with (R382). -/
theorem State.leaveReset_eq (s : State) : s.leaveReset =
    { s with pwr := { s.pwr with inReset := false }, saf := s.saf.start, host := { s.host with starting := true }, log := s.leaveReset.log } := by
  unfold State.leaveReset State.post
  rw [State.postAt_eq]

/-- The state in which the start after a reset by RESET_N begins. -/
def State.resetLeft (s : State) (held : Nat) (strap : Bool) : State :=
  { s.leaveReset.fresh with
    pwr := { s.leaveReset.pwr with resetLow := false, heldMs := min held (2 ^ 32 - 1), releasePending := true }
    train := { s.leaveReset.train with strapped := strap } }

theorem State.resetLeft_keeps (s : State) (held : Nat) (strap : Bool) : (s.resetLeft held strap).reg = s.reg ∧
    (s.resetLeft held strap).meas = s.meas ∧ (s.resetLeft held strap).tick = s.tick ∧ (s.resetLeft held strap).saf = s.saf.start ∧
    (s.resetLeft held strap).host.starting = true ∧ (s.resetLeft held strap).train.strapped = strap ∧ (s.resetLeft held strap).pwr.inReset = false ∧
    (s.resetLeft held strap).pwr.wakeFails = s.pwr.wakeFails := by
  unfold State.resetLeft
  rw [State.leaveReset_eq]
  exact ⟨rfl, rfl, rfl, rfl, rfl, rfl, rfl, rfl⟩

theorem State.resetRelease_starts (hin : s.pwr.inReset = true) (hlast : s.pwr.lastReset = 1)
    (hpower : s.feed.aPresent = true ∨ s.feed.bPresent = true ∨ s.feed.inUse = 2) (held : Nat) (strap : Bool) (f : StartFlags) :
    s.resetRelease held strap f = (s.resetLeft held strap).startRun 1 1 f (4000 * held + s.freeNat) := by
  refine if_pos ?_
  rw [hin, hlast]
  unfold State.powered State.anyFeed
  simpa [or_assoc] using hpower

theorem resetRelease_passes (hin : s.pwr.inReset = true) (hlast : s.pwr.lastReset = 1)
    (hpower : s.feed.aPresent = true ∨ s.feed.bPresent = true ∨ s.feed.inUse = 2) (held : Nat) (strap : Bool) {f : StartFlags}
    (hsource : s.reg.ocxoOk = true ∨ s.reg.refclkOk = true) (hrail : f.railOk = true) (hreg : f.regLocked = true) (hesc : f.escOk = true) :
    ∃ t, exec (.resetRelease held strap f) s = .next t ∧ t.pwr.inReset = false ∧ t.pwr.state = .s0 ∧ t.pwr.started = true ∧
      t.reg.gated = false ∧ t.reg.locked = true ∧ t.pwr.anaOk = (f.anaOk && s.meas.vanaOk) ∧ t.pwr.fastOk = f.fastOk ∧ t.saf.startRunning = true ∧
      t.saf.startDone = false ∧ t.host.starting = true ∧ t.train.strapped = strap ∧ t.tick.now = s.tick.now ∧
      t.saf.switches.any id = false := by
  obtain ⟨hureg, humeas, hutick, husaf, hustarting, hustrap, huin, -⟩ := s.clearOut.resetLeft_keeps held strap
  have hE := State.resetRelease_starts (s := s.clearOut) hin hlast hpower held strap f
  generalize s.clearOut.resetLeft held strap = u at *
  have hpasses : u.Passes 1 f := ⟨fun h => absurd h (by decide), .inr (by rwa [hureg]), hrail, hreg, hesc⟩
  obtain ⟨ros, -, hoff⟩ := State.startRun_passes hpasses 1 (4000 * held + s.clearOut.freeNat)
  obtain ⟨-, hein, hesaf, hehost, hetrain, hetick⟩ := State.afterStart_keeps (s := u) 1 1 f ros
  obtain ⟨hgate, hlock, hana, hfast⟩ := State.afterStart_releases (s := u) (first := 1) (by decide) 1 f ros
  obtain ⟨hstate, hstarted⟩ := State.afterStart_state (s := u) 1 1 f ros
  have hstay : (s.clearOut.resetRelease held strap f).pwr.inReset = false := by
    rw [hE]
    exact (congrArg (fun x : State => x.pwr.inReset) hoff).trans (hein.trans huin)
  have hst := State.settle_starts hoff (hpasses.secure 1 ros) s.ticking
  obtain ⟨hpin, hpstate, hpstarted, hpana, hpfast, -⟩ := hst.pwr_eq
  obtain ⟨hrun, hdone, -, hstarting⟩ := hst.findings_eq
  rw [husaf] at hesaf
  refine ⟨_, (exec_runAlways_starts (c := .resetRelease held strap f) (E := fun s => s.resetRelease held strap f) rfl hstay).trans (by rw [hE]),
    hpin.trans (hein.trans huin), hpstate.trans hstate, hpstarted.trans hstarted, hst.gated.trans hgate, hst.locked.trans hlock, ?_, hpfast.trans hfast,
    hrun.trans (by rw [hesaf]; rfl), hdone.trans (by rw [hesaf]; rfl), hstarting.trans (by rw [hehost, hustarting]),
    hst.strapped.trans (by rw [hetrain, hustrap]), hst.now.trans (by rw [hetick, hutick]; rfl), hst.opened (by rw [hesaf]; rfl)⟩
  rw [hpana, hana, humeas]
  rfl

theorem resetRelease_fails (hin : s.pwr.inReset = true) (hlast : s.pwr.lastReset = 1)
    (hpower : s.feed.aPresent = true ∨ s.feed.bPresent = true ∨ s.feed.inUse = 2) (held : Nat) (strap : Bool) (f : StartFlags)
    (hocxo : s.reg.ocxoOk = false) (hrefclk : s.reg.refclkOk = false) :
    ∃ t, exec (.resetRelease held strap f) s = .next t ∧ t.pwr.inReset = false ∧ t.pwr.state = .wakeFail ∧ t.reg.gated = true ∧
      t.pwr.attempt = 1 ∧ t.pwr.wakeFails = s.pwr.wakeFails + 1 ∧ t.pwr.wakeFailLast = 257 ∧ t.saf.startFailed = true := by
  obtain ⟨hureg, -, -, -, -, -, huin, hufails⟩ := s.clearOut.resetLeft_keeps held strap
  have hE := State.resetRelease_starts (s := s.clearOut) hin hlast hpower held strap f
  generalize s.clearOut.resetLeft held strap = u at *
  obtain ⟨ros, hoff⟩ := State.startRun_fails (s := u) (f := f) (by rwa [hureg]) (by rwa [hureg]) (attempt := 1) (by decide)
    (4000 * held + s.clearOut.freeNat)
  obtain ⟨hgate, hein, hstate, hattempt, hfails, hfaillast, hfailed⟩ := State.afterFailure_keeps (s := u) 1 f ros
  have hstay : (s.clearOut.resetRelease held strap f).pwr.inReset = false := by
    rw [hE]
    exact (congrArg (fun x : State => x.pwr.inReset) hoff).trans (hein.trans huin)
  have hst := State.settle_starts hoff (State.afterFailure_secure 1 f ros) s.ticking
  obtain ⟨hpin, hpstate, -, -, -, hpattempt, hpfails, hpfaillast⟩ := hst.pwr_eq
  obtain ⟨-, -, hfail, -⟩ := hst.findings_eq
  exact ⟨_, (exec_runAlways_starts (c := .resetRelease held strap f) (E := fun s => s.resetRelease held strap f) rfl hstay).trans (by rw [hE]),
    hpin.trans (hein.trans huin), hpstate.trans hstate, hst.gated.trans hgate, hpattempt.trans hattempt,
    hpfails.trans (hfails.trans (by rw [hufails]; rfl)), hpfaillast.trans hfaillast, hfail.trans hfailed⟩

/-! ### The power-up -/

/-- The state in which the start at a power-up begins. -/
def State.coldLeft (s : State) (strap : Bool) : State := { s.leaveReset.fresh with train := { s.leaveReset.train with strapped := strap } }

theorem State.coldLeft_keeps (s : State) (strap : Bool) : (s.coldLeft strap).tick = s.tick ∧ (s.coldLeft strap).saf = s.saf.start ∧
    (s.coldLeft strap).host.starting = true ∧ (s.coldLeft strap).train.strapped = strap ∧ (s.coldLeft strap).pwr.inReset = false := by
  unfold State.coldLeft
  rw [State.leaveReset_eq]
  exact ⟨rfl, rfl, rfl, rfl, rfl⟩

/-- After the end of the hold-up a feed that has been present for 100 ms lets the module start. -/
theorem State.powerUp_due {ms : Nat} (hin : s.pwr.inReset = true) (hlast : s.pwr.lastReset = 2) (hfeed : s.feed.aPresent = true) (hms : 100 ≤ ms)
    (strap : Bool) (f : StartFlags) : s.powerUp ⟨ms, strap, f⟩ =
      if s.pwr.resetLow then { s with pwr := { s.pwr with inReset := true, lastReset := 1 } } else (s.coldLeft strap).startRun 0 1 f s.freeNat := by
  refine if_neg ?_
  unfold State.anyFeed State.coldState
  simp [hin, hlast, hfeed, hms]

theorem State.powerUp_early {ms : Nat} (hin : s.pwr.inReset = true) (hms : ms < 100) (strap : Bool) (f : StartFlags) :
    s.powerUp ⟨ms, strap, f⟩ = s := by
  refine if_pos ?_
  simp [hin, Nat.not_le.mpr hms]

theorem powerUp_starts {ms : Nat} (hin : s.pwr.inReset = true) (hlast : s.pwr.lastReset = 2) (hfeed : s.feed.aPresent = true) (hms : 100 ≤ ms)
    (strap : Bool) {f : StartFlags} (hlow : s.pwr.resetLow = false) (hocxo : f.ocxoOk = true) (hrail : f.railOk = true) (hreg : f.regLocked = true)
    (hesc : f.escOk = true) :
    ∃ t, exec (.powerUp ⟨ms, strap, f⟩) s = .next t ∧ t.pwr.inReset = false ∧ t.pwr.state = .s0 ∧ t.pwr.started = true ∧
      t.reg.gated = false ∧ (f.badRise = true → t.reg.filterRos = true) ∧ t.saf.startRunning = true ∧ t.host.starting = true ∧
      t.train.strapped = strap ∧ t.tick.now = s.tick.now := by
  obtain ⟨hutick, husaf, hustarting, hustrap, huin⟩ := s.clearOut.coldLeft_keeps strap
  have hE := State.powerUp_due (s := s.clearOut) hin hlast hfeed hms strap f
  rw [if_neg (by rw [show s.clearOut.pwr = s.pwr from rfl, hlow]; exact Bool.false_ne_true)] at hE
  generalize s.clearOut.coldLeft strap = u at *
  have hpasses : u.Passes 0 f := ⟨fun _ => hocxo, .inl rfl, hrail, hreg, hesc⟩
  obtain ⟨ros, hros, hoff⟩ := State.startRun_passes hpasses 1 s.clearOut.freeNat
  obtain ⟨heros, hein, hesaf, hehost, hetrain, hetick⟩ := State.afterStart_keeps (s := u) 0 1 f ros
  obtain ⟨hgate, -, -, -⟩ := State.afterStart_releases (s := u) (first := 0) (by decide) 1 f ros
  obtain ⟨hstate, hstarted⟩ := State.afterStart_state (s := u) 0 1 f ros
  have hstay : (s.clearOut.powerUp ⟨ms, strap, f⟩).pwr.inReset = false := by
    rw [hE]
    exact (congrArg (fun x : State => x.pwr.inReset) hoff).trans (hein.trans huin)
  have hst := State.settle_starts hoff (hpasses.secure 1 ros) s.ticking
  obtain ⟨hpin, hpstate, hpstarted, -⟩ := hst.pwr_eq
  obtain ⟨hrun, -, -, hstarting⟩ := hst.findings_eq
  rw [husaf] at hesaf
  exact ⟨_, (exec_runAlways_starts (c := .powerUp ⟨ms, strap, f⟩) (E := fun s => s.powerUp ⟨ms, strap, f⟩) rfl hstay).trans (by rw [hE]),
    hpin.trans (hein.trans huin), hpstate.trans hstate, hpstarted.trans hstarted, hst.gated.trans hgate,
    fun hbad => hst.filterRos.trans (heros.trans (hros (by decide) hbad)), hrun.trans (by rw [hesaf]; rfl), hstarting.trans (by rw [hehost, hustarting]),
    hst.strapped.trans (by rw [hetrain, hustrap]), hst.now.trans (by rw [hetick, hutick]; rfl)⟩

theorem powerUp_held {ms : Nat} (hin : s.pwr.inReset = true) (hlast : s.pwr.lastReset = 2) (hfeed : s.feed.aPresent = true) (hms : 100 ≤ ms)
    (strap : Bool) (f : StartFlags) (hlow : s.pwr.resetLow = true) :
    exec (.powerUp ⟨ms, strap, f⟩) s = .next { s.clearOut with pwr := { s.pwr with inReset := true, lastReset := 1 } } := by
  have hE := (State.powerUp_due (s := s.clearOut) hin hlast hfeed hms strap f).trans (if_pos hlow)
  refine (exec_runAlways_reset (c := .powerUp ⟨ms, strap, f⟩) (E := fun s => s.powerUp ⟨ms, strap, f⟩) rfl ?_).trans (congrArg _ hE)
  rw [hE]

theorem powerUp_waits {ms : Nat} (hin : s.pwr.inReset = true) (hms : ms < 100) (strap : Bool) (f : StartFlags) :
    exec (.powerUp ⟨ms, strap, f⟩) s = .next s.clearOut := by
  have hE := State.powerUp_early (s := s.clearOut) hin hms strap f
  refine (exec_runAlways_reset (c := .powerUp ⟨ms, strap, f⟩) (E := fun s => s.powerUp ⟨ms, strap, f⟩) rfl ?_).trans (congrArg _ hE)
  rw [hE]
  exact hin

/-! ### The retry -/

theorem State.wakeRetry_runs (hst : s.pwr.state = .wakeFail) (ha : s.pwr.attempt < 4) (f : StartFlags) :
    s.wakeRetry f = s.fresh.startRun s.pwr.retryFrom (s.pwr.attempt + 1) f s.freeNat :=
  if_pos (by simp [hst, ha])

theorem wakeRetry_passes (hin : s.pwr.inReset = false) (hst : s.pwr.state = .wakeFail) (hone : 1 ≤ s.pwr.attempt) (ha : s.pwr.attempt < 4)
    {f : StartFlags} (hocxo : f.ocxoOk = true) (hsource : s.reg.ocxoOk = true ∨ s.reg.refclkOk = true) (hrail : f.railOk = true)
    (hreg : f.regLocked = true) (hesc : f.escOk = true) :
    ∃ t, exec (.wakeRetry f) s = .next t ∧ t.pwr.state = .s0 ∧ t.pwr.started = true ∧ t.pwr.attempt = s.pwr.attempt + 1 ∧
      t.saf.startFailed = false := by
  have hE := State.wakeRetry_runs (s := s.clearOut) hst ha f
  have hpasses : s.clearOut.fresh.Passes s.pwr.retryFrom f := ⟨fun _ => hocxo, .inr hsource, hrail, hreg, hesc⟩
  obtain ⟨ros, -, hoff⟩ := State.startRun_passes hpasses (s.pwr.attempt + 1) s.clearOut.freeNat
  obtain ⟨-, -, hesaf, -⟩ := State.afterStart_keeps (s := s.clearOut.fresh) s.pwr.retryFrom (s.pwr.attempt + 1) f ros
  obtain ⟨hstate, hstarted⟩ := State.afterStart_state (s := s.clearOut.fresh) s.pwr.retryFrom (s.pwr.attempt + 1) f ros
  have hattempt : (s.clearOut.fresh.afterStart s.pwr.retryFrom (s.pwr.attempt + 1) f ros).pwr.attempt = s.pwr.attempt + 1 := by
    obtain ⟨-, -, -, hkept, -⟩ := State.startedBy_keeps (s := (s.clearOut.fresh.stepped s.pwr.retryFrom f ros).tried (s.pwr.attempt + 1))
      s.pwr.retryFrom f
    refine hkept.trans ?_
    unfold State.tried
    rw [if_neg (by omega)]
  have hst := State.settle_starts hoff (hpasses.secure (s.pwr.attempt + 1) ros) s.ticking
  obtain ⟨-, hpstate, hpstarted, -, -, hpattempt, -⟩ := hst.pwr_eq
  obtain ⟨-, -, hfail, -⟩ := hst.findings_eq
  exact ⟨_, (exec_runSafe (c := .wakeRetry f) (E := fun s => s.wakeRetry f) hin rfl).trans (by rw [hE]; rfl), hpstate.trans hstate,
    hpstarted.trans hstarted, hpattempt.trans hattempt, hfail.trans (by rw [hesaf])⟩

theorem wakeRetry_fails (hin : s.pwr.inReset = false) (hst : s.pwr.state = .wakeFail) (ha : s.pwr.attempt < 3) (hocxo : s.reg.ocxoOk = false)
    (hrefclk : s.reg.refclkOk = false) (hfrom : s.pwr.retryFrom = 1) (f : StartFlags) :
    ∃ t, exec (.wakeRetry f) s = .next t ∧ t.pwr.state = .wakeFail ∧ t.pwr.attempt = s.pwr.attempt + 1 ∧ t.pwr.wakeFails = s.pwr.wakeFails + 1 := by
  have hE := State.wakeRetry_runs (s := s.clearOut) hst (Nat.lt_succ_of_lt ha) f
  rw [show s.clearOut.pwr.retryFrom = s.pwr.retryFrom from rfl, hfrom] at hE
  obtain ⟨ros, hoff⟩ := State.startRun_fails (s := s.clearOut.fresh) (f := f) hocxo hrefclk (attempt := s.pwr.attempt + 1) (by omega) s.clearOut.freeNat
  obtain ⟨-, -, hstate, hattempt, hfails, -⟩ := State.afterFailure_keeps (s := s.clearOut.fresh) (s.pwr.attempt + 1) f ros
  have hst := State.settle_starts hoff (State.afterFailure_secure _ f ros) s.ticking
  obtain ⟨-, hpstate, -, -, -, hpattempt, hpfails, -⟩ := hst.pwr_eq
  exact ⟨_, (exec_runSafe (c := .wakeRetry f) (E := fun s => s.wakeRetry f) hin rfl).trans (by rw [hE]; rfl), hpstate.trans hstate,
    hpattempt.trans hattempt, hpfails.trans hfails⟩

end Sys2Proof.Machine
end

section
/-!
PROOF. Wakes (R381, R389): the source that begins one, and its steps W3 to W5.
-/
namespace Sys2Proof.Machine

variable {s : State}

namespace State

/-! ### The steps of a wake -/

/-- Step `step` of a wake runs for its delay. -/
def wakingAt (s : State) (first step : Nat) (f : StartFlags) : State := { s with pwr := { s.pwr with waking := some ⟨first, step, wakeDelay step, f⟩ } }

theorem wakeGo_offStart (first step : Nat) (f : StartFlags) : (s.wakeGo first step f).offStart = (s.wakingAt first step f).offStart := by
  unfold State.wakeGo
  dsimp only
  split
  exacts [lanesAdmit_offStart, rfl]

theorem lanesAdmit_offLanes (s : State) : s.lanesAdmit.offLanes = s.offLanes := by
  unfold State.lanesAdmit
  generalize List.range 48 = lanes
  refine List.foldlRecOn lanes State.laneAdmit (motive := fun t : State => t.offLanes = s.offLanes) rfl fun t ht l _ => Eq.trans ?_ ht
  unfold State.laneAdmit
  split
  exacts [t.laneTo_offLanes l _ _, rfl]

theorem wakeGo_offLanes (first step : Nat) (f : StartFlags) : (s.wakeGo first step f).offLanes = (s.wakingAt first step f).offLanes := by
  unfold State.wakeGo
  dsimp only
  split
  exacts [lanesAdmit_offLanes _, rfl]

theorem wakeEdge_runs {x : Waking} (h : s.pwr.waking = some x) (hleft : 1 < x.left) :
    s.wakeEdge = { s with pwr := { s.pwr with waking := some { x with left := x.left - 1 } } } := by
  unfold State.wakeEdge
  rw [h]
  exact if_pos hleft

theorem wakeEdge_ends {x : Waking} (h : s.pwr.waking = some x) (hleft : x.left ≤ 1) : s.wakeEdge = s.wakeStep x := by
  unfold State.wakeEdge
  rw [h]
  exact if_neg (by omega)

/-- W3 ends with its flag, and W4 begins (R381). -/
theorem wakeEdge_ana {x : Waking} (h : s.pwr.waking = some x) (hleft : x.left ≤ 1) (hstep : x.step = 4) :
    s.wakeEdge.pwr.waking = some ⟨x.first, 5, 8000, x.flags⟩ ∧ s.wakeEdge.pwr.anaOk = (x.flags.anaOk && s.meas.vanaOk) ∧
      s.wakeEdge.pwr.state = s.pwr.state := by
  have hE : s.wakeEdge = (s.anaChecked x.flags).wakeGo x.first 5 x.flags := (wakeEdge_ends h hleft).trans (if_pos hstep)
  obtain ⟨-, -, -, hpwr, -⟩ := offLanes_keeps (wakeGo_offLanes (s := s.anaChecked x.flags) x.first 5 x.flags)
  rw [hE, hpwr]
  exact ⟨rfl, rfl, rfl⟩

/-- W4 ends with its flag, and W5 begins (R381). -/
theorem wakeEdge_fast {x : Waking} (h : s.pwr.waking = some x) (hleft : x.left ≤ 1) (hstep : x.step = 5) :
    s.wakeEdge.pwr.waking = some ⟨x.first, 6, 400, x.flags⟩ ∧ s.wakeEdge.pwr.fastOk = x.flags.fastOk ∧ s.wakeEdge.pwr.state = s.pwr.state := by
  have hE : s.wakeEdge = (s.fastChecked x.flags).wakeGo x.first 6 x.flags :=
    (wakeEdge_ends h hleft).trans ((if_neg (by omega)).trans (if_pos hstep))
  obtain ⟨-, -, -, hpwr, -⟩ := offLanes_keeps (wakeGo_offLanes (s := s.fastChecked x.flags) x.first 6 x.flags)
  rw [hE, hpwr]
  exact ⟨rfl, rfl, rfl⟩

/-- What W5 leaves of the wake itself. -/
def wakeOver (s : State) : State := { s with pwr := { s.pwr with waking := none } }

theorem wakeEdge_awake {x : Waking} (h : s.pwr.waking = some x) (hleft : x.left ≤ 1) (hstep : x.step = 6) (hesc : x.flags.escOk = true) :
    s.wakeEdge.offStart = s.wakeOver.inS0.offStart := by
  have hE : s.wakeEdge = s.wakeOver.startEnds :=
    (wakeEdge_ends h hleft).trans ((if_neg (by omega)).trans ((if_neg (by omega)).trans (if_pos hesc)))
  rw [hE]
  exact startEnds_offStart

/-- The state in which a wake that fails in W5 notes its first attempt. -/
def wakeTried (s : State) (first : Nat) : State := { s with pwr := { s.pwr with waking := none, attempt := 1, retryFrom := first } }

theorem wakeFailed_offStart (first k : Nat) : (s.wakeFailed first k).offStart = ((s.wakeTried first).failedAt first k).offStart := by
  have hlanes : (if first ≤ 5 then (List.range 48).foldl (fun s l => s.laneTo l .off 0) (s.wakeTried first) else s.wakeTried first).offStart =
      (s.wakeTried first).offStart := by
    split
    · generalize List.range 48 = lanes
      exact foldl_offStart _ (fun t l => laneTo_offStart l _ _) lanes _
    · rfl
  have hattempt : (if first ≤ 5 then (List.range 48).foldl (fun s l => s.laneTo l .off 0) (s.wakeTried first) else s.wakeTried first).pwr.attempt = 1 := by
    have hsame := congrArg (fun x : State => x.pwr.attempt) hlanes
    exact hsame
  show (State.startFails (if first ≤ 5 then (List.range 48).foldl (fun s l => s.laneTo l .off 0) (s.wakeTried first) else s.wakeTried first) first k).offStart = _
  generalize (if first ≤ 5 then (List.range 48).foldl (fun s l => s.laneTo l .off 0) (s.wakeTried first) else s.wakeTried first) = u at hlanes hattempt
  exact (startFails_offStart (by omega) first k).trans (failedAt_offStart hlanes first k)

theorem wakeEdge_fails {x : Waking} (h : s.pwr.waking = some x) (hleft : x.left ≤ 1) (hstep : x.step = 6) (hesc : x.flags.escOk = false) :
    s.wakeEdge.offStart = ((s.wakeTried x.first).failedAt x.first 6).offStart := by
  have hE : s.wakeEdge = s.wakeFailed x.first 6 :=
    (wakeEdge_ends h hleft).trans ((if_neg (by omega)).trans ((if_neg (by omega)).trans (if_neg (by simp [hesc]))))
  rw [hE]
  exact wakeFailed_offStart x.first 6

/-- The end of W5 ends the wake (R381, R390). -/
theorem wakeEdge_over {x : Waking} (h : s.pwr.waking = some x) (hleft : x.left ≤ 1) (hstep : x.step = 6) :
    s.wakeEdge.tick = s.tick ∧ s.wakeEdge.conv = s.conv ∧ s.wakeEdge.objs = s.objs ∧ s.wakeEdge.pwr.waking = none ∧
      (x.flags.escOk = true → s.wakeEdge.pwr.state = .s0 ∧ s.wakeEdge.pwr.escGated = false) ∧
      (x.flags.escOk = false → s.wakeEdge.pwr.state = .wakeFail ∧ s.wakeEdge.pwr.attempt = 1 ∧
        s.wakeEdge.pwr.wakeFails = s.pwr.wakeFails + 1) := by
  obtain ⟨-, htick, hobjs⟩ := s.wakeEdge_frame
  cases hesc : x.flags.escOk with
  | true =>
    have hoff := wakeEdge_awake h hleft hstep hesc
    generalize s.wakeEdge = t at *
    have hview : ∀ {α : Type} (g : State → α), g t.offStart = g s.wakeOver.inS0.offStart := fun g => congrArg g hoff
    exact ⟨htick, hview State.conv, hobjs, hview fun x => x.pwr.waking, fun _ => ⟨hview fun x => x.pwr.state, hview fun x => x.pwr.escGated⟩,
      fun hno => Bool.noConfusion hno⟩
  | false =>
    have hoff := wakeEdge_fails h hleft hstep hesc
    generalize s.wakeEdge = t at *
    have hview : ∀ {α : Type} (g : State → α), g t.offStart = g ((s.wakeTried x.first).failedAt x.first 6).offStart := fun g => congrArg g hoff
    exact ⟨htick, hview State.conv, hobjs, hview fun x => x.pwr.waking, fun hno => Bool.noConfusion hno,
      fun _ => ⟨hview fun x => x.pwr.state, hview fun x => x.pwr.attempt, hview fun x => x.pwr.wakeFails⟩⟩

/-! ### The event that begins a wake -/

/-- A start that begins behind W2 has no step before it (R381). -/
theorem startSteps_late {first : Nat} (h : 4 ≤ first) (f : StartFlags) : s.startSteps first f = s := by
  unfold State.startSteps
  dsimp only
  rw [if_neg (by omega : ¬ first = 0), if_neg (by simp; omega), if_neg (by simp; omega)]

theorem failStep_late {first : Nat} (h : 4 ≤ first) (f : StartFlags) : (s.failStep first f).filter (· < 4) = none := by
  rw [Option.filter_eq_none_iff]
  intro k hk
  unfold State.failStep at hk
  obtain ⟨p, hp, rfl⟩ := Option.map_eq_some_iff.mp hk
  have hpred := List.find?_some hp
  simp only [Bool.and_eq_true, decide_eq_true_eq] at hpred
  simp
  omega

/-- A wake from S1 runs W5 alone, one from S2 W4 and W5 (R381). -/
def begun (p : PowerState) (f : StartFlags) : Waking := if p = .s1 then ⟨6, 6, 400, f⟩ else ⟨5, 5, 8000, f⟩

theorem wakeUp_asleep (h : s.pwr.state = .s1 ∨ s.pwr.state = .s2) (bit : Nat) (f : StartFlags) : ∃ ms, (s.wakeUp bit f).offLanes =
    ({ s.fresh with pwr := { s.pwr with wakes := s.pwr.wakes + 1, sleepMs := ms, waking := some (begun s.pwr.state f) } } : State).offLanes := by
  have hgo : ∀ (u : State) (first : Nat), 4 ≤ first → (match ((u.startSteps first f).failStep first f).filter (· < 4) with
      | some k => (u.startSteps first f).wakeFailed first k
      | none => (if first ≤ 3 then (u.startSteps first f).relocked 0 else u.startSteps first f).wakeGo first (max 4 first) f).offLanes =
      (u.wakingAt first first f).offLanes := fun u first hfirst => by
    rw [startSteps_late hfirst, failStep_late hfirst]
    dsimp only
    rw [if_neg (by omega : ¬ first ≤ 3), max_eq_right hfirst]
    exact wakeGo_offLanes first first f
  have hwaking : ∀ (u v : State) (first : Nat), u.offLanes = v.offLanes → (u.wakingAt first first f).offLanes = (v.wakingAt first first f).offLanes :=
    fun u v first huv => by
      have hoff := congrArg (fun x : State => (x.wakingAt first first f).offLanes) huv
      exact hoff
  obtain h | h := h
  · refine ⟨(s.tick.now - s.pwr.sleepTick + 0) / 4000, ?_⟩
    unfold State.wakeUp
    rw [h]
    exact (hgo _ 6 (by decide)).trans (hwaking _ _ 6 (post_offLanes _ _ _ _))
  · refine ⟨(s.tick.now - s.pwr.sleepTick + 0) / 4000, ?_⟩
    unfold State.wakeUp
    rw [h]
    exact (hgo _ 5 (by decide)).trans (hwaking _ _ 5 (post_offLanes _ _ _ _))

/-- The end of a command where no demand is to take the converter to PR. -/
theorem settle_still (ht : s.ticking = true) (he : s.pwr.entry = none) (h : s.prDemand = true → s.conv.state = .pr ∧ s.hostPr = false) (b : Bool) :
    s.settle b = s.ended (s.settle b) ∧ (s.settle b).pwr = s.pwr := by
  have hnote := (s.noteDemands_adds ht).1
  have hpwr := State.noteDemands_pwr he
  unfold State.settle
  dsimp only
  rw [ht, Bool.not_true, Bool.and_false, if_neg Bool.false_ne_true]
  generalize s.noteDemands = n at hnote hpwr
  have hpulse : (if n.prDemand && n.saf.switches.any id then n.pulseRemoval else n) =
      s.ended (if n.prDemand && n.saf.switches.any id then n.pulseRemoval else n) := by
    split
    exacts [State.ended_trans hnote n.pulseRemoval_adds.1, hnote]
  have hpulsed : (if n.prDemand && n.saf.switches.any id then n.pulseRemoval else n).pwr = s.pwr := by
    split
    · exact (congrArg (fun c : State.Core => c.2.2.1) n.blockAll_core).trans hpwr
    · exact hpwr
  generalize (if n.prDemand && n.saf.switches.any id then n.pulseRemoval else n) = p at hpulse hpulsed
  have hdemand : (p.prDemand && p.noBoundary && (decide (p.conv.state ≠ .pr) || p.hostPr)) = false := by
    have hsame : p.prDemand = s.prDemand ∧ p.conv = s.conv ∧ p.hostPr = s.hostPr := by
      rw [hpulse]
      exact ⟨rfl, rfl, rfl⟩
    obtain ⟨hpr, hconv, hhost⟩ := hsame
    rw [hpr, hconv, hhost]
    cases hd : s.prDemand with
    | false => rfl
    | true => simp [h hd]
  rw [hdemand, if_neg Bool.false_ne_true]
  have hsent := p.sfEvent_adds.1
  refine ⟨State.ended_trans hpulse hsent, Eq.trans ?_ hpulsed⟩
  unfold State.sfEvent
  dsimp only
  split
  · rfl
  · split <;> rfl

/-- The always-on readings of the pins. -/
def pinsHeld (s : State) (ti lim : List Bool) : State := { s with pwr := { s.pwr with aonTi := ti, aonLim := lim } }

theorem wakeBy_enabled {bit : Nat} (h : (s.cfgN Obj.WAKE_MASK).testBit bit = true) (f : StartFlags) : s.wakeBy bit f = s.wakeUp bit f := if_pos h

theorem wakeEvent_asleep (hst : s.pwr.state = .s1 ∨ s.pwr.state = .s2) (hw : s.pwr.waking = none) : s.asleep = true := by
  unfold State.asleep
  rw [hw]
  obtain h | h := hst <;> rw [h] <;> rfl

/-- An active edge of a TI pin behind 1 ms wakes (R389). -/
theorem wakeEvent_trip (hsleep : s.asleep = true) {n : TripIn} {pin : Bool} {run : Nat} (hrun : 1000 ≤ run)
    (hpin : (pin != (s.cfgN Obj.TRIP_POL).testBit n.val) = true) (hheld : flag s.pwr.aonTi n.val = false)
    (hmask : (s.cfgN Obj.WAKE_MASK).testBit 0 = true) (f : StartFlags) :
    s.wakeEvent (.trip n pin run) f = (s.pinsHeld (setFlag s.pwr.aonTi n.val true) s.pwr.aonLim).wakeUp 0 f := by
  have hedge : aonEdge s.pwr.aonTi (s.cfgN Obj.TRIP_POL) n.val pin run = some true := by
    unfold aonEdge
    dsimp only
    rw [hpin, hheld, if_neg (by simp; omega)]
  unfold State.wakeEvent
  rw [hsleep, Bool.not_true, if_neg Bool.false_ne_true]
  dsimp only
  rw [hedge]
  exact wakeBy_enabled (s := s.pinsHeld (setFlag s.pwr.aonTi n.val true) s.pwr.aonLim) hmask f

/-- Either edge of a LIM pin behind 1 ms wakes (R389). -/
theorem wakeEvent_lim (hsleep : s.asleep = true) {n : Fin 8} {pin : Bool} {run : Nat} (hrun : 1000 ≤ run)
    (hedge : (pin != (s.cfgN Obj.LIM_POL).testBit n.val) ≠ flag s.pwr.aonLim n.val)
    (hmask : (s.cfgN Obj.WAKE_MASK).testBit 1 = true) (f : StartFlags) : ∃ lim,
    s.wakeEvent (.lim n pin run) f = (s.pinsHeld s.pwr.aonTi lim).wakeUp 1 f := by
  have hlevel : aonEdge s.pwr.aonLim (s.cfgN Obj.LIM_POL) n.val pin run = some (pin != (s.cfgN Obj.LIM_POL).testBit n.val) := by
    unfold aonEdge
    dsimp only
    rw [if_neg]
    simp only [Bool.or_eq_true, decide_eq_true_eq, not_or]
    exact ⟨by omega, hedge⟩
  unfold State.wakeEvent
  rw [hsleep, Bool.not_true, if_neg Bool.false_ne_true]
  dsimp only
  rw [hlevel]
  exact ⟨setFlag s.pwr.aonLim n.val (pin != (s.cfgN Obj.LIM_POL).testBit n.val),
    wakeBy_enabled (s := s.pinsHeld s.pwr.aonTi (setFlag s.pwr.aonLim n.val (pin != (s.cfgN Obj.LIM_POL).testBit n.val))) hmask f⟩

/-- A source of the wake mask other than a pin wakes at its event (R389). -/
theorem wakeEvent_source (hsleep : s.asleep = true) {w : WakeFact} {bit : Nat}
    (hw : w = .safety ∧ bit = 2 ∨ w = .feed ∧ bit = 3 ∨ w = .vana ∧ bit = 4) (hmask : (s.cfgN Obj.WAKE_MASK).testBit bit = true) (f : StartFlags) :
    s.wakeEvent w f = (s.pinsHeld s.pwr.aonTi s.pwr.aonLim).wakeUp bit f := by
  unfold State.wakeEvent
  rw [hsleep, Bool.not_true, if_neg Bool.false_ne_true]
  obtain ⟨rfl, rfl⟩ | ⟨rfl, rfl⟩ | ⟨rfl, rfl⟩ := hw <;> exact wakeBy_enabled hmask f

/-- A wake that has begun, after the end of its command. -/
theorem wakeUp_settles {ti lim : List Bool} (hst : s.pwr.state = .s1 ∨ s.pwr.state = .s2) (hgate : s.reg.gated = false) (hentry : s.pwr.entry = none)
    (hd : s.prDemand = true → s.conv.state = .pr ∧ s.hostPr = false) (bit : Nat) (f : StartFlags) (b : Bool) :
    ∃ t, ((s.pinsHeld ti lim).wakeUp bit f).settle b = t ∧ t.pwr.state = s.pwr.state ∧ t.power = 6 ∧
      t.pwr.waking = some (begun s.pwr.state f) ∧ t.pwr.wakes = s.pwr.wakes + 1 ∧ t.reg.gated = false ∧ t.tick = s.tick ∧ t.bal = s.bal ∧
      t.conv = s.conv := by
  obtain ⟨ms, hoff⟩ := wakeUp_asleep (s := s.pinsHeld ti lim) hst bit f
  generalize (s.pinsHeld ti lim).wakeUp bit f = w at hoff
  have hview : ∀ {α : Type} (g : State → α), g w.offLanes = g (State.offLanes _) := fun g => congrArg g hoff
  have hreg : w.reg = s.reg := hview State.reg
  have hpwr : w.pwr = { s.pwr with aonTi := ti, aonLim := lim, wakes := s.pwr.wakes + 1, sleepMs := ms, waking := some (begun s.pwr.state f) } :=
    hview State.pwr
  have hconv : w.conv = s.conv := hview State.conv
  have hbal : w.bal = s.bal := hview State.bal
  have htick : w.tick = s.tick := hview State.tick
  have hdemand : w.prDemand = s.prDemand := hview State.prDemand
  have hhost : w.hostPr = s.hostPr := hview State.hostPr
  obtain ⟨hend, hkeep⟩ := settle_still (s := w) (by unfold State.ticking; rw [hreg, hgate]; rfl) (by rw [hpwr]; exact hentry)
    (by rw [hdemand, hconv, hhost]; exact hd) b
  have hshown : (w.settle b).reg = w.reg ∧ (w.settle b).tick = w.tick ∧ (w.settle b).bal = w.bal ∧ (w.settle b).conv = w.conv := by
    rw [hend]
    exact ⟨rfl, rfl, rfl, rfl⟩
  obtain ⟨hsreg, hstick, hsbal, hsconv⟩ := hshown
  refine ⟨_, rfl, ?_, ?_, ?_, ?_, by rw [hsreg, hreg, hgate], hstick.trans htick, hsbal.trans hbal, hsconv.trans hconv⟩
  · rw [hkeep, hpwr]
  · unfold State.power
    rw [hkeep, hpwr]
    dsimp only
    rw [hentry]
    rfl
  · rw [hkeep, hpwr]
  · rw [hkeep, hpwr]

end State

end Sys2Proof.Machine
end

section
/-! Starts and wakes. -/
namespace Sys2Proof.Machine

/-- The source's event, with the pins as it leaves them. -/
theorem wakeEvent_wakes {s : State} {w : WakeFact} {f : StartFlags} {bit : Nat} (hsleep : s.asleep = true)
    (hw : match w with
      | .trip n pin run => bit = 0 ∧ 1000 ≤ run ∧ (pin != (s.cfgN Obj.TRIP_POL).testBit n.val) = true ∧ flag s.pwr.aonTi n.val = false
      | .lim n pin run => bit = 1 ∧ 1000 ≤ run ∧ (pin != (s.cfgN Obj.LIM_POL).testBit n.val) ≠ flag s.pwr.aonLim n.val
      | .safety => bit = 2
      | .feed => bit = 3
      | .vana => bit = 4) (hmask : (s.cfgN Obj.WAKE_MASK).testBit bit = true) :
    ∃ ti lim, s.wakeEvent w f = (s.pinsHeld ti lim).wakeUp bit f := by
  cases w with
  | trip n pin run =>
    obtain ⟨rfl, hrun, hpin, hheld⟩ := hw
    exact ⟨_, _, State.wakeEvent_trip hsleep hrun hpin hheld hmask f⟩
  | lim n pin run =>
    obtain ⟨rfl, hrun, hedge⟩ := hw
    exact ⟨s.pwr.aonTi, State.wakeEvent_lim hsleep hrun hedge hmask f⟩
  | safety => exact ⟨_, _, State.wakeEvent_source hsleep (.inl ⟨rfl, hw⟩) hmask f⟩
  | feed => exact ⟨_, _, State.wakeEvent_source hsleep (.inr (.inl ⟨rfl, hw⟩)) hmask f⟩
  | vana => exact ⟨_, _, State.wakeEvent_source hsleep (.inr (.inr ⟨rfl, hw⟩)) hmask f⟩

/-- Settles O47: a start leaves the state of its flags (`State.startRun_passes`, `State.startRun_fails`), which the end of the command keeps
(`State.settle_starts`); a wake event begins the wake (`State.wakeUp_settles`), and the end of W5 ends it (`State.wakeEdge_over`). -/
theorem startsPassOrFailAndWake : Obligations.StartsPassOrFailAndWake := by
  unfold Obligations.StartsPassOrFailAndWake
  refine ⟨fun s f => ⟨fun hin hlast hpower held strap => ⟨?_, ?_⟩, fun hin hlast hfeed ms strap => ⟨?_, ?_, ?_⟩, ?_, ?_⟩, fun s w f hin hgate hmiss => ⟨?_, ?_⟩,
    fun s x hx => ⟨?_, ?_, ?_, ?_⟩⟩
  · exact fun hsource hrail hreg hesc => resetRelease_passes hin hlast hpower held strap hsource hrail hreg hesc
  · exact resetRelease_fails hin hlast hpower held strap f
  · exact fun hms hlow hocxo hrail hreg hesc => powerUp_starts hin hlast hfeed hms strap hlow hocxo hrail hreg hesc
  · exact fun hms hlow => powerUp_held hin hlast hfeed hms strap f hlow
  · exact fun hms => powerUp_waits hin hms strap f
  · exact fun hin hst hone ha _ hocxo hsource hrail hreg hesc => wakeRetry_passes hin hst hone ha hocxo hsource hrail hreg hesc
  · exact fun hin hst ha hocxo hrefclk hfrom => wakeRetry_fails hin hst ha hocxo hrefclk hfrom f
  · intro bit hst hwaking hw hmask hentry hd
    obtain ⟨ti, lim, hE⟩ := wakeEvent_wakes (s := s.clearOut) (f := f) (State.wakeEvent_asleep hst hwaking) hw hmask
    obtain ⟨t, ht, hstate, hpower, hwake, hwakes, hgated, htick, hbal, hconv⟩ :=
      State.wakeUp_settles (s := s.clearOut) (ti := ti) (lim := lim) hst hgate hentry hd bit f s.ticking
    exact ⟨t, (exec_runSafe (c := .wakeEvent w f) (E := fun s => s.wakeEvent w f) hin rfl).trans (by rw [hE, ht]), hstate, hpower, hwake, hwakes, hgated,
      htick, hbal, hconv⟩
  · intro hst
    exact idles_safe (E := fun s => s.wakeEvent w f) ⟨hin, hst, hgate, hmiss⟩ rfl (if_pos (by
      unfold State.asleep
      rw [show s.clearOut.pwr = s.pwr from rfl, hst]
      rfl))
  · exact fun hleft => State.wakeEdge_runs hx hleft
  · exact fun hleft hstep => State.wakeEdge_ana hx hleft hstep
  · exact fun hleft hstep => State.wakeEdge_fast hx hleft hstep
  · exact fun hleft hstep => State.wakeEdge_over hx hleft hstep

end Sys2Proof.Machine
end

section
/-!
PROOF. What leaves the frames of a tick as they are (R136): between one edge's frames and the next nothing rewrites the frame that a lane has
sent. The lemmas go by the operations of the model, as they are put together.
-/
namespace Sys2Proof.Machine

/-- Lane `ln` has sent `fr` at the last edge. -/
def State.Frames (s : State) (ln : Nat) (fr : Option DownFrame) : Prop := (s.lane ln).tx = fr

namespace State.Frames

variable {s t : State} {c : Prop} {ln : Nat} {fr : Option DownFrame}

/-! ### How the operations are put together -/

theorem eitherOf {_ : Decidable c} (hs : c → s.Frames ln fr) (ht : ¬c → t.Frames ln fr) : (if c then s else t).Frames ln fr := by
  split
  · next hc => exact hs hc
  · next hc => exact ht hc

theorem either {_ : Decidable c} (hs : s.Frames ln fr) (ht : t.Frames ln fr) : (if c then s else t).Frames ln fr := .eitherOf (fun _ => hs) fun _ => ht

theorem whenThen {_ : Decidable c} (h : s.Frames ln fr) (hf : s.Frames ln fr → t.Frames ln fr) : (if c then t else s).Frames ln fr :=
  .either (hf h) h

theorem unlessThen {_ : Decidable c} (h : s.Frames ln fr) (hf : s.Frames ln fr → t.Frames ln fr) : (if c then s else t).Frames ln fr :=
  .either h (hf h)

theorem foldl {α : Type} {f : State → α → State} {l : List α} (h : s.Frames ln fr)
    (hf : ∀ {s a}, s.Frames ln fr → (f s a).Frames ln fr) : (l.foldl f s).Frames ln fr :=
  List.foldlRecOn l f (motive := fun u : State => u.Frames ln fr) h fun _ h _ _ => hf h

/-- Nothing but the lanes counts. -/
theorem of_eq (h : s.Frames ln fr) (hl : t.lanes = s.lanes) : t.Frames ln fr := (congrArg Lane.tx (State.lane_congr hl ln)).trans h

/-- A change of lanes that leaves their frames. -/
theorem setLane {k : Nat} {f : Lane → Lane} (h : s.Frames ln fr) (hf : ∀ x, (f x).tx = x.tx) : (s.setLane k f).Frames ln fr :=
  (modifyAt_view Lane.tx f hf s.lanes k ln {}).trans h

theorem mapIdx {f : Nat → Lane → Lane} (h : s.Frames ln fr) (hf : ∀ n x, (f n x).tx = x.tx) : { s with lanes := s.lanes.mapIdx f }.Frames ln fr :=
  (mapIdx_view Lane.tx f hf s.lanes ln {}).trans h

theorem withSaf {x : Safety} (h : s.Frames ln fr) : { s with saf := x }.Frames ln fr := h
theorem fresh (h : s.Frames ln fr) : s.fresh.Frames ln fr := h

/-! ### Events, answers and the end of a step -/

theorem postFine {tick off code inst data} (h : s.Frames ln fr) : (s.postFine tick off code inst data).Frames ln fr := by
  unfold State.postFine
  exact .either h (.either h h)

theorem postAt {tick code inst data} (h : s.Frames ln fr) : (s.postAt tick code inst data).Frames ln fr := .postFine h
theorem post {code inst data} (h : s.Frames ln fr) : (s.post code inst data).Frames ln fr := .postAt h

theorem condEvent {bit} (h : s.Frames ln fr) : (s.condEvent bit).Frames ln fr := h

theorem closeRecord {cut st} (h : s.Frames ln fr) : (s.closeRecord cut st).Frames ln fr := by
  unfold State.closeRecord
  dsimp only
  split
  · exact h
  · exact .post h

theorem chronoStop (h : s.Frames ln fr) : s.chronoStop.Frames ln fr := .whenThen h fun h => .closeRecord h

theorem demandEvent {d} (h : s.Frames ln fr) : (s.demandEvent d).Frames ln fr := .post (.whenThen h .post)

theorem noteWake {w} (h : s.Frames ln fr) : (s.noteWake w).Frames ln fr := by
  unfold State.noteWake
  split
  · exact .either h h
  · exact h

theorem noteDemands (h : s.Frames ln fr) : s.noteDemands.Frames ln fr :=
  .withSaf (.unlessThen (.foldl h .demandEvent) .noteWake)
/-- A block command goes behind the frame (R143). -/
theorem blockLane {k} (h : s.Frames ln fr) : (s.blockLane k).Frames ln fr := h.setLane fun _ => rfl

theorem blockAll (h : s.Frames ln fr) : s.blockAll.Frames ln fr := by
  unfold State.blockAll
  generalize List.range 48 = lanes
  exact .fresh (.foldl h .blockLane)

theorem pulseRemoval (h : s.Frames ln fr) : s.pulseRemoval.Frames ln fr := by
  have hb := h.blockAll
  unfold State.pulseRemoval
  dsimp only
  generalize s.blockAll = u at hb
  exact hb

theorem reply {r a} (h : s.Frames ln fr) : (s.reply r a).Frames ln fr := .either h h

theorem replyTo {r a} (h : s.Frames ln fr) : (s.replyTo r a).Frames ln fr := by
  cases r with
  | none => exact h
  | some r => exact .reply h

theorem actionDone {tick id flags late} (h : s.Frames ln fr) : (s.actionDone tick id flags late).Frames ln fr :=
  .either (.postAt h) (.postAt h)
theorem actionFailed {tick id late st} (h : s.Frames ln fr) : (s.actionFailed tick id late st).Frames ln fr := .postAt (.either h h)

theorem answerReq {r a} (h : s.Frames ln fr) : (s.answerReq r a).Frames ln fr := by
  unfold State.answerReq
  dsimp only
  split
  · exact .replyTo h
  · exact .either (.actionDone (.replyTo h)) (.actionFailed (.replyTo h))

theorem answerAll {rs} (h : s.Frames ln fr) : (s.answerAll rs).Frames ln fr := .foldl h .answerReq

/-! ### Setting (R210 to R213) -/

theorem setAbort {reason} (h : s.Frames ln fr) : (s.setAbort reason).Frames ln fr := .either (.post h) h

theorem setClosed (h : s.Frames ln fr) : s.setClosed.Frames ln fr := .post h

/-! ### Cells, lanes and the converter -/

theorem scsEnd {reason} (h : s.Frames ln fr) : (s.scsEnd reason).Frames ln fr := .unlessThen h fun h => .post h
theorem laneAges {l} (h : s.Frames ln fr) : (s.laneAges l).Frames ln fr := .foldl h fun h => h

theorem laneTo {l st reason} (h : s.Frames ln fr) : (s.laneTo l st reason).Frames ln fr :=
  .unlessThen h fun h => .post (.whenThen (.whenThen (.setLane h fun _ => rfl) .laneAges) .condEvent)

theorem parkedOff (h : s.Frames ln fr) : s.parkedOff.Frames ln fr := .foldl h fun h => .whenThen h .laneTo
theorem enrgStart (h : s.Frames ln fr) : s.enrgStart.Frames ln fr := .either h (.either (.either (.post h) h) (.post h))
theorem enterRun (h : s.Frames ln fr) : s.enterRun.Frames ln fr := .enrgStart h
theorem enterScs (h : s.Frames ln fr) : s.enterScs.Frames ln fr := .whenThen (.post h) .scsEnd
theorem enterPr (h : s.Frames ln fr) : s.enterPr.Frames ln fr := by
  have hp := h.pulseRemoval
  unfold State.enterPr
  dsimp only
  generalize s.pulseRemoval = u at hp
  exact hp

theorem enter {old new} (h : s.Frames ln fr) : (s.enter old new).Frames ln fr := by
  have hp : (if convBlocked new then s.parkedOff else s).Frames ln fr := .whenThen h .parkedOff
  have hc : (if old = .pr then (if convBlocked new then s.parkedOff else s).closeSwitches
      else if convBlocked new then s.parkedOff else s).Frames ln fr := .either hp hp
  cases new with
  | run => exact .unlessThen hc .enterRun
  | scs => exact .enterScs hc
  | pr => exact .enterPr hc
  | _ => exact hc

theorem leave {old new} (h : s.Frames ln fr) : (s.leave old new).Frames ln fr := .whenThen (.either h h) .setAbort

/-! ### Values of objects come into effect (R18) -/

theorem moveEnd {a reason} (h : s.Frames ln fr) : (s.moveEnd a reason).Frames ln fr := .post h
theorem axisDirect {a v} (h : s.Frames ln fr) : (s.axisDirect a v).Frames ln fr := .whenThen h .moveEnd
theorem rebind {i} (h : s.Frames ln fr) : (s.rebind i).Frames ln fr := .foldl h fun h => h
theorem putObj {i v} (h : s.Frames ln fr) : (s.putObj i v).Frames ln fr := .rebind h

theorem putDirect {i v} (h : s.Frames ln fr) : (s.putDirect i v).Frames ln fr := by
  unfold State.putDirect
  dsimp only
  split
  · exact .axisDirect (.putObj h)
  · exact .putObj h

theorem modSwitchedOff (h : s.Frames ln fr) : s.modSwitchedOff.Frames ln fr := by
  have hb := h.blockAll
  unfold State.modSwitchedOff
  dsimp only
  generalize s.blockAll = u at hb
  exact .whenThen hb fun h => h

theorem blockArms {mask} (h : s.Frames ln fr) : (s.blockArms mask).Frames ln fr := by
  unfold State.blockArms
  generalize List.range 48 = lanes
  exact .fresh (.foldl h fun h => .whenThen h .blockLane)

theorem tripActs {n sent} (h : s.Frames ln fr) : (s.tripActs n sent).Frames ln fr :=
  .unlessThen h fun h => .whenThen (.unlessThen h .blockArms) fun h => h
theorem tripArmsChanged {n} (h : s.Frames ln fr) : (s.tripArmsChanged n).Frames ln fr := .whenThen h .tripActs
theorem laneAdmit {l} (h : s.Frames ln fr) : (s.laneAdmit l).Frames ln fr := .whenThen h .laneTo

theorem laneEnabled {l on} (h : s.Frames ln fr) : (s.laneEnabled l on).Frames ln fr := by
  unfold State.laneEnabled
  split
  · exact .unlessThen h fun h => .either (.laneTo h) (.laneTo h)
  · exact .whenThen h .laneTo
  · exact .whenThen h .laneTo
  · exact .whenThen h .laneTo
  · exact .unlessThen h .laneTo
  · exact .laneAdmit h
  · exact h

theorem laneCounted {l} (h : s.Frames ln fr) : (s.laneCounted l).Frames ln fr := by
  unfold State.laneCounted
  split
  · split
    · exact .laneTo h
    · exact .laneTo h
    · exact .laneTo h
    · exact h
  · exact .laneAdmit h

theorem discardWindow (h : s.Frames ln fr) : s.discardWindow.Frames ln fr := .either h h
theorem timeSet {st cause} (h : s.Frames ln fr) : (s.timeSet st cause).Frames ln fr := .unlessThen h fun h => .post h
theorem holdover {cause} (h : s.Frames ln fr) : (s.holdover cause).Frames ln fr :=
  .unlessThen h fun h => .whenThen (.timeSet h) .timeSet
theorem regMode {ramp} (h : s.Frames ln fr) : (s.regMode ramp).Frames ln fr :=
  .unlessThen h fun h => .whenThen h .holdover
theorem refSwitch {r} (h : s.Frames ln fr) : (s.refSwitch r).Frames ln fr := .post h
theorem unlock {lost} (h : s.Frames ln fr) : (s.unlock lost).Frames ln fr := by
  have hd := h.discardWindow
  exact .post hd
theorem refGone (h : s.Frames ln fr) : s.refGone.Frames ln fr := .either (.refSwitch h) (.either (.unlock h) h)
theorem refWrite {r} (h : s.Frames ln fr) : (s.refWrite r).Frames ln fr :=
  .unlessThen h fun h => .unlessThen (.refSwitch h) .refGone
theorem ptpModeSet {v} (h : s.Frames ln fr) : (s.ptpModeSet v).Frames ln fr := .either (.timeSet h) (.holdover h)
theorem closeSession {id cause} (h : s.Frames ln fr) : (s.closeSession id cause).Frames ln fr := .whenThen h fun h => .post h
theorem closeAll {cause} (h : s.Frames ln fr) : (s.closeAll cause).Frames ln fr := .foldl h .closeSession
theorem setRole {r} (h : s.Frames ln fr) : (s.setRole r).Frames ln fr := .either h h
theorem partnerSet {v} (h : s.Frames ln fr) : (s.partnerSet v).Frames ln fr := .setRole h

theorem hook {i old v} (h : s.Frames ln fr) : (s.hook i old v).Frames ln fr := by
  unfold State.hook
  split
  · exact .axisDirect h
  refine .either (.whenThen h .putDirect) <| .either h <| .either (.whenThen h .modSwitchedOff) <| .either (.unlessThen h .tripArmsChanged) <|
    .either (.laneEnabled h) <| .either (.laneCounted h) <| .either (.unlessThen h .laneAges) <| .either h <| .either (.unlessThen h .discardWindow) <|
    .either (.either h h) <| .either (.regMode h) <| .either (.refWrite h) <| .either h <| .either (.unlessThen h fun h => .ptpModeSet h) <|
    .either (.either h h) <| .either (.closeAll h) <| .either (.partnerSet h) h

theorem writeObj {i v} (h : s.Frames ln fr) : (s.writeObj i v).Frames ln fr := .hook (.putObj h)
theorem applyWaiting {p} (h : s.Frames ln fr) : (s.applyWaiting p).Frames ln fr := .foldl h .writeObj
theorem applyChange (h : s.Frames ln fr) : s.applyChange.Frames ln fr := by
  unfold State.applyChange
  dsimp only
  exact .applyWaiting h

theorem convTo {new cause} (h : s.Frames ln fr) : (s.convTo new cause).Frames ln fr :=
  .unlessThen h fun h => .enter (.applyChange (.leave (.post (.whenThen h .scsEnd))))

theorem goPr (h : s.Frames ln fr) : s.goPr.Frames ln fr := .answerAll (.convTo h)
theorem sfEvent (h : s.Frames ln fr) : s.sfEvent.Frames ln fr := .unlessThen h fun h => .either h h

theorem settle {ticked} (h : s.Frames ln fr) : (s.settle ticked).Frames ln fr :=
  .sfEvent (.whenThen (.whenThen (.noteDemands (.whenThen h .chronoStop)) .pulseRemoval) .goPr)

/-! ### The end of a tick -/

theorem freqClampTo {on pos} (h : s.Frames ln fr) : (s.freqClampTo on pos).Frames ln fr := .either (.post h) (.either (.post h) h)
theorem tableClamps (h : s.Frames ln fr) : s.tableClamps.Frames ln fr := .whenThen h fun h => .freqClampTo h
theorem winnerNote (h : s.Frames ln fr) : s.winnerNote.Frames ln fr := .unlessThen h fun h => .post h
theorem windowStarts {before} (h : s.Frames ln fr) : (State.windowStarts before s).Frames ln fr := .whenThen h fun h => .applyWaiting h
theorem fallbackTick (h : s.Frames ln fr) : s.fallbackTick.Frames ln fr := .either (.either h h) (.either h (.either h (.either h h)))

theorem fireOut (h : s.Frames ln fr) : s.fireOut.Frames ln fr := by
  unfold State.fireOut
  split
  · exact h
  · exact h

theorem slotBeat (h : s.Frames ln fr) : s.slotBeat.Frames ln fr := by
  unfold State.slotBeat
  refine .unlessThen (.fireOut h) fun h => ?_
  split
  · exact .either h h
  · exact h

theorem trigger {t cause fire} (h : s.Frames ln fr) : (s.trigger t cause fire).Frames ln fr := by
  unfold State.trigger
  exact .post h

theorem armedTick {met} (h : s.Frames ln fr) : (s.armedTick met).Frames ln fr := by
  unfold State.armedTick
  dsimp only
  split
  · exact .whenThen h fun h => .trigger h
  · exact .unlessThen h fun h => .trigger h

theorem chronoTick (h : s.Frames ln fr) : s.chronoTick.Frames ln fr := by
  unfold State.chronoTick
  dsimp only
  split
  · exact .whenThen h fun h => .armedTick h
  · exact .either h h
  · exact .either h h
  · exact h

/-! ### Objects read and written by the host (R369 to R371) -/

theorem accessErr {kind x} (h : s.Frames ln fr) : (s.accessErr kind x).Frames ln fr := .post h

theorem clearRos {i} (h : s.Frames ln fr) : (s.clearRos i).Frames ln fr :=
  .either h <| .either h <| .either h <| .either h <| .either (.setLane h fun _ => rfl) <| .either h <| .either h <| .either h <| .either h <|
    .either h <| .either h <| .either h <| .either h <| .either h <| .either h <| .either h <| .either h <| .either h h

theorem readEntry {i} (h : s.Frames ln fr) : (s.readEntry i).1.Frames ln fr := by
  unfold State.readEntry
  split
  · exact h
  · dsimp only
    split
    · exact .accessErr h
    · exact .clearRos h

theorem readAll {is bs} (h : s.Frames ln fr) : (s.readAll is bs).1.Frames ln fr := by
  induction is generalizing s bs with
  | nil => exact h
  | cons i is ih =>
    unfold State.readAll
    dsimp only
    split
    · exact ih (.readEntry h)
    · exact h

theorem startObjRead {r is} (h : s.Frames ln fr) : (s.startObjRead r is).Frames ln fr := .either (.reply h) (.reply (.readAll h))
theorem entryRefused {i a} (h : s.Frames ln fr) : (s.entryRefused i a).Frames ln fr := .whenThen h .accessErr

theorem startObjWrite {r e} (h : s.Frames ln fr) : (s.startObjWrite r e).Frames ln fr := by
  unfold State.startObjWrite
  dsimp only
  split
  · exact .reply (.entryRefused h)
  · refine .either (.reply h) (.either (.reply h) (.either (.reply h) ?_))
    split
    · exact .reply h
    · exact .either (.reply h) (.either (.reply h) h)

theorem schedule {k cmd r} (h : s.Frames ln fr) : (s.schedule k cmd r).Frames ln fr := .either (.replyTo h) (.replyTo h)
theorem waitEntries {es} (h : s.Frames ln fr) : (s.waitEntries es).Frames ln fr := .foldl h fun h => h

theorem startObjWriteSet {r k es} (h : s.Frames ln fr) : (s.startObjWriteSet r k es).Frames ln fr := by
  unfold State.startObjWriteSet
  refine .either (.reply h) ?_
  split
  · exact .reply h
  split
  · exact .reply (.entryRefused h)
  refine .either (.reply h) ?_
  split
  · exact .reply h
  · exact .either (.schedule h) (.either (.reply (.waitEntries h)) (.either (.reply h) h))

theorem takeFragment {r t f} (h : s.Frames ln fr) : (s.takeFragment r t f).Frames ln fr := .either h (.reply h)

theorem startTableLoad {r f} (h : s.Frames ln fr) : (s.startTableLoad r f).Frames ln fr := by
  unfold State.startTableLoad
  refine .either (.reply h) (.either (.either (.reply h) (.either (.reply h) (.takeFragment h))) ?_)
  split
  · exact .reply h
  · exact .either (.reply h) (.either (.reply h) (.takeFragment h))

theorem startTableSwap {r k} (h : s.Frames ln fr) : (s.startTableSwap r k).Frames ln fr := by
  unfold State.startTableSwap
  split
  · exact .reply h
  refine .either (.reply h) (.either (.schedule h) ?_)
  split
  · exact .reply h
  · exact h

/-! ### Coefficient groups, engines and spares (R185 to R195) -/

theorem retested {p} (h : s.Frames ln fr) : (s.retested p).Frames ln fr := .either h (.either h h)
theorem sparesSettled (h : s.Frames ln fr) : s.sparesSettled.Frames ln fr := .either h h
theorem actionRefused {i} (h : s.Frames ln fr) : (s.actionRefused i).Frames ln fr := .either h (.either h h)

theorem writeVal {i v} (h : s.Frames ln fr) : (s.writeVal i v).Frames ln fr := by
  cases v with
  | num v => exact .writeObj h
  | time => exact h
  | str bs => exact .either h (.either h h)

theorem land {i v} (h : s.Frames ln fr) : (s.land i v).Frames ln fr := by
  unfold State.land
  split
  · exact .either (.writeObj h) h
  · exact .writeVal h

theorem tripClear {bm} (h : s.Frames ln fr) : (s.tripClear bm).Frames ln fr := .unlessThen h .post
theorem readmit {n} (h : s.Frames ln fr) : (s.readmit n).Frames ln fr := .either h h
theorem abdicate {cause} (h : s.Frames ln fr) : (s.abdicate cause).Frames ln fr := .post h
theorem feedResult {b result cause vmin imax} (h : s.Frames ln fr) : (s.feedResult b result cause vmin imax).Frames ln fr := .post h

theorem feedNext {cause bs} (h : s.Frames ln fr) : (s.feedNext cause bs).Frames ln fr := by
  induction bs generalizing s with
  | nil => exact h
  | cons b bs ih => exact .either h (ih (.feedResult h))

theorem feedTestStart {bm} (h : s.Frames ln fr) : (s.feedTestStart bm).Frames ln fr := .feedNext h

theorem actionDo {i v} (h : s.Frames ln fr) : (s.actionDo i v).Frames ln fr := by
  unfold State.actionDo
  exact .either (.tripClear h) <| .either (.readmit h) <| .either h <| .either h <| .either h <| .either (.either (.setClosed h) (.setAbort h)) <|
    .either (.either h h) <| .either (.abdicate h) <| .either (.feedTestStart h) <| .either h <|
    .either (.mapIdx h fun _ _ => by split <;> rfl) <| .either h <| .either h <| .either h h

theorem axisGo {a v sigma coord id} (h : s.Frames ln fr) : (s.axisGo a v sigma coord id).Frames ln fr := .putObj h

theorem itemDo {id item} (h : s.Frames ln fr) : (s.itemDo id item).Frames ln fr := by
  cases item with
  | obj i v => exact .land h
  | action i v => exact .actionDo h
  | coef b e k w => exact h
  | target a v sigma coord => exact .axisGo h

theorem itemsDo {items move} (h : s.Frames ln fr) : (s.itemsDo items move).Frames ln fr := by
  have hi : (items.foldl (State.itemDo · ((move.map (·.1)).getD 0)) s).Frames ln fr := .foldl h .itemDo
  cases move with
  | none => exact hi
  | some p => exact hi

theorem applyGroup {g} (h : s.Frames ln fr) : (s.applyGroup g).Frames ln fr := by
  unfold State.applyGroup
  split
  · exact .replyTo (.actionRefused h)
  · exact .replyTo (.itemsDo h)

theorem releaseGroups {held} (h : s.Frames ln fr) : (s.releaseGroups held).Frames ln fr := .foldl h fun h => .applyGroup h

theorem retest {r p} (h : s.Frames ln fr) : (s.retest r p).Frames ln fr :=
  .either (.reply h) <| .either (.reply h) <| .either
    (.reply (.sparesSettled (.releaseGroups (.whenThen (.retested h) fun h => h)))) (.reply h)

theorem startMigration {n byCommand r} (h : s.Frames ln fr) : (s.startMigration n byCommand r).Frames ln fr := by
  unfold State.startMigration
  split
  · exact .postAt h
  · exact .either (.replyTo h) (.postAt h)

theorem askMigration {n byCommand r} (h : s.Frames ln fr) : (s.askMigration n byCommand r).Frames ln fr := .either h (.startMigration h)

theorem startEngineSpare {r mode engine} (h : s.Frames ln fr) : (s.startEngineSpare r mode engine).Frames ln fr := by
  unfold State.startEngineSpare
  refine .either (.retest h) (.either (.reply h) ?_)
  split
  · exact .reply h
  · exact .askMigration h

/-! ### Commands of the converter, the hands and setting (R30, R202, R210) -/

theorem convRequest {r} (h : s.Frames ln fr) : (s.convRequest r).Frames ln fr := by
  unfold State.convRequest
  split
  · exact .answerReq h
  · exact h

theorem startConvState {r k t} (h : s.Frames ln fr) : (s.startConvState r k t).Frames ln fr := by
  unfold State.startConvState
  refine .either (.reply h) ?_
  split
  · exact .reply h
  · exact .either (.convRequest h) (.either (.reply h) (.schedule h))

theorem handsBegin {axes options} (h : s.Frames ln fr) : (s.handsBegin axes options).1.Frames ln fr := .post h

theorem queueGroup {r items isSet move} (h : s.Frames ln fr) : (s.queueGroup r items isSet move).Frames ln fr := h

theorem startHandsTarget {r k axes options ts} (h : s.Frames ln fr) : (s.startHandsTarget r k axes options ts).Frames ln fr := by
  unfold State.startHandsTarget
  split
  · exact .reply h
  refine .either (.reply h) (.either (.schedule h) ?_)
  split
  · exact .reply h
  · exact .either (.reply h) (.either (.reply h) (.queueGroup (.handsBegin h)))

theorem startSetting {r} (h : s.Frames ln fr) : (s.startSetting r).Frames ln fr := by
  unfold State.startSetting
  split
  · exact .reply h
  · exact .reply h

/-! ### The chronograph and the log (R265 to R280) -/

theorem takeSlot (h : s.Frames ln fr) : s.takeSlot.1.Frames ln fr := by
  unfold State.takeSlot
  split
  · exact h
  · exact .post h

theorem armChrono {armId rep master} (h : s.Frames ln fr) : (s.armChrono armId rep master).Frames ln fr := .post (.takeSlot h)

theorem sendMsg {kind pay} (h : s.Frames ln fr) : (s.sendMsg kind pay).Frames ln fr := h

theorem chronoArm {r rep train} (h : s.Frames ln fr) : (s.chronoArm r rep train).Frames ln fr :=
  .either (.reply h) <| .either (.reply h) <| .either (.reply (.sendMsg (.armChrono h))) (.reply (.armChrono h))

theorem askDisarm (h : s.Frames ln fr) : s.askDisarm.Frames ln fr := .either h h
theorem chronoDisarm {r train} (h : s.Frames ln fr) : (s.chronoDisarm r train).Frames ln fr := .reply (.askDisarm (.either h h))

theorem startChronoArm {r o} (h : s.Frames ln fr) : (s.startChronoArm r o).Frames ln fr :=
  .either (.reply h) <| .either (.either (.reply h) (.reply h)) <| .either (.chronoArm h) (.chronoDisarm h)

theorem startChronoRead {r id part options offset length} (h : s.Frames ln fr) :
    (s.startChronoRead r id part options offset length).Frames ln fr := by
  unfold State.startChronoRead
  refine .either (.reply h) (.either (.reply h) (.either (.reply h) ?_))
  split
  · exact .reply h
  · exact .reply (.either h h)

theorem startLogRead {r ring most from_} (h : s.Frames ln fr) : (s.startLogRead r ring most from_).Frames ln fr :=
  .either (.reply h) (.reply h)

/-! ### Power states (R385 to R390) -/

theorem psReply {r a} (h : s.Frames ln fr) : (s.psReply r a).Frames ln fr := .reply h

theorem levelStart {r level} (h : s.Frames ln fr) : (s.levelStart r level).Frames ln fr := by
  unfold State.levelStart
  refine .either (.psReply h) (.either (.psReply h) ?_)
  split
  · exact .psReply h
  · exact h

theorem selectRef (h : s.Frames ln fr) : s.selectRef.Frames ln fr := .either (.refSwitch h) h
theorem startSteps {first f} (h : s.Frames ln fr) : (s.startSteps first f).Frames ln fr :=
  .whenThen (.whenThen (.either h h) .selectRef) fun h => .post h

theorem startFails {first k} (h : s.Frames ln fr) : (s.startFails first k).Frames ln fr := by
  have hd : (if 4 < first then s else s.discardWindow).Frames ln fr := .unlessThen h .discardWindow
  unfold State.startFails
  refine .unlessThen ?_ fun h => ?_
  · exact .post (.of_eq hd rfl)
  · generalize State.post _ 0x2B05 _ _ = u at h ⊢
    exact .of_eq (.foldl (.post h) .psReply) rfl

theorem wakeFailed {first k} (h : s.Frames ln fr) : (s.wakeFailed first k).Frames ln fr :=
  .startFails (.whenThen h fun h => .foldl h .laneTo)

theorem lanesAdmit (h : s.Frames ln fr) : s.lanesAdmit.Frames ln fr := .foldl h .laneAdmit
theorem wakeGo {first step f} (h : s.Frames ln fr) : (s.wakeGo first step f).Frames ln fr := .whenThen h .lanesAdmit
theorem resumeTick {skip} (h : s.Frames ln fr) : (s.resumeTick skip).Frames ln fr := .either h (.whenThen h .post)
theorem timeAfterSleep {skip} (h : s.Frames ln fr) : (s.timeAfterSleep skip).Frames ln fr := .whenThen h .timeSet
theorem relocked {skip} (h : s.Frames ln fr) : (s.relocked skip).Frames ln fr := .timeAfterSleep h.resumeTick

theorem wakeUp {bit f} (h : s.Frames ln fr) : (s.wakeUp bit f).Frames ln fr := by
  unfold State.wakeUp
  dsimp only
  split
  · exact .wakeFailed (.startSteps (.post h))
  · exact .wakeGo (.whenThen (.startSteps (.post h)) .relocked)

theorem hostWake {r level f} (h : s.Frames ln fr) : (s.hostWake r level f).Frames ln fr := .wakeUp h

theorem answerEach {rs} (h : s.Frames ln fr) : (s.answerEach rs).Frames ln fr := by
  induction rs generalizing s with
  | nil => exact h
  | cons r rs ih => exact .either (.levelStart h) (ih (.levelStart h))

theorem wakeAnswer (h : s.Frames ln fr) : s.wakeAnswer.Frames ln fr := .answerEach h
theorem lanesWake (h : s.Frames ln fr) : s.lanesWake.Frames ln fr := .lanesAdmit (.foldl h fun h => .whenThen h .laneTo)
theorem startEnds (h : s.Frames ln fr) : s.startEnds.Frames ln fr := .wakeAnswer (.lanesWake h)

theorem startOk {first f skip} (h : s.Frames ln fr) : (s.startOk first f skip).Frames ln fr := by
  have hr : (if first ≤ 3 then s.relocked skip else s).Frames ln fr := .whenThen h .relocked
  exact .startEnds (.whenThen (.whenThen hr fun h => h) fun h => h)

theorem startRun {first attempt f skip} (h : s.Frames ln fr) : (s.startRun first attempt f skip).Frames ln fr := by
  unfold State.startRun
  dsimp only
  split
  · exact .startFails (.startSteps h)
  · exact .startOk (.unlessThen (.startSteps h) fun h => h)

theorem sleepRefused {r target code} (h : s.Frames ln fr) : (s.sleepRefused r target code).Frames ln fr := .psReply (.post h)

theorem pstateReq {r state level f} (h : s.Frames ln fr) : (s.pstateReq r state level f).Frames ln fr := by
  unfold State.pstateReq
  refine .either (.psReply h) ?_
  split
  · exact .either h (.psReply h)
  refine .either (.either (.levelStart h) (.either (.hostWake h) (.either h (.startRun h)))) (.either (.psReply h) (.either (.psReply h) ?_))
  split
  · exact .sleepRefused h
  · exact .either (.psReply h) h

/-! ### Firmware and the safety session (R309, R310, R372, R374) -/

theorem startFwBegin {r target length} (h : s.Frames ln fr) : (s.startFwBegin r target length).Frames ln fr :=
  .either (.reply h) <| .either (.reply h) <| .either (.reply h) <| .either (.reply h) (.reply h)

theorem startFwData {r offset data} (h : s.Frames ln fr) : (s.startFwData r offset data).Frames ln fr := by
  unfold State.startFwData
  split
  · exact .reply h
  · exact .either (.reply h) (.either (.reply h) (.reply h))

theorem startFwEnd {r} (h : s.Frames ln fr) : (s.startFwEnd r).Frames ln fr := by
  unfold State.startFwEnd
  split
  · exact .reply h
  · exact .either (.reply h) (.either (.reply h) (.either (.reply h) (.reply (.post h))))

theorem startFwActivate {r target} (h : s.Frames ln fr) : (s.startFwActivate r target).Frames ln fr := by
  unfold State.startFwActivate
  refine .either (.reply h) (.either ?_ (.either (.reply h) (.reply h)))
  split
  · exact .reply h
  · exact .either (.reply h) (.post (.reply h))

theorem sessionOpen (h : s.Frames ln fr) : s.sessionOpen.1.Frames ln fr := by
  unfold State.sessionOpen
  repeat' split
  · exact h
  · exact h
  · exact .post h

theorem sessionCommit {crc} (h : s.Frames ln fr) : (s.sessionCommit crc).1.Frames ln fr := by
  unfold State.sessionCommit
  repeat' split
  · exact h
  · exact h
  · exact h
  · exact h
  · exact .post h

theorem sessionClose (h : s.Frames ln fr) : s.sessionClose.1.Frames ln fr := by
  unfold State.sessionClose
  split
  · exact h
  · exact .post h

theorem startSession {r sub crc} (h : s.Frames ln fr) : (s.startSession r sub crc).Frames ln fr := by
  unfold State.startSession
  refine .either (.reply h) ?_
  split
  · exact .reply (.sessionOpen h)
  · exact .reply (.sessionCommit h)
  · exact .reply (.sessionClose h)
  · exact .reply h

/-! ### A command's turn (R361, R363) -/

theorem perform {r cmd} (h : s.Frames ln fr) : (s.perform r cmd).Frames ln fr := by
  cases cmd with
  | objRead => exact .startObjRead h
  | objWrite => exact .startObjWrite h
  | objWriteSet => exact .startObjWriteSet h
  | tableLoad => exact .startTableLoad h
  | tableSwap => exact .startTableSwap h
  | engineSpare => exact .startEngineSpare h
  | convState => exact .startConvState h
  | handsTarget => exact .startHandsTarget h
  | settingStart => exact .startSetting h
  | chronoArm => exact .startChronoArm h
  | chronoRead => exact .startChronoRead h
  | logRead => exact .startLogRead h
  | pstateReq => exact .pstateReq h
  | fwBegin => exact .startFwBegin h
  | fwData => exact .startFwData h
  | fwEnd => exact .startFwEnd h
  | fwActivate => exact .startFwActivate h
  | safetySession => exact .startSession h
  | bad => exact .reply h

theorem startCmd {r cmd} (h : s.Frames ln fr) : (s.startCmd r cmd).Frames ln fr :=
  .either (.reply (.accessErr h)) (.either (.reply h) (.perform h))

theorem startNext {n} (h : s.Frames ln fr) : (s.startNext n).Frames ln fr := by
  unfold State.startNext
  split
  · exact .startCmd h
  · exact h

theorem turn (h : s.Frames ln fr) : s.turn.Frames ln fr := .whenThen h fun h => .foldl h .startNext
theorem pump (h : s.Frames ln fr) : s.pump.Frames ln fr := .of_eq h.turn.turn.turn.turn rfl

/-! ### Sleep entry and wake (R388, R389) -/

theorem wakeAgain {e} (h : s.Frames ln fr) : (s.wakeAgain e).Frames ln fr := by
  unfold State.wakeAgain
  split
  · exact .wakeUp h
  · exact .wakeUp h
  · exact h

theorem stopTick (h : s.Frames ln fr) : s.stopTick.Frames ln fr := h

theorem entryDone {e} (h : s.Frames ln fr) : (s.entryDone e).Frames ln fr :=
  .wakeAgain (.whenThen (.psReply (.post h)) .stopTick)

theorem setEntry {e} (h : s.Frames ln fr) : (s.setEntry e).Frames ln fr := h

theorem entryUndo {e} (h : s.Frames ln fr) : (s.entryUndo e).Frames ln fr := by
  unfold State.entryUndo
  exact .setEntry (.whenThen (.either h h) .lanesWake)

theorem entryAbort {e kind code} (h : s.Frames ln fr) : (s.entryAbort e kind code).Frames ln fr :=
  .wakeAnswer (.psReply (.post (.entryUndo h)))

theorem entryOff {target} (h : s.Frames ln fr) : (s.entryOff target).Frames ln fr :=
  .unlessThen h fun h => .either h (.holdover (.discardWindow h))

theorem entryStep {e} (h : s.Frames ln fr) : (s.entryStep e).Frames ln fr := by
  unfold State.entryStep
  dsimp only
  split
  · exact h
  · exact .fresh (.foldl h fun h => .either (.whenThen h .laneTo) (.laneTo h))
  · exact .entryOff h
  · exact .either (.entryDone h) h

theorem entryEdge (h : s.Frames ln fr) : s.entryEdge.Frames ln fr := by
  unfold State.entryEdge
  split
  · exact h
  refine .either h (.either (.entryDone h) ?_)
  split
  · exact .entryAbort h
  · exact .entryStep h

theorem wakeStep {w} (h : s.Frames ln fr) : (s.wakeStep w).Frames ln fr :=
  .either (.wakeGo h) <| .either (.wakeGo h) <| .either (.startEnds h) (.wakeFailed h)

theorem wakeEdge (h : s.Frames ln fr) : s.wakeEdge.Frames ln fr := by
  unfold State.wakeEdge
  split
  · exact h
  · exact .either h (.wakeStep h)

theorem levelTo {level} (h : s.Frames ln fr) : (s.levelTo level).Frames ln fr := .unlessThen h fun h => .post h

theorem levelEdge (h : s.Frames ln fr) : s.levelEdge.Frames ln fr := by
  unfold State.levelEdge
  split
  · exact h
  · exact .either (.wakeAnswer (.psReply h.levelTo)) (.whenThen h .levelTo)

theorem frtCounts (h : s.Frames ln fr) : s.frtCounts.Frames ln fr := .of_eq h rfl
theorem dcfCounts (h : s.Frames ln fr) : s.dcfCounts.Frames ln fr := .of_eq h rfl
theorem stopEngines (h : s.Frames ln fr) : s.stopEngines.Frames ln fr := .of_eq h rfl
theorem formVector {demand} (h : s.Frames ln fr) : (s.formVector demand).Frames ln fr := .of_eq h rfl

theorem endTick (h : s.Frames ln fr) : s.endTick.Frames ln fr := by
  unfold State.endTick
  refine .pump (.entryEdge (.wakeEdge (.levelEdge (.of_eq (s := State.slotBeat _) ?_ rfl))))
  exact .slotBeat (.chronoTick (.formVector (.stopEngines (.dcfCounts (.frtCounts (.tableClamps (.winnerNote (.windowStarts
    (.fallbackTick h)))))))))

/-! ### The beats (R22 to R24) -/

theorem setSigs {a ws} (h : s.Frames ln fr) : (s.setSigs a ws).Frames ln fr := by
  induction ws generalizing s a with
  | nil => exact h
  | cons w ws ih => exact ih h

theorem setSig {a w} (h : s.Frames ln fr) : (s.setSig a w).Frames ln fr := h
theorem setSigN {a n} (h : s.Frames ln fr) : (s.setSigN a n).Frames ln fr := h
theorem setPu {a k x} (h : s.Frames ln fr) : (s.setPu a k x).Frames ln fr := h
theorem gatherFast (h : s.Frames ln fr) : s.gatherFast.Frames ln fr := .either h h
theorem overEvents {old new} (h : s.Frames ln fr) : (s.overEvents old new).Frames ln fr := .foldl h fun h => .whenThen h .post

theorem roleSignals (h : s.Frames ln fr) : s.roleSignals.Frames ln fr :=
  .setSigs (.setSig (.setSig (.setSigs (.setSigs (.setSigs (.setSigs h))))))

theorem fastBeat {x} (h : s.Frames ln fr) : (s.fastBeat x).Frames ln fr := by
  have hg : ({ s with meas := s.meas.takeSamples x }.gatherFast).Frames ln fr := .gatherFast h
  exact .setSigN (.either hg (.either (.setSigs hg) (.setSigN (.roleSignals (.setSigs (.of_eq hg.overEvents rfl))))))

theorem engineBeat {o k n} (h : s.Frames ln fr) : (State.engineBeat o s k n).1.Frames ln fr := by
  unfold State.engineBeat
  dsimp only
  split
  · exact h
  · exact h

theorem tableBeat {k} (h : s.Frames ln fr) : (s.tableBeat k).Frames ln fr := by
  unfold State.tableBeat
  refine .foldl ?_ fun h => h
  exact List.foldlRecOn (motive := fun a : State × List (Nat × Word) => a.1.Frames ln fr) _ _ h fun _ ha _ _ => .engineBeat ha

theorem fuseeMark (h : s.Frames ln fr) : s.fuseeMark.Frames ln fr := .either h h
theorem law {k n f} (h : s.Frames ln fr) (hf : s.Frames ln fr → (f s).Frames ln fr) : (s.law k n f).Frames ln fr := .whenThen h hf

theorem selection {o bits} (h : s.Frames ln fr) : (State.selection o s bits).Frames ln fr :=
  .setPu (.setPu (.setPu (.setSigN (.setSig (.setSig (.of_eq h rfl))))))
theorem balancing {o} (h : s.Frames ln fr) : (State.balancing o s).Frames ln fr := .of_eq h rfl
theorem circulating {o} (h : s.Frames ln fr) : (State.circulating o s).Frames ln fr := .of_eq h rfl
theorem armCurrent {o k} (h : s.Frames ln fr) : (State.armCurrent o s k).Frames ln fr := .of_eq h rfl
theorem admittance {o} (h : s.Frames ln fr) : (State.admittance o s).Frames ln fr := .of_eq h rfl
theorem contenders {o} (h : s.Frames ln fr) : (State.contenders o s).Frames ln fr := .of_eq h rfl
theorem thermal {o} (h : s.Frames ln fr) : (State.thermal o s).Frames ln fr := .of_eq h rfl
theorem qvDroop {o} (h : s.Frames ln fr) : (State.qvDroop o s).Frames ln fr := .of_eq h rfl
theorem voltageLoop {o} (h : s.Frames ln fr) : (State.voltageLoop o s).Frames ln fr := .of_eq h rfl
theorem swingSignals (h : s.Frames ln fr) : s.swingSignals.Frames ln fr := .of_eq h rfl
theorem vInst {o} (h : s.Frames ln fr) : (State.vInst o s).Frames ln fr := .of_eq h rfl
theorem dcfHold (h : s.Frames ln fr) : s.dcfHold.Frames ln fr := .either h h
theorem energySum {o} (h : s.Frames ln fr) : (State.energySum o s).Frames ln fr := .either h h
theorem dcVoltageLoop {o} (h : s.Frames ln fr) : (State.dcVoltageLoop o s).Frames ln fr := .either h h

theorem settingBeat {o} (h : s.Frames ln fr) : (State.settingBeat o s).Frames ln fr := by
  unfold State.settingBeat
  dsimp only
  split
  · split
    · exact h
    · exact h
  · split
    · exact h
    · exact h

theorem axisArrived {a} (h : s.Frames ln fr) : (s.axisArrived a).Frames ln fr := .moveEnd h
theorem setAxis {a f} (h : s.Frames ln fr) : (s.setAxis a f).Frames ln fr := h
theorem axisStopped {a n} (h : s.Frames ln fr) : (s.axisStopped a n).Frames ln fr := .setAxis (.moveEnd (.putObj h))

theorem axisTick {a} (h : s.Frames ln fr) : (s.axisTick a).Frames ln fr := by
  unfold State.axisTick
  refine .either h ?_
  split
  · exact .either (.axisArrived h) (.either (.axisStopped h) h)
  · exact .either (.axisArrived h) h

theorem handsBeat (h : s.Frames ln fr) : s.handsBeat.Frames ln fr :=
  .setSigN (.setPu (.setPu (.setPu (.setPu (.setPu (.foldl h .axisTick))))))

theorem swing {o} (h : s.Frames ln fr) : (State.swing o s).Frames ln fr := .either (.freqClampTo h) (.freqClampTo h)

theorem beat0 (h : s.Frames ln fr) : s.beat0.Frames ln fr :=
  .law (.law (.law (.law (.tableBeat h) fun h => .dcVoltageLoop (.settingBeat (.handsBeat h)))
    fun h => .setSigN (.vInst (.swingSignals (.swing h)))) .qvDroop) .voltageLoop

theorem beat1 (h : s.Frames ln fr) : s.beat1.Frames ln fr := .law (.law (.law (.tableBeat h) .admittance) .contenders) .thermal

theorem beat2 (h : s.Frames ln fr) : s.beat2.Frames ln fr :=
  .fuseeMark (.dcfHold (.law (.law (.law (.law (.tableBeat h) .selection) .energySum) .balancing) .circulating))

theorem beat3 {x} (h : s.Frames ln fr) : (s.beat3 x).Frames ln fr :=
  .fuseeMark (.law (.law (.law (.tableBeat (.fastBeat h)) .armCurrent) .armCurrent) .armCurrent)

theorem beats {x} (h : s.Frames ln fr) : (s.beats x).Frames ln fr := .either (.fastBeat h) (.beat3 (.beat2 (.beat1 (.beat0 h))))

end State.Frames
end Sys2Proof.Machine
end

section
/-!
PROOF. What leaves a lane UP on the way from a tick's edge to its frames (R21, R152): while no value waits, nothing that acts at the edge before
the frames takes a lane out of UP or touches the gap of a dark test.
-/
namespace Sys2Proof.Machine

/-- Lane `ln` is UP, with `g` ticks left of the gap of a dark test, and no value waits for its point. -/
def State.Lit (s : State) (ln g : Nat) : Prop := s.lanes.length = 48 ∧ (s.lane ln).state = .up ∧ s.mod.gap = g ∧ s.waiting = []

/-- A view of the elements that the function leaves is the same after a map. -/
theorem map_view {α β : Type} (v : α → β) (f : α → α) (hf : ∀ x, v (f x) = v x) (l : List α) (k : Nat) (d : α) :
    v ((l.map f).getD k d) = v (l.getD k d) := by
  rw [List.getD_eq_getElem?_getD, List.getD_eq_getElem?_getD, List.getElem?_map]
  cases l[k]? with
  | none => rfl
  | some x => exact hf x

namespace State.Lit

variable {s t : State} {c : Prop} {ln g : Nat}

/-! ### How the operations are put together -/

theorem eitherOf {_ : Decidable c} (hs : c → s.Lit ln g) (ht : ¬c → t.Lit ln g) : (if c then s else t).Lit ln g := by
  split
  · next hc => exact hs hc
  · next hc => exact ht hc

theorem either {_ : Decidable c} (hs : s.Lit ln g) (ht : t.Lit ln g) : (if c then s else t).Lit ln g := .eitherOf (fun _ => hs) fun _ => ht

theorem whenThen {_ : Decidable c} (h : s.Lit ln g) (hf : s.Lit ln g → t.Lit ln g) : (if c then t else s).Lit ln g :=
  .either (hf h) h

theorem unlessThen {_ : Decidable c} (h : s.Lit ln g) (hf : s.Lit ln g → t.Lit ln g) : (if c then s else t).Lit ln g :=
  .either h (hf h)

theorem foldl {α : Type} {f : State → α → State} {l : List α} (h : s.Lit ln g)
    (hf : ∀ {s a}, s.Lit ln g → (f s a).Lit ln g) : (l.foldl f s).Lit ln g :=
  List.foldlRecOn l f (motive := fun u : State => u.Lit ln g) h fun _ h _ _ => hf h

/-- Nothing but the lanes, the gap and what waits counts. -/
theorem of_eq (h : s.Lit ln g) (hl : t.lanes = s.lanes) (hg : t.mod.gap = s.mod.gap) (hw : t.waiting = s.waiting) : t.Lit ln g := by
  obtain ⟨hlen, hup, hgap, hwait⟩ := h
  exact ⟨(congrArg List.length hl).trans hlen, (congrArg Lane.state (State.lane_congr hl ln)).trans hup, hg.trans hgap, hw.trans hwait⟩

/-- A change of lanes that leaves their states. -/
theorem setLane {k : Nat} {f : Lane → Lane} (h : s.Lit ln g) (hf : ∀ x, (f x).state = x.state) : (s.setLane k f).Lit ln g := by
  obtain ⟨hlen, hup, hgap, hwait⟩ := h
  exact ⟨(State.setLane_length s k f).trans hlen, (modifyAt_view Lane.state f hf s.lanes k ln {}).trans hup, hgap, hwait⟩

theorem mapIdx {f : Nat → Lane → Lane} (h : s.Lit ln g) (hf : ∀ n x, (f n x).state = x.state) : { s with lanes := s.lanes.mapIdx f }.Lit ln g := by
  obtain ⟨hlen, hup, hgap, hwait⟩ := h
  exact ⟨List.length_mapIdx.trans hlen, (mapIdx_view Lane.state f hf s.lanes ln {}).trans hup, hgap, hwait⟩

theorem map {f : Lane → Lane} (h : s.Lit ln g) (hf : ∀ x, (f x).state = x.state) : { s with lanes := s.lanes.map f }.Lit ln g := by
  obtain ⟨hlen, hup, hgap, hwait⟩ := h
  exact ⟨(List.length_map f).trans hlen, (map_view Lane.state f hf s.lanes ln {}).trans hup, hgap, hwait⟩

theorem fresh (h : s.Lit ln g) : s.fresh.Lit ln g := h

/-! ### Events, answers and the end of a step -/

theorem postFine {tick off code inst data} (h : s.Lit ln g) : (s.postFine tick off code inst data).Lit ln g := by
  unfold State.postFine
  exact .either h (.either h h)

theorem postAt {tick code inst data} (h : s.Lit ln g) : (s.postAt tick code inst data).Lit ln g := .postFine h
theorem post {code inst data} (h : s.Lit ln g) : (s.post code inst data).Lit ln g := .postAt h

theorem condEvent {bit} (h : s.Lit ln g) : (s.condEvent bit).Lit ln g := h

theorem closeRecord {cut st} (h : s.Lit ln g) : (s.closeRecord cut st).Lit ln g := by
  unfold State.closeRecord
  dsimp only
  split
  · exact h
  · exact .post h

theorem chronoStop (h : s.Lit ln g) : s.chronoStop.Lit ln g := .whenThen h fun h => .closeRecord h

theorem blockLane {k} (h : s.Lit ln g) : (s.blockLane k).Lit ln g := h.setLane fun _ => rfl

theorem blockAll (h : s.Lit ln g) : s.blockAll.Lit ln g := by
  unfold State.blockAll
  generalize List.range 48 = lanes
  exact .fresh (.foldl h .blockLane)

theorem pulseRemoval (h : s.Lit ln g) : s.pulseRemoval.Lit ln g := by
  have hb := h.blockAll
  unfold State.pulseRemoval
  dsimp only
  generalize s.blockAll = u at hb
  exact hb

theorem reply {r a} (h : s.Lit ln g) : (s.reply r a).Lit ln g := .either h h

theorem replyTo {r a} (h : s.Lit ln g) : (s.replyTo r a).Lit ln g := by
  cases r with
  | none => exact h
  | some r => exact .reply h

theorem actionDone {tick id flags late} (h : s.Lit ln g) : (s.actionDone tick id flags late).Lit ln g :=
  .either (.postAt h) (.postAt h)
theorem actionFailed {tick id late st} (h : s.Lit ln g) : (s.actionFailed tick id late st).Lit ln g := .postAt (.either h h)

theorem answerReq {r a} (h : s.Lit ln g) : (s.answerReq r a).Lit ln g := by
  unfold State.answerReq
  dsimp only
  split
  · exact .replyTo h
  · exact .either (.actionDone (.replyTo h)) (.actionFailed (.replyTo h))

theorem answerAll {rs} (h : s.Lit ln g) : (s.answerAll rs).Lit ln g := .foldl h .answerReq

/-! ### Setting (R210 to R213) -/

theorem setAbort {reason} (h : s.Lit ln g) : (s.setAbort reason).Lit ln g := .either (.post h) h
theorem permitLost (h : s.Lit ln g) : s.permitLost.Lit ln g := .either (.post h) h

/-! ### Cells, lanes and the converter -/

theorem scsEnd {reason} (h : s.Lit ln g) : (s.scsEnd reason).Lit ln g := .unlessThen h fun h => .post h
/-- Another lane moves. -/
theorem laneTo_other {k st reason} (h : s.Lit ln g) (hk : ln ≠ k) : (s.laneTo k st reason).Lit ln g := by
  obtain ⟨hlen, hup, hgap, hwait⟩ := h
  have hoff := s.laneTo_offLanes k st reason
  have hmod : (s.laneTo k st reason).mod = s.mod := by
    have hsame := congrArg State.mod hoff
    exact hsame
  have hwaits : (s.laneTo k st reason).waiting = s.waiting := by
    have hsame := congrArg State.waiting hoff
    exact hsame
  refine ⟨?_, (congrArg Lane.state (State.laneTo_other s st reason hk)).trans hup, (congrArg Modulator.gap hmod).trans hgap, hwaits.trans hwait⟩
  by_cases hst : (s.lane k).state = st
  · exact (congrArg (fun u : State => u.lanes.length) (if_pos hst)).trans hlen
  · rw [State.laneTo_lanes reason hst, modifyAt, List.length_modify]
    exact hlen

/-- Parked lanes go off; one that is UP is not parked (R152). -/
theorem parkedOff (h : s.Lit ln g) : s.parkedOff.Lit ln g := by
  unfold State.parkedOff
  generalize List.range 48 = lanes
  refine .foldl h fun {u k} hu => .eitherOf (fun hp => hu.laneTo_other ?_) fun _ => hu
  rintro rfl
  obtain ⟨-, hup, -⟩ := hu
  cases hup.symm.trans hp

theorem enrgStart (h : s.Lit ln g) : s.enrgStart.Lit ln g := .either h (.either (.either (.post h) h) (.post h))
theorem enterRun (h : s.Lit ln g) : s.enterRun.Lit ln g := .enrgStart h
theorem enterScs (h : s.Lit ln g) : s.enterScs.Lit ln g := .whenThen (.post h) .scsEnd
theorem enterPr (h : s.Lit ln g) : s.enterPr.Lit ln g := by
  have hp := h.pulseRemoval
  unfold State.enterPr
  dsimp only
  generalize s.pulseRemoval = u at hp
  exact hp

theorem enter {old new} (h : s.Lit ln g) : (s.enter old new).Lit ln g := by
  have hp : (if convBlocked new then s.parkedOff else s).Lit ln g := .whenThen h .parkedOff
  have hc : (if old = .pr then (if convBlocked new then s.parkedOff else s).closeSwitches
      else if convBlocked new then s.parkedOff else s).Lit ln g := .either hp hp
  cases new with
  | run => exact .unlessThen hc .enterRun
  | scs => exact .enterScs hc
  | pr => exact .enterPr hc
  | _ => exact hc

theorem leave {old new} (h : s.Lit ln g) : (s.leave old new).Lit ln g := .whenThen (.either h h) .setAbort

/-- Where no value waits, none takes effect (R18). -/
theorem applyWaiting {p} (h : s.Lit ln g) : (s.applyWaiting p).Lit ln g := by
  have hnone : s.applyWaiting p = s := State.applyWaiting_none fun w hw => by
    rw [h.2.2.2] at hw
    cases hw
  rwa [hnone]

theorem applyChange (h : s.Lit ln g) : s.applyChange.Lit ln g := by
  obtain ⟨hlen, hup, hgap, hwait⟩ := h
  have hnone : ∀ p : Waiting → Bool, s.waiting.filter p = [] := fun p => by
    rw [hwait]
    rfl
  have hstay : ({ s with waiting := [] } : State).applyWaiting .stateChange = { s with waiting := [] } :=
    State.applyWaiting_none fun w hw => nomatch hw
  unfold State.applyChange
  dsimp only
  rw [hnone, hnone, ite_self, hstay]
  exact ⟨hlen, hup, hgap, rfl⟩

theorem convTo {new cause} (h : s.Lit ln g) : (s.convTo new cause).Lit ln g :=
  .unlessThen h fun h => .enter (.applyChange (.leave (.post (.whenThen h .scsEnd))))

theorem goPr (h : s.Lit ln g) : s.goPr.Lit ln g := .answerAll (.convTo h)
theorem goScs (h : s.Lit ln g) : s.goScs.Lit ln g := .answerAll (.convTo h)

/-! ### The beats (R22 to R24) -/

theorem setSigs {a ws} (h : s.Lit ln g) : (s.setSigs a ws).Lit ln g := by
  induction ws generalizing s a with
  | nil => exact h
  | cons w ws ih => exact ih h

theorem setSig {a w} (h : s.Lit ln g) : (s.setSig a w).Lit ln g := h
theorem setSigN {a n} (h : s.Lit ln g) : (s.setSigN a n).Lit ln g := h
theorem setPu {a k x} (h : s.Lit ln g) : (s.setPu a k x).Lit ln g := h

/-! ### The modulator and the frames of the tick (R109, R136) -/

theorem satEvents {arm p} (h : s.Lit ln g) : (s.satEvents arm p).Lit ln g := .whenThen (.whenThen h fun h => .post h) fun h => .post h

theorem storePlans {plans} (h : s.Lit ln g) : (s.storePlans plans).Lit ln g := by
  unfold State.storePlans
  refine .of_eq (s := List.foldl _ _ _) ?_ rfl rfl rfl
  exact .foldl (.foldl h .satEvents) fun h => .foldl h fun h => h

theorem queues {q : Nat → Lane → List Entry} (h : s.Lit ln g) :
    { s with lanes := s.lanes.mapIdx fun n (l : Lane) => { l with queue := q n l } }.Lit ln g := h.mapIdx fun _ _ => rfl

theorem directed (h : s.Lit ln g) : { s with mod := { s.mod with dir := s.directions } }.Lit ln g := h

theorem modulate (h : s.Lit ln g) : s.modulate.1.Lit ln g := by
  unfold State.modulate
  dsimp only
  generalize hplans : (List.range 6).map (fun j =>
    if ({ s with mod := { s.mod with dir := s.directions } } : State).modulating && !_ then _ else _) = plans
  have hstored := h.directed.storePlans (plans := plans)
  generalize State.storePlans _ plans = u at hstored ⊢
  refine .setSigs (.whenThen ?_ fun h => h)
  exact .of_eq (.queues hstored) rfl rfl rfl

/-! ### The units that watch at an edge -/

theorem rideCheck (h : s.Lit ln g) : s.rideCheck.Lit ln g := .whenThen h .post
theorem retire {cell why} (h : s.Lit ln g) : (s.retire cell why).Lit ln g := .post h
theorem retireMarked (h : s.Lit ln g) : s.retireMarked.Lit ln g := .foldl h .retire
theorem rankSignals (h : s.Lit ln g) : s.rankSignals.Lit ln g := .setSigN (.setPu (.setSigs (.setSigs (.setSigs h))))

theorem redundEvents {arm low0 low1 short0 short1} (h : s.Lit ln g) : (s.redundEvents arm low0 low1 short0 short1).Lit ln g := by
  unfold State.redundEvents
  refine .either (.post ?_) (.either (.post ?_) ?_) <;> exact .either (.post h) (.either (.post h) h)

theorem evalRedund (h : s.Lit ln g) : s.evalRedund.Lit ln g := .of_eq (.whenThen h fun h => .foldl h .redundEvents) rfl rfl rfl
theorem rankEdge (h : s.Lit ln g) : s.rankEdge.Lit ln g := by
  have hr : ({ s with cells := s.cells.map Cell.older }.retireMarked).Lit ln g := .retireMarked h
  exact .rankSignals (.evalRedund (.of_eq hr rfl rfl rfl))

theorem windowEdge (h : s.Lit ln g) : s.windowEdge.Lit ln g := .either h h
theorem slipEdge (h : s.Lit ln g) : s.slipEdge.Lit ln g := .either (.post h) (.either h h)
theorem enrgEdge (h : s.Lit ln g) : s.enrgEdge.Lit ln g := .either h h

theorem settingEdge (h : s.Lit ln g) : s.settingEdge.Lit ln g := by
  unfold State.settingEdge
  refine .either ?_ (.either ?_ (.permitLost ?_)) <;>
    exact .whenThen h fun h => .post h

theorem takeInternal (h : s.Lit ln g) : s.takeInternal.Lit ln g := .of_eq h rfl rfl rfl
theorem scsCeilEdge (h : s.Lit ln g) : s.scsCeilEdge.Lit ln g := .of_eq h rfl rfl rfl
theorem dcfEdge (h : s.Lit ln g) : s.dcfEdge.Lit ln g := .of_eq h rfl rfl rfl

theorem edgeUnits (h : s.Lit ln g) : s.edgeUnits.Lit ln g :=
  .slipEdge (.settingEdge (.enrgEdge (.setSigN (.dcfEdge (.scsCeilEdge (.setSigN (.takeInternal (.rideCheck (.rankEdge
    (.windowEdge h))))))))))

/-! ### The angles (R43, R51) -/

theorem gtAngle (h : s.Lit ln g) : s.gtAngle.Lit ln g := .either h h
theorem gtCounts (h : s.Lit ln g) : s.gtCounts.Lit ln g := .of_eq h rfl rfl rfl

/-- The edge moves the tracker's angle and counters, never its state. -/
theorem trackerEdge (h : s.Lit ln g) : s.trackerEdge.Lit ln g := by
  unfold State.trackerEdge
  refine .of_eq (s := ite _ _ _) ?_ rfl rfl rfl
  exact .whenThen (.setSigN (.setSig (.setSig (.setSig (.setSig (.gtCounts (.gtAngle h))))))) .condEvent

theorem phaseEdge (h : s.Lit ln g) : s.phaseEdge.Lit ln g := .of_eq h rfl rfl rfl
theorem schedEdge (h : s.Lit ln g) : s.schedEdge.Lit ln g := .of_eq h rfl rfl rfl
theorem escSignals (h : s.Lit ln g) : s.escSignals.Lit ln g := .of_eq h rfl rfl rfl
theorem edgeAngles (h : s.Lit ln g) : s.edgeAngles.Lit ln g := .escSignals (.schedEdge (.trackerEdge (.phaseEdge h)))

/-! ### What acts at an edge before the converter (R31, R330 to R339, R322 to R326) -/

theorem takeReported (h : s.Lit ln g) : s.takeReported.Lit ln g := .of_eq h rfl rfl rfl
theorem setRole {r} (h : s.Lit ln g) : (s.setRole r).Lit ln g := .either h h
theorem lead (h : s.Lit ln g) : s.lead.Lit ln g := .takeReported (.of_eq h.setRole rfl rfl rfl)
theorem takeCrown {cause} (h : s.Lit ln g) : (s.takeCrown cause).Lit ln g := .post (.map h.lead fun _ => rfl)
theorem crownByIdle (h : s.Lit ln g) : s.crownByIdle.Lit ln g := .whenThen h .takeCrown

theorem takeReqs {rs made} (h : s.Lit ln g) : (State.takeReqs rs made s).Lit ln g := by
  induction rs generalizing s made with
  | nil => exact h
  | cons r rs ih =>
    unfold State.takeReqs
    split
    · exact ih (.answerReq h)
    · exact .either (ih h) (ih (.answerReq (.convTo (.whenThen h .crownByIdle))))

/-- At the boundary the converter first moves of its own accord, then takes the requests in turn (R30, R31). -/
theorem resolve (h : s.Lit ln g) : s.resolve.Lit ln g := by
  unfold State.resolve
  refine .takeReqs (.of_eq (.either (.goPr h) ?_) rfl rfl rfl)
  split
  · exact .convTo h
  · exact .either h <| .either (.goScs h) <| .either (.convTo h) <| .either (.convTo h) <| .either (.convTo h) h

theorem linkBack (h : s.Lit ln g) : s.linkBack.Lit ln g := .whenThen h .post
theorem pairFormed {role} (h : s.Lit ln g) : (s.pairFormed role).Lit ln g := .unlessThen h fun h => .post h
theorem standbyEntries (h : s.Lit ln g) : s.standbyEntries.Lit ln g := .whenThen (.whenThen h .post) .post

theorem pairEdge (h : s.Lit ln g) : s.pairEdge.Lit ln g := by
  refine .unlessThen h fun h => ?_
  have hl : (if s.pair.hbLost && decide (s.sinceHb < hbTicks) then s.linkBack else s).Lit ln g := .whenThen h .linkBack
  exact .unlessThen hl fun hl => .either (.pairFormed (.lead hl)) (.of_eq hl.standbyEntries rfl rfl rfl)

theorem originate (h : s.Lit ln g) : s.originate.Lit ln g := .either h h
theorem formed (h : s.Lit ln g) : s.formed.Lit ln g := .post h
theorem rootStart (h : s.Lit ln g) : s.rootStart.Lit ln g := .whenThen h fun h => .formed h

theorem joinEdge (h : s.Lit ln g) : s.joinEdge.Lit ln g := by
  unfold State.joinEdge
  split
  · exact .whenThen h fun h => .formed h
  · exact h

theorem rootYields {winner} (h : s.Lit ln g) : (s.rootYields winner).Lit ln g := .either h (.post h)

theorem yieldEdge (h : s.Lit ln g) : s.yieldEdge.Lit ln g := by
  unfold State.yieldEdge
  split
  · exact .whenThen h fun h => .rootYields h
  · exact h

theorem trainEdge (h : s.Lit ln g) : s.trainEdge.Lit ln g :=
  .unlessThen h fun h => .originate (.rootStart (.joinEdge (.yieldEdge h)))

theorem signEdge (h : s.Lit ln g) : s.signEdge.Lit ln g := .of_eq h rfl rfl rfl
theorem mirrorOne {n} (h : s.Lit ln g) : (s.mirrorOne n).Lit ln g := .of_eq h rfl rfl rfl
theorem mirrorEdge (h : s.Lit ln g) : s.mirrorEdge.Lit ln g := .signEdge (.foldl h .mirrorOne)

theorem regEdge (h : s.Lit ln g) : s.regEdge.Lit ln g := by
  unfold State.regEdge
  refine .either h ?_
  split
  · exact h
  · exact .either h h

theorem ppsEdge (h : s.Lit ln g) : s.ppsEdge.Lit ln g := .either h h

theorem stepEdge (h : s.Lit ln g) : s.stepEdge.Lit ln g := by
  unfold State.stepEdge
  split
  · exact h
  · exact .post h

theorem applySafety (h : s.Lit ln g) : s.applySafety.Lit ln g := .whenThen h fun h => .of_eq h.applyWaiting rfl rfl rfl
theorem chronoEdge (h : s.Lit ln g) : s.chronoEdge.Lit ln g := .whenThen h .chronoStop
theorem remapKeys (h : s.Lit ln g) : s.remapKeys.Lit ln g := .of_eq h rfl rfl rfl

theorem edgeFirst (h : s.Lit ln g) : s.edgeFirst.Lit ln g :=
  .pairEdge (.trainEdge (.mirrorEdge (.regEdge (.remapKeys (.ppsEdge (.stepEdge (.applySafety (.chronoEdge h))))))))

theorem logWindow (h : s.Lit ln g) : s.logWindow.Lit ln g := by
  unfold State.logWindow
  refine .of_eq (s := List.foldl _ _ _) ?_ rfl rfl rfl
  exact .foldl h fun h => .either h h

theorem logWindowEnd (h : s.Lit ln g) : s.logWindowEnd.Lit ln g := .applyWaiting (.logWindow h)
theorem logGap {from_} (h : s.Lit ln g) : (s.logGap from_).Lit ln g := .whenThen h .logWindowEnd
theorem numberTick (h : s.Lit ln g) : s.numberTick.Lit ln g := .logGap h

end State.Lit
end Sys2Proof.Machine
end

section
/-!
PROOF. The frames of a tick's edge (R136, R150): what each lane sends there, and that the tick keeps it.
-/
namespace Sys2Proof.Machine

/-- What a lane in UP sends at the edge of tick `m`, with `g` ticks left of the gap of a dark test. -/
def UpFrame (ln g m : Nat) (fr : Option DownFrame) : Prop :=
  (g = 0 → ∃ f : DownFrame, fr = some f ∧ f.lane = ln ∧ f.kind = 0 ∧ f.execTick = m + 1 ∧ f.entries.length ≤ 16 ∧ f.crc = f.check) ∧
    (g ≠ 0 → fr = none)

/-- The frame that the edge forms for a lane with the entries `es`, if it sends one. -/
def State.edgeFrame (s : State) (l : Nat) (es : List Entry) : Option DownFrame :=
  if s.framesNow (s.lane l) then some (s.downFrame l (es.take frameEntries)) else none

theorem State.Lit.framesNow {s : State} {ln g : Nat} (h : s.Lit ln g) : s.framesNow (s.lane ln) = decide (g = 0) := by
  obtain ⟨-, hup, hgap, -⟩ := h
  unfold State.framesNow
  rw [hup, hgap]
  simp [LaneState.sends]

theorem State.Lit.edgeFrame {s : State} {ln g : Nat} (h : s.Lit ln g) (es : List Entry) : UpFrame ln g s.tick.now (s.edgeFrame ln es) := by
  have hnow := h.framesNow
  obtain ⟨-, hup, -, -⟩ := h
  unfold State.edgeFrame
  rw [hnow]
  refine ⟨fun hg => ⟨s.downFrame ln (es.take frameEntries), if_pos (decide_eq_true hg), rfl, congrArg LaneState.kind hup, rfl, ?_, rfl⟩,
    fun hg => if_neg (by simpa using hg)⟩
  exact List.length_take_le _ _

/-! ### Entries that spill (R114) -/

theorem State.Frames.spill {s : State} {ln l next : Nat} {fr : Option DownFrame} {late : List (Nat × Nat)} {es : List Entry}
    (h : s.Frames ln fr) : (s.spill l next late es).Frames ln fr := by
  induction es generalizing s late with
  | nil => exact h
  | cons e es ih =>
    unfold State.spill
    dsimp only
    split
    · exact .either (ih h) (ih (setLane (s := State.condEvent _ 59) h fun _ => rfl))
    · exact ih (setLane (s := State.condEvent _ 59) h fun _ => rfl)

theorem State.Lit.spill {s : State} {ln g l next : Nat} {late : List (Nat × Nat)} {es : List Entry} (h : s.Lit ln g) :
    (s.spill l next late es).Lit ln g := by
  induction es generalizing s late with
  | nil => exact h
  | cons e es ih =>
    unfold State.spill
    dsimp only
    split
    · exact .either (ih h) (ih (setLane (s := State.condEvent _ 59) h fun _ => rfl))
    · exact ih (setLane (s := State.condEvent _ 59) h fun _ => rfl)

/-! ### The lanes in turn -/

theorem State.Lit.frameLane {s : State} {ln g l : Nat} {own : List Entry} (h : s.Lit ln g) : (s.frameLane l own).Lit ln g :=
  .spill (h.setLane fun _ => rfl)

/-- Another lane's turn leaves the frame. -/
theorem State.Frames.frameLane {s : State} {ln l : Nat} {own : List Entry} {fr : Option DownFrame} (h : s.Frames ln fr) (hl : ln ≠ l) :
    (s.frameLane l own).Frames ln fr :=
  .spill ((congrArg Lane.tx (s.setLane_other _ hl)).trans h)

/-- A lane's own turn sends its frame. -/
theorem State.Lit.frameLane_own {s : State} {ln g : Nat} (own : List Entry) (h : s.Lit ln g) (hln : ln < 48) :
    ∃ fr, UpFrame ln g s.tick.now fr ∧ (s.frameLane ln own).Frames ln fr := by
  have hlen : ln < s.lanes.length := by rw [h.1]; exact hln
  refine ⟨_, h.edgeFrame (if (s.lane ln).state.carries then inOrder (s.lane ln).queue own else []), .spill ?_⟩
  refine (congrArg Lane.tx (State.setLane_same _ hlen)).trans ?_
  unfold State.edgeFrame
  dsimp only
  split <;> rfl

theorem State.Lit.frameFold {ln g : Nat} (own : Nat → List Entry) (hln : ln < 48) (ls : List Nat) (hd : ls.Nodup) (hm : ln ∈ ls) :
    ∀ {s : State}, s.Lit ln g →
      ∃ fr, UpFrame ln g s.tick.now fr ∧ (ls.foldl (fun s l => s.frameLane l (own l)) s).Frames ln fr := by
  induction ls with
  | nil => cases hm
  | cons k ks ih =>
    intro s h
    obtain ⟨hk, hks⟩ := List.nodup_cons.mp hd
    by_cases he : ln = k
    · subst he
      obtain ⟨fr, hfr, hsent⟩ := h.frameLane_own (own ln) hln
      refine ⟨fr, hfr, List.foldlRecOn ks _ (motive := fun u : State => u.Frames ln fr) hsent fun u hu l hl => hu.frameLane ?_⟩
      rintro rfl
      exact hk hl
    · obtain ⟨fr, hfr, hsent⟩ := ih hks ((List.mem_cons.mp hm).resolve_left he) (h.frameLane (l := k) (own := own k))
      rw [(s.frameLane_frame k (own k)).2.1] at hfr
      exact ⟨fr, hfr, hsent⟩

theorem State.Frames.frameGap {s : State} {ln : Nat} {fr : Option DownFrame} {x : Modulator} (h : s.Frames ln fr) :
    { s with mod := x }.Frames ln fr := h

theorem State.Frames.laneTick {s : State} {ln : Nat} {fr : Option DownFrame} (h : s.Frames ln fr) :
    { s with lanes := s.lanes.map Lane.tickEdge }.Frames ln fr := by
  refine (map_view Lane.tx Lane.tickEdge (fun x => ?_) s.lanes ln {}).trans h
  unfold Lane.tickEdge
  dsimp only
  split
  · rfl
  · split <;> rfl

theorem State.Lit.frameLanes {s : State} {ln g : Nat} (out : List Entry) (h : s.Lit ln g) (hln : ln < 48) :
    ∃ fr, UpFrame ln g s.tick.now fr ∧ (s.frameLanes out).Frames ln fr := by
  have hd : (List.range 48).Nodup := List.nodup_range
  have hm : ln ∈ List.range 48 := List.mem_range.mpr hln
  unfold State.frameLanes
  generalize List.range 48 = ls at hd hm
  obtain ⟨fr, hfr, hsent⟩ := frameFold (fun l => out.filter fun e => e.cell / 64 = l) hln ls hd hm h
  refine ⟨fr, hfr, ?_⟩
  exact .of_eq hsent rfl

theorem State.Lit.edgeFrames {s : State} {ln g : Nat} (h : s.Lit ln g) (hln : ln < 48) :
    ∃ fr, UpFrame ln g s.tick.now fr ∧ s.edgeFrames.Frames ln fr := by
  obtain ⟨fr, hfr, hsent⟩ := h.modulate.frameLanes s.modulate.2 hln
  rw [s.modulate_frame.2.1] at hfr
  refine ⟨fr, hfr, ?_⟩
  unfold State.edgeFrames State.condSignals
  dsimp only
  generalize s.modulate.1.frameLanes s.modulate.2 = u at hsent
  exact .setSigs hsent.laneTick

/-! ### The edge and its tick -/

theorem State.numberTick_now (s : State) : s.numberTick.tick.now = s.tick.next := congrArg Tick.now (State.logGap_frame _ _).2

/-- An edge sends on every lane in UP the frame of the tick it numbers. -/
theorem State.Lit.atEdge {s : State} {ln g : Nat} (h : s.Lit ln g) (hln : ln < 48) :
    ∃ fr, UpFrame ln g s.tick.next fr ∧ s.atEdge.Frames ln fr := by
  obtain ⟨fr, hfr, hsent⟩ := h.numberTick.edgeFirst.resolve.edgeAngles.edgeUnits.edgeFrames hln
  rw [(State.edgeUnits_frame _).2, (State.edgeAngles_frame _).2.1, (State.resolve_frame _).2, (State.edgeFirst_frame _).2,
    s.numberTick_now] at hfr
  exact ⟨fr, hfr, hsent⟩

/-! ### The obligation -/

/-- An edge of a module out of reset runs its tick, where the outputs are not gated off. -/
theorem exec_tickEdge {s : State} {x : TickInputs} (hw : Instr.wf (.tickEdge x) = true) (hr : s.pwr.inReset = false) :
    exec (.tickEdge x) s = .next ((s.clearOut.whenDue true fun s => s.tickAll x).settle s.ticking) :=
  exec_runSafe (E := fun s => s.whenDue true fun s => s.tickAll x) hr
    (congrArg (fun ok => runSafe ok s fun s => s.whenDue true fun s => s.tickAll x) hw)

theorem exec_tickEdge_running {s : State} {x : TickInputs} (hw : Instr.wf (.tickEdge x) = true) (hr : s.pwr.inReset = false)
    (hg : s.reg.gated = false) : exec (.tickEdge x) s = .next ((s.clearOut.tickAll x).settle s.ticking) := by
  have hdue : (s.clearOut.ticking && true) = true := by
    rw [Bool.and_true]
    exact congrArg (!·) hg
  have hrun : (s.clearOut.whenDue true fun s => s.tickAll x) = s.clearOut.tickAll x := if_pos hdue
  rw [exec_tickEdge hw hr, hrun]

theorem exec_tickEdge_gated {s : State} {x : TickInputs} (hw : Instr.wf (.tickEdge x) = true) (hr : s.pwr.inReset = false)
    (hg : s.reg.gated = true) : exec (.tickEdge x) s = .next (s.clearOut.settle false) := by
  have hoff : s.ticking = false := congrArg (!·) hg
  have hdue : ¬(s.clearOut.ticking && true) = true := by
    rw [Bool.and_true]
    exact Bool.eq_false_iff.mp hoff
  have hidle : (s.clearOut.whenDue true fun s => s.tickAll x) = s.clearOut := if_neg hdue
  rw [exec_tickEdge hw hr, hidle, hoff]

/-- A tick numbers itself, whatever follows its edge. -/
theorem State.tickAll_settle_tick (s : State) (x : TickInputs) (b : Bool) :
    ((s.tickAll x).settle b).tick.now = s.tick.next ∧ ((s.tickAll x).settle b).tick.started = true ∧
      ((s.tickAll x).settle b).tick.now < ((s.tickAll x).settle b).tick.next := by
  obtain ⟨hnow, hstarted, hnext⟩ := s.tickAll_stays x
  rw [((s.tickAll x).settle_frame b).2]
  refine ⟨hnow, hstarted, ?_⟩
  rw [hnow]
  obtain hnext | hnext := hnext
  · rw [hnext]
    exact Nat.lt_succ_self _
  · exact hnext

/-- Settles O7: an edge numbers its tick (`State.tickAll_stays`), every lane in UP is still so when its turn to send comes (`State.Lit`), and
nothing after the edge rewrites the frame (`State.Frames`). -/
theorem tickEdgeNumbersItsTick : Obligations.TickEdgeNumbersItsTick := by
  unfold Obligations.TickEdgeNumbersItsTick
  intro s x hw hr
  refine ⟨fun hg => ?_, fun hg hlen hwait l hl hup => ?_, fun hg hwait => ?_⟩
  · have hexec := exec_tickEdge_running hw hr hg
    obtain ⟨hnow, hstarted, hnext⟩ := s.clearOut.tickAll_settle_tick x s.ticking
    exact ⟨_, hexec, hnow, hstarted, hnext, (exec_next hexec).1.pending⟩
  · have hlit : s.clearOut.Lit l s.mod.gap := ⟨hlen, hup, rfl, hwait⟩
    obtain ⟨fr, ⟨hframe, hnone⟩, hsent⟩ := hlit.atEdge hl
    have htx : ((s.clearOut.tickAll x).settle s.ticking).Frames l fr := .settle (.endTick (.beats hsent))
    obtain rfl := htx
    exact ⟨_, exec_tickEdge_running hw hr hg, hframe, hnone⟩
  · have hwaits : s.clearOut.NoneWaits := hwait
    have hexec := exec_tickEdge_gated hw hr hg
    obtain ⟨w, hw⟩ := State.settle_offDemand hwaits
    have hobjs := congrArg State.objs hw
    exact ⟨_, hexec, (State.settle_keeps hwaits false).1, hobjs, (exec_next hexec).1.pending⟩

end Sys2Proof.Machine
end
